-- ==== Sys2Proof/Word.lean ====
section
/-! DEFINITION. The words of BXK-S64: bit vectors of the manual's widths, and plain field access.
R6: bit 0 is the least significant bit of any field and a range [msb:lsb] includes both ends. -/

namespace Sys2Proof

/-- One byte. -/
abbrev Byte := BitVec 8
/-- A 16-bit quantity. -/
abbrev W16 := BitVec 16
/-- A 32-bit quantity, such as a packet word or a vector register lane. -/
abbrev W32 := BitVec 32
/-- A 64-bit quantity, such as a register or an instruction word. -/
abbrev W64 := BitVec 64

/-- A sparse table: entries by number. A number with no entry holds the reset value of its type. -/
abbrev Tbl (α : Type) := List (Nat × α)

/-- Field `[msb:lsb]` of a number read as bits (R6). -/
def bits (x msb lsb : Nat) : Nat := (x / 2 ^ lsb) % 2 ^ (msb + 1 - lsb)

/-- Bit `i` of a number. -/
def bit (x i : Nat) : Bool := x / 2 ^ i % 2 = 1

/-- An exact value: NaN, an infinity, or (-1)^neg · m · 2^e (spec/02). -/
inductive Fl where
  | nan
  | inf (neg : Bool)
  | fin (neg : Bool) (m : Nat) (e : Int)
  deriving DecidableEq, Repr, Inhabited

/-- Plus zero. -/
def Fl.zero : Fl := .fin false 0 0

end Sys2Proof
end

