-- ==== Sys2Proof/Syntax.lean ====
section
/-! DEFINITION. The commands and events BXK-S64 takes, one constructor for each row of the opcode table, and the
operands they carry. A command names the unit that acts and the outside values that arrive with it; everything the
device holds itself is in Machine/State.lean. -/

namespace Sys2Proof

/-- Where a command packet arrives (R4, R377, R404). A packet of a host function stands in the command slot it was
committed in; a packet of the management port travels whole in one message of a secured session. -/
inductive PktSrc where
  /-- Slot `k` of function `fn`: 0 is PF0, n is VF n. -/
  | slot (fn : Fin 65) (k : Fin 8)
  /-- The message of one management session: the packet's words, header first. -/
  | mgmt (session : Fin 4) (words : List W32)
  deriving DecidableEq, Repr

/-- A base address register of a host function that the driver may write (Table HST-2). -/
inductive Bar where
  | bar0 | bar2 | bar4
  deriving DecidableEq, Repr

/-- The MetaValue of a CXL.mem MemRd (R233). -/
inductive MetaValue where
  | invalid | any | shared
  deriving DecidableEq, Repr

/-- One core L1: stall and core (Table TGC-1). -/
structure L1Id where
  stall : Fin 64
  core : Fin 12
  deriving DecidableEq, Repr, Inhabited

/-- One group slot of one core (R174). -/
structure GroupRef where
  stall : Fin 64
  core : Fin 12
  slot : Fin 64
  deriving DecidableEq, Repr, Inhabited

/-- A requester without a cache, or a core as the sender of an atomic or a discard (Table UCC-2, R224). -/
inductive Agent where
  | core (l1 : L1Id)
  | feeder (s : Fin 64) (mvu : Bool)
  | loader (s : Fin 64)
  | porter (s : Fin 64) (channel : Fin 2)
  | link (j : Fin 12)
  | host
  | dataPort
  deriving DecidableEq, Repr

/-- The operation of an atomic (Table TGC-7). -/
inductive AtomOp where
  | add | min | max | and | or | xor | exch | cas
  deriving DecidableEq, Repr

/-- The type of an atomic (Table TGC-7). -/
inductive AtomType where
  | u32 | s32 | u64 | s64 | f32
  deriving DecidableEq, Repr

/-- One lane's part of an atomic request: byte offset in the line, operand and compare value (R191, R192). -/
structure AtomLane where
  lane : Fin 32
  offset : Fin 1024
  operand : W64
  compare : W64
  deriving DecidableEq, Repr

/-- One atomic request at a home: the line, the operation, the lanes in ascending order, and the source fields
under which the ledger logs it (R191, R302, Table CHK-4). -/
structure AtomRequest where
  home : Fin 64
  line : BitVec 47
  op : AtomOp
  type : AtomType
  lanes : List AtomLane
  agent : Agent
  srcDevice : BitVec 12
  srcPartition : Fin 64
  unit : BitVec 31
  kernel : Bool
  seq : W64
  deriving DecidableEq, Repr

/-- Who reads a burst of stacked memory (R280, R285): a view inside the partition, or an outside observer. -/
inductive BurstReader where
  | feeder (s : Fin 64) (mvu : Bool)
  | insider (p : Fin 64)
  | host
  | porter (p : Fin 64)
  | remote (device : BitVec 12)
  | firmware
  deriving DecidableEq, Repr

/-- A hardware error that a check of an engine or a matrix-vector unit finds (Table CHK-2). -/
inductive EngineError where
  | checksum | carryParity | outputResidue
  deriving DecidableEq, Repr

/-- The fields of a flooded unit symbol: source device, partition, unit and attempt (Table ZLK-3). -/
structure UnitToken where
  device : BitVec 12
  partition : Fin 64
  unit : BitVec 31
  attempt : Fin 4
  deriving DecidableEq, Repr

/-- A received Zuloilo frame (R324, Table ZLK-2): header fields, slots, what the line code corrected, and whether a
codeword was uncorrectable. The generator of the RS code is not stated, so its outcome is an operand. -/
structure Frame where
  seq : W32
  /-- For each of the 25 slots its kind: 0 empty, 1 stream flit, 2 item slot, 3 reserved. -/
  kinds : List (Fin 4)
  marks : List Byte
  ctrl0 : W64
  ctrl1 : W64
  slots : List (List Byte)
  crc : W32
  corrected : Nat
  uncorrectable : Bool
  deriving DecidableEq, Repr

/-- A Zuloilo item (R328, Table ZLK-4); the arriving row fixes its TYPE. -/
structure Item where
  srcDevice : BitVec 12
  dstDevice : BitVec 12
  srcPartition : Fin 64
  attempt : Fin 4
  kernel : Bool
  unit : BitVec 31
  seq : W64
  address : BitVec 44
  operand : W64
  byteCount : W32
  lanes : List AtomLane
  data : List Byte
  deriving DecidableEq, Repr

/-- What Scales reads in one microsecond (R452): powers in milliwatts, the supply in millivolts. -/
structure PowerSample where
  vinMillivolt : Nat
  packageMilliwatt : Nat
  dieMilliwatt : List Nat
  hubMilliwatt : Nat
  stallMilliwatt : List Nat
  /-- The LSM board-rail estimate charged to partition p on die d, at 4 · p + d. -/
  lsmMilliwatt : List Nat
  deriving DecidableEq, Repr

/-- What the outside and the silicon supply to a cold boot (R498, R500): straps, coolant, the flash device, PLL lock,
channel training, the intact fuse copies' vote and the companion sites found. -/
structure BootInputs where
  strap : BitVec 4
  flashResponds : Bool
  pllsLock : Bool
  fuseMajority : Bool
  failedChannels : List (Fin 512)
  /-- For each site: none empty, some none failed, some (some (modules, rate, flit256, units)) present. -/
  sites : List (Option (Option (Nat × Nat × Bool × Nat)))
  deriving DecidableEq, Repr

/-- How three redundant copies stand when they are voted: which are intact, and which pairs are equal (Table CHK-6). -/
structure CopyView where
  intact0 : Bool
  intact1 : Bool
  intact2 : Bool
  equal01 : Bool
  equal02 : Bool
  equal12 : Bool
  deriving DecidableEq, Repr

/-- The signatures of one stall's self-test and the golden values the firmware compares them with (R513). -/
structure BistOutcome where
  stall : Fin 64
  logicMisr : W64
  logicGolden : W64
  memoryMisr : W64
  memoryGolden : W64
  deriving DecidableEq, Repr


/-- The commands and events of the device, one constructor for each row of the opcode table
(spec/opcode_table.json), in the table's order. -/
inductive Instr where
  /-- NOP (R387): Command packet that does nothing and replies OK. -/
  | nop (src : PktSrc)
  /-- GET_INFO (R389): Command that writes the 256-byte GET_INFO block and replies. -/
  | getInfo (src : PktSrc)
  /-- SET_REPLY_RING (R383): Command that sets a function's reply ring base and size and writes its own reply as entry 0. -/
  | setReplyRing (src : PktSrc)
  /-- INVALID_OPCODE_PACKET (R380): A committed packet whose opcode is not in Table HST-8 is refused with BAD_OPCODE after the earlier checks. -/
  | invalidOpcodePacket (src : PktSrc)
  /-- QUEUE_SUBMIT (R390): Command that appends a list to one of the partition's five queues. -/
  | queueSubmit (src : PktSrc)
  /-- QUEUE_HALT (R391): QUEUE_HALT with ACTION HALT stops each masked queue at the end of its entry in progress. -/
  | queueHalt (src : PktSrc)
  /-- QUEUE_RESUME (R391): QUEUE_HALT with ACTION RESUME restarts a halted queue, moving past a refused or failed entry. -/
  | queueResume (src : PktSrc)
  /-- QUEUE_FLUSH (R391): QUEUE_HALT with ACTION FLUSH halts the queue and aborts the pending entry and every queued list. -/
  | queueFlush (src : PktSrc)
  /-- QUEUE_STATUS (R392): Command that writes the queue status block. -/
  | queueStatus (src : PktSrc)
  /-- JOB_START (R163): Command that checks the held plan against the pitch record and starts the partition's job. -/
  | jobStart (src : PktSrc)
  /-- JOB_END (R170): Command that ends the job at the first eligible COMMIT bell or pre-emption point. -/
  | jobEnd (src : PktSrc)
  /-- PORT_COPY (R394): Command that runs a Porter copy outside the PORT queue and replies when complete. -/
  | portCopy (src : PktSrc)
  /-- PIN_LINES (R237): Command that pins a range of lines, or is refused as a whole. -/
  | pinLines (src : PktSrc)
  /-- UNPIN_LINES (R237): Command that clears the pin mark of a range of lines. -/
  | unpinLines (src : PktSrc)
  /-- DISCARD_LINES (R231): Command that drops a range of lines without writeback once no commit unit is in progress. -/
  | discardLines (src : PktSrc)
  /-- SESSION_OPEN (R358): Command that makes an unused session entry IDLE, subject to admission. -/
  | sessionOpen (src : PktSrc)
  /-- SESSION_APPEND (R359): Command that raises AVAIL, LIMIT, KV_PAGES or the deadline of a session and moves its state. -/
  | sessionAppend (src : PktSrc)
  /-- SESSION_CLOSE (R357): Command that makes a session entry unused, after its step if RUNNING. -/
  | sessionClose (src : PktSrc)
  /-- SESSION_QUERY (R358): Command that writes a session entry and the session clock to OUT. -/
  | sessionQuery (src : PktSrc)
  /-- PARTITION_CREATE (R409): Command that checks a pitch record and creates a partition with its grants. -/
  | partitionCreate (src : PktSrc)
  /-- PARTITION_DESTROY (R423): Command that resets a partition and releases all its resources. -/
  | partitionDestroy (src : PktSrc)
  /-- PARTITION_RESET (R420): Command that squashes a partition's work, purges its keys and scrubs its resources. -/
  | partitionReset (src : PktSrc)
  /-- PARTITION_SET_LEASE (R416): Command that sets or removes a partition's lease and resumes a pre-empted job. -/
  | partitionSetLease (src : PktSrc)
  /-- DIRTY_LOG_START (R424): DIRTY_LOG_CONTROL action START begins logging dirty pages of one space into a bitmap. -/
  | dirtyLogStart (src : PktSrc)
  /-- DIRTY_LOG_COLLECT (R424): DIRTY_LOG_CONTROL action COLLECT completes the old bitmap and switches to a new one. -/
  | dirtyLogCollect (src : PktSrc)
  /-- DIRTY_LOG_STOP (R424): DIRTY_LOG_CONTROL action STOP completes the current bitmap and ends logging. -/
  | dirtyLogStop (src : PktSrc)
  /-- POWER_SET_CAP (R473): Command that sets the device's sustained power cap. -/
  | powerSetCap (src : PktSrc)
  /-- POWER_SET_MODE (R474): Command that sets a partition's power mode FIXED or BOOST. -/
  | powerSetMode (src : PktSrc)
  /-- POWER_STATE_RUN (R480): POWER_STATE with STATE RUN, which acts as the coolant-stop restart command of R472. -/
  | powerStateRun (src : PktSrc)
  /-- POWER_STATE_IDLE (R481): POWER_STATE with STATE IDLE clock-gates every stall domain. -/
  | powerStateIdle (src : PktSrc)
  /-- POWER_STATE_SLEEP (R481): POWER_STATE with STATE SLEEP stops the die PLLs and puts memory in self-refresh. -/
  | powerStateSleep (src : PktSrc)
  /-- POWER_STATE_DEEP (R482): POWER_STATE with STATE DEEP writes back, purges keys and brings down all but retained rails. -/
  | powerStateDeep (src : PktSrc)
  /-- POWER_STATE_OFF (R482): POWER_STATE with STATE OFF leaves only the always-on domain powered. -/
  | powerStateOff (src : PktSrc)
  /-- TELEMETRY_READ (R475): Command that writes the device or partition telemetry block. -/
  | telemetryRead (src : PktSrc)
  /-- ATTEST_PARTITION (R436): Command that makes a new evidence key pair and writes the signed evidence block. -/
  | attestPartition (src : PktSrc)
  /-- KEY_INSTALL (R441): Command that unwraps a weight key and installs it, at once or pending, in a key slot. -/
  | keyInstall (src : PktSrc)
  /-- KEY_PURGE (R86): Command that clears key slots in every feeder of the partition. -/
  | keyPurge (src : PktSrc)
  /-- OWNER_PROVISION_TAKE (R433): OWNER_PROVISION action TAKE makes an unowned device owned by a key. -/
  | ownerProvisionTake (src : PktSrc)
  /-- OWNER_PROVISION_TRANSFER (R433): OWNER_PROVISION action TRANSFER replaces the owner key and ends old sessions. -/
  | ownerProvisionTransfer (src : PktSrc)
  /-- OWNER_PROVISION_RELEASE (R433): OWNER_PROVISION action RELEASE makes the device unowned when no partition exists. -/
  | ownerProvisionRelease (src : PktSrc)
  /-- BIST_RUN (R512): Command that queues logic and memory BIST on named unassigned stalls. -/
  | bistRun (src : PktSrc)
  /-- BIST_RESULT (R514): Command that returns the BIST result block of one stall. -/
  | bistResult (src : PktSrc)
  /-- FW_UPDATE_BEGIN (R503): Command that takes an update buffer in memory for a new firmware image. -/
  | fwUpdateBegin (src : PktSrc)
  /-- FW_UPDATE_DATA (R504): Command that writes image data into the update buffer. -/
  | fwUpdateData (src : PktSrc)
  /-- FW_UPDATE_COMMIT (R505): Command that verifies the buffered image and programs it into flash. -/
  | fwUpdateCommit (src : PktSrc)
  /-- TALLY_CONFIG (R517): Command that clears tallies and sets the dead-read trap, trace classes and sampling. -/
  | tallyConfig (src : PktSrc)
  /-- TRACE_STOP (R519): TRACE_CONTROL action STOP stops tracing. -/
  | traceStop (src : PktSrc)
  /-- TRACE_START (R519): TRACE_CONTROL action START begins tracing into the owned buffer. -/
  | traceStart (src : PktSrc)
  /-- TRACE_READ (R519): TRACE_CONTROL action READ returns 1,024 bytes of the trace buffer. -/
  | traceRead (src : PktSrc)
  /-- TRACE_CLEAR (R519): TRACE_CONTROL action CLEAR resets the trace buffer. -/
  | traceClear (src : PktSrc)
  /-- DEBUG_HALT (R521): DEBUG_HALT with ACTION HALT stops every domain, core, Porter and step of a partition. -/
  | debugHalt (src : PktSrc)
  /-- DEBUG_RELEASE (R521): DEBUG_HALT with ACTION RELEASE resumes a halted partition. -/
  | debugRelease (src : PktSrc)
  /-- LINK_CONFIG (R330): Command that enables Zuloilo ports and sets GROUP_ID. -/
  | linkConfig (src : PktSrc)
  /-- LINK_STATUS (R387): Command that writes the link status registers to OUT. -/
  | linkStatus (src : PktSrc)
  /-- CHAIN_ENUMERATE (R331): Command that numbers the devices of a group with ENUM symbols. -/
  | chainEnumerate (src : PktSrc)
  /-- RESOURCE_CLAIM (R520): RESOURCE_CLAIM action claim takes a free shared resource for one use. -/
  | resourceClaim (src : PktSrc)
  /-- RESOURCE_RELEASE (R520): RESOURCE_CLAIM action release frees a shared resource held by the claiming port. -/
  | resourceRelease (src : PktSrc)
  /-- PLAN_LOAD (R166): PLAN queue entry that reads, validates, holds and hashes a plan image. -/
  | planLoad (p : Fin 64)
  /-- PLAN_UNLOAD (R167): PLAN queue entry that releases the held plan and purges keys. -/
  | planUnload (p : Fin 64)
  /-- PLAN_RUN (R168): PLAN queue entry that, once its wait is met, runs a range of bell entries and signals. -/
  | planRun (p : Fin 64)
  /-- LAUNCH (R200): LAUNCH queue entry that, once its wait is met, starts a kernel over the named cores. -/
  | launch (p : Fin 64)
  /-- COPY (R395): PORT queue entry that runs a Porter copy and signals. -/
  | copy (p : Fin 64)
  /-- SERVE (R360): SESSION queue entry under which the session engine runs steps. -/
  | serve (p : Fin 64)
  /-- SYNC_WAIT (R396): SYNC entry that waits until a semaphore meets its condition. -/
  | syncWait (p : Fin 64)
  /-- SYNC_SIGNAL (R396): SYNC entry that writes a semaphore as a SYSTEM-scope release. -/
  | syncSignal (p : Fin 64)
  /-- SYNC_ADD (R396): SYNC entry that adds to a semaphore atomically at its home. -/
  | syncAdd (p : Fin 64)
  /-- SYNC_NOTIFY (R396): SYNC entry that writes a NOTIFY device event. -/
  | syncNotify (p : Fin 64)
  /-- QUEUE_WAIT_TIMEOUT (R168): The wait timeout of a PLAN_RUN, LAUNCH or SYNC WAIT entry expires and the entry fails with TIMEOUT. -/
  | queueWaitTimeout (p : Fin 64) (queue : Fin 5)
  /-- SLOT_WRITE (R377): A host write to a command slot stores parameters, or is ignored and sets OVERRUN when the slot is not free. -/
  | slotWrite (fn : Fin 65) (k : Fin 8) (offset : BitVec 12) (data : List Byte)
  /-- REGISTER_WRITE (R372): A write to a BAR or window register without behaviour of its own is applied by its access code or ignored. -/
  | registerWrite (fn : Fin 65) (bar : Bar) (offset : BitVec 28) (wide : Bool) (value : W64)
  /-- RING_HEAD_WRITE (R383): A driver write to RING_HEAD frees ring room and lets waiting replies and events be written. -/
  | ringHeadWrite (fn : Fin 65) (value : W64)
  /-- INT_CTRL_WRITE (R401): A write to INT_CTRL that clears a mask bit sends MSI-X for causes already set. -/
  | intCtrlWrite (fn : Fin 65) (value : W64)
  /-- INT_CAUSE_WRITE (R401): A W1C write to INT_CAUSE clears interrupt causes. -/
  | intCauseWrite (fn : Fin 65) (value : W64)
  /-- HWIN_WRITE (R375): A PF0 write to HWIN_WIN or HWIN_HOST is applied or ignored with HWIN_REFUSED. -/
  | hwinWrite (p : Fin 64) (r : Fin 8) (host : Bool) (value : W64)
  /-- DP_ADDR_WRITE (R399): A write to DP_ADDR sets the data-port address and discards read-ahead and cached translations. -/
  | dpAddrWrite (p : Fin 64) (value : W64)
  /-- DP_ADDR_READ (R399): A read of DP_ADDR completes only after every earlier data-port write is performed. -/
  | dpAddrRead (p : Fin 64)
  /-- DP_CTRL_WRITE (R398): A write to DP_CTRL sets HOLD and PREFETCH and discards read-ahead. -/
  | dpCtrlWrite (p : Fin 64) (value : W64)
  /-- DATA_PORT_WRITE (R398): A VF BAR2 write moves bytes into partition memory at DP_ADDR line by line. -/
  | dataPortWrite (p : Fin 64) (data : List (Option Byte))
  /-- DATA_PORT_READ (R398): A VF BAR2 read returns committed bytes from DP_ADDR line by line. -/
  | dataPortRead (p : Fin 64) (count : Nat)
  /-- REFILL_DONE (R284): A write of 1 to LSM_REFILL.DONE ends refill wait and starts the replay. -/
  | refillDone (p : Fin 64)
  /-- CONFIGURATION_REQUEST (R370): A host configuration request is answered, with Retry Status until firmware is ready. -/
  | configurationRequest (fn : Fin 65) (write : Bool) (register : BitVec 12) (value : W32)
  /-- MEMRD (R233): A host CXL.mem MemRd reads a cacheline at its home, setting HOST or as a snapshot. -/
  | memrd (address : BitVec 44) (metaValue : MetaValue)
  /-- MEMWR (R234): A host CXL.mem MemWr merges a cacheline into the slice, waiting at a staged line. -/
  | memwr (address : BitVec 44) (data : List Byte)
  /-- BIRSP (R233): A host back-invalidation response arrives and lets the home clear HOST and proceed. -/
  | birsp (address : BitVec 44)
  /-- HOST_SNOOP (R369): A host-to-device CXL.cache snoop is answered RspIHitI. -/
  | hostSnoop (hpa : BitVec 52)
  /-- FLR_VF (R402): Function level reset of a VF discards its packets and resets its partition. -/
  | flrVf (p : Fin 64)
  /-- FLR_PF0 (R402): Function level reset of PF0 resets its own state and stops host dirty logging. -/
  | flrPf0
  /-- PERST_N_ASSERT (R402): PERST_N ends every job, resets every partition and clears HWIN and function state. -/
  | perstNAssert
  /-- GET_MEASUREMENTS (R438): An SPDM GET_MEASUREMENTS on a function's DOE mailbox returns measurement blocks. -/
  | getMeasurements (fn : Fin 65) (block : BitVec 8)
  /-- KEY_EXCHANGE (R432): An SPDM key exchange on the management port opens a secured session, with mutual authentication when owned. -/
  | keyExchange (ownerProof : Bool)
  /-- MANAGEMENT_SESSION_TIMEOUT (R432): A management session with no traffic for 90 s ends. -/
  | managementSessionTimeout (session : Fin 4)
  /-- RD_S (R221): An L1 read for S arrives at the home, joining or opening a combining window. -/
  | rdS (p : Fin 64) (l1 : L1Id) (line : BitVec 47)
  /-- RD_U (R218): An L1 read for ownership arrives at the home. -/
  | rdU (p : Fin 64) (l1 : L1Id) (line : BitVec 47)
  /-- UPG (R218): An L1 upgrade from S to M arrives at the home. -/
  | upg (p : Fin 64) (l1 : L1Id) (line : BitVec 47)
  /-- RD_NA (R224): A non-allocating snooping read arrives at the home and returns a snapshot. -/
  | rdNa (p : Fin 64) (agent : Agent) (line : BitVec 47) (sectors : BitVec 4) (retain : Bool)
  /-- WRL (R225): A whole-sector write without an L1 arrives at the home and is staged. -/
  | wrl (p : Fin 64) (agent : Agent) (line : BitVec 47) (cells : List (Fin 1024 × Byte))
  /-- ATOM (R191): An atomic request arrives at the home, is performed lane by lane and logged in the ledger. -/
  | atom (req : AtomRequest)
  /-- DISC (R231): A discard of a line arrives at the home. -/
  | disc (p : Fin 64) (agent : Agent) (line : BitVec 47)
  /-- WB (R223): A writeback of dirty sectors arrives at the home and is written into the slice. -/
  | wb (p : Fin 64) (l1 : L1Id) (line : BitVec 47)
  /-- SNP_INV (R222): An invalidating snoop arrives at an L1. -/
  | snpInv (p : Fin 64) (l1 : L1Id) (line : BitVec 47)
  /-- SNP_DOWN (R222): A downgrading snoop arrives at an L1. -/
  | snpDown (p : Fin 64) (l1 : L1Id) (line : BitVec 47)
  /-- SNP_SNAP (R224): A snapshot snoop arrives at an L1 that keeps its state. -/
  | snpSnap (p : Fin 64) (l1 : L1Id) (line : BitVec 47)
  /-- RSP_ACK (R220): A snoop response without data arrives at the home. -/
  | rspAck (p : Fin 64) (l1 : L1Id) (line : BitVec 47)
  /-- RSP_DATA (R220): A snoop response with data arrives at the home. -/
  | rspData (p : Fin 64) (l1 : L1Id) (line : BitVec 47)
  /-- RSP_NP (R222): A not-present snoop response arrives and the home clears the filter entry. -/
  | rspNp (p : Fin 64) (l1 : L1Id) (line : BitVec 47)
  /-- RSP_WBP (R223): A writeback-pending snoop response arrives and the home waits for that WB. -/
  | rspWbp (p : Fin 64) (l1 : L1Id) (line : BitVec 47)
  /-- DATA_S (R218): A fill granting S arrives at the requesting L1. -/
  | dataS (p : Fin 64) (l1 : L1Id) (line : BitVec 47)
  /-- DATA_E (R218): A fill granting E arrives at the requesting L1. -/
  | dataE (p : Fin 64) (l1 : L1Id) (line : BitVec 47)
  /-- DATA_M (R218): A fill granting M arrives at the requesting L1. -/
  | dataM (p : Fin 64) (l1 : L1Id) (line : BitVec 47)
  /-- DATA_NA (R224): Data of a non-allocating read arrives at its requester. -/
  | dataNa (p : Fin 64) (agent : Agent) (line : BitVec 47)
  /-- ACK (R220): The home's acknowledgement of UPG, WRL, DISC or ATOM arrives at the requester. -/
  | ack (p : Fin 64) (agent : Agent) (line : BitVec 47)
  /-- WB_ACK (R223): The home's acceptance of a writeback arrives at the L1. -/
  | wbAck (p : Fin 64) (l1 : L1Id) (line : BitVec 47)
  /-- COMBINING_WINDOW_CLOSE (R221): A 64-cycle combining window of a missed line closes. -/
  | combiningWindowClose (p : Fin 64) (line : BitVec 47)
  /-- LSM_READ_RETURN (R278): Burst data returns from a channel and is checked, reissued or declared a persistent failure. -/
  | lsmReadReturn (burst : BitVec 32) (reader : BurstReader) (flips : List (Fin 64 × Fin 18))
  /-- BASE_DIE_WRITE_ERROR (R278): The base die reports a write parity error and the controller reissues the write. -/
  | baseDieWriteError (burst : BitVec 32)
  /-- REFRESH (R273): A bank's refresh interval slot comes due and a refresh command is issued. -/
  | refresh (channel : Fin 512) (bank : Fin 32)
  /-- CHANNEL_RECALIBRATE (R274): A channel's 50 ms recalibration comes due. -/
  | channelRecalibrate (channel : Fin 512)
  /-- CHANNEL_RETRAIN (R275): Sixteen retries within 1 ms make a channel retrain, or fail. -/
  | channelRetrain (channel : Fin 512) (succeeds : Bool)
  /-- STACK_TEMP_REPORT (R287): A stack's 100 µs temperature report applies or removes thermal bubbles and stops activations at 95 °C. -/
  | stackTempReport (stack : Fin 8) (celsius : BitVec 8)
  /-- REFILL_TIMEOUT (R283): A refill wait lasting 100 ms without DONE ends the job with TIMEOUT. -/
  | refillTimeout (p : Fin 64)
  /-- DOMAIN_TICK (R117): A cycle of a scheduled domain, taken or withheld, in which its engines, routers, ports and crossings act. -/
  | domainTick (p : Fin 64) (d : Fin 4)
  /-- FEEDER_LINE_ARRIVAL (R79): A fetched weight line or tag arrives in the feeder buffer. -/
  | feederLineArrival (s : Fin 64) (mvu : Bool) (poisoned : Bool)
  /-- TAG_CHECK (R83): A weight block's GCM tag is compared and the block is verified or marked a detected error. -/
  | tagCheck (s : Fin 64) (mvu : Bool)
  /-- CHECKSUM_VERDICT (R76): The checksum comparison verdict for an engine output word is reached. -/
  | checksumVerdict (s : Fin 64) (error : Option EngineError)
  /-- RESIDUE_VERDICT (R109): The residue check verdict for an MVU output word is reached. -/
  | residueVerdict (s : Fin 64) (error : Option EngineError)
  /-- PART_PAGED (R148): Paging of the next epoch's part into schedule memory completes. -/
  | partPaged (p : Fin 64) (s : Fin 64)
  /-- BELL (R157): Once every READY is seen, the bell commits or replays the epoch and starts the next. -/
  | bell (p : Fin 64)
  /-- STAGE_BELL (R300): Once every domain has stopped on a stage request, staged lines are discarded and the epoch restarts in wide staging. -/
  | stageBell (p : Fin 64)
  /-- SESSION_STEP (R361): The session engine gathers a batch, writes the step record and runs a step range. -/
  | sessionStep (p : Fin 64)
  /-- CTL_NOP (R180): Control instruction NOP. -/
  | ctlNop (g : GroupRef) (w : W64)
  /-- BRA (R180): Branch of all active lanes. -/
  | bra (g : GroupRef) (w : W64)
  /-- BRU (R180): Uniform conditional branch. -/
  | bru (g : GroupRef) (w : W64)
  /-- JSET (R180): Push of a join entry. -/
  | jset (g : GroupRef) (w : W64)
  /-- BRD (R180): Divergent branch on a predicate. -/
  | brd (g : GroupRef) (w : W64)
  /-- BRK (R180): Lanes with the predicate leave the path and wait at the join. -/
  | brk (g : GroupRef) (w : W64)
  /-- JOIN (R180): Join point that resumes from the reconvergence stack. -/
  | join (g : GroupRef) (w : W64)
  /-- EXIT (R180): Lanes with the predicate end, freeing the slot when the group ends. -/
  | exit (g : GroupRef) (w : W64)
  /-- VECTOR_INTEGER (R182): A vector integer instruction. -/
  | vectorInteger (g : GroupRef) (w : W64)
  /-- VECTOR_FLOAT (R55): A vector floating-point instruction. -/
  | vectorFloat (g : GroupRef) (w : W64)
  /-- CONVERSION (R55): A conversion or transcendental instruction. -/
  | conversion (g : GroupRef) (w : W64)
  /-- COMPARE (R182): A compare or predicate logic instruction. -/
  | compare (g : GroupRef) (w : W64)
  /-- UNIFORM_INTEGER (R182): A uniform integer or lane-move instruction. -/
  | uniformInteger (g : GroupRef) (w : W64)
  /-- SREG (R182): Copies GSTAT into a uniform register. -/
  | sreg (g : GroupRef) (w : W64)
  /-- CLRF (R182): Clears GSTAT.MMA_DIV. -/
  | clrf (g : GroupRef) (w : W64)
  /-- LD (R183): Core load, one request per line touched. -/
  | ld (g : GroupRef) (w : W64)
  /-- ST (R185): Core store, staged for LSM and host window. -/
  | st (g : GroupRef) (w : W64)
  /-- PREF (R189): Core prefetch of lines into the L1 in shared state. -/
  | pref (g : GroupRef) (w : W64)
  /-- DISCARD (R189): Core discard of whole lines without writeback. -/
  | discard (g : GroupRef) (w : W64)
  /-- ATOMIC_ADD (R192): Core atomic ADD performed at the home. -/
  | atomicAdd (g : GroupRef) (w : W64)
  /-- ATOMIC_MIN (R192): Core atomic MIN performed at the home. -/
  | atomicMin (g : GroupRef) (w : W64)
  /-- ATOMIC_MAX (R192): Core atomic MAX performed at the home. -/
  | atomicMax (g : GroupRef) (w : W64)
  /-- ATOMIC_AND (R192): Core atomic AND performed at the home. -/
  | atomicAnd (g : GroupRef) (w : W64)
  /-- ATOMIC_OR (R192): Core atomic OR performed at the home. -/
  | atomicOr (g : GroupRef) (w : W64)
  /-- ATOMIC_XOR (R192): Core atomic XOR performed at the home. -/
  | atomicXor (g : GroupRef) (w : W64)
  /-- ATOMIC_EXCH (R192): Core atomic exchange performed at the home. -/
  | atomicExch (g : GroupRef) (w : W64)
  /-- ATOMIC_CAS (R192): Core atomic compare-and-swap performed at the home. -/
  | atomicCas (g : GroupRef) (w : W64)
  /-- FENCE (R195): Core fence with release and acquire ordering. -/
  | fence (g : GroupRef) (w : W64)
  /-- BAR (R196): Core barrier that releases when N groups have arrived. -/
  | bar (g : GroupRef) (w : W64)
  /-- GMMA (R198): Group-matrix multiply-add over 8 × 8 tiles. -/
  | gmma (g : GroupRef) (w : W64)
  /-- ILLEGAL_INSTRUCTION (R182): An instruction with a reserved opcode or bits ends the kernel with TGC_ILLEGAL. -/
  | illegalInstruction (g : GroupRef) (w : W64)
  /-- LAUNCH_COMMIT (R204): When the last group ends, the kernel commits, signals, or replays after an error. -/
  | launchCommit (p : Fin 64)
  /-- WATCHDOG_EXPIRY (R208): A kernel's LIMIT passes and it ends with TGC_WATCHDOG. -/
  | watchdogExpiry (p : Fin 64)
  /-- FRAME (R324): A Zuloilo frame is received, decoded and checked, or found lost. -/
  | frame (j : Fin 12) (frame : Frame)
  /-- LINK_ACK (R327): Control symbol ACK releases frames held for resend. -/
  | linkAck (j : Fin 12) (seq : W32)
  /-- LOST (R327): Control symbol LOST makes the sender report UNIT_ERROR for the frame's units. -/
  | lost (j : Fin 12) (seq : W32)
  /-- CREDIT (R335): Control symbol CREDIT reports stream-buffer deliveries to the sender. -/
  | credit (j : Fin 12) (count : W32)
  /-- HELLO (R322): Control symbol HELLO records the far device and port in training. -/
  | hello (j : Fin 12) (device : BitVec 12) (group : W16) (port : Fin 12)
  /-- ECHO (R322): Control symbol ECHO gives the round trip and completes training. -/
  | echo (j : Fin 12) (number : W16) (turnaround : W16) (roundTrip : Nat)
  /-- ENUM (R331): Control symbol ENUM offers a device number during enumeration. -/
  | enum (j : Fin 12) (offered : BitVec 12) (nextFree : BitVec 12)
  /-- JOIN_SYMBOL (R334): Control symbol JOIN reaches the root from a member at linked JOB_START. -/
  | joinSymbol (j : Fin 12) (device : BitVec 12) (member : Fin 64)
  /-- START (R334): Flooded START schedules each member's first epoch tick. -/
  | start (j : Fin 12) (root : BitVec 12) (diameter : BitVec 12) (job : BitVec 20)
  /-- COMMIT (R310): Flooded COMMIT token applies held items and frees ledger entries. -/
  | commit (j : Fin 12) (token : UnitToken)
  /-- REPLAY (R341): Flooded REPLAY vote makes every member of a LINKED bell replay. -/
  | replay (j : Fin 12) (token : UnitToken)
  /-- APPLIED (R341): Flooded APPLIED reports that a member applied its held items. -/
  | applied (j : Fin 12) (token : UnitToken)
  /-- ABANDON (R312): Flooded ABANDON ends the job of every member with CHK_GROUP_FAULT. -/
  | abandon (j : Fin 12) (token : UnitToken)
  /-- UNIT_ERROR (R343): Routed UNIT_ERROR marks a unit ERROR or, if late, causes ABANDON. -/
  | unitError (j : Fin 12) (token : UnitToken)
  /-- MASK (R337): Flooded MASK carries a member's requested bubble share. -/
  | mask (j : Fin 12) (device : BitVec 12) (member : Fin 64) (share : Byte) (bells : BitVec 23)
  /-- TICK_SYNC (R337): Flooded TICK_SYNC steers the member's PLL to the root's tick counter. -/
  | tickSync (j : Fin 12) (root : BitVec 12) (ticks : W32)
  /-- REACH (R350): Flooded REACH marks a member reachable after a port loss. -/
  | reach (j : Fin 12) (device : BitVec 12) (group : W16) (hops : BitVec 12) (reachSeq : W16)
  /-- WRITE (R328): A WRITE item arrives and is held until its commit token. -/
  | write (j : Fin 12) (item : Item)
  /-- READ_REQ (R328): A READ_REQ item is served with the committed value. -/
  | readReq (j : Fin 12) (item : Item)
  /-- READ_RSP (R328): A READ_RSP item returns remote read data to the requester. -/
  | readRsp (j : Fin 12) (item : Item)
  /-- ATOM_REQ (R328): An ATOM_REQ item is performed and logged at its home. -/
  | atomReq (j : Fin 12) (item : Item)
  /-- ATOM_RSP (R328): An ATOM_RSP item returns remote atomic values to the requester. -/
  | atomRsp (j : Fin 12) (item : Item)
  /-- TOKEN (R346): A TOKEN item carrying a token vector is held until commit. -/
  | token (j : Fin 12) (item : Item)
  /-- COUNT (R347): A COUNT item is held and, when applied, zeroes unused token slots. -/
  | count (j : Fin 12) (item : Item)
  /-- RESULT (R347): A RESULT item carrying a result vector is held until commit. -/
  | result (j : Fin 12) (item : Item)
  /-- ACK_TIMEOUT (R327): A frame unacknowledged for 10 µs makes the sender send UNIT_ERROR. -/
  | ackTimeout (j : Fin 12)
  /-- PORT_SILENCE_TIMEOUT (R327): No good frame for 1 µs makes the port FAILED with ZLK_PORT_DOWN. -/
  | portSilenceTimeout (j : Fin 12)
  /-- TRAIN_TIMEOUT (R322): A port not trained within 500 ms becomes FAILED with ZLK_TRAIN_TIMEOUT. -/
  | trainTimeout (j : Fin 12)
  /-- REACH_WINDOW_EXPIRY (R350): The 50 µs REACH window ends and fixes which members are reachable. -/
  | reachWindowExpiry (p : Fin 64)
  /-- VOTE_TIMEOUT (R342): No vote or APPLIED 1 ms after bell tick 64 ends the job with ZLK_VOTE_TIMEOUT. -/
  | voteTimeout (p : Fin 64)
  /-- POWER_SAMPLE (R452): The 1 µs sample of IVR currents and VIN_IVR, with feedback shares and EDL checks. -/
  | powerSample (sample : PowerSample)
  /-- BUDGET_EXCHANGE (R453): The 10 µs exchange of demands and recomputation of allocations. -/
  | budgetExchange
  /-- EXTRA_BUBBLE_START (R461): A LOCKSTEP share rise not met by a bell within 200 µs starts extra bubbles. -/
  | extraBubbleStart (p : Fin 64)
  /-- CORE_CLOCK_STEP (R457): A core share held for 100 µs steps the die's core clock down or up. -/
  | coreClockStep (d : Fin 4)
  /-- DROOP_DETECT (R465): A rail 60 mV below setpoint stretches every clock of the die. -/
  | droopDetect (d : Fin 4)
  /-- DROOP_CLEAR (R465): A rail back within 30 mV for 16 cycles ends the stretch. -/
  | droopClear (d : Fin 4) (long : Bool)
  /-- PWR_ALERT_ASSERT (R467): PWR_ALERT_N going low applies share 240/256 to the device. -/
  | pwrAlertAssert
  /-- PWR_ALERT_RELEASE (R467): PWR_ALERT_N rising starts the 10 µs hold before control returns. -/
  | pwrAlertRelease
  /-- DIE_TEMP_READ (R469): The 10 µs stall sensor read sets the die's temperature share. -/
  | dieTempRead (d : Fin 4) (celsius : Byte)
  /-- THERMTRIP (R470): 105 °C on any sensor asserts THERMTRIP_N, halts clocks and turns IVRs off. -/
  | thermtrip
  /-- COOLANT_SAMPLE (R471): An AO_CLK32K sample of COOLANT_OK, starting a coolant stop or counting toward restart. -/
  | coolantSample (level : Bool)
  /-- VIN_LOW_TIMEOUT (R534): VIN_IVR below 1.70 V for 100 µs stops the device as FATAL. -/
  | vinLowTimeout
  /-- LEASE_EXPIRY (R417): A lease timer reaches zero and the partition enters PREEMPTING. -/
  | leaseExpiry (p : Fin 64)
  /-- GRACE_EXPIRY (R419): Grace passes before the pre-emption point and the partition is reset. -/
  | graceExpiry (p : Fin 64)
  /-- WAKE_N (R484): WAKE_N low for two samples wakes the device, or cold-boots it from OFF. -/
  | wakeN
  /-- WAKE_TIMER_EXPIRY (R484): A timer channel owned as a wake timer reaches zero, wakes the device and is released. -/
  | wakeTimerExpiry (c : Fin 64)
  /-- MANAGEMENT_WAKE (R484): Traffic addressed to the device on the management port wakes it from DEEP and is NACKed. -/
  | managementWake
  /-- COLD_BOOT (R498): Release of SYS_RST_N, or restart, runs the boot steps to READY, recovery or FATAL. -/
  | coldBoot (env : BootInputs)
  /-- AO_POWER_LOSS (R493): VDD_AO falling resets every domain and loses the retention store. -/
  | aoPowerLoss
  /-- VOTE_SWEEP (R313): The 10 ms sweep votes fuse-shadow and pitch-record copies. -/
  | voteSweep (fuse : CopyView) (pitch : List (Fin 64 × CopyView))
  /-- BIST_GROUP_COMPLETE (R513): A group of BIST tests completes, comparing signatures and fencing or unfencing stalls. -/
  | bistGroupComplete (results : List BistOutcome)
  /-- SYNC_IO_EDGE (R520): A rising SYNC_IO edge steers tick timing or writes a TRIGGER record. -/
  | syncIoEdge
  /-- COMPANION_DOWN (R540): A companion site leaves link up or misses a 20 µs completion and becomes FAILED. -/
  | companionDown (site : Fin 2)
  /-- BYPASS (R522): JTAG instruction BYPASS. -/
  | bypass
  /-- IDCODE (R522): JTAG instruction IDCODE. -/
  | idcode
  /-- SAMPLE_PRELOAD (R522): JTAG instruction SAMPLE/PRELOAD. -/
  | samplePreload
  /-- EXTEST (R522): JTAG instruction EXTEST, only while no partition exists. -/
  | extest
  /-- DEBUG_READ (R522): JTAG instruction that reads registers and committed memory. -/
  | debugRead (address : BitVec 44)
  /-- STALL_SCAN (R94): JTAG stall scan, zeroing key and weight registers first. -/
  | stallScan (s : Fin 64)
  /-- HUB_SCAN (R446): JTAG hub scan, purging every key and erasing the alias key first. -/
  | hubScan
  /-- SYS_RST_N_ASSERT (R493): SYS_RST_N going low resets every domain, the always-on domain included, and holds the device in reset. -/
  | sysRstNAssert
  /-- PERST_N_RELEASE (R499): Release of PERST_N lets the host port train, while functions answer Retry Status until ready. -/
  | perstNRelease
  /-- PLL_LOCK_LOSS (R492): A die PLL loses lock in RUN and the loss is counted in PST_CLOCK.LOCK_LOSSES. -/
  | pllLockLoss (d : Fin 4) (core : Bool)
  /-- VIN_IVR_REMOVAL (R470): The board removes VIN_IVR, which ends the low level of THERMTRIP_N after a trip. -/
  | vinIvrRemoval
  /-- BICONFLICT (R233): A host BIConflict message for a cacheline under back-invalidation is resolved, handling the host request first. -/
  | biconflict (address : BitVec 44)
  /-- CXL_CACHE_RESPONSE (R230): The host's response to a device RdCurr or WrCur arrives, supplying host-window data or completing a commit write. -/
  | cxlCacheResponse (hpa : BitVec 52) (data : Option (List Byte))
  /-- CXL_IO_COMPLETION (R395): A CXL.io completion for a device read of host memory arrives, with data or an error that fails the copy with HST_HOST_ABORT. -/
  | cxlIoCompletion (p : Fin 64) (data : Option (List Byte))
  /-- COMPLETION_TIMEOUT (R420): A device CXL request outstanding on the host link times out under the completion timeout programmed in PF0. -/
  | completionTimeout (p : Fin 64)
  /-- COMPANION_COMPLETION (R540): A companion site completes a read or write, possibly with poison that marks the reading unit for replay. -/
  | companionCompletion (site : Fin 2) (poison : Bool) (data : List Byte)
  /-- COUNTER_SAMPLE (R517): Every SAMPLE_US the device writes a COUNTER_SAMPLE trace record of the partition's UCC_TALLY. -/
  | counterSample (p : Fin 64)
  /-- FLASH_WRITE_COMPLETE (R505): Flash programming and read-back of the firmware image, or a fence-record rewrite, completes. -/
  | flashWriteComplete (readBackEqual : Bool)
  /-- LSM_WRITE_COMPLETE (R278): A write burst to an LSM channel completes without a base-die error report. -/
  | lsmWriteComplete (burst : BitVec 32)
  /-- FRAME_SEND (R325): A Zuloilo port sends its next frame every 8 ns, filling stream flits, items and control symbols. -/
  | frameSend (j : Fin 12)
  /-- DYNAMIC_ADDRESS (R530): The I3C controller assigns a dynamic address to the management port by MIPI I3C Basic procedures. -/
  | dynamicAddress (address : BitVec 7)
  deriving DecidableEq, Repr

end Sys2Proof
end

