-- ==== Sys2Proof/Decode.lean ====
section
/-! DEFINITION. Decoding of table words: the rows of the opcode table carry no bits, since commands are events and
packets, so no word spells one. The encodings the manual does give (packet headers, queue entries, core instruction
words, control symbols) are read where they arrive, in Machine/. -/

namespace Sys2Proof

/-- The command a word of the table's own bits spells: none, since the table gives no row any bits. -/
def decodeTableWord (_nbits _w : Nat) : Option Instr := none

end Sys2Proof
end

