-- ==== Sys2Proof/Config.lean ====
section
/-! DEFINITION. What an implementation fixes and the spec leaves open: constants with no body, so that no proof can
see their values. Each is named in notes/assumptions. -/

namespace Sys2Proof.Config

/-- A value the spec leaves undefined, by the number of the draw (State.fresh). -/
opaque freeValue : Nat → W64

/-- The security engine's random source, by draw: scrambler seeds, alias keys, evidence keys (R277, R431, R436). -/
opaque random : Nat → Nat

/-- A hardware fault that no command brings about, and where it strikes (Table CHK-2, R24): the flit in an output register
of a router, or in a crossing; a word on a bell sideband; a stream module for good; a message on the request network; a
core's register; an L1 line; an instruction-cache line; a slice's line; its filter entries; a scratchpad byte; a part in
schedule memory; a ledger entry; a Porter's line; a copy of a pitch record, or of the fuse shadow; a state copy of a session-table entry. -/
inductive Upset where
  | flit (stall lane bit : Nat)
  | crossing (key place bit : Nat)
  | sideband (key bit : Nat)
  | module (edge m : Nat)
  | request (place : Nat)
  | register (stall core slot reg : Nat)
  | l1 (stall core line : Nat)
  | icache (stall core line : Nat)
  | slice (p line : Nat)
  | filter (p line : Nat)
  | spad (stall byte bit : Nat)
  | schedule (stall part : Nat)
  | ledger (stall place : Nat)
  | porter (p : Nat)
  | pitch (p copy : Nat)
  | fuse (copy : Nat)
  | session (entry bit : Nat)
  deriving DecidableEq, Repr, Inhabited

/-- The hardware fault of a tick of DEV_TIME, if one strikes, by draw: the spec says when none will (log entry 90). -/
opaque upset : Nat → Option Upset

/-- What a stream module out of service brings, by draw: 521 bits of a flit with its parity (R24, log entry 149). -/
opaque moduleWord : Nat → Nat

/-- A source operand of a core instruction: a vector register in the lane, a uniform register, or a predicate's bit of the
lane. -/
inductive Source where
  | vector (r : Nat)
  | uniform (r : Nat)
  | predicate (r : Nat)
  deriving DecidableEq, Repr, Inhabited

/-- What a vector floating-point instruction computes (R55): a sum, a difference, a product, a fused multiply-add, or an
operation whose exact result is free. -/
inductive FloatOp where
  | add | sub | mul | fma | other
  deriving DecidableEq, Repr, Inhabited

/-- What an instruction of OP 0x70 to 0x7F does: it converts from one format code to another, with the shift of R46, or is
transcendental. -/
inductive ConvOp where
  | convert (src dst : Fin 16) (shift : Fin 32)
  | transcendental
  deriving DecidableEq, Repr, Inhabited

/-- The source operands of a word of the vector, conversion and compare classes: the spec gives no OP of those classes its
operand places (log entry 50). -/
opaque operands : W64 → List Source

/-- Which floating-point operation a word is (log entry 50). -/
opaque floatOp : W64 → FloatOp

/-- Which conversion a word is (log entry 50). -/
opaque convOp : W64 → ConvOp

/-- An OP of 0x70 to 0x7F that is transcendental, less 0x70: Table TGC-5 says that the range holds such instructions, and not
which OP is one (log entry 50). -/
opaque transcendentalOp : Fin 16

/-- The exact result, before its one rounding, of a floating-point operation that is none of R55's sums and products, and of
a transcendental one, from its operands (log entry 50). -/
opaque exactResult : W64 → List W64 → Fl

/-- The result of a vector integer instruction, and of a conversion from floating point to an integer, from its word and the
operands in the lane (log entry 50). -/
opaque vectorResult : W64 → List W64 → W32

/-- How a converted MX element and its block's scale byte lie in a lane's register (log entry 50). -/
opaque mxWord : W64 → Nat → Nat → W32

/-- The predicate bit a compare or predicate instruction gives a lane, from its operands (log entry 50). -/
opaque compareResult : W64 → List W64 → Bool

/-- The result of a uniform integer instruction, from the group's vector registers, uniform registers and predicates (log
entry 50). -/
opaque uniformResult : W64 → List W32 → List W64 → List W32 → W64

/-- Whether a word of the uniform class is a lane move, which writes a vector register (log entry 50). -/
opaque laneMove : W64 → Bool

/-- What a lane move gives a lane, from the group's registers as above (log entry 50). -/
opaque laneResult : W64 → List W32 → List W64 → List W32 → Nat → W32

/-- Whether the host has negotiated the block forms of BISnpInv (R233, log entry 168). -/
opaque backBlocks : Bool

/-- The unique device secret in the fuses, as its 32 bytes read as a number (R429). -/
opaque uds : Nat

/-- SHA-256 of the boot ROM (R429). -/
opaque romHash : BitVec 256

/-- The bytes of the fuse shadow without the UDS, from the values of its groups: no rule lays them out (Table SEC-3). -/
opaque fuseShadow : List Nat → List Byte

/-- What the flash holds at an offset after a programming whose read-back differed (R505), by draw. -/
opaque flashByte : Nat → Nat → Byte

/-- The signatures and pattern numbers that a test leaves in its BIST_MISR records (R513), by draw. -/
opaque bistRecords : Nat → List (Nat × Nat)

/-- The alias certificate for a firmware measurement and SVN, and the DeviceID certificate, DER (R430). -/
opaque aliasCertificate : BitVec 256 → Nat → List Byte
/-- The DeviceID certificate, DER. -/
opaque deviceCertificate : List Byte

end Sys2Proof.Config
end

