-- ==== Sys2Proof/Machine/State.lean ====
section
/-! DEFINITION. The state of BXK-S64 as plain data: every register map of the manual (spec/01 to spec/20), the queues,
tables, buffers, counters and modes behind them, the pins, what the device has put out at its edges, and the queue of
waiting commands. A structure's field defaults are its reset values. A table with no entry for a unit holds that
unit's reset value. Marks: a field named in notes/assumptions as the model's own is no state of the manual. -/

namespace Sys2Proof.Machine

/-! ## Host port (spec/14) -/

/-- One 4 KiB command slot (R377): its words as written, whether a packet is committed and not yet taken, and how many
data-port writes had arrived at its commit (R399). -/
structure Slot where
  words : Tbl W32 := []
  committed : Bool := false
  after : Nat := 0
  deriving DecidableEq, Repr, Inhabited

/-- One reply-ring entry before it is written (R382): TAG, STATUS, DETAIL, COMPLETION_TICK, EVENT, SOURCE, and whether
the packet asked for the REPLY interrupt. -/
structure RingEntry where
  tag : Nat
  status : Nat
  detail : Nat
  tick : Nat
  event : Bool := false
  source : Nat := 0
  irq : Bool := false
  /-- The slot that stays busy until the entry is written (R381). -/
  slot : Option Nat := none
  deriving DecidableEq, Repr, Inhabited

/-- Where a reply goes: a host function's ring, or a management session's response message (R381, R404). -/
inductive ReplyPort where
  | host (fn : Fin 65)
  | mgmt (session : Fin 4)
  deriving DecidableEq, Repr, Inhabited

/-- The addressee of one reply. -/
structure ReplyTo where
  port : ReplyPort := .host 0
  tag : Nat := 0
  irq : Bool := false
  /-- The session the reply would travel in has ended. -/
  lost : Bool := false
  /-- The slot that a packet refused at check 11 keeps until its reply is written (R381). -/
  slot : Option Nat := none
  deriving DecidableEq, Repr, Inhabited

/-- What a started packet still waits for before its reply is written. -/
inductive Deferred where
  /-- QUEUE_HALT: its mask, and whether the queues are then flushed (R391). -/
  | queueHalt (mask : Nat) (flush : Bool)
  | jobStart
  | jobEnd
  | portCopy
  | discardLines (lines : List Nat)
  | sessionClose (index : Nat)
  | reset
  | destroy
  | collect (host : Bool) (bitmap : Nat)
  | logStop (host : Bool)
  | fwBegin (bytes : Nat)
  | fwCommit
  | enumerate
  deriving DecidableEq, Repr, Inhabited

/-- One packet that is outstanding (R381). -/
structure Outstanding where
  replyTo : ReplyTo := {}
  part : Nat := 0
  waits : Option Deferred := none
  deriving DecidableEq, Repr, Inhabited

/-- A data-port access that has arrived and is not yet performed (R399): a read with its address and length, a write with the
bytes of its span, or a read of DP_ADDR with the value it returns. -/
inductive PortAccess where
  | read (va count : Nat)
  | write (va : Nat) (data : List (Option Byte))
  | addr (va : Nat)
  deriving DecidableEq, Repr, Inhabited

/-- PF0 or one VF: slots, reply ring, interrupt registers and data port (Tables HST-2 and HST-3). -/
structure FnState where
  slots : Tbl Slot := []
  /-- Committed slots not yet taken, oldest commit first (R381). -/
  order : List Nat := []
  ringBase : Nat := 0
  /-- log2 of N; 0 while no ring is set. -/
  ringLog2 : Nat := 0
  producer : Nat := 0
  head : Nat := 0
  /-- Entries ready and waiting for ring room, oldest first (R383). -/
  waiting : List RingEntry := []
  overrun : Bool := false
  dpErr : Bool := false
  eventsLost : Bool := false
  hwinRefused : Bool := false
  noringStatus : Nat := 0
  intCause : BitVec 4 := 0
  intMask : BitVec 4 := 0xF
  vecReply : BitVec 3 := 0
  vecEvent : BitVec 3 := 1
  vecStall : BitVec 3 := 2
  vecDp : BitVec 3 := 3
  /-- MSI-X table words, 4 a vector: address low, address high, data, vector control (bit 0 masks, and is 1 at reset). -/
  msixTable : Tbl W32 := []
  msixPending : BitVec 8 := 0
  dpAddr : BitVec 48 := 0
  dpHold : Bool := false
  dpPrefetch : BitVec 3 := 0
  dpErrAddr : BitVec 48 := 0
  dpErrWrite : Bool := false
  /-- Data-port accesses not yet performed, oldest first (R249, R399). -/
  dpHeld : List PortAccess := []
  /-- Data-port writes that have arrived. -/
  dpWrites : Nat := 0
  /-- Read-ahead of the data port: virtual address and byte (R399). -/
  readAhead : List Host.Cell := []
  /-- Configuration-space words the host has written. -/
  config : Tbl W32 := []
  /-- Words of PF0 BAR4, the CXL component registers, as written. -/
  cxlRegs : Tbl W32 := []
  deriving DecidableEq, Repr, Inhabited

/-- One host-window entry: HWIN_WIN and HWIN_HOST (R375). -/
structure Hwin where
  enable : Bool := false
  offset : BitVec 20 := 0
  size : BitVec 21 := 0
  hpa : BitVec 31 := 0
  deriving DecidableEq, Repr, Inhabited

/-! ## Partitions (spec/15) -/

/-- The pitch record's fields (Table PTN-1). Masks are numbers read as bits. -/
structure PitchRecord where
  stalls : Nat := 0
  root : Nat := 0
  timing : Nat := 0
  check : Nat := 0
  session : Nat := 0
  memWeight : Nat := 0
  stageWays : Nat := 0
  powerShare : Nat := 0
  zlPorts : Nat := 0
  stageQuota : Nat := 0
  pinQuota : Nat := 0
  sesBase : Nat := 0
  sesCount : Nat := 0
  streamMask : List Nat := []
  companion : Nat := 0
  mem : Nat := 0
  /-- The 512 bytes as the manager supplied them. -/
  raw : List Byte := []
  deriving DecidableEq, Repr, Inhabited

/-- PTN_STATE.STATE (R428). -/
inductive PartState where
  | none | idle | running | preempting | preempted | resetting
  deriving DecidableEq, Repr, Inhabited

/-- A lease: PTN_LEASE, and the grace time still to run (R416 to R419). -/
structure Lease where
  set : Bool := false
  remain : Nat := 0
  grace : Nat := 0
  graceLeft : Nat := 0
  deriving DecidableEq, Repr, Inhabited

/-- Dirty logging of one space (R424, R425): the pages marked and not yet written to the bitmap. -/
structure DirtyLog where
  bitmap : Nat := 0
  base : Nat := 0
  bytes : Nat := 0
  marked : List Nat := []
  deriving DecidableEq, Repr, Inhabited

/-- PTN_FAULT (R414, R428). -/
structure PtnFault where
  va : BitVec 48 := 0
  cause : BitVec 8 := 0
  agent : BitVec 3 := 0
  write : Bool := false
  valid : Bool := false
  deriving DecidableEq, Repr, Inhabited

/-- One submitted list (R390). -/
structure QList where
  address : Nat
  units : Nat
  deriving DecidableEq, Repr, Inhabited

/-- One engine queue (R390 to R392). -/
structure Queue where
  lists : List QList := []
  /-- 64-byte unit of the current list at which the head entry begins. -/
  unit : Nat := 0
  halted : Bool := false
  /-- The queue halted on a refused or failed entry. -/
  failed : Bool := false
  /-- The queue halted at a pre-emption point (R417) and resumes with the job (R418). -/
  byLease : Bool := false
  /-- Units RESUME moves past. -/
  failUnits : Nat := 0
  /-- The head entry has started. -/
  inProgress : Bool := false
  /-- The partition's timers when the head entry's wait began (R396). -/
  waitFrom : Option Nat := none
  lastStatus : Nat := 0
  lastDetail : Nat := 0
  completed : Nat := 0
  deriving DecidableEq, Repr, Inhabited

/-- A Porter copy in progress (R394, R395). -/
structure Copy where
  src : Nat
  dst : Nat
  bytes : Nat
  dir : Nat
  signal : Nat
  signalValue : Nat
  /-- Bytes moved so far. -/
  done : Nat := 0
  /-- A CXL.io read of the host is on the link for the next bytes. -/
  asked : Bool := false
  /-- Bytes the host has supplied that wait for their line (R395). -/
  held : List Byte := []
  /-- From PORT_COPY: its reply; none for the entry at the head of the PORT queue. -/
  reply : Option ReplyTo := none
  /-- The number of the copy among the partition's: it names the Porter channel that makes it (log entry 167). -/
  number : Nat := 0
  /-- Reissues of the line under way after an error (Table CHK-2). -/
  retries : Nat := 0
  deriving DecidableEq, Repr, Inhabited

/-- The held plan (R164, R165): its image, the physical pages locked, and its hash. -/
structure HeldPlan where
  va : Nat := 0
  /-- Physical 64 KiB pages of the image, in order. -/
  pages : List Nat := []
  hash : BitVec 256 := 0
  /-- Reloadable ranges: virtual address and length (R281). -/
  reloadable : List (Nat × Nat) := []
  deriving DecidableEq, Repr, Inhabited

/-- A running range of bell entries: a PLAN_RUN or a session step (R168, R361). -/
structure Run where
  first : Nat
  last : Nat
  repeatLeft : Nat
  signal : Nat := 0
  signalValue : Nat := 0
  /-- The run is a session step. -/
  step : Bool := false
  deriving DecidableEq, Repr, Inhabited

/-- The plan engine's epoch state (R170, PLN_STATUS). -/
structure Epoch where
  /-- Bell entry running. -/
  entry : Nat := 0
  running : Bool := false
  /-- The epoch's bell has begun and waits for tokens (R311, R341). -/
  inBell : Bool := false
  /-- How far the bell has come: 1 a pending commit waits for votes or tokens, 2 for APPLIED, 3 for bell tick 128 and the
  host's completions, 4 for bell tick 192 and parts, 5 for bell tick 256; 0 no bell. -/
  stage : Nat := 0
  replays : Nat := 0
  attempt : Nat := 0
  nonrepl : Bool := false
  /-- A detected error awaits replay: its detail. -/
  error : Option Nat := none
  /-- Refills within this epoch or kernel (R283). -/
  refills : Nat := 0
  /-- The epoch restarted in wide staging. -/
  wide : Bool := false
  /-- The commit of the epoch is final: no unit is in progress for the rest of the bell. -/
  final : Bool := false
  deriving DecidableEq, Repr, Inhabited

/-- The partition's job (R170, R397). -/
structure Job where
  running : Bool := false
  /-- A LINKED job waits for START (R334). -/
  awaitStart : Bool := false
  endPending : Bool := false
  bells : Nat := 0
  commits : Nat := 0
  launches : Nat := 0
  faulted : Bool := false
  wcetOver : Bool := false
  bellWait : Nat := 0
  flip : Nat := 0
  /-- The wait cause that ended nothing yet: the fence that ends the job at its bell (R131). -/
  fencePending : Bool := false
  /-- The granted companion failed while the job was pre-empted (Table PKG-8). -/
  companionDown : Bool := false
  deriving DecidableEq, Repr, Inhabited

/-- A kernel in progress: the LAUNCH entry's fields and its progress (R200 to R208). -/
structure Kernel where
  running : Bool := false
  code : Nat := 0
  args : Nat := 0
  groups : Nat := 0
  threadsLast : Nat := 0
  slots : Nat := 0
  cores : Nat := 0
  stalls : Nat := 0
  limit : Nat := 0
  result : Nat := 0
  signal : Nat := 0
  signalValue : Nat := 0
  nextGroup : Nat := 0
  groupsDone : Nat := 0
  cycles : Nat := 0
  /-- The partition's timers when the watchdog began (R208). -/
  timer : Nat := 0
  replays : Nat := 0
  nonrepl : Bool := false
  mmaDiv : Bool := false
  error : Option Nat := none
  refills : Nat := 0
  failed : Bool := false
  /-- How far the launch commit has come: 1 it waits for partners (R311), 2 for the host's completions; 0 none. -/
  stage : Nat := 0
  deriving DecidableEq, Repr, Inhabited

/-! ## Unified cache (spec/08) -/

/-- Line states at the home slice (Table UCC-1); absent is a line with no entry. -/
inductive LineState where
  | absent | clean | dirty | staged | discardStaged
  deriving DecidableEq, Repr, Inhabited

/-- Ownership recorded in a snoop filter entry (R219). -/
structure FilterEntry where
  l1 : L1Id
  owner : Bool
  /-- The way of the L1's position; its set follows from the line (R219). -/
  way : Nat := 0
  /-- The entry's parity is wrong (R239). -/
  odd : Bool := false
  deriving DecidableEq, Repr, Inhabited

/-- One transaction waiting at, or in progress on, a line (R220): the request that arrived. -/
inductive HomeRequest where
  | rdS (l1 : L1Id)
  | rdU (l1 : L1Id)
  | upg (l1 : L1Id)
  | rdNa (agent : Agent) (sectors : BitVec 4) (retain : Bool)
  | wrl (agent : Agent) (cells : List (Fin 1024 × Byte))
  | atom (req : AtomRequest)
  | disc (agent : Agent)
  | memRd (address : BitVec 44) (grant : Bool)
  | memWr (address : BitVec 44) (data : List Byte)
  | port (va : Nat) (cells : List (Fin 1024 × Byte))
  /-- A staged write of the unit in progress by a link engine, counted to a stall: it has no acknowledgement. -/
  | unit (stall : Nat) (cells : List (Fin 1024 × Byte))
  deriving DecidableEq, Repr

/-- One line of a partition at its home: state, the bytes that differ from memory, pin mark, HOST bit, filter entries,
the open combining window, and transactions in order of arrival. -/
structure Line where
  state : LineState := .absent
  data : List Host.Cell := []
  /-- Bytes of a remote copy as fetched (R229). -/
  base : List Host.Cell := []
  /-- A remote read of the line: 0 none, 1 on its way, 2 on its way and to be discarded (Table UCC-5). -/
  fetch : Nat := 0
  /-- SEQ of that read's item. -/
  fetchSeq : Nat := 0
  /-- Bursts of a line of own LSM that are being read from memory, and those that have come back and are not yet used
  (R268). -/
  asked : Nat := 0
  here : Nat := 0
  /-- Bursts of those whose data is poisoned (R282), those of these whose failure the partition's own read met, and bytes that
  came back other than memory holds them. -/
  bad : Nat := 0
  met : Nat := 0
  wrong : List Host.Cell := []
  /-- The parity of the line in its slice is wrong (R239). -/
  odd : Bool := false
  /-- The line lies in the home's stream buffer and not in the sets (R236). -/
  streamed : Bool := false
  /-- The transaction in progress (R220). -/
  cur : Option HomeRequest := none
  pinned : Bool := false
  host : Bool := false
  filter : List FilterEntry := []
  /-- Readers joined in an open combining window (R221). -/
  window : List HomeRequest := []
  windowOpen : Bool := false
  /-- L1s whose snoop response the home still waits for. -/
  awaiting : List L1Id := []
  /-- Back-invalidation responses the home still waits for (R233). -/
  awaitHost : List Nat := []
  waiting : List HomeRequest := []
  deriving DecidableEq, Repr, Inhabited

/-- MESI state of a line in an L1 (R218). -/
inductive Mesi where
  | i | s | e | m
  deriving DecidableEq, Repr, Inhabited

/-- One line held by an L1: its partition, state, and the bytes written in M. -/
structure L1Line where
  part : Nat := 0
  state : Mesi := .i
  data : List Host.Cell := []
  /-- The way of its set that it fills. -/
  way : Nat := 0
  /-- A writeback of the line is in flight (R223). -/
  wbInFlight : Bool := false
  /-- A parity error stands in the line (R210). -/
  bad : Bool := false
  deriving DecidableEq, Repr, Inhabited

/-- The partition's side of the cache: lines by line address, slice list, tallies, dead-read trap (R215, R232, R238). -/
structure CachePart where
  lines : Tbl Line := []
  sliceList : List Nat := []
  /-- UCC_TALLY by 4 · class + quantity, class in register order. -/
  tally : Tbl Nat := []
  deadTrap : Bool := false
  /-- Recently discarded lines, newest first, per home stall and line address. -/
  dead : List (Nat × Nat) := []
  /-- Stream detectors: requester code, last miss, run length (R235). -/
  streams : List (Nat × Nat × Nat) := []
  /-- Stream buffers: home and line, most recently used first (R236). -/
  buffers : List (Nat × Nat) := []
  deriving DecidableEq, Repr, Inhabited

/-- One ledger entry (Table CHK-4). -/
structure LedgerEntry where
  address : Nat
  size8 : Bool
  srcDevice : Nat
  srcPartition : Nat
  seq : Nat
  unit : Nat
  kernel : Bool
  homeDone : Bool
  before : Nat
  after : Nat
  /-- One bit per 5 bytes. -/
  parity : Byte := 0
  /-- Performed while no unit of the home partition was in progress, and in no commit of it since (R304). -/
  loose : Bool := false
  deriving DecidableEq, Repr, Inhabited

/-- A coherence message on its way (Table UCC-2): name by row, partition, line, and the L1 or agent concerned. -/
inductive NocMsg where
  | toL1 (kind : Nat) (p : Nat) (l1 : L1Id) (line : Nat)
  | toAgent (kind : Nat) (p : Nat) (agent : Agent) (line : Nat) (cells : List Host.Cell)
  | toHome (kind : Nat) (p : Nat) (l1 : L1Id) (line : Nat) (cells : List Host.Cell)
  deriving DecidableEq, Repr

/-! ## Checking, links, sessions, power, boot as seen by one partition -/

/-- CHK_PART (R320). -/
structure ChkPart where
  corrected : Nat := 0
  stageBells : Nat := 0
  pending : Bool := false
  ledgerMax : Nat := 0
  deriving DecidableEq, Repr, Inhabited

/-- An item held until its commit token (R309): arrival port order, kind, source fields and data. -/
structure HeldItem where
  kind : Nat
  item : Item
  deriving DecidableEq, Repr

/-- The partition's part in a job group (R333, R334, R341, ZLK_JOB). -/
structure ZlkJob where
  root : Nat := 0
  /-- Members (device, partition) in ascending device order; empty when no linked job. -/
  members : List (Nat × Nat) := []
  split : Bool := false
  lastFinal : Nat := 0
  /-- Members from which the root holds JOIN for the next START. -/
  joined : List (Nat × Nat) := []
  /-- Votes of the bell in progress: (device, partition, committed). -/
  votes : List (Nat × Nat × Bool) := []
  applied : List (Nat × Nat) := []
  /-- DEV_TIME at which the bell in progress began to wait for votes (R342). -/
  voteSince : Nat := 0
  held : List HeldItem := []
  /-- COMMIT tokens held: (device, partition, unit, attempt). -/
  commits : List (Nat × Nat × Nat × Nat) := []
  /-- KIND (kernel), UNIT and attempt of the COMMIT that this partition sent last (R310). -/
  sent : Option (Bool × Nat × Nat) := none
  /-- COMMIT tokens that have acted since the job started. -/
  acted : List (Nat × Nat × Nat × Nat) := []
  /-- Partners the pending commit still waits for (R311). -/
  partners : List (Nat × Nat × Nat) := []
  /-- MASK shares received: (device, partition, bell count, share). -/
  masks : List (Nat × Nat × Nat × Nat) := []
  startDelay : Nat := 0
  reach : List Nat := []
  reachOpen : Bool := false
  /-- DEV_TIME at which the REACH window opened (R350). -/
  reachSince : Nat := 0
  /-- The port whose loss opened the window; 12 for a port of another device. -/
  lostPort : Option Nat := none
  /-- Sequence number of the next item of the unit in progress by destination device, and by 4,096 + device of the next
  read request (R328). -/
  itemSeq : Tbl Nat := []
  deriving DecidableEq, Repr, Inhabited

/-- The session engine's state of one partition (R360 to R364, SES_PART, SES_STAT). -/
structure SesPart where
  serving : Bool := false
  record : Nat := 0
  result : Nat := 0
  perPage : Nat := 0
  stepsLeft : Option Nat := none
  signal : Nat := 0
  signalValue : Nat := 0
  stepCount : Nat := 0
  stepping : Bool := false
  follower : Bool := false
  fallback : Bool := false
  /-- Session indices of the batch, by slot, with their KEEP bits. -/
  batch : List (Nat × Bool) := []
  /-- The primary remainder formed with a fallback batch (R364). -/
  remainder : List Nat := []
  /-- The remainder that comes into force as the batch gathered last begins. -/
  left : List Nat := []
  stepNo : Nat := 0
  variant : Nat := 0
  /-- The READY sessions of the WCET round still to be served (R362). -/
  round : List Nat := []
  /-- DEV_TIME at epoch tick 0 of the running step's first epoch, once that has come (R364). -/
  startTime : Option Nat := none
  /-- Measured durations: (step, variant, duration in ticks of DEV_TIME), newest first (R364). -/
  durations : List (Nat × Nat × Nat) := []
  /-- APPENDs applied at the running step's end: index, LIMIT, KV_PAGES, DEADLINE (R359). -/
  appends : List (Nat × Nat × Nat × Nat) := []
  /-- The WCET round in progress is excused by R363. -/
  excused : Bool := false
  /-- The batch gathered last opened a WCET round whose first step has not begun. -/
  opened : Bool := false
  misses : Nat := 0
  excusedMisses : Nat := 0
  fallbacks : Nat := 0
  deriving DecidableEq, Repr, Inhabited

/-- One learned phase of one die (R462): P_t normalised to 3.3 GHz and P_h, in milliwatts. -/
structure PhaseEntry where
  pt : Nat
  ph : Nat
  deriving DecidableEq, Repr, Inhabited

/-- What Scales gathers of one partition on one die over a span of time (R452, R462, R463): sums of the power samples
taken and held with their counts, the largest budget share, exchange share and temperatures, and whether a temperature
share or an alert was in force. -/
structure PowerSpan where
  ptSum : Nat := 0
  taken : Nat := 0
  phSum : Nat := 0
  held : Nat := 0
  share : Nat := 0
  exchange : Nat := 0
  tj : Nat := 0
  stack : Nat := 0
  heat : Bool := false
  alert : Bool := false
  deriving DecidableEq, Repr, Inhabited

/-- Scales' state of one partition (R452 to R463, PWR_PART, PWR_FREQ, PWR_BUBBLE, Table PWR-4). -/
structure PwrPart where
  /-- P_t and P_h by die, in milliwatts. -/
  pt : Tbl Nat := []
  ph : Tbl Nat := []
  /-- P_t and P_h of the last exchange, weighted by the taken fraction (Table PWR-4). -/
  power : Nat := 0
  alloc : Nat := 0
  allocDie : Tbl Nat := []
  /-- Feedback share by die, in 1/256. -/
  share : Tbl Nat := []
  maskShare : Nat := 0
  pendingShare : Bool := false
  /-- Microseconds for which PENDING_SHARE has stood (R461). -/
  pendingFor : Nat := 0
  /-- Microseconds for which the core share has stayed at 64/256 or above, by die (R457). -/
  coreHigh : Tbl Nat := []
  extraShare : Nat := 0
  capApplied : Bool := true
  /-- Matrix clock by die, MHz. -/
  freq : Tbl Nat := []
  /-- Target of a glide in progress by die, MHz. -/
  glide : Tbl Nat := []
  /-- Sums since the last exchange, and what the running epoch has met, by die. -/
  period : Tbl PowerSpan := []
  epoch : Tbl PowerSpan := []
  /-- Phase entries by 256 · die + phase. -/
  phases : Tbl PhaseEntry := []
  bubbles : Nat := 0
  extra : Nat := 0
  stretched : Nat := 0
  energy : Nat := 0
  deriving DecidableEq, Repr, Inhabited

/-- The evidence of a partition and its security counters (R436 to R442, SEC_PART). -/
structure SecPart where
  /-- d_P, the evidence hash, Z where PEER_VALID, and whether a plan was held. -/
  evidence : Option (Nat × BitVec 256 × Option (BitVec 256) × Bool) := none
  attests : Nat := 0
  unwrapFails : Nat := 0
  deriving DecidableEq, Repr, Inhabited

/-- One key slot: key, nonce prefix and KEY_ID (R84, R442). -/
structure Key where
  key : BitVec 256
  nonce : W32
  keyId : BitVec 128
  deriving DecidableEq, Repr, Inhabited

/-- The refill state of a partition (R282, LSM_PART, LSM_REFILL). -/
structure Refill where
  pending : Bool := false
  page : BitVec 48 := 0
  /-- DEV_TIME at which the wait began. -/
  since : Nat := 0
  /-- The partition's timers when the wait began (R283). -/
  timer : Nat := 0
  refills : Nat := 0
  /-- Bursts that failed persistently in this job. -/
  failed : List Nat := []
  /-- First poisoned burst's page of the unit in progress. -/
  waitsFor : Option (BitVec 48) := none
  deriving DecidableEq, Repr, Inhabited

/-- Counters of one partition (R515, R516, BTD_TALLY, BTD_RECOVERY) and its trace set-up (R517). -/
structure TallyPart where
  /-- BTD_TALLY by k. -/
  tally : Tbl Nat := []
  lastCause : Nat := 0
  events : Nat := 0
  recTicks : Nat := 0
  /-- Recovery events of the running epoch: cause, first epoch tick, count. -/
  epochEvents : List (Nat × Nat × Nat) := []
  classes : Nat := 0
  sampleUs : Nat := 0
  /-- Device time of the last COUNTER_SAMPLE records, or of the setting of SAMPLE_US (R517). -/
  sampledAt : Nat := 0
  deriving DecidableEq, Repr, Inhabited

/-- A core's store or write-through that its target has not acknowledged (R194): the group's place and index, the target (0
or 1 a companion site, 2 the host), and the offset or host address. -/
structure CoreStore where
  group : Nat
  index : Nat
  target : Nat
  address : Nat
  deriving DecidableEq, Repr, Inhabited

/-- What the cached translations of a partition's agents may still show (R413): the committed bytes of own LSM, by address,
as they were when each kind of agent last dropped its cached translations, of the bytes written since. -/
structure Cached where
  agents : List Host.Cell := []
  porters : List Host.Cell := []
  dataPort : List Host.Cell := []
  deriving DecidableEq, Repr, Inhabited

/-- One partition. -/
structure Part where
  present : Bool := false
  record : PitchRecord := {}
  signature : BitVec 256 := 0
  /-- The record lost its majority (R313). -/
  pitchLost : Bool := false
  /-- Copies of the record whose CRC fails (R313). -/
  pitchOdd : List Nat := []
  boost : Bool := false
  pendingBoost : Option Bool := none
  state : PartState := .none
  resets : Nat := 0
  /-- Ticks in which its wait timeouts, watchdog and refill limit have advanced (R471, R521). -/
  timers : Nat := 0
  lease : Lease := {}
  logHost : Option DirtyLog := none
  logDevice : Option DirtyLog := none
  fault : PtnFault := {}
  halted : Bool := false
  /-- STALL_SCAN zeroed key slots while halted (R522). -/
  scanned : Bool := false
  hwin : Tbl Hwin := []
  queues : Tbl Queue := []
  /-- CXL.io reads of the partition on the host link (R420 step 4). -/
  ioOut : Nat := 0
  copies : List Copy := []
  /-- Copies that the partition's Porters have begun. -/
  copyCount : Nat := 0
  plan : Option HeldPlan := none
  job : Job := {}
  run : Option Run := none
  epoch : Epoch := {}
  kernel : Kernel := {}
  cache : CachePart := {}
  chk : ChkPart := {}
  zlk : ZlkJob := {}
  ses : SesPart := {}
  pwr : PwrPart := {}
  sec : SecPart := {}
  /-- Pending key installs by slot (R442). -/
  pendingKeys : Tbl Key := []
  /-- Stores of its cores not yet acknowledged, oldest first. -/
  stores : List CoreStore := []
  /-- What its agents' cached translations still show (R413). -/
  cached : Cached := {}
  refill : Refill := {}
  tally : TallyPart := {}
  deriving DecidableEq, Repr, Inhabited

/-! ## Stalls (spec/03, 04, 05, 07) -/

/-- One FETCH being served by a feeder (R79, R92, R549), and how many of its blocks have been begun. -/
structure Fetch where
  va : Nat
  slot : Nat
  source : Nat
  index : Nat
  tagBase : Nat
  blocks : Nat
  packed : Bool
  retain : Bool
  scales : Bool
  relayOut : Bool
  asked : Nat := 0
  deriving DecidableEq, Repr, Inhabited

/-- One weight block in a feeder buffer: ciphertext, tag, and where it stands (R79, R80). -/
structure Block where
  index : Nat
  /-- First byte: a virtual address, or a scratchpad offset of source 2. -/
  va : Nat := 0
  tagVa : Nat := 0
  slot : Nat
  source : Nat := 0
  packed : Bool
  scales : Bool
  retain : Bool := false
  relayOut : Bool := false
  /-- Lines arrived so far. -/
  lines : Nat := 0
  cipher : List Byte := []
  tag : List Byte := []
  tagHere : Bool := false
  poisoned : Bool := false
  verified : Bool := false
  /-- The tag differed: the block injects nothing (R83, R95). -/
  failed : Bool := false
  /-- Cycles until it can supply its first word (R80). -/
  wait : Nat := 0
  /-- Feed-order bytes drawn already. -/
  drawn : Nat := 0
  /-- Element bits of the pass that drew its first byte (R90). -/
  width : Nat := 0
  /-- Drawn whole: the block stays only until it is forwarded (R92). -/
  spent : Bool := false
  /-- Bytes of ciphertext and tag forwarded under RELAY_OUT. -/
  relayed : Nat := 0
  deriving DecidableEq, Repr, Inhabited

/-- One weight feeder: key slots, epoch keys, FETCHes in order, buffered blocks, and FEEDER_STATUS counts. -/
structure Feeder where
  slots : Tbl Key := []
  epochKeys : Tbl Key := []
  fetches : List Fetch := []
  blocks : List Block := []
  /-- Feed-order bytes of blocks drawn whole in this epoch, of the element and of the scale stream. -/
  elemFed : Nat := 0
  scaleFed : Nat := 0
  /-- Bytes of the word due that its unpack and inject registers hold already, of the two streams (R91). -/
  elemHeld : List Byte := []
  scaleHeld : List Byte := []
  /-- The first epoch tick whose FETCHes have not begun. -/
  fetchTick : Nat := 0
  tagFails : Nat := 0
  packErrors : Nat := 0
  deriving DecidableEq, Repr, Inhabited

/-- A stationary tile: rows M, columns K, format code, element bits and scales by row and column (R97). -/
structure Tile where
  format : Nat
  m : Nat
  k : Nat
  /-- Element bits by 128 · k + m. -/
  elems : Tbl Nat := []
  /-- Scale bytes by 128 · block + m; 0x7F where none was read. -/
  scales : Tbl Nat := []
  deriving DecidableEq, Repr, Inhabited

/-- The partial-sum register and the group register of one row as they travel east with a word (R65, R67): the running
value, the products of the group so far, and the groups added whose sum was NaN or infinite (R110). -/
structure PartialSum where
  value : Nat := 0
  group : List Fl := []
  skipped : Nat := 0
  deriving DecidableEq, Repr, Inhabited

/-- One weight word between its injection and its delivery (R68 to R70): the tick it leaves, its PASS and word number, the
ticks taken since its injection, its weights by column and k and their scale bytes as the inject registers and the cells'
weight registers still hold them (R93), the y_in its rows met, the registers of its rows by column and row, and those of
the checksum row, c and a by column (R76). Between words the weight registers hold the zero words of idle ticks. -/
structure OutWord where
  leave : Nat
  index : Nat
  word : Nat
  age : Nat := 0
  weights : List Nat
  scales : List Nat
  yin : List Nat
  sums : List PartialSum := []
  checks : List PartialSum := []
  deriving DecidableEq, Repr, Inhabited

/-- One matrix engine or matrix-vector unit (Tables MXE-1 and MVU-1, MXE_STATUS, MVU_STATUS). The stationary and shadow
registers are the tiles of the epoch's LOADs, by ordinal: which of them is active is fixed by the program (R72). -/
structure MUnit where
  tiles : Tbl Tile := []
  /-- Carry buffer by 2,048 · row + column. -/
  carry : Tbl Nat := []
  /-- Columns of an MX output that wait for their run, by 65,536 · row + column (R98). -/
  run : Tbl Nat := []
  inflight : List OutWord := []
  /-- Words whose verdict has not been reached, oldest first: the comparison passes, skipped columns or groups. -/
  verdicts : List (Bool × Nat) := []
  fails : Nat := 0
  passes : Nat := 0
  deriving DecidableEq, Repr, Inhabited

/-- A scratchpad transfer of a FILL not yet written (R151): virtual address, scratchpad offset. -/
structure FillLine where
  va : Nat
  offset : Nat
  deriving DecidableEq, Repr, Inhabited

/-- A block of a SPILL not yet acknowledged (R149, R151): virtual address, scratchpad offset, the snapshot as of its TICK,
and whether the port has read the block. -/
structure SpillLine where
  va : Nat
  offset : Nat := 0
  bytes : List Host.Cell
  read : Bool := false
  deriving DecidableEq, Repr, Inhabited

/-- A flit on a lane (R119): payload, valid bit and eight parity bits. -/
structure WireFlit where
  payload : BitVec 512 := 0
  valid : Bool := false
  parity : Byte := 0
  deriving DecidableEq, Repr, Inhabited

/-- The scheduled-fabric router of one stall (R119 to R128, FAB_ROUTER): its table bank, its output registers by lane 0
to 79 after each of the last ticks taken, newest first, and what its local endpoints drive. A lane with no entry holds
an empty flit with its parity. The registers of pass-through routers are the older entries of the router behind them
(R130). -/
structure Router where
  bank : Bool := false
  addEmpty : Bool := false
  parityErrs : Nat := 0
  hist : List (Tbl WireFlit) := []
  localIn : Tbl (BitVec 512) := []
  deriving DecidableEq, Repr, Inhabited

/-- The contents of a bell flit: READY mask, ERROR, NONREPL and SEQ (Table PLN-9). -/
structure BellFlit where
  ready : Nat := 0
  error : Bool := false
  nonrepl : Bool := false
  seq : Nat := 0
  deriving DecidableEq, Repr, Inhabited

/-- A word of a bell sideband: four fields of 64 bits and one parity bit per 32 bits (R25). -/
structure SideWord where
  ready : Nat := 0
  error : Nat := 0
  nonrepl : Nat := 0
  stage : Nat := 0
  parity : Byte := 0
  deriving DecidableEq, Repr, Inhabited

/-- Gate state of a stall (Table PST-6). -/
inductive Gate where
  | active | clockGated | powerGated | off
  deriving DecidableEq, Repr, Inhabited

/-- The self-test results of a stall (Table BTD-6). -/
structure Bist where
  state : Nat := 0
  kind : Nat := 0
  verdict : Nat := 0
  fenceFlags : Nat := 0
  logicMisr : W64 := 0
  logicGolden : W64 := 0
  memoryMisr : W64 := 0
  memoryGolden : W64 := 0
  doneTime : Nat := 0
  runs : Nat := 0
  deriving DecidableEq, Repr, Inhabited

/-- One group of stalls in BIST (R513): its stalls, the KIND of its run, and whether it is the run's last. -/
structure BistGroup where
  stalls : List Nat
  kind : Nat
  last : Bool
  deriving DecidableEq, Repr, Inhabited

/-- One core's counters (TGC_CORE) and barriers. -/
structure Core where
  regParity : Nat := 0
  l1Parity : Nat := 0
  /-- Barriers by number: the count N and the slots waiting (R196). -/
  barriers : Tbl (Nat × List Nat) := []
  /-- The instruction cache: virtual lines of 1 KiB with the words each held when it was filled, newest first (R203). -/
  icache : List (Nat × List W64) := []
  /-- Lines of the instruction cache whose parity is wrong (Table TGC-1). -/
  icacheOdd : List Nat := []
  /-- Atomic requests of the core that wait at a home, oldest first: slot and line. -/
  asked : List (Nat × Nat) := []
  deriving DecidableEq, Repr, Inhabited

/-- One logical stall. -/
structure Stall where
  fenced : Bool := false
  gate : Gate := .powerGated
  mxe : MUnit := {}
  mvu : MUnit := {}
  feederMxe : Feeder := {}
  feederMvu : Feeder := {}
  router : Router := {}
  fills : List FillLine := []
  spills : List SpillLine := []
  /-- Parts resident in schedule memory (R147). -/
  parts : List Nat := []
  /-- The part in schedule memory is to be paged again after a parity error (R296). -/
  repage : Bool := false
  /-- Parts in schedule memory that fail their parity where they are read (R293). -/
  badParts : List Nat := []
  /-- The bell flit that its router sent in the last tick; all zero where it combined none (R155). -/
  bell : BellFlit := {}
  /-- The first detail of the detected errors at the stall in the attempt in progress (R155, R294). -/
  error : Option Nat := none
  /-- The stall makes a stage request (R300). -/
  stageReq : Bool := false
  /-- The stage wire of its router in the last cycles, newest first (R300). -/
  stageWire : List Bool := []
  ledger : List LedgerEntry := []
  sliceParity : Nat := 0
  rehoming : Bool := false
  /-- Times of the hardware parity detections that count toward a fence, newest first, in DEV_TIME ticks (R510). -/
  parityTimes : List Nat := []
  cores : Tbl Core := []
  bist : Bist := {}
  deriving DecidableEq, Repr, Inhabited

/-- One scheduled domain: partition and die (R117, R118, R456, R461). -/
structure Domain where
  ticks : Nat := 0
  epochTick : Nat := 0
  mask : Nat := 0
  extra : Nat := 0
  withheld : Nat := 0
  /-- Cycles since epoch tick 0, withheld ones included (R161). -/
  cycles : Nat := 0
  /-- Ticks of bell waits taken after the epoch's last tick (R157, R159). -/
  bellTicks : Nat := 0
  /-- Bell ticks taken before the BELL step: each of the domain's stalls held READY for every stall (R157). -/
  bellTick : Nat := 0
  /-- The last cycle was a tick of a bell wait. -/
  waits : Bool := false
  /-- The run of lost ticks in progress: cause, first epoch tick, count (R516). -/
  lost : Option (Nat × Nat × Nat) := none
  /-- The run of stretched cycles in progress (R137): first epoch tick, count. -/
  stretch : Option (Nat × Nat) := none
  /-- A stage request has reached the domain (R300). -/
  stopped : Bool := false
  /-- The last cycle was withheld. -/
  held : Bool := false
  /-- Ticks of the link allowance taken while the bell waited (R342). -/
  linkTicks : Nat := 0
  /-- Ticks and withheld cycles at the last power sample (R452). -/
  sampleTicks : Nat := 0
  sampleWithheld : Nat := 0
  deriving DecidableEq, Repr, Inhabited

/-- One group on a core (R174 to R176). -/
structure Group where
  live : Bool := false
  part : Nat := 0
  index : Nat := 0
  pc : Nat := 0
  /-- Vector registers by 32 · register + lane. -/
  v : Tbl W32 := []
  u : Tbl W64 := []
  preds : Tbl W32 := []
  active : W32 := 0
  exited : W32 := 0
  /-- Reconvergence stack, top first: (is PATH, pc, mask). -/
  stack : List (Bool × Nat × W32) := []
  gstat : W64 := 0
  /-- Registers whose parity is wrong: lane l of vector register r as 32 · r + l, uniform register r as 2,048 + r, predicate r
  as 2,080 + r (Table CHK-2). -/
  odd : List Nat := []
  /-- Requests issued so far: the ordinal of R193. -/
  ordinal : Nat := 0
  /-- The group waits at a barrier (R196). -/
  waiting : Bool := false
  /-- Lines whose request of the instruction in progress has left and is not answered here. -/
  asked : List Nat := []
  /-- Answers to atomic requests of the instruction in progress, by line: 8 bytes a lane. -/
  replies : List (Nat × List Host.Cell) := []
  deriving DecidableEq, Repr, Inhabited

/-! ## Dies, edges, memory channels and links -/

/-- One compute die (PWR_DIE, PST_CLOCK). -/
structure Die where
  tj : Nat := 0
  thermal : Nat := 0
  droop : Bool := false
  droops : Nat := 0
  coreMhz : Nat := 2600
  /-- Microseconds for which every core share has stayed at 0 (R457). -/
  coreZero : Nat := 0
  /-- VIN_IVR below 1.70 V acts as a droop (R534). -/
  lowVinDroop : Bool := false
  /-- Feedback share that a long droop adds (R465). -/
  droopShare : Nat := 0
  pllM : Bool := false
  pllC : Bool := false
  lockLosses : Nat := 0
  deriving DecidableEq, Repr, Inhabited

/-- One die-to-die edge beyond its fixed module count (EDGE_STATUS). S is 0 where it stands at its reset value. -/
structure Edge where
  streams : Nat := 0
  /-- Modules out of service (R24). -/
  failed : Nat := 0
  deriving DecidableEq, Repr, Inhabited

/-- A flit on a stream module: the sender's epoch tick in which it was sent, its tick mark, and the flit (R132). -/
structure CrossFlit where
  tick : Nat
  mark : Byte
  flit : WireFlit
  deriving DecidableEq, Repr, Inhabited

/-- One direction of a stream module's crossing (R132, R133, XING_STATUS): flits by sender tick, oldest first. -/
structure Crossing where
  flits : List CrossFlit := []
  maxOcc : Nat := 0
  markErrs : Nat := 0
  deriving DecidableEq, Repr, Inhabited

/-- One LSM stack (LSM_STACK). -/
structure Stack where
  temp : Nat := 0
  throttle : Bool := false
  stopped : Bool := false
  selfRefresh : Bool := false
  trained : Bool := false
  stopTime : Nat := 0
  deriving DecidableEq, Repr, Inhabited

/-- An access that a channel has queued or serves (R268, R271): its requester (a partition, or 64 for device traffic), the
line of own LSM, the bursts that have not come back, whether it writes, and for whom it reads. -/
structure MemAccess where
  requester : Nat
  line : Nat
  mask : Nat
  write : Bool
  reader : BurstReader
  /-- The device address of the cacheline that the host reads of a line in no grant. -/
  address : Nat := 0
  deriving DecidableEq, Repr

/-- One memory channel (LSM_CHAN), its scrambler seed's generation, refresh count and the reissues of its accesses. -/
structure Chan where
  /-- The scrambler seed (R277). No agent reads it. -/
  seed : Nat := 0
  retries : Nat := 0
  persistent : Nat := 0
  retrains : Nat := 0
  failed : Bool := false
  /-- Refresh commands issued, by bank (R273). -/
  refreshes : Tbl Nat := []
  recalibrations : Nat := 0
  /-- Reissues so far of the access in progress, by burst and whether it is a write. -/
  attempts : List (Nat × Bool × Nat) := []
  /-- Retries in the last millisecond, as DEV_TIME ticks, newest first (R275). -/
  recent : List Nat := []
  /-- Accesses that wait, in order of arrival (R271). -/
  queue : List MemAccess := []
  /-- The access that the channel serves. -/
  serving : Option MemAccess := none
  /-- The requester whose turn it is, and the allowances in bursts (R272). -/
  turn : Nat := 64
  allow : Tbl Nat := []
  deriving DecidableEq, Repr, Inhabited

/-- One record of LSM_FAIL_LOG (R286). -/
structure FailRecord where
  burst : Nat
  write : Bool
  part : Nat
  granted : Bool
  deriving DecidableEq, Repr, Inhabited

/-- One record of CHK_LOG and CHK_LOG_TICK (R316, R320). -/
structure ChkRecord where
  detail : Nat
  cls : Nat
  part : Nat
  stall : Option Nat
  deviceWide : Bool
  attempt : Nat
  tick : Nat
  deriving DecidableEq, Repr, Inhabited

/-- A port's training state (ZLK_PORT.STATE). -/
inductive PortState where
  | off | training | up | failed
  deriving DecidableEq, Repr, Inhabited

/-- A frame sent and not yet acknowledged: SEQ and the commit units whose items it carried (R327). -/
structure SentFrame where
  seq : Nat
  units : List (Nat × Nat × Nat)
  time : Nat
  deriving DecidableEq, Repr, Inhabited

/-- One item queued for sending: the row's TYPE and the item. -/
structure SendItem where
  type : Nat
  item : Item
  deriving DecidableEq, Repr

/-- One Zuloilo port (R321 to R339, ZLK_PORT, ZLK_PORT_ERR). -/
structure ZPort where
  enabled : Bool := false
  state : PortState := .off
  farDevice : Nat := 0
  farPort : Nat := 0
  reversed : Bool := false
  polarity : Nat := 0
  delay : Nat := 0
  helloSeen : Bool := false
  /-- Consecutive good frames received in training, up to the 16 that lock framing (R322). -/
  locked : Nat := 0
  /-- The training in progress is a retraining (R327). -/
  retraining : Bool := false
  /-- DEV_TIME at which training began (R322), and of the last good frame, or of coming UP (R327). -/
  since : Nat := 0
  lastGood : Nat := 0
  /-- Stream flits since the last that arrived are lost (R327, R335). -/
  gap : Bool := false
  fecCorr : Nat := 0
  lostFrames : Nat := 0
  retrains : Nat := 0
  /-- Next SEQ expected and next SEQ to send. -/
  rxSeq : Nat := 0
  txSeq : Nat := 0
  sinceAck : Nat := 0
  unacked : List SentFrame := []
  recentLost : List Nat := []
  sendItems : List SendItem := []
  sendSymbols : List W64 := []
  /-- Outgoing stream flits with their sender ticks, oldest first (R336). -/
  sendFlits : List (Nat × Option (BitVec 512)) := []
  /-- Stream buffer of the receive side: flits by sender tick (R335). -/
  rxFlits : List (Nat × BitVec 512) := []
  /-- Sender ticks delivered here, and those the far end has credited. -/
  delivered : Nat := 0
  credited : Nat := 0
  /-- The count last sent by CREDIT, and the sender tick of the last stream flit received. -/
  creditSent : Nat := 0
  rxLast : Option Nat := none
  /-- Slots of the oldest waiting item that have left (R328). -/
  itemSlots : Nat := 0
  deriving DecidableEq, Repr, Inhabited

/-- A numbering walk of R331 as this device takes part: the port its number came by (none at the device that began it),
the port being visited, the next free number, the base and the number held before, and the ports from which an offer of this
walk has come meanwhile. -/
structure Enumeration where
  parent : Option Nat
  port : Nat
  next : Nat
  base : Nat
  before : Nat
  met : Nat := 0
  deriving DecidableEq, Repr, Inhabited

/-- The device's links: numbering, group, routes, flood keys seen (R326, R330 to R332, ZLK_DEVICE, ZLK_ROUTE). -/
structure Links where
  number : Nat := 0
  enumerated : Bool := false
  groupId : W16 := 0
  diameter : Nat := 0
  ports : Tbl ZPort := []
  /-- Number of the draw behind the routes that are not to a neighbour (R332, log entry 60). -/
  routeSeed : Nat := 0
  /-- An enumeration in progress at this device. -/
  enumeration : Option Enumeration := none
  /-- Ports to devices that had their number before this one's offer came, whose own offer of the same walk is still to come. -/
  owed : Nat := 0
  /-- Read and atomic requests of other devices that wait at a home: port, TYPE and item. -/
  served : List (Nat × Nat × Item) := []
  /-- Read requests of other devices over more than one line that wait for a commit to end (R249), by partition. -/
  late : List (Nat × Item) := []
  /-- Flood keys: symbol with routing fields removed, and when first received. -/
  seen : List (Nat × Nat) := []
  reservedSymbols : Nat := 0
  reachSeq : Nat := 0
  linkedStarts : Nat := 0
  /-- JOIN symbols of members (device, partition) that no partition's group names yet (R334). -/
  joins : List (Nat × Nat) := []
  /-- A linked START's flood or the steering error last computed (R337), in ticks. -/
  steering : Int := 0
  deriving DecidableEq, Repr, Inhabited

/-! ## Device-wide blocks -/

/-- Cold boot stage (BTD_BOOT.STAGE). -/
inductive Stage where
  | rom | flash | firmware | training | ready | recovery | fatal
  deriving DecidableEq, Repr, Inhabited

/-- Boot state (BTD_BOOT, R498 to R506): the running image, the update in progress, and the fatal detail. -/
structure Boot where
  stage : Stage := .rom
  cause : Nat := 0
  strapRecovery : Bool := false
  strap : BitVec 4 := 0
  fwVersion : Nat := 0
  fwSvn : Nat := 0
  fwHash : BitVec 256 := 0
  /-- IMAGE_BYTES and memory unit of an update begun. -/
  update : Option (Nat × Nat) := none
  programming : Bool := false
  fatalDetail : Nat := 0
  /-- Step 8 of the cold boot has been reached (R499). -/
  reached : Bool := false
  /-- The CAUSE of the cold boot that is due; none while none is. -/
  due : Option Nat := some 0
  /-- The cold boot waits at step 6 for a second of COOLANT_OK (R542). -/
  coolWait : Bool := false
  deriving DecidableEq, Repr, Inhabited

/-- The xSPI flash: image area, owner area and fence record, each copy with whether its CRC is intact (Table BTD-3). -/
structure Flash where
  image : List Host.Cell := []
  owner : List (Option (BitVec 512)) := [none, none]
  fence : List (Option (BitVec 72)) := [some 0, some 0]
  /-- A rewrite of the fence record is under way: the mask to write. -/
  fenceWrite : Option (BitVec 72) := none
  deriving DecidableEq, Repr, Inhabited

/-- Identity and management sessions (R429 to R435, SEC_DEVICE). -/
structure Sec where
  ownerKey : Option (BitVec 512) := none
  aliasValid : Bool := false
  aliasKey : Nat := 0
  /-- Sessions open, by number. -/
  sessions : Tbl Bool := []
  /-- DEV_TIME of the last traffic of a session (Table SEC-1). -/
  traffic : Tbl Nat := []
  deriving DecidableEq, Repr, Inhabited

/-- Device power state (PST_DEVICE). -/
inductive PowerState where
  | run | idle | sleep | deep | off
  deriving DecidableEq, Repr, Inhabited

/-- Scales and the power-state controller (PWR_DEVICE, PST_DEVICE, Table PWR-3, R490). -/
structure Power where
  cap : Nat := 2400
  alert : Bool := false
  /-- Microseconds left of the hold after an alert or a breach of the design limit. -/
  hold : Nat := 0
  /-- An alert is in force or its hold has not ended, so that feedback shares fall from 240/256 afterwards (R467). -/
  fall : Bool := false
  coolantOk : Bool := false
  coolantLow : Nat := 0
  coolantHigh : Nat := 0
  coolantStop : Bool := false
  restartReady : Bool := false
  /-- THERMTRIP_N is low (R470). -/
  tripped : Bool := false
  /-- The cause of the last trip, kept for the next boot to report, and PWR_DEVICE.TRIPPED as that boot reported it. -/
  tripLatched : Bool := false
  tripReport : Bool := false
  edlEvents : Nat := 0
  alerts : Nat := 0
  package : Nat := 0
  average : Nat := 0
  unmanaged : Nat := 0
  /-- U of the last sample, and the samples of package power of the last millisecond, newest first (R451, R452). -/
  sampleU : Nat := 0
  samples : List Nat := []
  /-- DEV_TIME at which a coolant stop began. -/
  stopSince : Nat := 0
  /-- The always-on count at the last entry to DEEP, from which DEV_TIME is recomputed at the wake (R490). -/
  deepSince : Nat := 0
  vin : Nat := 0
  /-- Consecutive samples of VIN_IVR below 1.70 V (R534). -/
  vinLow : Nat := 0
  dieMw : Tbl Nat := []
  energy : Nat := 0
  state : PowerState := .run
  wakeCause : Nat := 0
  /-- The count of AO_CLK32K at the last wake (R495). -/
  wokeAt : Nat := 0
  fromDeep : Bool := false
  padsHeld : Bool := false
  stacksKept : Byte := 0
  deepEntries : Nat := 0
  /-- Every clock is halted: a reset is held, a trip is latched. -/
  halted : Bool := true
  deriving DecidableEq, Repr, Inhabited

/-- Shared resources and trace (BTD_OWNER, BTD_WAKE, R518 to R520). -/
structure Shared where
  syncIo : Nat := 0
  syncIoMgmt : Bool := false
  trace : Nat := 0
  traceMgmt : Bool := false
  tracing : Bool := false
  wrapped : Bool := false
  next : Nat := 0
  wrap : Bool := false
  startOnTrigger : Bool := false
  stopOnTrigger : Bool := false
  /-- The trace buffer's bytes. -/
  buffer : List Host.Cell := []
  /-- Wake timers by channel: claiming port is management, seconds left. -/
  wake : Tbl (Bool × Nat) := []
  wakeOwned : Nat := 0
  deriving DecidableEq, Repr, Inhabited

/-- One companion site (COMP_STATUS, COMP_ID). -/
structure Site where
  state : Nat := 0
  modules : Nat := 0
  rate : Nat := 0
  flit256 : Bool := false
  units : Nat := 0
  vendor : W16 := 0
  device : W16 := 0
  /-- Requests outstanding, oldest first: partition, offset of the cacheline, and whether it is a write. -/
  pending : List (Nat × Nat × Bool) := []
  /-- Cachelines read and not yet taken by their reader: partition, offset, data. -/
  data : List (Nat × Nat × List Byte) := []
  deriving DecidableEq, Repr, Inhabited

/-- The JTAG port (R522): the instruction in force and the value last captured for shifting out. -/
structure Jtag where
  instruction : Byte := 0x01
  data : W64 := 0
  deriving DecidableEq, Repr, Inhabited

/-- The fuses (Table BTD-5), as the three shadow copies hold them. -/
structure Fuses where
  /-- Enabled map of each die, 18 bits. -/
  harvest : List Nat := [0x0FFFF, 0x0FFFF, 0x0FFFF, 0x0FFFF]
  /-- Disabled ways by slice. -/
  wayDisable : Tbl (BitVec 16) := []
  /-- The physical rows, and columns, of the array of position 18 · die + p that are mapped out, at most two of each and
  below 130 (R65, R66). -/
  rowsOut : Tbl (List Nat) := []
  colsOut : Tbl (List Nat) := []
  keyHashes : List (BitVec 256) := []
  revoked : BitVec 4 := 0
  svnFloor : Nat := 0
  /-- The ordering code: BXK-S64-K or BXK-S64-A (R2; the device at reset is a -A: DESIGN CHOICE, log entry 3). -/
  orderingK : Bool := false
  /-- Lot, wafer and die position (Table BTD-5). -/
  origin : Nat := 0
  /-- Base-die repair data of each stack, which its training uses (Table BTD-5). -/
  stackRepair : Tbl Nat := []
  deriving DecidableEq, Repr, Inhabited

/-- Something the device put out at an edge of the package. -/
inductive Output where
  /-- A write to host memory by CXL.io with the requester of a function: address and bytes. -/
  | hostWrite (fn : Nat) (address : Nat) (data : List Byte)
  /-- A read of host memory by CXL.io for a Porter. -/
  | hostRead (fn : Nat) (address : Nat) (bytes : Nat)
  | msix (fn : Nat) (vector : Nat)
  /-- A management response: session, reply entry, output block. -/
  | mgmtReply (session : Nat) (tag status detail : Nat) (block : List Byte)
  /-- An SPDM response on the management port: a session number opened by KEY_EXCHANGE. -/
  | sessionOpened (session : Nat)
  /-- SPDM error Busy. -/
  | spdmBusy
  /-- A refused SPDM request: of a function's DOE mailbox, or of the management port. -/
  | spdmRefused (fn : Option Nat)
  /-- Measurement blocks of a function's DOE mailbox: the number it has, and each asked for with its value (R438). -/
  | measurements (fn : Nat) (count : Nat) (blocks : List (Nat × List Byte))
  /-- A completion to a host access: register or data-port read data. -/
  | readData (data : List Byte)
  | unsupportedRequest
  | retryStatus
  | configCompletion (value : W32)
  /-- A CXL.mem response with its data; poisoned data says so. -/
  | memData (address : Nat) (data : List Byte) (poison : Bool)
  | memDone (address : Nat) (status detail : Nat)
  /-- BISnpInv for a number of cachelines from an address on (R233). -/
  | backInvalidate (address cachelines : Nat)
  | rspIHitI (hpa : Nat)
  | cacheRead (hpa : Nat)
  | cacheWrite (hpa : Nat) (cells : List Host.Cell)
  | companionRequest (site : Nat) (write : Bool) (address : Nat) (data : List Byte)
  /-- A core's store to one line of a companion site: address of the line, and the bytes of one access (R185). -/
  | companionStore (site : Nat) (address : Nat) (cells : List Host.Cell)
  | symbol (port : Nat) (value : W64)
  /-- A frame sent on a port (R324). -/
  | frame (port : Nat) (f : Frame)
  /-- A pin changes: name by number, level. -/
  | pin (name : String) (level : Bool)
  | i3cNack
  deriving DecidableEq, Repr

/-- The state of the device. -/
structure State where
  /-- LSM: the bytes memory holds, committed values (R26, R225). -/
  mem : List Host.Cell := []
  /-- Scratchpads by stall · 8 MiB + physical offset (Table ORG-7, R153). -/
  spad : List Host.Cell := []
  /-- Memory units that are clean (R410). -/
  clean : Nat := 0
  parts : Tbl Part := []
  stalls : Tbl Stall := []
  /-- Physical positions fenced in the field, bit 18 · die + p (R509). -/
  fencedPos : Nat := 0
  domains : Tbl Domain := []
  groups : Tbl Group := []
  /-- Cachelines the device has asked the host for: partition, host address, and the data once it has arrived (R230). -/
  hostFetch : List (Nat × Nat × Option (List Byte)) := []
  /-- Commit writes of host-window lines not yet completed by the host: partition and host address (R230, R240). -/
  hostCommit : List (Nat × Nat) := []
  /-- The stream detector of the host port (R235). -/
  hostStream : List (Nat × Nat × Nat) := []
  l1s : Tbl (Tbl L1Line) := []
  noc : List NocMsg := []
  /-- Granules of 32 bytes of the scratchpads whose parity is wrong, by byte number over 32 (Table CHK-2). -/
  spadOdd : List Nat := []
  dies : Tbl Die := []
  edges : Tbl Edge := []
  crossings : Tbl Crossing := []
  /-- Words on the bell sidebands by 2 · edge + direction, newest first (R25). -/
  sidebands : Tbl (List SideWord) := []
  hbm : Tbl Stack := []
  chans : Tbl Chan := []
  /-- LSM_FAIL_LOG, newest first, and how many records were made. -/
  failLog : List FailRecord := []
  failCount : Nat := 0
  /-- CHK_LOG, newest first, and how many records were made. -/
  chkLog : List ChkRecord := []
  chkCount : Nat := 0
  /-- Copies of the fuse shadow whose CRC fails (R313). -/
  fuseOdd : List Nat := []
  fuseRewrites : Nat := 0
  pitchRewrites : Nat := 0
  sessionRewrites : Nat := 0
  links : Links := {}
  fns : Tbl FnState := []
  outstanding : List Outstanding := []
  sec : Sec := {}
  boot : Boot := {}
  flash : Flash := {}
  fuses : Fuses := {}
  power : Power := {}
  shared : Shared := {}
  sites : Tbl Site := []
  jtag : Jtag := {}
  i3cAddress : BitVec 7 := 0x58
  i3cDynamic : Bool := false
  /-- PERST_N is low. -/
  perst : Bool := true
  hostRate : Nat := 0
  hostWidth : Nat := 0
  /-- BIST groups that wait or run, the running one first (R513). -/
  bistQueue : List BistGroup := []
  /-- DEV_TIME: 3.3 GHz ticks since cold boot. -/
  devTime : Nat := 0
  /-- AO_CLK32K cycles since VDD_AO came up. -/
  aoCount : Nat := 0
  out : List Output := []
  /-- The model's own counter of free values. -/
  fresh : Nat := 0
  /-- Commands that wait, first in, first out. -/
  pending : List Instr := []
  deriving DecidableEq, Repr

/-- Why a run stops with a fault. No meaning raises one: the manual gives every command an effect. -/
inductive Fault where
  /-- Kept for behaviour outside every promise of R5; raised by no meaning (safe). -/
  | beyondPromise
  deriving DecidableEq, Repr

/-- Why a command has no meaning. -/
inductive Refusal where
  /-- An arm of the dispatch not modelled yet; raised by none today (safe). -/
  | notModelled (mnemonic : String)
  deriving DecidableEq, Repr

/-- The device right after reset, before its cold boot: every field at its reset value. -/
def State.reset : State := {}

end Sys2Proof.Machine
end

