-- ==== Sys2Proof/Machine/Ops.lean ====
section
/-! DEFINITION. Plain operations that every meaning shares: sparse tables, byte strings in little-endian order (R6),
memory in canonical form, and access to the units of the state. -/

namespace Sys2Proof.Machine

/-! ## Sparse tables -/

/-- Entry `i` of a table; the reset value where none stands. -/
def tget {α : Type} [Inhabited α] (t : Tbl α) (i : Nat) : α :=
  match t with
  | [] => default
  | (j, v) :: r => if j = i then v else tget r i

/-- Entry `i` of a table, if it was ever set. -/
def tget? {α : Type} (t : Tbl α) (i : Nat) : Option α :=
  match t with
  | [] => none
  | (j, v) :: r => if j = i then some v else tget? r i

/-- The table without entry `i`. -/
def tdel {α : Type} (t : Tbl α) (i : Nat) : Tbl α := t.filter (fun e => e.1 ≠ i)

/-- The table with entry `i` set. -/
def tset {α : Type} (t : Tbl α) (i : Nat) (v : α) : Tbl α := (i, v) :: tdel t i

/-- The table with entry `i` changed by `f`. -/
def tmod {α : Type} [Inhabited α] (t : Tbl α) (i : Nat) (f : α → α) : Tbl α := tset t i (f (tget t i))

/-! ## Bytes and numbers (R6: little-endian) -/

/-- The number a string of bytes spells, least significant first. -/
def leNat : List Byte → Nat
  | [] => 0
  | b :: r => b.toNat + 256 * leNat r

/-- The lowest `n` bytes of a number, least significant first. -/
def natLe : Nat → Nat → List Byte
  | 0, _ => []
  | n + 1, x => BitVec.ofNat 8 x :: natLe n (x / 256)

/-- `n` bytes from byte `o` of a string, as a number; bytes past its end read 0. -/
def field (bs : List Byte) (o n : Nat) : Nat := leNat ((bs.drop o).take n)

/-- A string of exactly `n` bytes: cut, or padded with zeros. -/
def padTo (n : Nat) (bs : List Byte) : List Byte := bs.take n ++ List.replicate (n - bs.length) 0

/-- The bytes of a list of 32-bit words. -/
def wordBytes (ws : List W32) : List Byte := ws.flatMap (fun w => natLe 4 w.toNat)

/-- The bytes of a list of 64-bit words. -/
def wordBytes64 (ws : List W64) : List Byte := ws.flatMap (fun w => natLe 8 w.toNat)

/-- Whether every bit of `lo ≤ i < lo + n` of a number is 0. -/
def zeroBits (x lo n : Nat) : Bool := x / 2 ^ lo % 2 ^ n = 0

/-- The numbers of the bits set below `n`, ascending. -/
def setBits (x n : Nat) : List Nat := (List.range n).filter (fun i => bit x i)

/-- The number whose set bits are listed. -/
def ofBits (l : List Nat) : Nat := l.foldl (fun x i => if bit x i then x else x + 2 ^ i) 0

/-- How many bits are set below `n`. -/
def popCount (x n : Nat) : Nat := (setBits x n).length

/-- A number with bit `i` set. -/
def setBit (x i : Nat) : Nat := if bit x i then x else x + 2 ^ i

/-- A number with bit `i` cleared. -/
def clearBit (x i : Nat) : Nat := if bit x i then x - 2 ^ i else x

/-- Bool as a number. -/
def b2n (b : Bool) : Nat := if b then 1 else 0

/-- A counter that stops at `top`. -/
def satInc (x top : Nat) : Nat := if x < top then x + 1 else top

/-- Packs fields, each with its lowest bit and its width, into one number. -/
def pack (fs : List (Nat × Nat × Nat)) : Nat := fs.foldl (fun x f => x + f.2.2 % 2 ^ f.2.1 * 2 ^ f.1) 0

/-- The first entry of a list of pairs with the key asked for. -/
def lookup {α : Type} (l : List (Nat × α)) (i : Nat) : Option α := tget? l i

/-! ## Memory in canonical form -/

/-- One byte of a memory; an unlisted address reads 0 (DESIGN CHOICE, log entry 4). -/
def mread : List Host.Cell → Nat → Byte
  | [], _ => 0
  | (b, v) :: r, a => if a = b then v else if a < b then 0 else mread r a

/-- A memory with one byte written: addresses stay strictly rising, and a byte of 0 is not listed. -/
def mwrite : List Host.Cell → Nat → Byte → List Host.Cell
  | [], a, x => if x = 0 then [] else [(a, x)]
  | (b, v) :: r, a, x =>
    if a = b then (if x = 0 then r else (b, x) :: r)
    else if a < b then (if x = 0 then (b, v) :: r else (a, x) :: (b, v) :: r)
    else (b, v) :: mwrite r a x

/-- Whether every listed address is above `lo`, rising, with no byte of 0. -/
def mwfFrom : Nat → List Host.Cell → Bool
  | _, [] => true
  | lo, (a, v) :: r => decide (lo ≤ a) && v != 0 && mwfFrom (a + 1) r

/-- The canonical form: addresses strictly rising, no byte equal to what an unlisted address reads as. -/
def Memory.wf (m : List Host.Cell) : Bool := mwfFrom 0 m

/-- `n` bytes from address `a`. -/
def mreads (m : List Host.Cell) (a n : Nat) : List Byte := (List.range n).map (fun i => mread m (a + i))

/-- A memory with a string of bytes written from address `a`. -/
def mwrites (m : List Host.Cell) (a : Nat) : List Byte → List Host.Cell
  | [] => m
  | b :: r => mwrites (mwrite m a b) (a + 1) r

/-- A memory with listed bytes written at an offset from `a`. -/
def mwriteCells (m : List Host.Cell) (a : Nat) (cs : List Host.Cell) : List Host.Cell :=
  cs.foldl (fun m c => mwrite m (a + c.1) c.2) m

/-- A memory with every byte of a range zero-written. -/
def mzero (m : List Host.Cell) (a n : Nat) : List Host.Cell := m.filter (fun c => c.1 < a || a + n ≤ c.1)

/-! ## Overlays: bytes held above memory, by offset -/

/-- The overlay's byte at an offset. -/
def oget (o : List Host.Cell) (i : Nat) : Option Byte := tget? o i

/-- The overlay with bytes laid over it. -/
def olay (o : List Host.Cell) (cs : List Host.Cell) : List Host.Cell :=
  cs.foldl (fun o c => tset o c.1 c.2) o

/-- The cells of a byte string from an offset. -/
def cellsAt (o : Nat) (bs : List Byte) : List Host.Cell := (List.range bs.length).zip bs |>.map (fun c => (o + c.1, c.2))

/-! ## Units of the state -/

/-- Partition `p`. -/
def State.part (s : State) (p : Nat) : Part := tget s.parts p
/-- The state with partition `p` changed. -/
def State.modPart (s : State) (p : Nat) (f : Part → Part) : State := { s with parts := tmod s.parts p f }
/-- Logical stall `i`. -/
def State.stall (s : State) (i : Nat) : Stall := tget s.stalls i
/-- The state with stall `i` changed. -/
def State.modStall (s : State) (i : Nat) (f : Stall → Stall) : State := { s with stalls := tmod s.stalls i f }
/-- Function `fn`: 0 PF0, n VF n. -/
def State.fn (s : State) (fn : Nat) : FnState := tget s.fns fn
/-- The state with function `fn` changed. -/
def State.modFn (s : State) (fn : Nat) (f : FnState → FnState) : State := { s with fns := tmod s.fns fn f }
/-- The domain of partition `p` on die `d`. -/
def State.dom (s : State) (p d : Nat) : Domain := tget s.domains (4 * p + d)
/-- The state with the domain of `p` on `d` changed. -/
def State.modDom (s : State) (p d : Nat) (f : Domain → Domain) : State :=
  { s with domains := tmod s.domains (4 * p + d) f }
/-- Die `d`. -/
def State.die (s : State) (d : Nat) : Die := tget s.dies d
/-- The state with die `d` changed. -/
def State.modDie (s : State) (d : Nat) (f : Die → Die) : State := { s with dies := tmod s.dies d f }
/-- Memory channel `c`. -/
def State.chan (s : State) (c : Nat) : Chan := tget s.chans c
/-- The state with channel `c` changed. -/
def State.modChan (s : State) (c : Nat) (f : Chan → Chan) : State := { s with chans := tmod s.chans c f }
/-- Zuloilo port `j`. -/
def State.port (s : State) (j : Nat) : ZPort := tget s.links.ports j
/-- The state with port `j` changed. -/
def State.modPort (s : State) (j : Nat) (f : ZPort → ZPort) : State :=
  { s with links := { s.links with ports := tmod s.links.ports j f } }
/-- Companion site `i`. -/
def State.site (s : State) (i : Nat) : Site := tget s.sites i
/-- The state with site `i` changed. -/
def State.modSite (s : State) (i : Nat) (f : Site → Site) : State := { s with sites := tmod s.sites i f }
/-- The number of a group slot: stall, core and slot. -/
def groupKey (stall core slot : Nat) : Nat := (stall * 12 + core) * 64 + slot
/-- One group slot. -/
def State.group (s : State) (g : GroupRef) : Group := tget s.groups (groupKey g.stall g.core g.slot)
/-- The state with one group slot changed. -/
def State.modGroup (s : State) (g : GroupRef) (f : Group → Group) : State :=
  { s with groups := tmod s.groups (groupKey g.stall g.core g.slot) f }
/-- The number of an L1. -/
def l1Key (l : L1Id) : Nat := l.stall * 12 + l.core
/-- One line of one L1. -/
def State.l1Line (s : State) (l : L1Id) (a : Nat) : L1Line := tget (tget s.l1s (l1Key l)) a
/-- The state with one L1 line changed. -/
def State.modL1 (s : State) (l : L1Id) (a : Nat) (f : L1Line → L1Line) : State :=
  { s with l1s := tset s.l1s (l1Key l) (tmod (tget s.l1s (l1Key l)) a f) }
/-- One line of partition `p` at its home. -/
def State.line (s : State) (p a : Nat) : Line := tget (s.part p).cache.lines a
/-- The state with one line at its home changed. -/
def State.modLine (s : State) (p a : Nat) (f : Line → Line) : State :=
  s.modPart p (fun q => { q with cache := { q.cache with lines := tmod q.cache.lines a f } })
/-- Something leaves the device. -/
def State.emit (s : State) (o : Output) : State := { s with out := o :: s.out }
/-- The next free value's number, and the state that has used it. -/
def State.draw (s : State) : Nat × State := (s.fresh, { s with fresh := s.fresh + 1 })

/-! ## Partition geometry -/

/-- The logical stalls of partition `p`'s pitch record. -/
def stallsOf (s : State) (p : Nat) : List Nat := setBits (s.part p).record.stalls 64

/-- The die of a logical stall (R12). -/
def dieOf (i : Nat) : Nat := i / 16

/-- The dies on which partition `p` has stalls, ascending. -/
def diesOf (s : State) (p : Nat) : List Nat := (List.range 4).filter (fun d => (stallsOf s p).any (fun i => dieOf i == d))

/-- The partition that lists a stall, if one does. -/
def ownerOfStall (s : State) (i : Nat) : Option Nat :=
  (List.range 64).find? (fun p => (s.part p).present && bit (s.part p).record.stalls i)

/-- Partitions that exist. -/
def partsOf (s : State) : List Nat := (List.range 64).filter (fun p => (s.part p).present)

/-- The enabled positions of die `d`, ascending (R12). -/
def enabledPos (s : State) (d : Nat) : List Nat :=
  setBits (s.fuses.harvest.getD d 0) 18

/-- The physical index p of a logical stall within its die (R12). -/
def physOf (s : State) (i : Nat) : Nat := (enabledPos s (dieOf i)).getD (i % 16) 0

/-- The row of a logical stall (R12). -/
def rowOf (s : State) (i : Nat) : Nat := physOf s i / 6
/-- The column of a logical stall (R12). -/
def colOf (s : State) (i : Nat) : Nat := physOf s i % 6

/-- Whether a logical stall is fenced (R13, R509). -/
def isFenced (s : State) (i : Nat) : Bool := (s.stall i).fenced || bit s.fencedPos (18 * dieOf i + physOf s i)

/-- A domain's tick counter of the partition's lowest-numbered stall (Table HST-6). -/
def partTick (s : State) (p : Nat) : Nat :=
  match stallsOf s p with
  | [] => 0
  | i :: _ => (s.dom p (dieOf i)).ticks

/-- The tick counter a reply or a log entry of partition `p` carries: the domain's while a job runs, else DEV_TIME
(Table HST-6). -/
def tickFor (s : State) (p : Nat) : Nat :=
  if (s.part p).job.running then partTick s p else s.devTime

/-- Whether partition `p` is a member of a linked job group. -/
def isLinked (s : State) (p : Nat) : Bool := !(s.part p).zlk.members.isEmpty

end Sys2Proof.Machine
end

