-- ==== Sys2Proof/Machine/Crypto.lean ====
section
/-! DEFINITION. The cryptography the spec names by its standards: SHA-256, HMAC and HKDF, AES-256 with GCM and key wrap,
and the curve P-256 with ECDSA. Byte strings stand in the order of their standards (spec/16). -/

namespace Sys2Proof.Machine

/-! ## Big-endian numbers -/

/-- The number a byte string spells, most significant first. -/
def beNat (bs : List Byte) : Nat := bs.foldl (fun x b => 256 * x + b.toNat) 0
/-- The lowest `n` bytes of a number, most significant first. -/
def natBe (n x : Nat) : List Byte := (natLe n x).reverse

/-! ## SHA-256 -/

/-- Round constants. -/
def shaK : List W32 :=
  [0x428a2f98, 0x71374491, 0xb5c0fbcf, 0xe9b5dba5, 0x3956c25b, 0x59f111f1, 0x923f82a4, 0xab1c5ed5] ++
   [0xd807aa98, 0x12835b01, 0x243185be, 0x550c7dc3, 0x72be5d74, 0x80deb1fe, 0x9bdc06a7, 0xc19bf174] ++
   [0xe49b69c1, 0xefbe4786, 0x0fc19dc6, 0x240ca1cc, 0x2de92c6f, 0x4a7484aa, 0x5cb0a9dc, 0x76f988da] ++
   [0x983e5152, 0xa831c66d, 0xb00327c8, 0xbf597fc7, 0xc6e00bf3, 0xd5a79147, 0x06ca6351, 0x14292967] ++
   [0x27b70a85, 0x2e1b2138, 0x4d2c6dfc, 0x53380d13, 0x650a7354, 0x766a0abb, 0x81c2c92e, 0x92722c85] ++
   [0xa2bfe8a1, 0xa81a664b, 0xc24b8b70, 0xc76c51a3, 0xd192e819, 0xd6990624, 0xf40e3585, 0x106aa070] ++
   [0x19a4c116, 0x1e376c08, 0x2748774c, 0x34b0bcb5, 0x391c0cb3, 0x4ed8aa4a, 0x5b9cca4f, 0x682e6ff3] ++
   [0x748f82ee, 0x78a5636f, 0x84c87814, 0x8cc70208, 0x90befffa, 0xa4506ceb, 0xbef9a3f7, 0xc67178f2]

/-- Initial hash value. -/
def shaH0 : List W32 := [0x6a09e667, 0xbb67ae85, 0x3c6ef372, 0xa54ff53a, 0x510e527f, 0x9b05688c, 0x1f83d9ab, 0x5be0cd19]

/-- The message schedule after sixteen words: one word more. -/
def shaNext (w : List W32) : W32 :=
  let at' := fun i => w.getD (w.length - i) 0
  let s0 := (at' 15).rotateRight 7 ^^^ (at' 15).rotateRight 18 ^^^ (at' 15) >>> 3
  let s1 := (at' 2).rotateRight 17 ^^^ (at' 2).rotateRight 19 ^^^ (at' 2) >>> 10
  at' 16 + s0 + at' 7 + s1

/-- The 64 words of a block's schedule. -/
def shaSchedule (w : List W32) : List W32 := (List.range 48).foldl (fun w _ => w ++ [shaNext w]) w

/-- One round on the eight working words. -/
def shaRound (v : List W32) (kw : W32) : List W32 :=
  match v with
  | [a, b, c, d, e, f, g, h] =>
    let s1 := e.rotateRight 6 ^^^ e.rotateRight 11 ^^^ e.rotateRight 25
    let ch := (e &&& f) ^^^ (~~~e &&& g)
    let t1 := h + s1 + ch + kw
    let s0 := a.rotateRight 2 ^^^ a.rotateRight 13 ^^^ a.rotateRight 22
    let mj := (a &&& b) ^^^ (a &&& c) ^^^ (b &&& c)
    [t1 + s0 + mj, a, b, c, d + t1, e, f, g]
  | _ => v

/-- One block of 64 bytes. -/
def shaBlock (h : List W32) (block : List Byte) : List W32 :=
  let w := shaSchedule ((List.range 16).map (fun i => BitVec.ofNat 32 (beNat ((block.drop (4 * i)).take 4))))
  let v := (shaK.zip w).foldl (fun v kw => shaRound v (kw.1 + kw.2)) h
  (h.zip v).map (fun x => x.1 + x.2)

/-- SHA-256 of a byte string. -/
def sha256 (m : List Byte) : List Byte :=
  let z := (119 - m.length % 64) % 64
  let padded := m ++ [0x80] ++ List.replicate z 0 ++ natBe 8 (8 * m.length)
  let h := (List.range (padded.length / 64)).foldl (fun h i => shaBlock h ((padded.drop (64 * i)).take 64)) shaH0
  h.flatMap (fun x => natBe 4 x.toNat)

/-- HMAC-SHA-256. -/
def hmac (key msg : List Byte) : List Byte :=
  let k := padTo 64 (if key.length ≤ 64 then key else sha256 key)
  sha256 (k.map (fun b => b ^^^ 0x5c) ++ sha256 (k.map (fun b => b ^^^ 0x36) ++ msg))

/-- HKDF-SHA-256 output of `n` bytes, `n` at most 64. -/
def hkdf (salt ikm info : List Byte) (n : Nat) : List Byte :=
  let prk := hmac salt ikm
  let t1 := hmac prk (info ++ [1])
  (t1 ++ hmac prk (t1 ++ info ++ [2])).take n

/-- The bytes of an ASCII string. -/
def ascii (s : String) : List Byte := s.toList.map (fun c => BitVec.ofNat 8 c.toNat)

/-! ## AES-256 -/

/-- Multiplication by x in GF(2^8) of AES. -/
def xtime (a : Nat) : Nat := if a < 128 then 2 * a else Nat.xor (2 * a - 256) 0x1b
/-- Multiplication in GF(2^8) of AES, over the bits of `b`. -/
def gmul (a b : Nat) : Nat :=
  ((List.range 8).foldl (fun (r : Nat × Nat) i => (if bit b i then Nat.xor r.1 r.2 else r.1, xtime r.2)) (0, a)).1
/-- a to the power 254: the inverse, 0 for 0. -/
def ginv (a : Nat) : Nat :=
  ((List.range 7).foldl (fun (r : Nat × Nat) _ => let q := gmul r.2 r.2; (gmul r.1 q, q)) (1, a)).1
/-- The S-box: inverse, then the affine map. -/
def sbox (a : Nat) : Nat :=
  let v := ginv a
  let rot := fun n => Nat.lor (v * 2 ^ n % 256) (v / 2 ^ (8 - n))
  Nat.xor (Nat.xor (Nat.xor (Nat.xor (Nat.xor v (rot 1)) (rot 2)) (rot 3)) (rot 4)) 0x63
/-- The inverse S-box. -/
def isbox (a : Nat) : Nat := ((List.range 256).find? (fun x => sbox x = a)).getD 0

/-- The 60 words of the AES-256 key schedule, each four bytes. -/
def aesSchedule (key : List Nat) : List (List Nat) :=
  let w0 := (List.range 8).map (fun i => (key.drop (4 * i)).take 4)
  ((List.range 52).foldl (fun (r : List (List Nat) × Nat) j =>
    let i := j + 8
    let t := r.1.getD (i - 1) []
    let t := if i % 8 = 0 then
        match t with
        | [a, b, c, d] => [Nat.xor (sbox b) r.2, sbox c, sbox d, sbox a]
        | _ => t
      else if i % 8 = 4 then t.map sbox else t
    let n := ((r.1.getD (i - 8) []).zip t).map (fun x => Nat.xor x.1 x.2)
    (r.1 ++ [n], if i % 8 = 0 then xtime r.2 else r.2)) (w0, 1)).1

/-- Exclusive-or of two byte lists. -/
def xors (a b : List Nat) : List Nat := (a.zip b).map (fun x => Nat.xor x.1 x.2)
/-- The round key of round `r`: 16 bytes. -/
def roundKey (ws : List (List Nat)) (r : Nat) : List Nat := ((ws.drop (4 * r)).take 4).flatten
/-- ShiftRows on 16 bytes in column order; `back` inverts it. -/
def shiftRows (back : Bool) (s : List Nat) : List Nat :=
  (List.range 16).map (fun i => let r := i % 4; let c := i / 4
    s.getD (4 * ((c + (if back then 4 - r else r)) % 4) + r) 0)
/-- MixColumns with the first row of its matrix. -/
def mixColumns (m : List Nat) (s : List Nat) : List Nat :=
  (List.range 16).map (fun i => let r := i % 4; let c := i / 4
    (List.range 4).foldl (fun x k => Nat.xor x (gmul (s.getD (4 * c + k) 0) (m.getD ((k + 4 - r) % 4) 0))) 0)

/-- AES-256 encryption of one block. -/
def aesEnc (key : List Byte) (block : List Byte) : List Byte :=
  let ws := aesSchedule (key.map BitVec.toNat)
  let s := xors (block.map BitVec.toNat) (roundKey ws 0)
  let s := (List.range 13).foldl (fun s r =>
    xors (mixColumns [2, 3, 1, 1] (shiftRows false (s.map sbox))) (roundKey ws (r + 1))) s
  (xors (shiftRows false (s.map sbox)) (roundKey ws 14)).map (BitVec.ofNat 8)

/-- AES-256 decryption of one block. -/
def aesDec (key : List Byte) (block : List Byte) : List Byte :=
  let ws := aesSchedule (key.map BitVec.toNat)
  let s := xors (block.map BitVec.toNat) (roundKey ws 14)
  let s := (List.range 13).foldl (fun s r =>
    mixColumns [14, 11, 13, 9] (xors ((shiftRows true s).map isbox) (roundKey ws (13 - r)))) s
  (xors ((shiftRows true s).map isbox) (roundKey ws 0)).map (BitVec.ofNat 8)

/-! ## GCM -/

/-- Multiplication in GF(2^128) of GCM on numbers read big-endian. -/
def ghashMul (x y : Nat) : Nat :=
  ((List.range 128).foldl (fun (r : Nat × Nat) i =>
    (if bit x (127 - i) then Nat.xor r.1 r.2 else r.1,
     if bit r.2 0 then Nat.xor (r.2 / 2) (0xe1 * 2 ^ 120) else r.2 / 2)) (0, y)).1

/-- The 16-byte blocks of a string, the last padded with zeros. -/
def blocks16 (bs : List Byte) : List (List Byte) :=
  (List.range ((bs.length + 15) / 16)).map (fun i => padTo 16 ((bs.drop (16 * i)).take 16))

/-- GHASH of additional data and ciphertext under H. -/
def ghash (h : Nat) (aad c : List Byte) : Nat :=
  let all := blocks16 aad ++ blocks16 c ++ [natBe 8 (8 * aad.length) ++ natBe 8 (8 * c.length)]
  all.foldl (fun y b => ghashMul (Nat.xor y (beNat b)) h) 0

/-- The CTR key stream block `i` after the counter of a 12-byte IV. -/
def gcmStream (key iv : List Byte) (i : Nat) : List Byte := aesEnc key (iv ++ natBe 4 (i + 1))

/-- Exclusive-or of byte strings, to the shorter length. -/
def xorBytes (a b : List Byte) : List Byte := (a.zip b).map (fun x => x.1 ^^^ x.2)

/-- The GCM plaintext of a ciphertext. -/
def gcmPlain (key iv c : List Byte) : List Byte :=
  xorBytes c ((List.range ((c.length + 15) / 16)).flatMap (fun i => gcmStream key iv (i + 1)))

/-- The GCM tag of a ciphertext and additional data. -/
def gcmTag (key iv aad c : List Byte) : List Byte :=
  let h := beNat (aesEnc key (List.replicate 16 0))
  xorBytes (natBe 16 (ghash h aad c)) (gcmStream key iv 0)

/-! ## Key wrap (SP 800-38F KW) -/

/-- Unwrap of `n` + 1 semiblocks: the plaintext, or none where the integrity check fails. -/
def kwUnwrap (kek c : List Byte) : Option (List Byte) :=
  let n := c.length / 8 - 1
  let rs := (List.range n).map (fun i => (c.drop (8 * (i + 1))).take 8)
  let (a, rs) := (List.range (6 * n)).foldl (fun (x : List Byte × List (List Byte)) k =>
    let t := 6 * n - k
    let i := (t - 1) % n
    let b := aesDec kek (xorBytes x.1 (natBe 8 t) ++ x.2.getD i [])
    (b.take 8, x.2.set i (b.drop 8))) (c.take 8, rs)
  if a = List.replicate 8 0xA6 then some rs.flatten else none

/-! ## P-256 -/

/-- The field prime. -/
def p256 : Nat := 0xffffffff00000001000000000000000000000000ffffffffffffffffffffffff
/-- The curve's b. -/
def p256b : Nat := 0x5ac635d8aa3a93e7b3ebbd55769886bc651d06b0cc53b0f63bce3c3e27d2604b
/-- The order of the base point. -/
def p256n : Nat := 0xffffffff00000000ffffffffffffffffbce6faada7179e84f3b9cac2fc632551
/-- The base point. -/
def p256g : Nat × Nat :=
  (0x6b17d1f2e12c4247f8bce6e563a440f277037d812deb33a0f4a13945d898c296,
   0x4fe342e2fe1a7f9b8ee7eb4a7c0f9e162bce33576b315ececbb6406837bf51f5)

/-- Powers modulo `m`, over `k` bits of the exponent. -/
def powMod (m b e k : Nat) : Nat :=
  ((List.range k).foldl (fun (r : Nat × Nat) i => (if bit e i then r.1 * r.2 % m else r.1, r.2 * r.2 % m)) (1 % m, b % m)).1
/-- The inverse modulo a prime of 256 bits. -/
def invMod (m a : Nat) : Nat := powMod m a (m - 2) 256

/-- Addition of points; none is the point at infinity. -/
def ecAdd (x y : Option (Nat × Nat)) : Option (Nat × Nat) :=
  match x, y with
  | none, y => y
  | x, none => x
  | some (x1, y1), some (x2, y2) =>
    if x1 = x2 ∧ (y1 + y2) % p256 = 0 then none
    else
      let l := if x1 = x2 then (3 * x1 * x1 + (p256 - 3)) * invMod p256 (2 * y1) % p256
        else (y2 + (p256 - y1)) * invMod p256 (x2 + (p256 - x1)) % p256
      let x3 := (l * l + 2 * p256 - x1 - x2) % p256
      some (x3, (l * (x1 + (p256 - x3)) + (p256 - y1)) % p256)

/-- A multiple of a point, over 256 bits. -/
def ecMul (k : Nat) (g : Option (Nat × Nat)) : Option (Nat × Nat) :=
  ((List.range 256).foldl (fun (r : Option (Nat × Nat) × Option (Nat × Nat)) i =>
    (if bit k i then ecAdd r.1 r.2 else r.1, ecAdd r.2 r.2)) (none, g)).1

/-- The right side of the curve's equation at x. -/
def ecRhs (x : Nat) : Nat := (x * x % p256 * x + (p256 - 3) * x + p256b) % p256
/-- Whether a point is on P-256. -/
def onCurve (x y : Nat) : Bool := decide (x < p256) && decide (y < p256) && decide (y * y % p256 = ecRhs x)
/-- A square root modulo p where one exists (p is 3 modulo 4). -/
def sqrtP (a : Nat) : Option Nat :=
  let r := powMod p256 a ((p256 + 1) / 4) 256
  if r * r % p256 = a % p256 then some r else none

/-- Whether (r, s) is an ECDSA signature over a hash under a public key. -/
def ecdsaOk (qx qy : Nat) (hash : List Byte) (r s : Nat) : Bool :=
  decide (0 < r) && decide (r < p256n) && decide (0 < s) && decide (s < p256n) && onCurve qx qy &&
    (let w := invMod p256n s
     match ecAdd (ecMul (beNat hash * w % p256n) (some p256g)) (ecMul (r * w % p256n) (some (qx, qy))) with
     | none => false
     | some (x, _) => decide (x % p256n = r))

/-- An ECDSA signature over a hash by private key `d` with nonce `k`. -/
def ecdsaSign (d k : Nat) (hash : List Byte) : List Byte :=
  let r := ((ecMul k (some p256g)).getD (0, 0)).1 % p256n
  let s := invMod p256n k * (beNat hash + r * d) % p256n
  natBe 32 r ++ natBe 32 s

end Sys2Proof.Machine
end

