-- ==== Sys2Proof/Machine/Codes.lean ====
section
/-! DEFINITION. The status codes (Table HST-7) and the detail codes of every chapter, by the spec's names. -/

namespace Sys2Proof.Machine

/-! ## Status codes (R386) -/

namespace Status
/-- OK. -/
def ok : Nat := 0x00
/-- ACCEPTED. -/
def accepted : Nat := 0x01
/-- BAD_OPCODE. -/
def badOpcode : Nat := 0x02
/-- BAD_LENGTH. -/
def badLength : Nat := 0x03
/-- BAD_CRC. -/
def badCrc : Nat := 0x04
/-- NOT_ON_PORT. -/
def notOnPort : Nat := 0x05
/-- NO_RESOURCE. -/
def noResource : Nat := 0x06
/-- BUSY. -/
def busy : Nat := 0x07
/-- TIMEOUT. -/
def timeout : Nat := 0x08
/-- PARTITION_FAULT. -/
def partitionFault : Nat := 0x09
/-- REPLAY_EXHAUSTED. -/
def replayExhausted : Nat := 0x0A
/-- ATTESTATION_REQUIRED. -/
def attestationRequired : Nat := 0x0B
/-- KEY_INVALID. -/
def keyInvalid : Nat := 0x0C
/-- LEASE_EXPIRED. -/
def leaseExpired : Nat := 0x0D
/-- ABORTED. -/
def aborted : Nat := 0x0E
/-- DEVICE_FATAL. -/
def deviceFatal : Nat := 0x0F
/-- BAD_ADDRESS. -/
def badAddress : Nat := 0x10
/-- BAD_STATE. -/
def badState : Nat := 0x11
/-- CHECK_FAILED. -/
def checkFailed : Nat := 0x12
/-- LINK_DOWN. -/
def linkDown : Nat := 0x13
/-- SPLIT. -/
def split : Nat := 0x14
/-- PIN_LIMIT. -/
def pinLimit : Nat := 0x15
/-- REFILL_REQUEST. -/
def refillRequest : Nat := 0x16
end Status

/-! ## Detail codes [31:8] -/

namespace Detail
/-- No detail. -/
def none : Nat := 0
/-- MODE_LOCKSTEP_BOOST: BOOST requested for a LOCKSTEP partition. -/
def modeLockstepBoost : Nat := 0x0101
/-- MODE_WCET_NOT_LOCKSTEP: WCET requested with ELASTIC. -/
def modeWcetNotLockstep : Nat := 0x0102
/-- MODE_WCET_TOO_LARGE: WCET requested with more than 16 stalls. -/
def modeWcetTooLarge : Nat := 0x0103
/-- MODE_WCET_LINKED: WCET requested with a Zuloilo port granted. -/
def modeWcetLinked : Nat := 0x0104
/-- MODE_GROUP_MISMATCH: timing mode differs from the group's at JOB_START. -/
def modeGroupMismatch : Nat := 0x0105
/-- SPLIT_LIMIT: stream modules requested beyond S = 6 on an edge. -/
def splitLimit : Nat := 0x0106
/-- ARRAY_CHECKSUM: checksum comparison failed (R76). -/
def arrayChecksum : Nat := 0x0301
/-- WEIGHT_TAG: GCM tag mismatch (R83). -/
def weightTag : Nat := 0x0302
/-- CARRY_PARITY: carry buffer parity error (R77). -/
def carryParity : Nat := 0x0303
/-- OUTPUT_RESIDUE: output conversion residue mismatch (R77). -/
def outputResidue : Nat := 0x0304
/-- PACK_MALFORMED: pack block refused (R90). -/
def packMalformed : Nat := 0x0305
/-- KEY_SLOT_EMPTY: empty or purged key slot (R86). -/
def keySlotEmpty : Nat := 0x0306
/-- MXE_FIELD: field out of range (R99, R146), refused format pair, or key slot outside KEY_MASK. -/
def mxeField : Nat := 0x0310
/-- MXE_OVERLAP: overlapping injections, or injection past the epoch. -/
def mxeOverlap : Nat := 0x0311
/-- MXE_LOAD_WINDOW: R72 violated, or a PASS before the epoch's first SWAP. -/
def mxeLoadWindow : Nat := 0x0312
/-- MXE_CARRY_DISTANCE: carry distance or carry bounds violated. -/
def mxeCarryDistance : Nat := 0x0313
/-- MXE_CARRY_UNWRITTEN: carry read of a column not written in the epoch. -/
def mxeCarryUnwritten : Nat := 0x0314
/-- MXE_PACK_FORMAT: PACKED with SCALES, or PACKED where no pass of the unit draws a 4-bit or 8-bit format (R99). -/
def mxePackFormat : Nat := 0x0315
/-- MVU_RESIDUE: residue mismatch in multipliers, trees or chain (R109). -/
def mvuResidue : Nat := 0x0401
/-- MVU_CARRY_PARITY: MVU carry buffer parity error. -/
def mvuCarryParity : Nat := 0x0402
/-- MVU_OUTPUT_RESIDUE: output conversion residue mismatch. -/
def mvuOutputResidue : Nat := 0x0403
/-- MVU_FIELD: field out of range, M outside 1 to 8, refused format pair or key slot. -/
def mvuField : Nat := 0x0410
/-- MVU_OVERLAP: overlapping injections, or injection past the epoch. -/
def mvuOverlap : Nat := 0x0411
/-- MVU_LOAD_WINDOW: R106 violated, or a PASS before the epoch's first SWAP. -/
def mvuLoadWindow : Nat := 0x0412
/-- MVU_CARRY_DISTANCE: R105 violated. -/
def mvuCarryDistance : Nat := 0x0413
/-- MVU_CARRY_UNWRITTEN: carry read of a column not written in the epoch. -/
def mvuCarryUnwritten : Nat := 0x0414
/-- MVU_PACK_FORMAT: PACKED with SCALES, or PACKED where no pass of the unit draws a 4-bit or 8-bit format (R99). -/
def mvuPackFormat : Nat := 0x0415
/-- FAB_PARITY: flit parity mismatch (R128). -/
def fabParity : Nat := 0x0501
/-- FAB_TICK_MARK: tick mark mismatch at a crossing (R133). -/
def fabTickMark : Nat := 0x0502
/-- FAB_ADD_EMPTY: ADD with exactly one empty operand (R127). -/
def fabAddEmpty : Nat := 0x0503
/-- STALL_FENCED: a listed stall fenced while its partition runs (R131). -/
def stallFenced : Nat := 0x0504
/-- FAB_FIELD: table field out of range, reserved value, period mismatch or absent lane. -/
def fabField : Nat := 0x0510
/-- FAB_BOUNDARY: route leaves the partition's routers, pass-through paths or stream modules. -/
def fabBoundary : Nat := 0x0511
/-- FAB_WIDTH: endpoint mapped to a lane count other than its width. -/
def fabWidth : Nat := 0x0512
/-- FAB_CROSSING: crossing send and receive not matched six ticks apart. -/
def fabCrossing : Nat := 0x0513
/-- PLN_HEADER: R141 broken: header fields, lengths, directory or section bounds, alignment, overlap, or reserved bytes. -/
def plnHeader : Nat := 0x0601
/-- PLN_SECTION: R142 broken: type, count or INDEX, or a required section missing; KEY_REFS malformed (R547). -/
def plnSection : Nat := 0x0602
/-- PLN_EPOCH: R143 or R144 broken, including a KEY_MASK slot without a KEY_REFS entry, or an absent descriptor or part named. -/
def plnEpoch : Nat := 0x0603
/-- PLN_BELL_WINDOW: R145 broken. -/
def plnBellWindow : Nat := 0x0604
/-- PLN_SCHED_MEM: R146 broken in a part's size or in the place of its programs and table, or R147 broken. -/
def plnSchedMem : Nat := 0x0605
/-- PLN_BANK: R149 or R150 broken, including a malformed port program (R146). -/
def plnBank : Nat := 0x0606
/-- PLN_CARRY: R152 or R153 broken, a write refused by R154, or a CARRY_MASK bit naming no DOUBLE region. -/
def plnCarry : Nat := 0x0607
/-- PLN_NONREPLAYABLE: SINGLE region written under STRICT. -/
def plnNonreplayable : Nat := 0x0608
/-- PLN_TOLERANCE: R63 broken. -/
def plnTolerance : Nat := 0x0609
/-- PLN_SESSION: R161 broken. -/
def plnSession : Nat := 0x060A
/-- PLN_BELL_GRAPH: R156 broken. -/
def plnBellGraph : Nat := 0x060B
/-- PLN_NOT_LOADED: JOB_START with no plan held. -/
def plnNotLoaded : Nat := 0x0620
/-- PLN_PLACEMENT: signature mismatch at JOB_START. -/
def plnPlacement : Nat := 0x0621
/-- PLN_MODE: mode mismatch at JOB_START. -/
def plnMode : Nat := 0x0622
/-- PLN_LOADED: R167 broken. -/
def plnLoaded : Nat := 0x0623
/-- PLN_BELL_RANGE: PLAN_RUN range invalid. -/
def plnBellRange : Nat := 0x0624
/-- PLN_KEY_ID: slot holds another KEY_ID (R160). -/
def plnKeyId : Nat := 0x0625
/-- PLAN_HELD: write to the held image (R164). -/
def planHeld : Nat := 0x0626
/-- TGC_REG_PARITY: register-file parity error. -/
def tgcRegParity : Nat := 0x0701
/-- TGC_L1_PARITY: L1 data parity error. -/
def tgcL1Parity : Nat := 0x0702
/-- TGC_ILLEGAL: illegal instruction. -/
def tgcIllegal : Nat := 0x0710
/-- TGC_MISALIGNED: misaligned access, or DISCARD or PREF off a line base. -/
def tgcMisaligned : Nat := 0x0711
/-- TGC_TRANSLATION: address fails translation. -/
def tgcTranslation : Nat := 0x0712
/-- TGC_ATOMIC_RANGE: atomic, DISCARD or PREF outside LSM. -/
def tgcAtomicRange : Nat := 0x0713
/-- TGC_STACK_OVERFLOW: reconvergence stack full (R181). -/
def tgcStackOverflow : Nat := 0x0714
/-- TGC_BARRIER: BAR count broken (R196). -/
def tgcBarrier : Nat := 0x0715
/-- TGC_STAGING_FULL: staging full under STRICT (R207). -/
def tgcStagingFull : Nat := 0x0716
/-- TGC_WATCHDOG: LIMIT reached (R208). -/
def tgcWatchdog : Nat := 0x0717
/-- TGC_LAUNCH_FIELD: LAUNCH field out of range or reserved field set. -/
def tgcLaunchField : Nat := 0x0720
/-- TGC_STALLS: STALLS empty, not granted or fenced. -/
def tgcStalls : Nat := 0x0721
/-- UCC_PARITY: parity error on a line that can be refetched (R239). -/
def uccParity : Nat := 0x0801
/-- UCC_DIRTY_PARITY: parity error on committed dirty data (R239). -/
def uccDirtyParity : Nat := 0x0802
/-- UCC_NO_HOME: partition with an empty slice list (R217). -/
def uccNoHome : Nat := 0x0803
/-- UCC_PIN_WAYS: held or pinned ways of a set exceeded (R237). -/
def uccPinWays : Nat := 0x0810
/-- UCC_PIN_QUOTA: pinned quota exceeded (R237). -/
def uccPinQuota : Nat := 0x0811
/-- UCC_PIN_RANGE: pin range outside the partition's LSM grants. -/
def uccPinRange : Nat := 0x0812
/-- LSM_REFILL: persistent failure on a reloadable burst (R282). -/
def lsmRefill : Nat := 0x0A01
/-- LSM_STORED: persistent read failure elsewhere (R280, R285). -/
def lsmStored : Nat := 0x0A02
/-- LSM_WRITE: persistent write failure (R280). -/
def lsmWrite : Nat := 0x0A03
/-- LSM_REFILL_REPEAT: R283 limit reached. -/
def lsmRefillRepeat : Nat := 0x0A04
/-- LSM_REFILL_TIMEOUT: no DONE within 100 ms (R283). -/
def lsmRefillTimeout : Nat := 0x0A05
/-- CHK_REQ_PARITY: request-network or fabric-mode module flit parity. -/
def chkReqParity : Nat := 0x0B01
/-- CHK_BELL_PARITY: bell flit parity. -/
def chkBellParity : Nat := 0x0B02
/-- CHK_SPAD_PARITY: scratchpad parity, transient byte or out copy. -/
def chkSpadParity : Nat := 0x0B03
/-- CHK_SPAD_CARRIED: scratchpad parity, in copy or READ_ONLY region. -/
def chkSpadCarried : Nat := 0x0B04
/-- CHK_SCHED_PARITY: schedule memory or router table parity. -/
def chkSchedParity : Nat := 0x0B05
/-- CHK_LEDGER_PARITY: ledger entry parity. -/
def chkLedgerParity : Nat := 0x0B06
/-- CHK_LEDGER_FULL: ledger full under STRICT (R307). -/
def chkLedgerFull : Nat := 0x0B07
/-- CHK_STAGE_OVERFLOW: staging full in wide staging (R300). -/
def chkStageOverflow : Nat := 0x0B08
/-- CHK_GROUP_FAULT: a member unit ended without committing (R312). -/
def chkGroupFault : Nat := 0x0B09
/-- CHK_PITCH_VOTE: pitch record copies without majority (R313). -/
def chkPitchVote : Nat := 0x0B0A
/-- CHK_FUSE_VOTE: fuse shadow copies without majority (R313). -/
def chkFuseVote : Nat := 0x0B0B
/-- CHK_SESSION_VOTE: session entry copies differ or both fail (R314). -/
def chkSessionVote : Nat := 0x0B0C
/-- CHK_PORTER_RETRY: a Porter line failed on its third retry. -/
def chkPorterRetry : Nat := 0x0B0D
/-- ZLK_FRAME: lost frame carrying a unit's data (R327). -/
def zlkFrame : Nat := 0x0C01
/-- ZLK_TICK_MARK: missing stream flit or wrong mark (R335). -/
def zlkTickMark : Nat := 0x0C02
/-- ZLK_ADD_EMPTY: ADD with one empty operand (R339). -/
def zlkAddEmpty : Nat := 0x0C03
/-- ZLK_PORT_DOWN: port FAILED (R327, R350). -/
def zlkPortDown : Nat := 0x0C04
/-- ZLK_SPLIT: member unreachable (R350). -/
def zlkSplit : Nat := 0x0C05
/-- ZLK_VOTE_TIMEOUT: no vote within 1 ms (R342). -/
def zlkVoteTimeout : Nat := 0x0C06
/-- ZLK_ITEM_ADDRESS: item refused (R329). -/
def zlkItemAddress : Nat := 0x0C07
/-- ZLK_LATE_LOSS: loss after COMMIT left (R343). -/
def zlkLateLoss : Nat := 0x0C08
/-- ZLK_NO_ROUTE: no route to the device (R329). -/
def zlkNoRoute : Nat := 0x0C09
/-- ZLK_FIELD: link program field or member list. -/
def zlkField : Nat := 0x0C10
/-- ZLK_PORT: port or hub lane not granted. -/
def zlkPort : Nat := 0x0C11
/-- ZLK_RATE: stream rate exceeded (R336). -/
def zlkRate : Nat := 0x0C12
/-- ZLK_MAP: expert map invalid (R345). -/
def zlkMap : Nat := 0x0C13
/-- ZLK_REACH: delay or GROUP_ID (R323). -/
def zlkReach : Nat := 0x0C20
/-- ZLK_TRAIN_TIMEOUT: training over 500 ms (R322). -/
def zlkTrainTimeout : Nat := 0x0C21
/-- ZLK_ENUM_SIZE: numbering exceeds 4,096 (R331). -/
def zlkEnumSize : Nat := 0x0C22
/-- ZLK_PORT_BUSY: port or group in use (R330, Table ZLK-7). -/
def zlkPortBusy : Nat := 0x0C23
/-- SES_RANGE: index outside the granted range. -/
def sesRange : Nat := 0x0D01
/-- SES_TABLE: write to the session table (R354). -/
def sesTable : Nat := 0x0D02
/-- SES_IN_USE: SESSION_OPEN on a used entry. -/
def sesInUse : Nat := 0x0D03
/-- SES_STATE: command not allowed in the state (R357). -/
def sesState : Nat := 0x0D04
/-- SES_APPEND_FIELD: R359 broken. -/
def sesAppendField : Nat := 0x0D05
/-- SES_ADMIT: admission refused (R363). -/
def sesAdmit : Nat := 0x0D06
/-- SES_SERVE_FIELD: SERVE field out of range. -/
def sesServeField : Nat := 0x0D07
/-- SES_NO_PLAN: no session plan held, or WCET section missing in WCET mode. -/
def sesNoPlan : Nat := 0x0D08
/-- SES_STEP: STEP beyond SESSION_STEPS. -/
def sesStep : Nat := 0x0D09
/-- HST_HEADER: bad VERSION or reserved header bits (R380). -/
def hstHeader : Nat := 0x0E01
/-- HST_PARTITION: PARTITION not the VF's own. -/
def hstPartition : Nat := 0x0E02
/-- HST_NO_PARTITION: target partition does not exist. -/
def hstNoPartition : Nat := 0x0E03
/-- HST_TAG: tag reserved or in use. -/
def hstTag : Nat := 0x0E04
/-- HST_SCRUB: partition being reset. -/
def hstScrub : Nat := 0x0E05
/-- HST_OUTSTANDING: outstanding limit reached. -/
def hstOutstanding : Nat := 0x0E06
/-- HST_NO_RING: no reply ring set (R384). -/
def hstNoRing : Nat := 0x0E07
/-- HST_RING_BUSY: SET_REPLY_RING with packets outstanding. -/
def hstRingBusy : Nat := 0x0E08
/-- HST_PARAM: parameter out of range or reserved bit set. -/
def hstParam : Nat := 0x0E09
/-- HST_QUEUE_FULL: 64 lists queued. -/
def hstQueueFull : Nat := 0x0E0A
/-- HST_LIST_OPCODE: opcode unknown to the queue. -/
def hstListOpcode : Nat := 0x0E0B
/-- HST_LIST_LENGTH: entry length wrong or past the list. -/
def hstListLength : Nat := 0x0E0C
/-- HST_LIST_FIELD: entry field out of range or reserved set. -/
def hstListField : Nat := 0x0E0D
/-- HST_JOB_RUNNING: JOB_START with a job running. -/
def hstJobRunning : Nat := 0x0E0E
/-- HST_NO_JOB: JOB_END with no job. -/
def hstNoJob : Nat := 0x0E0F
/-- HST_HOST_ABORT: CXL.io error on a host operand. -/
def hstHostAbort : Nat := 0x0E10
/-- HST_PORT_RANGE: Porter device operand unreachable. -/
def hstPortRange : Nat := 0x0E11
/-- HST_HWIN_MISS: host-window access outside enabled entries (R375). -/
def hstHwinMiss : Nat := 0x0E12
/-- HST_SEM_RANGE: semaphore outside the partition's LSM grants (R548). -/
def hstSemRange : Nat := 0x0E13
/-- PTN_EXISTS: REQUEST names an existing partition. -/
def ptnExists : Nat := 0x0F01
/-- PTN_NONE_FREE: no free partition number. -/
def ptnNoneFree : Nat := 0x0F02
/-- PTN_FIELD: pitch record field out of range or reserved set. -/
def ptnField : Nat := 0x0F03
/-- PTN_STALL: stall fenced or held. -/
def ptnStall : Nat := 0x0F04
/-- PTN_MEMORY: memory unit held. -/
def ptnMemory : Nat := 0x0F05
/-- PTN_SESSION: session range overlaps. -/
def ptnSession : Nat := 0x0F06
/-- PTN_PORT: Zuloilo port held. -/
def ptnPort : Nat := 0x0F07
/-- PTN_MODULE: stream module held. -/
def ptnModule : Nat := 0x0F08
/-- PTN_COMPANION: companion site empty, failed or held. -/
def ptnCompanion : Nat := 0x0F09
/-- PTN_QUOTA: STAGE_WAYS or a quota too large. -/
def ptnQuota : Nat := 0x0F0A
/-- PTN_ROOT: ROOT outside the grants. -/
def ptnRoot : Nat := 0x0F0B
/-- PTN_PTE_INVALID: entry with V = 0. -/
def ptnPteInvalid : Nat := 0x0F10
/-- PTN_PTE_FORMAT: reserved bits, W or KV on a table entry, alignment or leaf level wrong. -/
def ptnPteFormat : Nat := 0x0F11
/-- PTN_PTE_RANGE: leaf outside R412. -/
def ptnPteRange : Nat := 0x0F12
/-- PTN_TABLE_RANGE: table outside the grants. -/
def ptnTableRange : Nat := 0x0F13
/-- PTN_READ_ONLY: write through a leaf with W = 0. -/
def ptnReadOnly : Nat := 0x0F14
/-- PTN_LEASE_LINKED: lease on a partition with Zuloilo ports. -/
def ptnLeaseLinked : Nat := 0x0F20
/-- PTN_TIMER_BUSY: timer channel owned as wake timer. -/
def ptnTimerBusy : Nat := 0x0F21
/-- PTN_LEASE_RESET: grace exceeded (R419). -/
def ptnLeaseReset : Nat := 0x0F22
/-- PTN_PREEMPTED: job pre-empted (R417). -/
def ptnPreempted : Nat := 0x0F23
/-- PTN_RESUMED: job resumed (R418). -/
def ptnResumed : Nat := 0x0F24
/-- PTN_RESET: entry squashed by reset (R420). -/
def ptnReset : Nat := 0x0F25
/-- PTN_LOG_FIELD: DIRTY_LOG_CONTROL field or state wrong. -/
def ptnLogField : Nat := 0x0F30
/-- SEC_NO_EVIDENCE: no evidence key pair (R441). -/
def secNoEvidence : Nat := 0x1001
/-- SEC_NO_PLAN: evidence issued with no plan held. -/
def secNoPlan : Nat := 0x1002
/-- SEC_PEER: NONCE not a P-256 x-coordinate. -/
def secPeer : Nat := 0x1003
/-- SEC_UNWRAP: key wrap integrity check failed. -/
def secUnwrap : Nat := 0x1004
/-- SEC_KEY_FORMAT: plaintext bytes 36 to 39 nonzero. -/
def secKeyFormat : Nat := 0x1005
/-- SEC_SCAN_PURGED: keys purged by a hub scan (R446). -/
def secScanPurged : Nat := 0x1006
/-- SEC_ALIAS_LOST: alias key erased until cold boot. -/
def secAliasLost : Nat := 0x1007
/-- SEC_UNOWNED: packet other than those of R433 on an unowned device. -/
def secUnowned : Nat := 0x1010
/-- SEC_OWNED: TAKE on an owned device. -/
def secOwned : Nat := 0x1011
/-- SEC_PARTITIONS_EXIST: RELEASE while a partition exists. -/
def secPartitionsExist : Nat := 0x1012
/-- SEC_OWNER_KEY: owner key not on P-256. -/
def secOwnerKey : Nat := 0x1013
/-- PWR_COOLANT_WAIT: POWER_STATE RUN before RESTART_READY (R472). -/
def pwrCoolantWait : Nat := 0x1101
/-- PWR_COOLANT_STOP: packet not answered during a coolant stop (R471). -/
def pwrCoolantStop : Nat := 0x1102
/-- PWR_DEVICE_SET: TELEMETRY_READ SET 0 on a VF (R475). -/
def pwrDeviceSet : Nat := 0x1103
/-- PST_ACTIVE: work in progress (Table PST-2). -/
def pstActive : Nat := 0x1201
/-- PST_LINKED: Zuloilo port granted. -/
def pstLinked : Nat := 0x1202
/-- PST_PLAN_HELD: job or plan held, for DEEP or OFF. -/
def pstPlanHeld : Nat := 0x1203
/-- PST_PARTITIONS: partition exists, for OFF or DEEP without stacks. -/
def pstPartitions : Nat := 0x1204
/-- PST_STACK_MASK: stack mask neither 0x00 nor 0xFF, or set outside DEEP. -/
def pstStackMask : Nat := 0x1205
/-- PST_COOLANT: state other than RUN or OFF during a coolant stop. -/
def pstCoolant : Nat := 0x1206
/-- BTD_UPDATE_BUSY: update programming. -/
def btdUpdateBusy : Nat := 0x1301
/-- BTD_UPDATE_NO_UNIT: no ungranted unit below 2047, or an LSM channel FAILED. -/
def btdUpdateNoUnit : Nat := 0x1302
/-- BTD_NO_UPDATE: no update begun. -/
def btdNoUpdate : Nat := 0x1303
/-- BTD_IMAGE_FORMAT: header or hash fails R501. -/
def btdImageFormat : Nat := 0x1304
/-- BTD_IMAGE_SIGNATURE: key or signature fails. -/
def btdImageSignature : Nat := 0x1305
/-- BTD_IMAGE_SVN: FW_SVN below floor. -/
def btdImageSvn : Nat := 0x1306
/-- BTD_FLASH_WRITE: read-back mismatch. -/
def btdFlashWrite : Nat := 0x1307
/-- BTD_RECOVERY_MODE: packet in recovery. -/
def btdRecoveryMode : Nat := 0x1308
/-- BTD_BOOTING: packet before READY. -/
def btdBooting : Nat := 0x1309
/-- BTD_BIST_HARVESTED: harvested stall. -/
def btdBistHarvested : Nat := 0x1310
/-- BTD_BIST_ASSIGNED: stall in a pitch record. -/
def btdBistAssigned : Nat := 0x1311
/-- BTD_BIST_BUSY: stall already in BIST. -/
def btdBistBusy : Nat := 0x1312
/-- BTD_RESOURCE_HELD: resource held. -/
def btdResourceHeld : Nat := 0x1320
/-- BTD_TRACE_NOT_OWNED: trace not owned as TALLY. -/
def btdTraceNotOwned : Nat := 0x1321
/-- BTD_HALT_IDLE: halt with no work. -/
def btdHaltIdle : Nat := 0x1330
/-- BTD_NOT_HALTED: release when not halted. -/
def btdNotHalted : Nat := 0x1331
/-- BTD_PLL: PLL lock failure. -/
def btdPll : Nat := 0x1340
/-- BTD_FENCE_RECORD: fence record lost. -/
def btdFenceRecord : Nat := 0x1341
/-- PKG_COMPANION_POISON: poisoned companion read (R540). -/
def pkgCompanionPoison : Nat := 0x1401
/-- PKG_COMPANION_DOWN: granted site failed (R540). -/
def pkgCompanionDown : Nat := 0x1402
/-- PKG_VIN_LOW: VIN_IVR below 1.70 V for 100 µs (R534). -/
def pkgVinLow : Nat := 0x1403
end Detail

end Sys2Proof.Machine
end

