-- ==== Sys2Proof/Machine/Flags.lean ====
section
/-! DEFINITION. Check values: the CRCs and parities the spec names. -/

namespace Sys2Proof.Machine

/-- One bit step of a reflected 32-bit CRC. -/
def crc32Bit (poly : Nat) (c : Nat) : Nat := if c % 2 = 1 then Nat.xor (c / 2) poly else c / 2

/-- `n` bit steps of a reflected CRC. -/
def crc32Bits (poly : Nat) : Nat → Nat → Nat
  | 0, c => c
  | n + 1, c => crc32Bits poly n (crc32Bit poly c)

/-- A reflected 32-bit CRC over bytes, from a running value. -/
def crc32Run (poly : Nat) : List Byte → Nat → Nat
  | [], c => c
  | b :: r, c => crc32Run poly r (crc32Bits poly 8 (Nat.xor c b.toNat))

/-- CRC-32C (Castagnoli, reflected, initial value and final exclusive-or all ones), as Table HST-5 gives it. -/
def crc32c (bs : List Byte) : Nat := Nat.xor (crc32Run 0x82F63B78 bs 0xFFFFFFFF) 0xFFFFFFFF

/-- One bit step of an unreflected CRC of `w` bits. -/
def crcMsbBit (w poly c : Nat) (b : Bool) : Nat :=
  let top := bit c (w - 1)
  let shifted := c * 2 % 2 ^ w
  if xor top b then Nat.xor shifted poly else shifted

/-- An unreflected CRC of `w` bits over bytes, most significant bit first. -/
def crcMsbRun (w poly : Nat) (bs : List Byte) (c : Nat) : Nat :=
  bs.foldl (fun c b => (List.range 8).foldl (fun c i => crcMsbBit w poly c (b.getLsbD (7 - i))) c) c

/-- CRC-64 of a stored burst (R276): data bytes, then the channel-local address in 4 bytes. -/
def crc64 (bs : List Byte) : Nat :=
  Nat.xor (crcMsbRun 64 0x42F0E1EBA9EA3693 bs 0xFFFFFFFFFFFFFFFF) 0xFFFFFFFFFFFFFFFF

/-- Even parity over the bits of a number below `n`. -/
def parity (x n : Nat) : Bool := popCount x n % 2 = 1

/-- Which of three copies stands, by their intact marks and equalities (Table CHK-6). -/
inductive Vote where
  /-- All intact and equal. -/
  | used
  /-- A majority stands; this many other copies are rewritten. -/
  | rewritten (n : Nat)
  | lost
  deriving DecidableEq, Repr

/-- The vote of three copies (R313, Table CHK-6). -/
def voteCopies (v : CopyView) : Vote :=
  match v.intact0, v.intact1, v.intact2 with
  | true, true, true =>
    if v.equal01 && v.equal02 && v.equal12 then .used
    else if v.equal01 || v.equal02 || v.equal12 then .rewritten 1 else .lost
  | true, true, false => if v.equal01 then .rewritten 1 else .lost
  | true, false, true => if v.equal02 then .rewritten 1 else .lost
  | false, true, true => if v.equal12 then .rewritten 1 else .lost
  | true, false, false => .rewritten 2
  | false, true, false => .rewritten 2
  | false, false, true => .rewritten 2
  | false, false, false => .lost

/-- Parity of a ledger entry's bytes: one bit per 5 bytes (Table CHK-4). -/
def ledgerParity (bs : List Byte) : Byte :=
  BitVec.ofNat 8 (pack ((List.range 8).map (fun i => (i, 1, b2n (parity (field bs (5 * i) 5) 40)))))

/-- The 40 bytes of a ledger entry with its PARITY field zero (Table CHK-4). -/
def ledgerBytes (e : LedgerEntry) : List Byte :=
  natLe 8 (pack [(0, 44, e.address), (44, 1, b2n e.size8), (45, 12, e.srcDevice), (57, 6, e.srcPartition)]) ++ natLe 8 e.seq ++
    natLe 4 (pack [(0, 31, e.unit), (31, 1, b2n e.kernel)]) ++ natLe 4 (pack [(8, 1, b2n e.homeDone)]) ++ natLe 8 e.before ++ natLe 8 e.after

/-- An entry with the parity of its bytes. -/
def sealEntry (e : LedgerEntry) : LedgerEntry := { e with parity := ledgerParity (ledgerBytes e) }

end Sys2Proof.Machine
end

