-- ==== Sys2Proof/Machine/Operands.lean ====
section
/-! DEFINITION. Operand forms: the fields of a command packet (Table HST-5, Table HST-8), of a queue entry (R390), and of
a core instruction word (Table TGC-2). -/

namespace Sys2Proof.Machine

/-! ## Command packets -/

/-- A packet as the device takes it: where it came from and its words, header first. -/
structure Packet where
  port : ReplyPort
  words : List W32
  /-- Data-port writes of the function that had arrived at the packet's commit (R399). -/
  after : Nat := 0
  deriving DecidableEq, Repr

/-- Word `i` of the packet. -/
def Packet.word (k : Packet) (i : Nat) : Nat := (k.words.getD i 0).toNat
/-- OPCODE. -/
def Packet.op (k : Packet) : Nat := bits (k.word 0) 15 0
/-- IRQ. -/
def Packet.irq (k : Packet) : Bool := bit (k.word 0) 16
/-- ORDERED. -/
def Packet.ordered (k : Packet) : Bool := bit (k.word 0) 17
/-- VERSION. -/
def Packet.version (k : Packet) : Nat := bits (k.word 0) 31 24
/-- TAG. -/
def Packet.tag (k : Packet) : Nat := k.word 1
/-- LENGTH. -/
def Packet.length (k : Packet) : Nat := bits (k.word 2) 15 0
/-- PARTITION. -/
def Packet.part (k : Packet) : Nat := bits (k.word 2) 21 16
/-- Parameter word `i`; a word beyond LENGTH reads 0. -/
def Packet.param (k : Packet) (i : Nat) : Nat := if i < k.length then k.word (4 + i) else 0
/-- Parameter words `i` and `i + 1` as one 64-bit value. -/
def Packet.param64 (k : Packet) (i : Nat) : Nat := k.param i + 2 ^ 32 * k.param (i + 1)
/-- The bytes of parameter words from `i` on. -/
def Packet.paramBytes (k : Packet) (i : Nat) : List Byte :=
  ((List.range (k.length - i)).flatMap (fun j => natLe 4 (k.param (i + j))))

/-- Whether the CRC word matches (Table HST-5, word 3). -/
def Packet.crcOk (k : Packet) : Bool :=
  let ws := (List.range (4 + k.length)).map (fun i => if i = 3 then (0 : W32) else k.words.getD i 0)
  crc32c (wordBytes ws) = k.word 3

/-- Whether the reserved header bits are zero. -/
def Packet.reservedOk (k : Packet) : Bool := zeroBits (k.word 0) 18 6 && zeroBits (k.word 2) 22 10

/-- One row of Table HST-8. -/
structure OpRow where
  op : Nat
  host : Bool
  pf : Bool
  mgmt : Bool
  lo : Nat
  hi : Nat
  target : Bool
  deriving DecidableEq, Repr

/-- Table HST-8: opcode, ports H, P and M, words, and whether the parameters give it a target. -/
def opTable : List OpRow :=
  [⟨0x0001, true, true, true, 0, 0, false⟩, ⟨0x0002, true, true, true, 2, 2, false⟩,
   ⟨0x0003, true, true, false, 3, 3, false⟩, ⟨0x0010, true, false, false, 4, 4, false⟩,
   ⟨0x0011, true, false, false, 2, 2, false⟩, ⟨0x0012, true, false, false, 3, 3, false⟩,
   ⟨0x0013, true, false, false, 0, 0, false⟩, ⟨0x0014, true, false, false, 0, 0, false⟩,
   ⟨0x0020, true, false, false, 12, 12, false⟩, ⟨0x0022, true, false, false, 4, 4, false⟩,
   ⟨0x0023, true, false, false, 4, 4, false⟩, ⟨0x0024, true, false, false, 4, 4, false⟩,
   ⟨0x0030, true, false, false, 8, 8, false⟩, ⟨0x0031, true, false, false, 5, 5, false⟩,
   ⟨0x0032, true, false, false, 1, 1, false⟩, ⟨0x0033, true, false, false, 3, 3, false⟩] ++
  [⟨0x0040, false, false, true, 129, 129, false⟩, ⟨0x0041, false, false, true, 0, 0, true⟩,
   ⟨0x0042, true, false, true, 0, 0, true⟩, ⟨0x0043, false, false, true, 3, 3, true⟩,
   ⟨0x0044, false, true, true, 7, 7, true⟩, ⟨0x0050, false, false, true, 1, 1, false⟩,
   ⟨0x0051, false, false, true, 1, 1, true⟩, ⟨0x0052, false, false, true, 2, 2, false⟩,
   ⟨0x0053, true, true, true, 3, 3, true⟩, ⟨0x0060, true, false, false, 10, 10, false⟩,
   ⟨0x0061, true, false, false, 17, 17, false⟩, ⟨0x0062, true, false, true, 1, 1, true⟩,
   ⟨0x0063, false, false, true, 1, 1020, false⟩] ++
  [⟨0x0070, false, false, true, 3, 3, false⟩, ⟨0x0071, false, false, true, 1, 1, false⟩,
   ⟨0x0072, false, false, true, 2, 2, false⟩, ⟨0x0073, false, false, true, 2, 1020, false⟩,
   ⟨0x0074, false, false, true, 0, 0, false⟩, ⟨0x0080, true, true, true, 1, 64, true⟩,
   ⟨0x0081, false, true, true, 1, 64, false⟩, ⟨0x0082, false, true, true, 1, 1, true⟩,
   ⟨0x0090, false, false, true, 2, 2, false⟩, ⟨0x0091, false, true, true, 2, 2, false⟩,
   ⟨0x0092, false, false, true, 1, 1, false⟩, ⟨0x00A0, false, true, true, 2, 2, false⟩]

/-- The packet's row of Table HST-8. -/
def Packet.row (k : Packet) : Option OpRow := opTable.find? (fun r => r.op = k.op)

/-- The function of a packet's port: 0 PF0, n VF n, none for the management port. -/
def ReplyPort.fn? : ReplyPort → Option Nat
  | .host fn => some fn
  | .mgmt _ => none

/-- Whether the port is a VF. -/
def ReplyPort.isVf (p : ReplyPort) : Bool := match p with | .host fn => fn ≠ 0 | .mgmt _ => false
/-- Whether the port is PF0. -/
def ReplyPort.isPf (p : ReplyPort) : Bool := match p with | .host fn => fn = 0 | .mgmt _ => false
/-- Whether the port is the management port. -/
def ReplyPort.isMgmt (p : ReplyPort) : Bool := match p with | .host _ => false | .mgmt _ => true

/-- The reply's addressee. -/
def Packet.replyTo (k : Packet) : ReplyTo := { port := k.port, tag := k.tag, irq := k.irq }

/-! ## Queue entries (R390) -/

/-- A list entry: its bytes, from the header on. -/
structure Entry where
  bytes : List Byte
  deriving DecidableEq, Repr

/-- Bytes `o` to `o + n - 1` as a number. -/
def Entry.get (e : Entry) (o n : Nat) : Nat := field e.bytes o n
/-- The opcode. -/
def Entry.op (e : Entry) : Nat := e.get 0 2
/-- The flags. -/
def Entry.flags (e : Entry) : Nat := e.get 2 2
/-- The length in 64-byte units. -/
def Entry.units (e : Entry) : Nat := e.get 4 2
/-- Whether bytes `o` to `o + n - 1` are zero. -/
def Entry.zero (e : Entry) (o n : Nat) : Bool := e.get o n = 0

/-- The list opcodes of each queue with their lengths (Table HST-11). -/
def listTable (queue : Nat) : List (Nat × Nat) :=
  match queue with
  | 0 => [(1, 1), (2, 1), (3, 1)]
  | 1 => [(0x10, 2)]
  | 2 => [(1, 1)]
  | 3 => [(1, 1)]
  | 4 => [(1, 1), (2, 1), (3, 1), (4, 1)]
  | _ => []

/-- A value of 64 bits that is a partition virtual address (R546). -/
def isVa (x : Nat) : Bool := decide (x < 2 ^ 48)

end Sys2Proof.Machine
end

