-- ==== Sys2Proof/Machine/Reply.lean ====
section
/-! DEFINITION. Replies and device events: interrupt causes (R401), the reply ring (R382 to R385), the management
response (R404), and the course every packet takes from its commit to its reply (R377 to R384). -/

namespace Sys2Proof.Machine

/-! ## Interrupts (R401) -/

/-- The vector of cause `i`: REPLY, EVENT, RING_STALL, DP_ERROR. -/
def vectorOf (f : FnState) (i : Nat) : Nat :=
  match i with
  | 0 => f.vecReply.toNat
  | 1 => f.vecEvent.toNat
  | 2 => f.vecStall.toNat
  | _ => f.vecDp.toNat

/-- A word of the MSI-X table: vectors are masked until the host unmasks them, as PCIe has it (PRESUMED, log entry 22). -/
def msixWord (f : FnState) (w : Nat) : W32 := (tget? f.msixTable w).getD (if w % 4 = 3 then 1 else 0)

/-- An MSI-X message on a vector; a vector masked in the table sets its pending bit instead. -/
def sendMsix (s : State) (fn v : Nat) : State :=
  if (msixWord (s.fn fn) (4 * v + 3)).toNat % 2 = 1 then
    s.modFn fn (fun f => { f with msixPending := f.msixPending ||| BitVec.ofNat 8 (2 ^ v) })
  else s.emit (.msix fn v)

/-- Sets a cause bit; the change from 0 to 1 sends a message while the mask bit is 0. -/
def raiseCause (s : State) (fn i : Nat) : State :=
  let f := s.fn fn
  if f.intCause.getLsbD i then s
  else
    let s := s.modFn fn (fun f => { f with intCause := f.intCause ||| BitVec.ofNat 4 (2 ^ i) })
    if f.intMask.getLsbD i then s else sendMsix s fn (vectorOf f i)

/-! ## The reply ring (R382, R383, R385) -/

/-- N, or 0 while no ring is set. -/
def ringSize (f : FnState) : Nat := if f.ringLog2 = 0 then 0 else 2 ^ f.ringLog2

/-- Whether entry P may be written: (P - RING_HEAD) mod 2^32 is below N. -/
def ringRoom (f : FnState) : Bool := decide ((f.producer + 2 ^ 32 - f.head) % 2 ^ 32 < ringSize f)

/-- PHASE of the next entry. -/
def ringPhase (f : FnState) : Nat := 1 - f.producer / ringSize f % 2

/-- The 16 bytes of an entry (Table HST-6). -/
def entryBytes (f : FnState) (e : RingEntry) : List Byte :=
  natLe 4 e.tag ++ natLe 4 (e.status % 256 + 256 * e.detail) ++ natLe 4 e.tick ++
    natLe 4 (pack [(0, 1, ringPhase f), (1, 1, b2n e.event), (4, 4, e.source)])

/-- A packet is no longer outstanding: its reply is written. -/
def dropOutstanding (s : State) (port : ReplyPort) (tag : Nat) : State :=
  { s with outstanding := s.outstanding.eraseP (fun o => decide (o.replyTo.port = port ∧ o.replyTo.tag = tag ∧ o.waits = none)) }

/-- A slot reads free (R377): word 0 is zero. -/
def clearSlot (s : State) (fn i : Nat) : State :=
  s.modFn fn (fun f => { f with slots := tmod f.slots i (fun sl => { committed := false, words := tdel sl.words 0 }) })

/-- The packet of an entry that is written is no longer outstanding, and a slot that waited for it is free. -/
def closePacket (s : State) (fn : Nat) (e : RingEntry) : State :=
  let s := if h : fn < 65 then dropOutstanding s (.host ⟨fn, h⟩) e.tag else s
  match e.slot with
  | some i => clearSlot s fn i
  | none => s

/-- Writes entry P of a function's ring. -/
def writeEntry (s : State) (fn : Nat) (e : RingEntry) : State :=
  let f := s.fn fn
  let s := s.emit (.hostWrite fn (f.ringBase + 16 * (f.producer % ringSize f)) (entryBytes f e))
  let s := s.modFn fn (fun f => { f with producer := (f.producer + 1) % 2 ^ 32 })
  if e.event then raiseCause s fn 1
  else
    let s := closePacket s fn e
    if e.irq then raiseCause s fn 0 else s

/-- Writes waiting entries in order while the ring has room; the rest keep waiting. -/
def drainRing (fn : Nat) : List RingEntry → State → State
  | [], s => s.modFn fn (fun f => { f with waiting := [] })
  | e :: r, s =>
    if ringRoom (s.fn fn) then drainRing fn r (writeEntry s fn e)
    else s.modFn fn (fun f => { f with waiting := e :: r })

/-- An entry becomes ready: it is written, or waits behind the others, which raises RING_STALL. -/
def postEntry (s : State) (fn : Nat) (e : RingEntry) : State :=
  let s := drainRing fn ((s.fn fn).waiting ++ [e]) s
  if (s.fn fn).waiting.isEmpty then s else raiseCause s fn 2

/-- Sources of a device event (Table HST-6). -/
def srcFault : Nat := 0
/-- SOURCE REFILL. -/
def srcRefill : Nat := 1
/-- SOURCE SESSION. -/
def srcSession : Nat := 2
/-- SOURCE NOTIFY. -/
def srcNotify : Nat := 3
/-- SOURCE QUEUE. -/
def srcQueue : Nat := 4

/-- A device event of function `fn` (R385): at most 256 events wait; a further one is dropped. -/
def postEvent (s : State) (fn source status detail tick : Nat) : State :=
  let f := s.fn fn
  if !ringRoom f && decide (256 ≤ (f.waiting.filter (fun e => e.event)).length) then
    s.modFn fn (fun f => { f with eventsLost := true })
  else postEntry s fn
    { tag := 0xFFFFFFFF, status := status, detail := detail, tick := tick % 2 ^ 32, event := true, source := source }

/-- A device event of partition `p`, on its VF. -/
def partEvent (s : State) (p source status detail : Nat) : State :=
  postEvent s (p + 1) source status detail (tickFor s p)

/-- The completion tick of a packet (Table HST-6). -/
def replyTick (s : State) (part : Nat) : Nat := tickFor s part % 2 ^ 32

/-- Traffic of a management session (Table SEC-1). -/
def noteTraffic (s : State) (n : Nat) : State := { s with sec := { s.sec with traffic := tset s.sec.traffic n s.devTime } }

/-- A reply is ready (R381, R404). -/
def postReply (s : State) (who : ReplyTo) (part status detail : Nat) (block : List Byte) : State :=
  match who.port with
  | .host fn =>
    postEntry s fn
      { tag := who.tag, status := status, detail := detail, tick := replyTick s part, irq := who.irq, slot := who.slot }
  | .mgmt n =>
    let s := dropOutstanding s who.port who.tag
    if who.lost then s else (noteTraffic s n).emit (.mgmtReply n who.tag status detail block)

/-- The replies of deferred packets become ready, oldest first. -/
def completeAll (s : State) (pick : Outstanding → Bool) (status detail : Nat) : State :=
  let hit := s.outstanding.filter (fun o => o.waits.isSome && pick o)
  let s := { s with outstanding := s.outstanding.map (fun o =>
    if o.waits.isSome && pick o then { o with waits := none } else o) }
  hit.foldl (fun s o => postReply s o.replyTo o.part status detail []) s

/-! ## The device as its ports see it -/

/-- Whether the host port answers (R370, R471, R486, R499). -/
def hostUp (s : State) : Bool :=
  (s.boot.stage == .ready || (s.boot.stage == .fatal && s.boot.reached)) && !s.perst && !s.power.halted && !s.power.tripped && !s.power.coolantStop &&
    (s.power.state == .run || s.power.state == .idle || s.power.state == .sleep)

/-- Whether the management port answers packets (R498, R506, R471, R484). -/
def mgmtUp (s : State) : Bool :=
  s.boot.stage != .rom && s.boot.stage != .flash && !s.power.halted && !s.power.tripped &&
    (s.power.state == .run || s.power.state == .idle || s.power.state == .sleep)

/-- What the packet finds of the device's own state (R471, R498, R506, R507): allowed opcodes, status and detail. -/
def deviceGate (s : State) (k : Packet) : Option (Nat × Nat) :=
  match s.boot.stage with
  | .fatal =>
    if k.op ∈ [0x0001, 0x0002, 0x0053] then none else some (Status.deviceFatal, s.boot.fatalDetail)
  | .recovery =>
    if k.op ∈ [0x0001, 0x0002, 0x0072, 0x0073, 0x0074] then none
    else some (Status.notOnPort, Detail.btdRecoveryMode)
  | .ready =>
    if s.power.coolantStop && !decide (k.op ∈ [0x0001, 0x0002, 0x0053, 0x0052]) then
      some (Status.busy, Detail.pwrCoolantStop)
    else none
  | _ =>
    if k.op ∈ [0x0001, 0x0002, 0x0072, 0x0073, 0x0074] then none else some (Status.busy, Detail.btdBooting)

/-- A packet or request returns the device from IDLE or SLEEP to RUN (R480, R484), but not during a coolant stop (R479). -/
def wakeBy (s : State) (cause : Nat) : State :=
  if s.power.coolantStop then s else
  match s.power.state with
  | .idle => { s with power := { s.power with state := .run, wakeCause := cause, wokeAt := s.aoCount, fromDeep := false } }
  | .sleep =>
    let s := { s with power := { s.power with state := .run, wakeCause := cause, wokeAt := s.aoCount, fromDeep := false } }
    let s := (List.range 4).foldl (fun s d => s.modDie d (fun x => { x with pllM := true, pllC := true })) s
    (List.range 8).foldl (fun s j => { s with hbm := tmod s.hbm j (fun x => { x with selfRefresh := false }) }) s
  | _ => s

/-! ## Checks of R380 -/

/-- The first failing check: condition of failure, status, detail. -/
def firstFail : List (Bool × Nat × Nat) → Option (Nat × Nat)
  | [] => none
  | (bad, st, d) :: r => if bad then some (st, d) else firstFail r

/-- Whether the opcode is permitted on the port (check 5). -/
def onPort (k : Packet) : Bool :=
  match k.row with
  | none => false
  | some r => (k.port.isVf && r.host) || (k.port.isPf && r.pf) || (k.port.isMgmt && r.mgmt)

/-- Whether an unowned device refuses the packet on its management port (R433). -/
def unownedRefuses (s : State) (k : Packet) : Bool :=
  k.port.isMgmt && s.sec.ownerKey.isNone &&
    !(decide (k.op = 0x0001) || decide (k.op = 0x0002) || (decide (k.op = 0x0063) && decide (k.word 4 = 0)))

/-- Whether the opcode acts on a partition that must exist (check 7). -/
def needsPartition (k : Packet) : Bool :=
  if k.port.isVf then !decide (k.op ∈ [0x0001, 0x0002, 0x0003, 0x0012])
  else if k.op = 0x0053 then decide (3 ≤ k.length) && decide (k.param 2 = 1)
  else match k.row with | some r => r.target | none => false

/-- Packets of a port that are started and not yet replied. -/
def outstandingOf (s : State) (port : ReplyPort) : List Outstanding := s.outstanding.filter (fun o => o.replyTo.port = port && !o.replyTo.lost)

/-- The checks of R380 in their order, with the device's own state after check 4 and the pitch-vote refusal of R313
last. -/
def checkPacket (s : State) (k : Packet) : Option (Nat × Nat) :=
  let limit := if k.port.isMgmt then 8 else 4096
  let gate := deviceGate s k
  firstFail
    [(decide (1020 < k.length), Status.badLength, 0),
     (!k.crcOk, Status.badCrc, 0),
     (decide (k.version ≠ 1) || !k.reservedOk, Status.badOpcode, Detail.hstHeader),
     (k.row.isNone, Status.badOpcode, 0),
     (gate.isSome, (gate.getD (0, 0)).1, (gate.getD (0, 0)).2),
     (unownedRefuses s k, Status.notOnPort, Detail.secUnowned),
     (!onPort k, Status.notOnPort, 0),
     (k.port.isVf && decide (k.port.fn?.getD 0 ≠ k.part + 1), Status.notOnPort, Detail.hstPartition),
     (needsPartition k && !(s.part k.part).present, Status.badState, Detail.hstNoPartition),
     (match k.row with | some r => decide (k.length < r.lo) || decide (r.hi < k.length) | none => false,
       Status.badLength, 0),
     (decide (k.tag = 0xFFFFFFFF) || (outstandingOf s k.port).any (fun o => o.replyTo.tag = k.tag),
       Status.badState, Detail.hstTag),
     (k.port.isVf && (s.part k.part).state == .resetting && !decide (k.op ∈ [0x0001, 0x0002]),
       Status.busy, Detail.hstScrub),
     (decide (limit ≤ (outstandingOf s k.port).length), Status.noResource, Detail.hstOutstanding),
     (k.port.isVf && (s.part k.part).pitchLost && !decide (k.op ∈ [0x0001, 0x0002, 0x0012]),
       Status.partitionFault, Detail.chkPitchVote)]

/-! ## The course of a packet -/

/-- What a command does: it replies at once, or later when what it waits for has happened. -/
inductive Body where
  /-- The state, the status, the detail, and the OUT block with its address. -/
  | reply (s : State) (status detail : Nat) (out : Nat) (block : List Byte)
  | wait (s : State) (d : Deferred)
  deriving DecidableEq, Repr

/-- Reply OK with detail 0. -/
def Body.ok (s : State) : Body := .reply s Status.ok 0 0 []
/-- Reply with a status and detail. -/
def Body.say (s : State) (status detail : Nat) : Body := .reply s status detail 0 []
/-- Refuse a parameter field (R387). -/
def Body.param (s : State) : Body := .reply s Status.badState Detail.hstParam 0 []

/-- The packet an event names, if it stands there: a committed slot at the head of its function's commit order, or a
message of an open session. -/
def packetAt (s : State) (src : PktSrc) : Option Packet :=
  match src with
  | .slot fn k =>
    let f := s.fn fn
    let sl := tget f.slots k
    if hostUp s && sl.committed && f.order.head? = some k.val then
      some { port := .host fn, words := (List.range 1024).map (fun i => tget sl.words i), after := sl.after }
    else none
  | .mgmt n ws => if mgmtUp s && tget s.sec.sessions n then some { port := .mgmt n, words := ws } else none

/-- The slot is freed (R377): word 0 reads zero. A packet of a session is traffic of it. -/
def freeSlot (s : State) (src : PktSrc) : State :=
  match src with
  | .slot fn k => clearSlot (s.modFn fn (fun f => { f with order := f.order.tail })) fn k
  | .mgmt n _ => noteTraffic s n

/-- Whether the function has a ring to reply to; the management port always replies. -/
def hasRing (s : State) (k : Packet) : Bool :=
  match k.port with | .host fn => decide ((s.fn fn).ringLog2 ≠ 0) | .mgmt _ => true

/-- Writes an OUT block of a host function; on the management port the block travels in the response. -/
def writeOut (s : State) (k : Packet) (out : Nat) (block : List Byte) : State :=
  match k.port with
  | .host fn => if block.isEmpty then s else s.emit (.hostWrite fn out block)
  | .mgmt _ => s

/-- The packet becomes outstanding. -/
def openPacket (s : State) (k : Packet) (d : Option Deferred) : State :=
  { s with outstanding := s.outstanding ++ [{ replyTo := k.replyTo, part := k.part, waits := d }] }

/-- A reply of a packet just started. -/
def replyNow (s : State) (k : Packet) (status detail out : Nat) (block : List Byte) : State :=
  postReply (writeOut (openPacket s k none) k out block) k.replyTo k.part status detail block

/-- A refusal. A packet refused at check 11 keeps its slot until its reply is written (R381). -/
def refusePacket (s : State) (src : PktSrc) (k : Packet) (status detail : Nat) : State :=
  match src with
  | .slot fn i =>
    if detail ≠ Detail.hstOutstanding then replyNow s k status detail 0 []
    else
      let who : ReplyTo := { k.replyTo with slot := some i.val }
      let s := s.modFn fn (fun f => { f with slots := tmod f.slots i (fun sl =>
        { words := tset sl.words 0 (k.words.getD 0 0), committed := true }) })
      postReply { s with outstanding := s.outstanding ++ [{ replyTo := who, part := k.part }] } who k.part status detail []
  | .mgmt _ _ => replyNow s k status detail 0 []

/-- The status of the last packet on a function with no ring is kept in NORING_STATUS, and no reply is written
(R384). -/
def noRing (s : State) (k : Packet) (status : Nat) : State :=
  match k.port with
  | .host fn => s.modFn fn (fun f => { f with noringStatus := status })
  | .mgmt _ => s

/-- The wake cause of a packet's port (PST_DEVICE.WAKE_CAUSE). -/
def wakeCauseOf (k : Packet) : Nat := if k.port.isMgmt then 2 else 1

/-- A packet's start, after its port is known to have somewhere to reply. -/
def startPacket (s : State) (src : PktSrc) (k : Packet) (body : Packet → State → Body) : State :=
  match checkPacket s k with
  | some (st, d) => refusePacket s src k st d
  | none =>
    match body k s with
    | .reply s st d out block => replyNow s k st d out block
    | .wait s d => openPacket s k (some d)

/-- Whether every data-port write of a partition that has reached its homes is performed (R399): none waits there. -/
def portIdle (s : State) (p : Nat) : Bool :=
  (s.part p).cache.lines.all (fun e => (e.2.waiting ++ e.2.cur.toList).all (fun r => match r with
    | .port _ _ => false | _ => true))

/-- How many of a VF's data-port writes are performed (R399), counted as they arrived: those held, and the one that waits at
homes, are not. -/
def portDone (s : State) (p : Nat) : Nat :=
  (s.fn (p + 1)).dpWrites - ((s.fn (p + 1)).dpHeld.filter (fun x => match x with | .write _ _ => true | _ => false)).length -
    b2n (!portIdle s p)

/-- Whether a packet may start: every earlier data-port write of its VF is performed, and an ORDERED packet has no
earlier packet outstanding (R381, R399). -/
def mayStart (s : State) (k : Packet) : Bool :=
  !(k.ordered && !(outstandingOf s k.port).isEmpty) &&
    (match k.port with | .host fn => if fn = 0 then true else decide (k.after ≤ portDone s (fn - 1)) | .mgmt _ => true)

/-- The course of a packet (R377 to R384): the event acts only on a packet of its own row that stands where the event
says, and an ORDERED packet waits for every earlier one. -/
def runPacket (s : State) (src : PktSrc) (mine : Packet → Bool) (body : Packet → State → Body) : State :=
  match packetAt s src with
  | none => s
  | some k =>
    if !mine k || !mayStart s k then s
    else
      let s := wakeBy (freeSlot s src) (wakeCauseOf k)
      if hasRing s k then startPacket s src k body
      else noRing s k ((checkPacket s k).getD (Status.noResource, 0)).1

/-- Whether the packet's OUT address is aligned (R388). -/
def outOk (k : Packet) (out : Nat) : Bool := k.port.isMgmt || decide (out % 64 = 0)

end Sys2Proof.Machine
end

