-- ==== Sys2Proof/Machine/Address.lean ====
section
/-! DEFINITION. Addresses: the device physical map (Table ORG-7), line addresses and homes (R214, R215), the views of a
line (Table UCC-3), and the partition MMU (R411 to R414). -/

namespace Sys2Proof.Machine

/-! ## The device physical map (Table ORG-7) -/

/-- First address past LSM. -/
def lsmTop : Nat := 2 ^ 39
/-- First scratchpad window. -/
def spadBase : Nat := 0x80000000000
/-- Bytes of one scratchpad. -/
def spadBytes : Nat := 0x800000
/-- The host window. -/
def hwinBase : Nat := 0xA0000000000
/-- The companion sites. -/
def compBase : Nat := 0xC0000000000
/-- Bytes of one companion range. -/
def compBytes : Nat := 2 ^ 35
/-- The internal registers. -/
def regBase : Nat := 0xF0000000000
/-- The session table: 64 bytes an entry in unit 2047 (R354). -/
def sesTable : Nat := 0x7FF0000000
/-- Bytes of one memory unit. -/
def unitBytes : Nat := 2 ^ 28

/-- What a device physical address names. -/
inductive Region where
  | lsm
  | spad (stall off : Nat)
  | host (off : Nat)
  | companion (site off : Nat)
  | registers
  | unbacked
  deriving DecidableEq, Repr

/-- The region of a device physical address (Table ORG-7). -/
def regionOf (a : Nat) : Region :=
  if a < lsmTop then .lsm
  else if spadBase ≤ a ∧ a < spadBase + 64 * spadBytes then .spad ((a - spadBase) / spadBytes) ((a - spadBase) % spadBytes)
  else if hwinBase ≤ a ∧ a < compBase then .host (a - hwinBase)
  else if compBase ≤ a ∧ a < compBase + 2 * compBytes then .companion ((a - compBase) / compBytes) ((a - compBase) % compBytes)
  else if regBase ≤ a ∧ a < 2 ^ 44 then .registers
  else .unbacked

/-- Whether an LSM address lies in partition `p`'s grants. -/
def granted (s : State) (p a : Nat) : Bool :=
  decide (a < lsmTop) && bit (s.part p).record.mem (a / unitBytes)

/-- The partition whose grants hold an LSM address (R216). -/
def ownerOf (s : State) (a : Nat) : Option Nat := (List.range 64).find? (fun p => (s.part p).present && granted s p a)

/-- The device's own number (R29). -/
def ownNumber (s : State) : Nat := s.links.number

/-! ## Lines and homes -/

/-- The line address of a system address (R214). -/
def lineOfSys (s : State) (sys : Nat) : Nat :=
  if sys / 2 ^ 44 = ownNumber s then sys % 2 ^ 44 / 1024
  else 2 ^ 46 + sys / 2 ^ 44 * 2 ^ 34 + sys % 2 ^ 44 / 1024

/-- Whether a line is a remote copy. -/
def isRemoteLine (a : Nat) : Bool := bit a 46
/-- The device that owns a remote copy. -/
def lineDevice (a : Nat) : Nat := bits a 45 34
/-- The device physical address of a line's first byte. -/
def linePhys (a : Nat) : Nat := bits a 33 0 * 1024
/-- Whether a line is a host-window line. -/
def isHostLine (a : Nat) : Bool := !isRemoteLine a && decide (hwinBase ≤ linePhys a)
/-- Whether a line is a line of own LSM. -/
def isLsmLine (a : Nat) : Bool := !isRemoteLine a && decide (linePhys a < lsmTop)

/-- The home hash (R214). -/
def homeHash (a : Nat) : Nat := Nat.xor (Nat.xor (bits a 15 0) (bits a 31 16)) (bits a 46 32)
/-- The home of a line: none where the slice list is empty (R214, R217). -/
def homeOf (s : State) (p a : Nat) : Option Nat :=
  let l := (s.part p).cache.sliceList
  if l.isEmpty then none else l[homeHash a % l.length]?
/-- The set of a line (R214). -/
def setOf (a : Nat) : Nat := Nat.xor (Nat.xor (bits a 21 6) (bits a 37 22)) (bits a 46 38) % 1536

/-- Channel, and line index within the channel, of a line of own LSM (R270). -/
def channelOf (a : Nat) : Nat :=
  Nat.xor (Nat.xor (Nat.xor (bits a 8 0) (bits a 17 9)) (bits a 26 18)) (bits a 28 27)

/-! ## Views of a line (Table UCC-3) -/

/-- The L1 that holds a line in M, by the filter's ownership entry and the L1's own state. -/
def mOwner (s : State) (p a : Nat) : Option L1Id :=
  ((s.line p a).filter.find? (fun f => f.owner && (s.l1Line f.l1 a).state == .m)).map (fun f => f.l1)

/-- A byte that the line's M owner holds, if one does. -/
def ownerByte (s : State) (p a o : Nat) : Option Byte :=
  match mOwner s p a with
  | none => none
  | some l => oget (s.l1Line l a).data o

/-- What memory, or the fetched remote copy, holds below the slice. -/
def memoryByte (s : State) (p a o : Nat) : Byte :=
  if isRemoteLine a then (oget (s.line p a).base o).getD 0 else mread s.mem (linePhys a + o)

/-- The same as it has been read: of a burst that came back wrong, what came back. -/
def belowByte (s : State) (p a o : Nat) : Byte := (oget (s.line p a).wrong o).getD (memoryByte s p a o)

/-- The committed value of a byte: staged and hidden data do not show (Table UCC-3). -/
def committedByte (s : State) (p a o : Nat) : Byte :=
  let l := s.line p a
  match l.state with
  | .staged => belowByte s p a o
  | .discardStaged => belowByte s p a o
  | _ => (ownerByte s p a o).getD ((oget l.data o).getD (belowByte s p a o))

/-- The value the staging view sees: the owner's, the slice's, then memory's; a DISCARD_STAGED line reads as memory
(R231). -/
def stagedByte (s : State) (p a o : Nat) : Byte :=
  let l := s.line p a
  match l.state with
  | .discardStaged => belowByte s p a o
  | .staged => (ownerByte s p a o).getD ((oget l.data o).getD (memoryByte s p a o))
  | _ => (ownerByte s p a o).getD ((oget l.data o).getD (belowByte s p a o))

/-- `n` bytes at an LSM address in the committed view; an address in no grant is read from memory (R216). -/
def readCommitted (s : State) (a n : Nat) : List Byte :=
  (List.range n).map (fun i =>
    match ownerOf s (a + i) with
    | none => mread s.mem (a + i)
    | some p => committedByte s p ((a + i) / 1024) ((a + i) % 1024))

/-- `n` bytes of partition `p` at an LSM address in the staging view. -/
def readStaged (s : State) (p a n : Nat) : List Byte :=
  (List.range n).map (fun i => stagedByte s p ((a + i) / 1024) ((a + i) % 1024))

/-! ## The partition MMU -/

/-- A translated address: the system address, whether the leaf is writable, and its KV attribute. -/
structure Trans where
  sys : Nat
  writable : Bool
  kv : Bool
  deriving DecidableEq, Repr

/-- The index of a virtual address at a level (Table PTN-3). -/
def tableIndex (va l : Nat) : Nat :=
  match l with
  | 3 => bits va 47 39
  | 2 => bits va 38 30
  | 1 => bits va 29 21
  | _ => bits va 20 16

/-- log2 of the page a leaf maps at a level. -/
def pageBits (l : Nat) : Nat := if l = 1 then 21 else 16

/-- Whether an entry's form is right for its level (Table PTN-4): reserved bits, alignment, leaf level. -/
def pteOk (e l : Nat) : Bool :=
  zeroBits e 4 4 && zeroBits e 56 8 &&
    if bit e 1 then (l = 1 || l = 0) && zeroBits e 8 (pageBits l - 8)
    else l ≠ 0 && !bit e 2 && !bit e 3 && zeroBits e 44 12 && (if l = 1 then true else zeroBits e 8 4)

/-- Whether a page lies wholly where R412 lets a leaf of partition `p` point. -/
def leafOk (s : State) (p sys : Nat) : Bool :=
  let a := sys % 2 ^ 44
  if sys / 2 ^ 44 ≠ ownNumber s then decide ((s.part p).record.zlPorts ≠ 0)
  else match regionOf a with
    | .lsm => granted s p a
    | .spad i _ => bit (s.part p).record.stalls i
    | .host _ => true
    | .companion i _ => bit (s.part p).record.companion i && decide ((s.site i).state = 1)
    | _ => false

/-! ### Cached translations (R413) -/

/-- Whose cached translations a walk stands for: the Porters' and the data port's drop at events of their own. -/
inductive Walker where
  | agent
  | porter
  | dataPort
  deriving DecidableEq, Repr

/-- The bytes that the cached translations of a kind of agent still show. -/
def heldCells (s : State) (p : Nat) : Walker → List Host.Cell
  | .agent => (s.part p).cached.agents
  | .porter => (s.part p).cached.porters
  | .dataPort => (s.part p).cached.dataPort

/-- Cells noted beside those that a kind of agent holds already, which are older and stand. -/
def noteCells (old held : List Host.Cell) : List Host.Cell := olay (olay [] old) held

/-- Before committed bytes of a line are written: the agents' cached translations go on to show the bytes as they were. -/
def noteTables (s : State) (p a : Nat) (cells : List Host.Cell) : State :=
  if isLsmLine a then
    let old := cells.map (fun c => (linePhys a + c.1, committedByte s p a c.1))
    s.modPart p (fun q => { q with cached :=
      { agents := noteCells old q.cached.agents
        porters := noteCells old q.cached.porters
        dataPort := noteCells old q.cached.dataPort } })
  else s

/-- A table entry as a walk sees it: in the committed view, but for the bytes that cached translations still show. -/
def tableEntry (s : State) (held : List Host.Cell) (a : Nat) : Nat :=
  leNat ((List.range 8).map (fun i => (oget held (a + i)).getD ((readCommitted s (a + i) 1).headD 0)))

/-- The walk from a table down the levels listed (R411), with the bytes that cached translations still show. -/
def walk (s : State) (p va : Nat) (held : List Host.Cell) : List Nat → Nat → Except Nat Trans
  | [], _ => .error Detail.ptnPteFormat
  | l :: ls, t =>
    let e := tableEntry s held (t + 8 * tableIndex va l)
    if !bit e 0 then .error Detail.ptnPteInvalid
    else if !pteOk e l then .error Detail.ptnPteFormat
    else if bit e 1 then
      let sys := bits e 55 8 * 256 + va % 2 ^ pageBits l
      if leafOk s p sys then .ok { sys := sys, writable := bit e 2, kv := bit e 3 } else .error Detail.ptnPteRange
    else
      let next := bits e 43 8 * 256
      if granted s p next then walk s p va held ls next else .error Detail.ptnTableRange

/-- The page a partition virtual address leads to for a kind of agent: by its cached translations, and by a walk of the
committed view where those show no valid one (R413, log entry 9). -/
def pageOf (s : State) (w : Walker) (p va : Nat) : Except Nat Trans :=
  match walk s p va (heldCells s p w) [3, 2, 1, 0] (s.part p).record.root with
  | .ok t => .ok t
  | .error _ => walk s p va [] [3, 2, 1, 0] (s.part p).record.root

/-- The translation of a partition virtual address for a kind of agent (R411 to R413); the error is the PTN detail. -/
def translateFor (s : State) (w : Walker) (p va : Nat) (write : Bool) : Except Nat Trans :=
  match pageOf s w p va with
  | .error d => .error d
  | .ok t => if write && !t.writable then .error Detail.ptnReadOnly else .ok t

/-- The same for any agent but a Porter and the data port. -/
def translate (s : State) (p va : Nat) (write : Bool) : Except Nat Trans := translateFor s .agent p va write

/-- Records a translation fault in PTN_FAULT (R414). -/
def recordFault (s : State) (p va cause agent : Nat) (write : Bool) : State :=
  s.modPart p (fun q => { q with fault :=
    { va := BitVec.ofNat 48 va, cause := BitVec.ofNat 8 cause, agent := BitVec.ofNat 3 agent, write := write, valid := true } })

/-- The device physical address of a translated local address, if it is local. -/
def localPhys (s : State) (t : Trans) : Option Nat :=
  if t.sys / 2 ^ 44 = ownNumber s then some (t.sys % 2 ^ 44) else none

/-! ## Host window entries (R375) -/

/-- The host physical address behind an offset of the host window, for partition `p`. -/
def hwinLookup (s : State) (p off : Nat) : Option Nat :=
  ((List.range 8).find? (fun r =>
    let e := tget (s.part p).hwin r
    e.enable && decide (e.offset.toNat * 2 ^ 21 ≤ off) && decide (off < (e.offset.toNat + e.size.toNat) * 2 ^ 21))).map
    (fun r => let e := tget (s.part p).hwin r
      e.hpa.toNat * 2 ^ 21 + (off - e.offset.toNat * 2 ^ 21))

/-! ## Scratchpads (Table ORG-7) -/

/-- One byte of a stall's scratchpad at a physical offset. -/
def spadByte (s : State) (stall off : Nat) : Byte := mread s.spad (stall * spadBytes + off)

/-- A scratchpad with bytes written at a physical offset. -/
def spadWrite (s : State) (stall off : Nat) (bs : List Byte) : State :=
  { s with spad := mwrites s.spad (stall * spadBytes + off) bs }

/-- Whether an address lies in the held image of partition `p` (R164): by physical 64 KiB page. -/
def inHeldImage (s : State) (a : Nat) : Bool :=
  match ownerOf s a with
  | none => false
  | some p => match (s.part p).plan with
    | none => false
    | some h => h.pages.any (fun g => g = a / 65536)

end Sys2Proof.Machine
end

