-- ==== Sys2Proof/Machine/Channels.lean ====
section
/-! DEFINITION. The channels of stacked memory (spec/10): where a line lies (R270), bursts on the pins (R276, R277), and how
a channel shares itself among its requesters (R268, R271, R272). -/

namespace Sys2Proof.Machine

/-! ## Places (R267, R270) -/

/-- The stack of a channel: 64 channels a stack, in order. -/
def stackOfChan (c : Nat) : Nat := c / 64
/-- The index of a line within its channel. -/
def lineIndex (a : Nat) : Nat := bits a 28 9
/-- Which 1 KiB of its 2 KiB row a line is. -/
def lineHalf (a : Nat) : Nat := bits (lineIndex a) 0 0
/-- The bank of a line. -/
def lineBank (a : Nat) : Nat := Nat.xor (bits (lineIndex a) 5 1) (bits (lineIndex a) 10 6)
/-- The row of a line. -/
def lineRow (a : Nat) : Nat := bits (lineIndex a) 19 6

/-- The channel of a burst: bursts are numbered by device address over 128 bytes. -/
def burstChan (b : Nat) : Nat := channelOf (b / 8)
/-- The device address of a burst. -/
def burstAddr (b : Nat) : Nat := b * 128
/-- The channel-local address of a burst: 8 · l + burst index. -/
def burstLocal (b : Nat) : Nat := 8 * lineIndex (b / 8) + b % 8

/-! ## The scrambler (R277) -/

/-- One step of the Fibonacci register x^64 + x^63 + x^61 + x^60 + 1: the bit it puts out, and the register after (log entry
176). -/
def lfsrStep (x : Nat) : Bool × Nat :=
  let next := xor (xor (bit x 63) (bit x 62)) (xor (bit x 60) (bit x 59))
  (bit x 63, (2 * x + b2n next) % 2 ^ 64)

/-- `n` output bits from a register, as a number, the first lowest. -/
def lfsrBits : Nat → Nat → Nat
  | 0, _ => 0
  | n + 1, x => let (o, x') := lfsrStep x; b2n o + 2 * lfsrBits n x'

/-- The 1,024 bits that scramble a burst, from its channel's seed and its channel-local address. -/
def scrambleBits (seed b : Nat) : Nat :=
  let x := Nat.xor seed (burstLocal b) % 2 ^ 64
  lfsrBits 1024 (if x = 0 then 1 else x)

/-- The data bits of a burst as they cross the pins: beat i is bits 16i on (R266). -/
def scrambled (seed b : Nat) (data : List Byte) : Nat := Nat.xor (leNat data) (scrambleBits seed b)

/-! ## Check bits (R276) -/

/-- C0 of every beat: even parity over its 16 bits. -/
def c0Bits (d : Nat) : Nat := pack ((List.range 64).map (fun i => (i, 1, b2n (parity (d / 2 ^ (16 * i)) 16))))

/-- C1 of every beat: a CRC-64 over the scrambled bytes and the burst's channel-local address. -/
def c1Bits (b d : Nat) : Nat := crc64 (natLe 128 d ++ natLe 4 (burstLocal b))

/-- The bits that an error on the pins turns over, of kinds data (bits 0 to 15 of a beat), C0 (16) and C1 (17). -/
def flipBits (flips : List (Fin 64 × Fin 18)) (f : Fin 64 → Fin 18 → Option Nat) : Nat :=
  (flips.filterMap (fun x => f x.1 x.2)).foldl (fun v i => Nat.xor v (2 ^ i)) 0

/-- What the controller receives of a burst of stored data: the data bits, and whether C0 and C1 pass. -/
def received (seed b : Nat) (data : List Byte) (flips : List (Fin 64 × Fin 18)) : Nat × Bool :=
  let sent := scrambled seed b data
  if flips.isEmpty then (sent, true)
  else
    let d := Nat.xor sent (flipBits flips (fun i k => if k.val < 16 then some (16 * i.val + k.val) else none))
    let c0 := Nat.xor (c0Bits sent) (flipBits flips (fun i k => if k.val = 16 then some i.val else none))
    let c1 := Nat.xor (c1Bits b sent) (flipBits flips (fun i k => if k.val = 17 then some i.val else none))
    (d, decide (c0Bits d = c0) && decide (c1Bits b d = c1))

/-- Bytes of received data bits, descrambled. -/
def descrambled (seed b d : Nat) : List Byte := natLe 128 (Nat.xor d (scrambleBits seed b))

/-! ## Requesters and their shares (R271, R272) -/

/-- The requester of device traffic. -/
def deviceTraffic : Nat := 64

/-- The weight of a requester. -/
def requesterWeight (s : State) (r : Nat) : Nat := if r = deviceTraffic then 8 else (s.part r).record.memWeight

/-- Bursts of an access that have not come back. -/
def accessBursts (x : MemAccess) : Nat := popCount x.mask 8

/-- The first access a channel has queued for a requester. -/
def firstOf (c : Chan) (r : Nat) : Option MemAccess := c.queue.find? (fun x => x.requester = r)

/-- The next requester with an access queued, in ascending order round from the one whose turn it is (log entry 177). -/
def nextRequester (c : Chan) : Option Nat :=
  ((List.range 65).map (fun k => (c.turn + 1 + k) % 65)).find? (fun r => (firstOf c r).isSome)

/-- A requester's access is issued, and its allowance is left with `n` bursts. -/
def issueAccess (c : Chan) (r n : Nat) (x : MemAccess) : Chan :=
  let queue := c.queue.erase x
  { c with
    queue := queue, serving := some x, turn := r
    allow := (tset c.allow r n).filter (fun e => queue.any (fun y => y.requester = e.1)) }

/-- Deficit round robin: the requester whose turn it is is served while its allowance covers its next access; then the next
one's allowance rises by 8 · weight. One with nothing queued keeps no allowance. -/
def nextAccess (weight : Nat → Nat) (c : Chan) : Chan :=
  match firstOf c c.turn with
  | some x =>
    if accessBursts x ≤ tget c.allow c.turn then issueAccess c c.turn (tget c.allow c.turn - accessBursts x) x
    else takeTurn c
  | none => takeTurn c
where
  /-- The turn passes on. -/
  takeTurn (c : Chan) : Chan :=
    match nextRequester c with
    | none => { c with allow := [] }
    | some r => match firstOf c r with
      | none => c
      | some y => issueAccess c r (tget c.allow r + 8 * weight r - accessBursts y) y

/-- A channel whose access has ended issues the next one, unless its stack issues no activation (R288). -/
def arbitrate (s : State) (ch : Nat) : State :=
  if (s.chan ch).serving.isSome || (tget s.hbm (stackOfChan ch)).stopped then s
  else s.modChan ch (nextAccess (requesterWeight s))

/-- An access joins the queue of its line's channel. -/
def queueAccess (s : State) (x : MemAccess) : State :=
  let ch := channelOf x.line
  arbitrate (s.modChan ch (fun c => { c with queue := c.queue ++ [x] })) ch

/-- The access that a channel is serving, where it holds a burst that has not come back. -/
def servingBurst (s : State) (b : Nat) (write : Bool) : Option MemAccess :=
  match (s.chan (burstChan b)).serving with
  | some x => if x.write == write && x.line = b / 8 && bit x.mask (b % 8) then some x else none
  | none => none

/-- A burst of the access in service has ended; with the last one the next access is issued. -/
def burstEnds (s : State) (b : Nat) (x : MemAccess) : State :=
  let m := clearBit x.mask (b % 8)
  let ch := burstChan b
  if m = 0 then arbitrate (s.modChan ch (fun c => { c with serving := none })) ch
  else s.modChan ch (fun c => { c with serving := some { x with mask := m } })

/-- Accesses of a partition that has gone leave its channels. -/
def dropAccesses (s : State) (p : Nat) : State :=
  (List.range 512).foldl (fun s ch =>
    let c := s.chan ch
    if c.queue.any (fun x => x.requester = p) || c.serving.any (fun x => x.requester = p) then
      arbitrate (s.modChan ch (fun c => { c with
        queue := c.queue.filter (fun x => x.requester ≠ p), serving := c.serving.filter (fun x => x.requester ≠ p)
        allow := tdel c.allow p })) ch
    else s) s

/-! ## Reads of lines from memory (R268) -/

/-- The bursts of a line that cover some of its sectors. -/
def sectorBursts (sectors : Nat) : Nat := ofBits ((setBits sectors 4).flatMap (fun k => [2 * k, 2 * k + 1]))

/-- All eight bursts of a line. -/
def wholeLine : Nat := 0xFF

/-- Bits of a mask that another does not have. -/
def maskWithout (m n : Nat) : Nat := ofBits ((setBits m 8).filter (fun i => !bit n i))

/-- Whether a read is the owning partition's own (R280). -/
def ownReader : BurstReader → Bool
  | .feeder _ _ => true
  | .insider _ => true
  | _ => false

/-- Bursts of a line that are here for a reader: its own agents read again what failed for an observer outside (R285). -/
def hereFor (l : Line) (own : Bool) : Nat := if own then maskWithout l.here (maskWithout l.bad l.met) else l.here

/-- Bursts of a line are read from memory, those not yet asked for, as one access. -/
def askMemory (s : State) (p a mask : Nat) (reader : BurstReader) : State :=
  let l := s.line p a
  let m := maskWithout mask (Nat.lor l.asked (hereFor l (ownReader reader)))
  if m = 0 then s
  else queueAccess (s.modLine p a (fun l => { l with asked := Nat.lor l.asked m }))
    { requester := p, line := a, mask := m, write := false, reader := reader }

/-- What a read has brought of a line is used up. -/
def spendRead (s : State) (p a : Nat) : State :=
  if (s.line p a).here = 0 then s else s.modLine p a (fun l => { l with here := 0, bad := 0, met := 0, wrong := [] })

/-- A line as its fill enters the slice; poison goes with it. -/
def filled (l : Line) : Line := { l with state := .clean, data := l.wrong, here := 0, wrong := [] }

/-- Nothing is kept of reads of a line that came back poisoned or that nobody has used: memory is read again. -/
def forgetReads (s : State) (p a : Nat) : State :=
  let l := s.line p a
  if l.here = 0 && l.bad = 0 then s
  else s.modLine p a (fun l => { l with
    here := 0, bad := 0, met := 0, wrong := [], data := if l.bad ≠ 0 && l.state == .clean then [] else l.data })

/-- Whether a read of a line needs memory: the slice does not hold the value that the reader sees (Table UCC-3). -/
def readsMemory (s : State) (p a : Nat) (outside : Bool) : Bool :=
  isLsmLine a && match (s.line p a).state with
    | .absent => true
    | .discardStaged => true
    | .staged => outside
    | _ => false

/-- The sectors that a range within a line covers. -/
def rangeSectors (o n : Nat) : Nat := ofBits ((List.range 4).filter (fun k => decide (o < 256 * (k + 1)) && decide (256 * k < o + n)))

/-- Bursts of a line that are still to come back for a reader. -/
def stillOut (s : State) (p a mask : Nat) (own : Bool) : Nat := maskWithout mask (hereFor (s.line p a) own)

/-- Bursts of a line for a read that allocates, or of sectors for one that does not (R268). -/
def fetchMask (whole : Bool) (sectors : Nat) : Nat := if whole then wholeLine else sectorBursts sectors

/-- Bytes of a line of a partition are written to memory. -/
def writeLine (s : State) (p a : Nat) (cells : List Host.Cell) : State :=
  if cells.isEmpty then s
  else queueAccess { s with mem := mwriteCells s.mem (linePhys a) cells }
    { requester := p, line := a, mask := wholeLine, write := true, reader := .insider (Fin.ofNat 64 p) }

end Sys2Proof.Machine
end

