-- ==== Sys2Proof/Machine/Image.lean ====
section
/-! DEFINITION. The plan image as its readers see it (Tables PLN-1 to PLN-8, PLN-11), and the flip of carried regions
(R153). -/

namespace Sys2Proof.Machine

/-- `n` bytes of an image from offset `o`, as a number. -/
def rdN (rd : Nat → Byte) (o n : Nat) : Nat := leNat ((List.range n).map (fun i => rd (o + i)))

/-- The held image of a partition, byte by byte, in the committed view. -/
def imageOf (s : State) (p : Nat) (o : Nat) : Byte :=
  match (s.part p).plan with
  | none => 0
  | some h => match h.pages[o / 65536]? with
    | none => 0
    | some g => ((readCommitted s (g * 65536 + o % 65536) 1).head?).getD 0

/-- A section: type, index, offset and length (Table PLN-2). -/
structure Section where
  type : Nat
  index : Nat
  off : Nat
  bytes : Nat
  deriving DecidableEq, Repr

/-- Directory entry `e`. -/
def dirEntry (rd : Nat → Byte) (e : Nat) : Section :=
  let b := rdN rd 72 8 + 32 * e
  { type := rdN rd b 2, index := rdN rd (b + 2) 2, off := rdN rd (b + 8) 8, bytes := rdN rd (b + 16) 8 }

/-- Every section of an image. -/
def sectionsOf (rd : Nat → Byte) : List Section := (List.range (rdN rd 16 4)).map (dirEntry rd)

/-- A section by type and index; an empty one where the image has none. -/
def sectionOf (rd : Nat → Byte) (type index : Nat) : Section :=
  ((sectionsOf rd).find? (fun x => x.type = type && x.index = index)).getD { type := type, index := index, off := 0, bytes := 0 }

/-- TIMING, CHECK and SESSION of the header. -/
def planModes (rd : Nat → Byte) : Nat × Nat × Nat := (rdN rd 24 1, rdN rd 25 1, rdN rd 26 1)
/-- FLAGS of the header. -/
def planFlags (rd : Nat → Byte) : Nat := rdN rd 20 4
/-- Whether the plan is LINKED. -/
def planLinked (rd : Nat → Byte) : Bool := bit (planFlags rd) 2
/-- PLACEMENT_SIGNATURE of the header. -/
def planSignature (rd : Nat → Byte) : Nat := rdN rd 32 32

/-- How many epoch descriptors the image holds. -/
def epochCount (rd : Nat → Byte) : Nat := (sectionOf rd 1 0).bytes / 320
/-- How many bell entries the image holds. -/
def bellCount (rd : Nat → Byte) : Nat := (sectionOf rd 2 0).bytes / 8

/-- A bell entry (Table PLN-5). -/
structure Bell where
  epoch : Nat
  phase : Nat
  noPreempt : Bool
  stepEnd : Bool
  deriving DecidableEq, Repr

/-- The word of bell entry `b`. -/
def bellWord (rd : Nat → Byte) (b : Nat) : Nat := rdN rd ((sectionOf rd 2 0).off + 8 * b) 8

/-- Bell entry `b`. -/
def bellAt (rd : Nat → Byte) (b : Nat) : Bell :=
  let w := bellWord rd b
  { epoch := bits w 15 0, phase := bits w 23 16, noPreempt := bit w 24, stepEnd := bit w 25 }

/-- Where descriptor `d` begins. -/
def descAt (rd : Nat → Byte) (d : Nat) : Nat := (sectionOf rd 1 0).off + 320 * d
/-- LENGTH of a descriptor. -/
def epochLen (rd : Nat → Byte) (d : Nat) : Nat := rdN rd (descAt rd d) 4
/-- KEY_MASK. -/
def epochKeys (rd : Nat → Byte) (d : Nat) : Nat := rdN rd (descAt rd d + 4) 1
/-- FLAGS. -/
def epochFlags (rd : Nat → Byte) (d : Nat) : Nat := rdN rd (descAt rd d + 5) 1
/-- CARRY_MASK. -/
def epochCarry (rd : Nat → Byte) (d : Nat) : Nat := rdN rd (descAt rd d + 8) 8
/-- PART[q]. -/
def epochPart (rd : Nat → Byte) (d q : Nat) : Nat := rdN rd (descAt rd d + 16 + 2 * q) 2

/-- A carried region (Table PLN-8). -/
structure CarriedRegion where
  pos : Nat
  kind : Nat
  off : Nat
  bytes : Nat
  deriving DecidableEq, Repr

/-- The carried regions of an image, in order. -/
def carriedRegions (rd : Nat → Byte) : List CarriedRegion :=
  let x := sectionOf rd 5 0
  (List.range (x.bytes / 16)).map (fun r =>
    let b := x.off + 16 * r
    { pos := rdN rd b 1, kind := rdN rd (b + 1) 1, off := rdN rd (b + 4) 4, bytes := rdN rd (b + 8) 4 })

/-- The KEY_ID that an image names for a slot, if it names one (Table PLN-11). -/
def keyRef (rd : Nat → Byte) (slot : Nat) : Option Nat :=
  let x := sectionOf rd 6 0
  (((List.range (x.bytes / 32)).find? (fun e => rdN rd (x.off + 32 * e) 1 = slot)).map
    (fun e => rdN rd (x.off + 32 * e + 16) 16))

/-- WCET_TICKS, BUBBLE_SHARE and RETRY_TICKS of a descriptor. -/
def wcetOf (rd : Nat → Byte) (d : Nat) : Nat × Nat × Nat :=
  let b := (sectionOf rd 8 0).off + 16 * d
  (rdN rd b 4, rdN rd (b + 4) 1, rdN rd (b + 8) 4)

/-- A session step or its fallback variant: the four bell entries and THRESHOLD. -/
structure StepRange where
  thinFirst : Nat
  thinLast : Nat
  wideFirst : Nat
  wideLast : Nat
  threshold : Nat
  deriving DecidableEq, Repr

/-- Entry `n` of SESSION_STEPS (type 9) or FALLBACK (type 10). -/
def stepRange (rd : Nat → Byte) (type n : Nat) : StepRange :=
  let b := (sectionOf rd type 0).off + 16 * n
  { thinFirst := rdN rd b 2, thinLast := rdN rd (b + 2) 2, wideFirst := rdN rd (b + 4) 2
    wideLast := rdN rd (b + 6) 2, threshold := rdN rd (b + 8) 1 }

/-- How many steps the image has. -/
def stepCount (rd : Nat → Byte) : Nat := (sectionOf rd 9 0).bytes / 16

/-! ## Parts (Table PLN-6) -/

/-- The offset in the image and the length of unit `k` of a part: 0 engine, 1 MVU, 2 to 5 scratchpad ports, 6 router
table. -/
def partUnit (rd : Nat → Byte) (part k : Nat) : Nat × Nat :=
  let x := sectionOf rd 3 part
  (x.off + rdN rd (x.off + 8 * k) 4, rdN rd (x.off + 8 * k + 4) 4)

/-- Operation word `i` of a program: its four quadwords. -/
def opWord (rd : Nat → Byte) (off i : Nat) : List Nat := (List.range 4).map (fun j => rdN rd (off + 32 * i + 8 * j) 8)

/-- The words of a program up to its first END (R146). -/
def programOf (rd : Nat → Byte) (part k : Nat) : List (List Nat) :=
  let (off, len) := partUnit rd part k
  ((List.range (len / 32)).map (opWord rd off)).takeWhile (fun w => bits (w.getD 0 0) 7 0 ≠ 0)

/-! ## The flip (R153) -/

/-- The physical position of a logical stall: 18 · die + p. -/
def positionOf (s : State) (i : Nat) : Nat := 18 * dieOf i + physOf s i

/-- Where a scratchpad offset lies under region `r`, if it is a DOUBLE region that holds it and whose flip bit is set. -/
def flipOne (flip r : Nat) (q : Nat) (x : CarriedRegion) (o : Nat) : Option Nat :=
  if x.kind = 1 && (x.pos = 0xFF || x.pos = q) && bit flip r then
    if x.off ≤ o ∧ o < x.off + x.bytes then some (o + x.bytes)
    else if x.off + x.bytes ≤ o ∧ o < x.off + 2 * x.bytes then some (o - x.bytes) else none
  else none

/-- The physical scratchpad offset behind an offset of a stall, through the flips of its partition (R153). -/
def spadPhys (s : State) (i o : Nat) : Nat :=
  match ownerOfStall s i with
  | none => o
  | some p =>
    let flip := (s.part p).job.flip
    if flip = 0 then o
    else
      let rs := carriedRegions (imageOf s p)
      ((((List.range rs.length).zip rs).filterMap (fun e => flipOne flip e.1 (positionOf s i) e.2 o)).head?).getD o

/-- One byte of a scratchpad as every access sees it. -/
def spadRead (s : State) (i o : Nat) : Byte := spadByte s i (spadPhys s i o)

/-- The granules of 32 bytes that `n` bytes from an offset cover: their parity is written with them. -/
def wholeGranules (s : State) (i o n : Nat) : List Nat :=
  ((List.range n).filter (fun k => (o + k) % 32 = 0 && decide (k + 32 ≤ n))).map (fun k => (i * spadBytes + spadPhys s i (o + k)) / 32)

/-- A scratchpad with bytes written as every access writes them. -/
def spadPut (s : State) (i o : Nat) (bs : List Byte) : State :=
  { s with
    spad := ((List.range bs.length).zip bs).foldl (fun m e => mwrite m (i * spadBytes + spadPhys s i (o + e.1)) e.2) s.spad
    spadOdd := if s.spadOdd.isEmpty then [] else s.spadOdd.filter (fun g => !decide (g ∈ wholeGranules s i o bs.length)) }

end Sys2Proof.Machine
end

