-- ==== Sys2Proof/Machine/Numeric.lean ====
section
/-! DEFINITION. Number formats and arithmetic (spec/02): exact values, layouts, the one rounding, the dot-product rule,
splitting, conversions and the checksum comparison. -/

namespace Sys2Proof.Machine

/-- A floating-point layout (Table NUM-2). -/
structure FlFmt where
  ebits : Nat
  mbits : Nat
  bias : Nat
  /-- 0 IEEE infinities and NaN, 1 E4M3, 2 all encodings finite. -/
  special : Nat
  deriving DecidableEq, Repr

/-- binary32. -/
def fmt32 : FlFmt := ⟨8, 23, 127, 0⟩
/-- binary64. -/
def fmt64 : FlFmt := ⟨11, 52, 1023, 0⟩
/-- bfloat16. -/
def fmtBf16 : FlFmt := ⟨8, 7, 127, 0⟩
/-- binary16. -/
def fmt16 : FlFmt := ⟨5, 10, 15, 0⟩
/-- E4M3. -/
def fmtE4m3 : FlFmt := ⟨4, 3, 7, 1⟩
/-- E5M2. -/
def fmtE5m2 : FlFmt := ⟨5, 2, 15, 0⟩
/-- E3M2. -/
def fmtE3m2 : FlFmt := ⟨3, 2, 3, 2⟩
/-- E2M3. -/
def fmtE2m3 : FlFmt := ⟨2, 3, 1, 2⟩
/-- E2M1. -/
def fmtE2m1 : FlFmt := ⟨2, 1, 1, 2⟩

/-- Width of an encoding. -/
def FlFmt.width (f : FlFmt) : Nat := 1 + f.ebits + f.mbits

/-- The value of an encoding (R37). -/
def flDecode (f : FlFmt) (x : Nat) : Fl :=
  let neg := bit x (f.ebits + f.mbits)
  let e := x / 2 ^ f.mbits % 2 ^ f.ebits
  let m := x % 2 ^ f.mbits
  let top := 2 ^ f.ebits - 1
  if f.special = 0 ∧ e = top then (if m = 0 then .inf neg else .nan)
  else if f.special = 1 ∧ e = top ∧ m = 2 ^ f.mbits - 1 then .nan
  else if e = 0 then .fin neg m (1 - (f.bias : Int) - f.mbits)
  else .fin neg (2 ^ f.mbits + m) ((e : Int) - f.bias - f.mbits)

/-- The canonical NaN of a layout (R44). -/
def flNan (f : FlFmt) : Nat :=
  if f.special = 1 then 2 ^ (f.ebits + f.mbits) - 1 else (2 ^ f.ebits - 1) * 2 ^ f.mbits + 2 ^ (f.mbits - 1)

/-- `m / 2^d` rounded to nearest, ties to even. -/
def rneShift (m d : Nat) : Nat :=
  let q := m / 2 ^ d
  let r := 2 * (m % 2 ^ d)
  if r > 2 ^ d ∨ (r = 2 ^ d ∧ q % 2 = 1) then q + 1 else q

/-- A finite nonzero magnitude rounded to `mbits` fraction bits above the least exponent `emin`: the integer and the
exponent of its last bit (R42). -/
def flRound (mbits : Nat) (emin : Int) (m : Nat) (e : Int) : Nat × Int :=
  let top := (Nat.log2 m : Int) + e
  let q := (if top < emin then emin else top) - mbits
  let k := if q ≤ e then m * 2 ^ (e - q).toNat else rneShift m (q - e).toNat
  if k = 2 ^ (mbits + 1) then (2 ^ mbits, q + 1) else (k, q)

/-- The largest finite encoding of a layout, without sign. -/
def flMax (f : FlFmt) : Nat :=
  match f.special with
  | 0 => (2 ^ f.ebits - 1) * 2 ^ f.mbits - 1
  | 1 => 2 ^ (f.ebits + f.mbits) - 2
  | _ => 2 ^ (f.ebits + f.mbits) - 1

/-- A value encoded in a layout; `sat` saturates where Table NUM-3 gives no infinity. -/
def flEncode (f : FlFmt) (sat : Bool) (x : Fl) : Nat :=
  match x with
  | .nan => flNan f
  | .inf neg =>
    if f.special = 0 then b2n neg * 2 ^ (f.ebits + f.mbits) + (2 ^ f.ebits - 1) * 2 ^ f.mbits else flNan f
  | .fin neg m e =>
    let s := b2n neg * 2 ^ (f.ebits + f.mbits)
    if m = 0 then s
    else
      let (k, q) := flRound f.mbits (1 - (f.bias : Int)) m e
      let body : Int := if k < 2 ^ f.mbits then k else (q + f.mbits + f.bias - 1) * 2 ^ f.mbits + k
      if body ≤ flMax f then s + body.toNat
      else if sat then s + flMax f
      else s + (2 ^ f.ebits - 1) * 2 ^ f.mbits

/-- binary32 of a value (R42 to R44). -/
def to32 (x : Fl) : Nat := flEncode fmt32 false x
/-- The value of a binary32. -/
def of32 (x : Nat) : Fl := flDecode fmt32 x

/-- Magnitude and exponent as a signed integer at a lower exponent. -/
def flInt (neg : Bool) (m : Nat) (e lo : Int) : Int :=
  let v : Int := m * 2 ^ (e - lo).toNat
  if neg then -v else v

/-- A signed integer times 2^e; zero takes the sign given. -/
def flOfInt (v e : Int) (zneg : Bool) : Fl :=
  if v = 0 then .fin zneg 0 0 else .fin (decide (v < 0)) v.natAbs e

/-- The exact sum: zero is +0 unless both addends are -0 (R49, R53). -/
def flAdd (x y : Fl) : Fl :=
  match x, y with
  | .nan, _ => .nan
  | _, .nan => .nan
  | .inf a, .inf b => if a = b then .inf a else .nan
  | .inf a, _ => .inf a
  | _, .inf b => .inf b
  | .fin a m e, .fin b n f =>
    let lo := if e ≤ f then e else f
    flOfInt (flInt a m e lo + flInt b n f lo) lo (a && b && m = 0 && n = 0)

/-- The exact product (spec/02, Products). -/
def flMul (x y : Fl) : Fl :=
  match x, y with
  | .nan, _ => .nan
  | _, .nan => .nan
  | .inf a, .inf b => .inf (xor a b)
  | .inf a, .fin b n _ => if n = 0 then .nan else .inf (xor a b)
  | .fin a m _, .inf b => if m = 0 then .nan else .inf (xor a b)
  | .fin a m e, .fin b n f => .fin (xor a b) (m * n) (e + f)

/-- The negation. -/
def flNeg (x : Fl) : Fl := match x with | .nan => .nan | .inf a => .inf (!a) | .fin a m e => .fin (!a) m e
/-- The magnitude. -/
def flAbs (x : Fl) : Fl := match x with | .nan => .nan | .inf _ => .inf false | .fin _ m e => .fin false m e
/-- A value times 2^k. -/
def flScale (x : Fl) (k : Int) : Fl := match x with | .fin a m e => .fin a m (e + k) | x => x
/-- Whether a value is NaN. -/
def flIsNan (x : Fl) : Bool := match x with | .nan => true | _ => false
/-- Whether a value is finite. -/
def flIsFin (x : Fl) : Bool := match x with | .fin _ _ _ => true | _ => false
/-- x ≤ y of finite values. -/
def flLe (x y : Fl) : Bool :=
  match x, y with
  | .fin a m e, .fin b n f => let lo := if e ≤ f then e else f; decide (flInt a m e lo ≤ flInt b n f lo)
  | _, _ => false

/-- The ADD slot's and the atomic's sum in binary32: exact, rounded once (R53, R192). -/
def add32 (x y : Nat) : Nat := to32 (flAdd (of32 x) (of32 y))
/-- The ADD slot's sum in bfloat16. -/
def add16 (x y : Nat) : Nat := flEncode fmtBf16 false (flAdd (flDecode fmtBf16 x) (flDecode fmtBf16 y))

/-! ## Groups and chains (R48, R49) -/

/-- floor(log2 |p|) of a finite nonzero product. -/
def flExp (x : Fl) : Option Int :=
  match x with
  | .fin _ m e => if m = 0 then none else some ((Nat.log2 m : Int) + e)
  | _ => none

/-- The largest of a list of exponents. -/
def maxExp (es : List Int) : Option Int :=
  es.foldl (fun r x => match r with | none => some x | some y => some (if y < x then x else y)) none

/-- The sum g of one group of products with the MX scale exponent applied afterwards (R48). -/
def groupSum (ps : List Fl) (scale : Int) : Fl :=
  let pos := ps.any (fun p => p == .inf false)
  let neg := ps.any (fun p => p == .inf true)
  if ps.any flIsNan || (pos && neg) then .nan
  else if pos then .inf false
  else if neg then .inf true
  else match maxExp (ps.filterMap flExp) with
    | none => .zero
    | some top =>
      let lo := top - 40
      let cut := fun (p : Fl) => match p with
        | .fin a m e =>
          let v : Nat := if lo ≤ e then m * 2 ^ (e - lo).toNat else m / 2 ^ (lo - e).toNat
          if a then -(v : Int) else (v : Int)
        | _ => 0
      flScale (flOfInt (ps.foldl (fun t p => t + cut p) 0) lo false) scale

/-- One addition of the chain: exact, then rounded to binary32 (R49). -/
def chainAdd (y : Nat) (g : Fl) : Nat := to32 (flAdd (of32 y) g)

/-- The carried value after the groups of a pass (R49). -/
def chain (y : Nat) (gs : List Fl) : Nat := gs.foldl chainAdd y

/-! ## Formats (Table NUM-1) -/

/-- Element width in bits of a format code. -/
def elemBits (code : Nat) : Nat :=
  match code with
  | 0x0 => 32 | 0x1 => 16 | 0x2 => 16 | 0x3 => 8 | 0x4 => 8 | 0x5 => 8 | 0x6 => 8 | 0x7 => 6 | 0x8 => 6 | 0x9 => 4
  | 0xA => 8 | 0xB => 4 | 0xC => 32 | 0xD => 16 | _ => 0
/-- Whether a format has a block scale. -/
def isMx (code : Nat) : Bool := decide (5 ≤ code) && decide (code ≤ 9)
/-- Whether a format is integer. -/
def isIntFmt (code : Nat) : Bool := code = 0xA || code = 0xB || code = 0xC
/-- The layout of a floating-point element; FP32S elements are bfloat16 (R47). -/
def elemFmt (code : Nat) : FlFmt :=
  match code with
  | 0x1 => fmtBf16 | 0x2 => fmt16 | 0x3 => fmtE4m3 | 0x4 => fmtE5m2 | 0x5 => fmtE4m3 | 0x6 => fmtE5m2
  | 0x7 => fmtE3m2 | 0x8 => fmtE2m3 | 0x9 => fmtE2m1 | 0xD => fmtBf16 | _ => fmt32
/-- Rate class (Table NUM-1). -/
def rateClass (code : Nat) : Nat :=
  match code with
  | 0x1 => 1 | 0x2 => 1 | 0xD => 1 | 0x9 => 4 | 0xB => 4
  | 0x3 => 2 | 0x4 => 2 | 0x5 => 2 | 0x6 => 2 | 0x7 => 2 | 0x8 => 2 | 0xA => 2 | _ => 0
/-- The rate of a pass: the lower of its operands' classes (R47). -/
def passRate (x w : Nat) : Nat := if rateClass x ≤ rateClass w then rateClass x else rateClass w
/-- Whether a pair of operand formats is allowed (R47): both floating or both integer, neither FP32 nor INT32. -/
def pairOk (x w : Nat) : Bool := rateClass x ≠ 0 && rateClass w ≠ 0 && isIntFmt x == isIntFmt w

/-- The value of an element; scale byte 0xFF makes it NaN (R39). -/
def elemFl (code x scale : Nat) : Fl :=
  if isMx code && scale = 0xFF then .nan else flDecode (elemFmt code) x
/-- The exponent of a pair of block scales (spec/02, Products). -/
def scaleExp (x w sx sw : Nat) : Int :=
  (if isMx x then (sx : Int) - 127 else 0) + (if isMx w then (sw : Int) - 127 else 0)
/-- The integer value of an element. -/
def elemInt (code x : Nat) : Int :=
  let w := elemBits code
  if bit x (w - 1) then (x % 2 ^ w : Nat) - (2 ^ w : Nat) else (x % 2 ^ w : Nat)

/-- One float output of a pass: groups of `n` of the reduction dimension; each element comes with its block's scale. -/
def dotFloat (fx fw y : Nat) (groups : List (List (Nat × Nat × Nat × Nat))) : Nat :=
  chain y (groups.map (fun g =>
    let sc := match g with | [] => 0 | (_, sx, _, sw) :: _ => scaleExp fx fw sx sw
    groupSum (g.map (fun e => flMul (elemFl fx e.1 e.2.1) (elemFl fw e.2.2.1 e.2.2.2))) sc))

/-- One integer output of a pass, modulo 2^32 (R51). -/
def dotInt (fx fw y : Nat) (es : List (Nat × Nat)) : Nat :=
  ((es.foldl (fun (t : Int) (e : Nat × Nat) => t + elemInt fx e.1 * elemInt fw e.2) (y : Int)) % 2 ^ 32).toNat

/-! ## Splitting and conversion -/

/-- hi of a binary32 (R56). -/
def splitHi (v : Nat) : Nat :=
  match of32 v with
  | .fin _ _ _ => v / 65536
  | x => flEncode fmtBf16 false x
/-- lo of a binary32 (R56). -/
def splitLo (v : Nat) : Nat :=
  match of32 v with
  | .fin a m e =>
    let d := flAdd (.fin a m e) (flNeg (flDecode fmtBf16 (v / 65536)))
    if d == .fin false 0 0 || d == .fin true 0 0 then 0 else flEncode fmtBf16 false d
  | _ => 0

/-- INT32 shifted right by `k`, rounded to nearest even, saturated to `w` bits (R46). -/
def convInt (w k x : Nat) : Nat :=
  let v := elemInt 0xC x
  let q := v / 2 ^ k
  let r := 2 * (v % 2 ^ k)
  let q := if r > 2 ^ k ∨ (r = 2 ^ k ∧ q % 2 = 1) then q + 1 else q
  let hi : Int := 2 ^ (w - 1) - 1
  let q := if q > hi then hi else if q < -hi - 1 then -hi - 1 else q
  (q % 2 ^ w).toNat

/-- e_max of an MX element layout (R45). -/
def mxEmax (code : Nat) : Int :=
  match code with | 0x9 => 2 | 0x8 => 2 | 0x7 => 4 | 0x5 => 8 | _ => 15

/-- A block of 32 values in an MX format: the scale byte and the elements (R45). -/
def mxBlock (code : Nat) (vs : List Fl) : Nat × List Nat :=
  if vs.any (fun v => !flIsFin v) then (0xFF, vs.map (fun _ => 0))
  else match maxExp (vs.filterMap flExp) with
    | none => (0, vs.map (fun _ => 0))
    | some t =>
      let x := t - mxEmax code
      let x := if x > 127 then 127 else if x < -127 then -127 else x
      ((x + 127).toNat, vs.map (fun v => flEncode (elemFmt code) true (flScale v (-x))))

/-- A value in a scalar floating-point format (R42, R43, Table NUM-3). -/
def flToCode (code : Nat) (x : Fl) : Nat :=
  match code with
  | 0x3 => flEncode fmtE4m3 true x
  | 0x4 => flEncode fmtE5m2 true x
  | _ => flEncode (elemFmt code) false x

/-- A binary32 in a scalar floating-point format. -/
def convFloat (code v : Nat) : Nat := flToCode code (of32 v)

/-- The value of an operand in a format; an MX element comes with its scale byte (R37 to R39). -/
def codeValue (code x scale : Nat) : Fl :=
  if isIntFmt code then flOfInt (elemInt code x) 0 false
  else if isMx code then flScale (elemFl code x scale) ((scale : Int) - 127)
  else flDecode (elemFmt code) x

/-! ## The checksum comparison (R58 to R61) -/

/-- A value rounded to binary64. -/
def round64 (x : Fl) : Fl := flDecode fmt64 (flEncode fmt64 false x)

/-- The exact sum of a list, rounded once to binary32 (R58). -/
def sum32 (vs : List Fl) : Nat := to32 (vs.foldl flAdd .zero)

/-- The float comparison of a column: none where it is not compared (R61), else whether it passes (R59). -/
def checkFloat (t : Nat) (c a : Nat) (contributions : List Fl) : Option Bool :=
  let s := round64 (contributions.foldl flAdd .zero)
  let c := of32 c
  let a := of32 a
  if !flIsFin c || !flIsFin a || !flIsFin s then none
  else
    let d := round64 (flAbs (flAdd c (flNeg s)))
    let lim := round64 (flAdd (flScale a (-(t : Int))) (.fin false 1 (-133)))
    some (flLe d lim)

/-- The default tolerance exponent (Table NUM-4). -/
def toleranceOf (table : List Byte) (code : Nat) : Nat :=
  let v := (table.getD code 0).toNat
  if v = 0 then 17 else v

end Sys2Proof.Machine
end

