-- ==== Sys2Proof/Machine/Cache.lean ====
section
/-! DEFINITION. The unified cache: staging (R225 to R227), fills, streams and evictions (R235, R236), counters (R238),
committed writes (R234), commit and discard (R228 to R231), back-invalidation (R233), and the ledger (R302 to R307). -/

namespace Sys2Proof.Machine

/-! ## Message codes of `NocMsg` (Table UCC-2) -/

/-- SNP_INV. -/
def mSnpInv : Nat := 0
/-- SNP_DOWN. -/
def mSnpDown : Nat := 1
/-- SNP_SNAP. -/
def mSnpSnap : Nat := 2
/-- DATA_S. -/
def mDataS : Nat := 3
/-- DATA_E. -/
def mDataE : Nat := 4
/-- DATA_M. -/
def mDataM : Nat := 5
/-- WB_ACK. -/
def mWbAck : Nat := 6
/-- DATA_NA. -/
def mDataNa : Nat := 0
/-- ACK. -/
def mAck : Nat := 1
/-- RSP_ACK. -/
def mRspAck : Nat := 0
/-- RSP_DATA. -/
def mRspData : Nat := 1
/-- RSP_NP. -/
def mRspNp : Nat := 2
/-- RSP_WBP. -/
def mRspWbp : Nat := 3
/-- WB. -/
def mWb : Nat := 4

/-- A message is on its way. -/
def send (s : State) (m : NocMsg) : State := { s with noc := s.noc ++ [m] }

/-- Takes the first message that `f` accepts off the network. -/
def takeMsg (s : State) (f : NocMsg → Bool) : Option (NocMsg × State) :=
  (s.noc.find? f).map (fun m => (m, { s with noc := s.noc.erase m }))

/-- Whether an agent reads the committed view (Table UCC-3). -/
def isOutside : Agent → Bool
  | .porter _ _ => true
  | .link _ => true
  | .host => true
  | .dataPort => true
  | _ => false

/-- Whether the line has a transaction or a window in progress. -/
def lineBusy (l : Line) : Bool := l.cur.isSome || !l.window.isEmpty || l.windowOpen

/-! ## Quotas (Table PTN-1, R226) -/

/-- Ways of a slice that fuses leave enabled. -/
def waysOf (s : State) (stall : Nat) : Nat := 16 - popCount (tget s.fuses.wayDisable stall).toNat 16
/-- STAGE_WAYS of a record: 0 selects 8. -/
def stageWays (r : PitchRecord) : Nat := if r.stageWays = 0 then 8 else r.stageWays
/-- STAGE_QUOTA of a record: 0 selects n · 1,536 · STAGE_WAYS. -/
def stageQuota (r : PitchRecord) : Nat :=
  if r.stageQuota = 0 then popCount r.stalls 64 * 1536 * stageWays r else r.stageQuota

/-- Whether a line counts as staged. -/
def isStagedLine (l : Line) : Bool := l.state == .staged || l.state == .discardStaged
/-- Staged lines of the partition (UCC_USE.STAGED). -/
def stagedCount (s : State) (p : Nat) : Nat := ((s.part p).cache.lines.filter (fun e => isStagedLine e.2)).length
/-- Pinned lines of the partition (UCC_USE.PINNED). -/
def pinnedCount (s : State) (p : Nat) : Nat := ((s.part p).cache.lines.filter (fun e => e.2.pinned)).length
/-- The lines at the home and in the set of line `a`. -/
def setLines (s : State) (p a : Nat) : List (Nat × Line) :=
  (s.part p).cache.lines.filter (fun e => homeOf s p e.1 = homeOf s p a && setOf e.1 = setOf a)

/-- Whether line `a` may become STAGED (R226; R300 in wide staging). -/
def canStage (s : State) (p a : Nat) : Bool :=
  match homeOf s p a with
  | none => false
  | some h =>
    let l := s.line p a
    let q := s.part p
    let lines := setLines s p a
    let pins := (lines.filter (fun e => e.2.pinned)).length
    let staged := (lines.filter (fun e => isStagedLine e.2)).length
    let held := (lines.filter (fun e => e.2.pinned || isStagedLine e.2)).length
    let top := waysOf s h - 4
    isStagedLine l ||
      ((if q.epoch.wide then decide (staged < top - pins)
        else decide (staged < stageWays q.record) && decide (stagedCount s p < stageQuota q.record)) &&
       (l.pinned || decide (held < top)))

/-! ## Counters (R238) -/

/-- Tally classes in register order. -/
def clsWeight : Nat := 0
/-- ACTIVATION. -/
def clsActivation : Nat := 1
/-- CORE_DATA. -/
def clsCoreData : Nat := 2
/-- CORE_INSTR. -/
def clsCoreInstr : Nat := 3
/-- KV. -/
def clsKv : Nat := 4
/-- HOST_IO. -/
def clsHostIo : Nat := 5
/-- STREAMED. -/
def clsStreamed : Nat := 6
/-- PINNED. -/
def clsPinned : Nat := 7

/-- The class of an access to a line (Table UCC-4): PINNED, then STREAMED, then the access's own. -/
def classOf (s : State) (p a own : Nat) : Nat :=
  if (s.line p a).pinned then clsPinned else if (s.line p a).streamed then clsStreamed else own

/-- Counts quantity `k` of a class. -/
def tallyAdd (s : State) (p cls k : Nat) : State :=
  s.modPart p (fun q => { q with cache := { q.cache with tally := tmod q.cache.tally (4 * cls + k) (fun n => (n + 1) % 2 ^ 64) } })

/-! ## Dirty logging (R425) -/

/-- Marks the device-space page of a line that became visible. -/
def logDevice (s : State) (p phys : Nat) : State :=
  match (s.part p).logDevice with
  | none => s
  | some l =>
    if l.base ≤ phys ∧ phys < l.base + l.bytes then
      let i := (phys - l.base) / 65536
      if i ∈ l.marked then s else s.modPart p (fun q => { q with logDevice := some { l with marked := i :: l.marked } })
    else s

/-- Marks the host-space page of a host-window write. -/
def logHost (s : State) (p hpa : Nat) : State :=
  match (s.part p).logHost with
  | none => s
  | some l =>
    if l.base ≤ hpa ∧ hpa < l.base + l.bytes then
      let i := (hpa - l.base) / 4096
      if i ∈ l.marked then s else s.modPart p (fun q => { q with logHost := some { l with marked := i :: l.marked } })
    else s

/-! ## Writeback, fill and eviction -/

/-- Writes a line's bytes back to memory; the slice keeps no byte that differs. -/
def writeback (s : State) (p a : Nat) : State :=
  if isLsmLine a then writeLine (s.modLine p a (fun l => { l with data := [] })) p a (s.line p a).data else s

/-- Lines of a set that replacement may take: neither pinned nor staged nor in the stream buffer, and no remote copy that
holds, or whose owner may hold, a written byte, since that leaves at a commit only (R260). -/
def evictable (s : State) (p a : Nat) : List Nat :=
  ((setLines s p a).filter (fun e => e.1 ≠ a && (e.2.state == .clean || e.2.state == .dirty) && !e.2.pinned &&
    !e.2.streamed && !(isRemoteLine e.1 && (e.2.state == .dirty || e.2.filter.any (fun f => f.owner))))).map (fun e => e.1)

/-- One replacement where the set is full: the victim, and the class that counts the eviction, are free choices (log
entry 10). -/
def makeRoom (s : State) (p a : Nat) : State :=
  match homeOf s p a with
  | none => s
  | some h =>
    let used := ((setLines s p a).filter (fun e => e.1 ≠ a && e.2.state != .absent && !e.2.streamed)).length
    let cands := evictable s p a
    if used < waysOf s h then s
    else
      let (n, s) := s.draw
      let (m, s) := s.draw
      match cands[(Config.freeValue n).toNat % cands.length]? with
      | none => s
      | some v =>
        let s := if (s.line p v).state == .dirty then writeback s p v else s
        let s := tallyAdd s p ((Config.freeValue m).toNat % 6) 3
        s.modLine p v (fun l => { l with state := .absent, data := [], bad := 0, met := 0, base := [] })

/-- The number of a requester with a stream detector (R235). -/
def detectorOf (ag : Agent) : Nat :=
  match ag with
  | .core l => 16 * l1Key l
  | .loader i => 16 * i + 1
  | .porter i c => 16 * (2 * i + c) + 2
  | .host => 3
  | .dataPort => 4
  | .feeder i m => 16 * (2 * i + b2n m) + 5
  | .link j => 16 * j + 6

/-- The detector after a miss, and whether the requester is in a stream (R235): four misses on rising lines of one
aligned window of 64 begin a stream; it lasts while each miss is 1 to 4 lines past the last. -/
def detect (ds : List (Nat × Nat × Nat)) (who a : Nat) : List (Nat × Nat × Nat) × Bool :=
  let rest := ds.filter (fun d => d.1 ≠ who)
  match ds.find? (fun d => d.1 = who) with
  | none => ((who, a, 1) :: rest, false)
  | some (_, last, n) =>
    if n ≥ 4 then
      if last < a ∧ a ≤ last + 4 then ((who, a, n) :: rest, true) else ((who, a, 1) :: rest, false)
    else if a = last + 1 ∧ a / 64 = last / 64 then ((who, a, n + 1) :: rest, decide (n + 1 ≥ 4))
    else ((who, a, 1) :: rest, false)

/-- Places a line in its home's stream buffer, 32 lines, least recently used leaving first (R236). -/
def toBuffer (s : State) (p a : Nat) : State :=
  match homeOf s p a with
  | none => s
  | some h =>
    let bs := (h, a) :: (s.part p).cache.buffers.filter (fun b => b ≠ (h, a))
    let here := bs.filter (fun b => b.1 = h)
    let gone := here.drop 32
    let s := s.modPart p (fun q => { q with cache := { q.cache with buffers := bs.filter (fun b => b ∉ gone) } })
    let s := gone.foldl (fun s b =>
      (tallyAdd s p 6 3).modLine p b.2 (fun l => { l with streamed := false, state := .absent, data := [], bad := 0, met := 0 })) s
    s.modLine p a (fun l => { l with streamed := true, state := .clean })

/-- A line of the stream buffer that is written moves into the sets (R236). -/
def toSets (s : State) (p a : Nat) : State :=
  if (s.line p a).streamed then
    let s := s.modPart p (fun q => { q with cache := { q.cache with buffers := q.cache.buffers.filter (fun b => b.2 ≠ a) } })
    makeRoom (s.modLine p a (fun l => { l with streamed := false })) p a
  else s

/-- Where the fill of a miss goes (R224, R236). -/
inductive MissFill where
  /-- To the sets, or to the stream buffer for a requester in a stream. -/
  | slice
  /-- To the stream buffer for a requester in a stream, else nowhere. -/
  | stream
  /-- Nowhere: the line is only fetched. -/
  | fetch
  /-- Nothing is fetched. -/
  | none
  deriving DecidableEq, Repr

/-- Whether an agent has no stream detector: only core L1s, Porter channels, loaders and the host port have one (R235), and
a feeder's fetches are not subject to detection (R236). -/
def undetected : Agent → Bool
  | .feeder _ _ => true
  | .link _ => true
  | .dataPort => true
  | _ => false

/-- The detector of an agent moves on a miss (R235); the host port has one for the whole device. -/
def missed (s : State) (p a : Nat) (ag : Agent) : State × Bool :=
  if undetected ag then (s, false)
  else if ag = .host then
    let (ds, inStream) := detect s.hostStream (detectorOf ag) a
    ({ s with hostStream := ds }, inStream)
  else
    let (ds, inStream) := detect (s.part p).cache.streams (detectorOf ag) a
    (s.modPart p (fun q => { q with cache := { q.cache with streams := ds } }), inStream)

/-- A lookup by an agent (R238): counted in one class, with the detector moved on a miss; the fill goes where `fill` says
(R224), a stream's to the stream buffer unless the line is pinned. A read from outside of a staged line is answered from
memory: it is no hit, and nothing is placed, as nothing is of poison that a read from outside meets (R285). -/
def access (s : State) (p a : Nat) (ag : Agent) (own : Nat) (fill : MissFill) : State :=
  let l := s.line p a
  let cls := classOf s p a own
  if isOutside ag && isStagedLine l && fill ≠ .none then tallyAdd (tallyAdd s p cls 0) p cls 2
  else if l.state != .absent then
    let s1 := tallyAdd (tallyAdd s p cls 0) p cls 1
    if l.streamed then toBuffer s1 p a else s1
  else if fill = .none then tallyAdd s p cls 0
  else
    let (s1, inStream) := missed s p a ag
    let placed := !(isOutside ag && decide (l.bad ≠ 0))
    let buffered := inStream && !l.pinned && fill ≠ .fetch && placed
    let c := if buffered then clsStreamed else cls
    let s1 := tallyAdd (tallyAdd s1 p c 0) p c 2
    if buffered then toBuffer (s1.modLine p a filled) p a
    else if (l.pinned || fill = .slice) && placed then (makeRoom s1 p a).modLine p a filled
    else s1

/-- Whether a miss of an agent would place the whole line (R224, R236). -/
def placesLine (s : State) (p a : Nat) (ag : Agent) (fill : MissFill) : Bool :=
  (s.line p a).state == .absent && fill ≠ .none &&
    ((s.line p a).pinned || fill = .slice || (fill = .stream && (missed s p a ag).2))

/-! ## The dead-read trap (R232) -/

/-- A home notes a discarded line. -/
def noteDead (s : State) (p a : Nat) : State :=
  match homeOf s p a with
  | none => s
  | some h => s.modPart p (fun q => { q with cache := { q.cache with
      dead := let all := (h, a) :: q.cache.dead.filter (fun d => d ≠ (h, a))
              all.filter (fun d => d.1 ≠ h) ++ (all.filter (fun d => d.1 = h)).take 256 } })

/-- A write takes a line off the list. -/
def unDead (s : State) (p a : Nat) : State :=
  s.modPart p (fun q => { q with cache := { q.cache with dead := q.cache.dead.filter (fun d => d.2 ≠ a) } })

/-! ## The host as an agent (R233) -/

/-- Cachelines that one back-invalidation names: four in the block form, where the host has negotiated it (log entry
168). -/
def backSize : Nat := if Config.backBlocks then 4 else 1

/-- The cachelines that an answer to a back-invalidation at an address gives up. -/
def backAnswered (address : Nat) : List Nat :=
  (List.range backSize).map (fun i => address / (64 * backSize) * (64 * backSize) + 64 * i)

/-- The home asks the host to give up every cacheline of a line, and waits for every answer. -/
def backInvalidate (s : State) (p a : Nat) : State :=
  let cs := (List.range 16).map (fun i => linePhys a + 64 * i)
  let s := s.modLine p a (fun l => { l with awaitHost := cs })
  (cs.filter (fun c => c % (64 * backSize) = 0)).foldl (fun s c => s.emit (.backInvalidate c backSize)) s

/-! ## L1 copies -/

/-- The lines of an L1 that share a set with line `a`, most recently used first: 16 sets of 8 ways, the set taken as the
low four bits of the line address (PRESUMED, log entry 16). -/
def l1Set (s : State) (l : L1Id) (a : Nat) : List (Nat × L1Line) :=
  (tget s.l1s (l1Key l)).filter (fun e => e.1 % 16 = a % 16 && e.1 ≠ a && e.2.state != .i)

/-- The way that line `a` fills in its set of an L1: its own where it is there, else a free one, else that of the least
recently used line. -/
def l1Way (s : State) (l : L1Id) (a : Nat) : Nat :=
  if (s.l1Line l a).state != .i then (s.l1Line l a).way
  else
    let set := l1Set s l a
    match (List.range 8).find? (fun w => set.all (fun e => e.2.way ≠ w)) with
    | some w => w
    | none => (set.getLast?.map (fun e => e.2.way)).getD 0

/-- Dirty bytes from an L1 enter the slice; a line that is not staged then holds a committed value newer than memory's. -/
def takeDirty (s : State) (p a : Nat) (cells : List Host.Cell) : State :=
  if cells.isEmpty then s
  else
    let s := toSets (forgetReads s p a) p a
    let s := if (s.line p a).state == .absent then makeRoom s p a else s
    s.modLine p a (fun l => { l with
      data := olay l.data cells, state := match l.state with | .absent => .dirty | .clean => .dirty | x => x })

/-- Whether the transaction in progress on a line is a snapshot, whose bytes on their way are its own. -/
def snapshotRuns (l : Line) : Bool :=
  match l.cur with | some (.rdNa _ _ _) => true | some (.memRd _ false) => true | _ => false

/-- Whether a message on its way carries bytes of an L1's M line into the slice: a writeback, or an answer to a snoop. -/
def carriesDirty (s : State) (p a : Nat) (l : L1Id) (m : NocMsg) : Bool :=
  match m with
  | .toHome k q x b _ => (k = mWb || (k = mRspData && !snapshotRuns (s.line p a))) && q = p && x = l && b = a
  | _ => false

/-- The bytes of a message. -/
def flightCells (m : NocMsg) : List Host.Cell := match m with | .toHome _ _ _ _ cs => cs | _ => []

/-- A message that has given its bytes up. -/
def emptied (m : NocMsg) : NocMsg := match m with | .toHome k q x b _ => .toHome k q x b [] | m => m

/-- Whether a message grants an L1 the line. -/
def grantsLine (p a : Nat) (l : L1Id) (m : NocMsg) : Bool :=
  match m with
  | .toL1 k q x b => (k = mDataS || k = mDataE || k = mDataM) && q = p && x = l && b = a
  | .toAgent k q ag b cs => k = mAck && q = p && ag == .core l && b = a && cs.isEmpty
  | _ => false

/-- What is on its way from and to an L1 for a line that the home takes back (R223): bytes of M are used now, kept or
dropped, and grants are withdrawn, or brought down to S where `toS` says so. -/
def settleFlight (s : State) (p a : Nat) (l : L1Id) (keep toS : Bool) : State :=
  let cs := (s.noc.filter (carriesDirty s p a l)).flatMap flightCells
  let noc := (s.noc.map (fun m => if carriesDirty s p a l m then emptied m else m)).filterMap (fun m =>
    if grantsLine p a l m then (match m with | .toL1 _ q x b => if toS then some (.toL1 mDataS q x b) else none | _ => none)
    else some m)
  let s := { s with noc := noc }
  if keep then takeDirty s p a cs else s

/-- Takes the line from one L1: its dirty bytes go to the slice when `keep`, and its entry goes. -/
def dropL1 (s : State) (p a : Nat) (l : L1Id) (keep : Bool) : State :=
  let s := settleFlight s p a l keep false
  let x := s.l1Line l a
  let s := if keep && x.state == .m then takeDirty s p a x.data else s
  let s := s.modLine p a (fun n => { n with filter := n.filter.filter (fun f => f.l1 ≠ l) })
  s.modL1 l a (fun x => { wbInFlight := x.wbInFlight })

/-- Takes the line from every L1 whose filter entry names it, but for those spared. -/
def dropL1s (s : State) (p a : Nat) (keep : Bool) (spare : L1Id → Bool) : State :=
  ((s.line p a).filter.filter (fun f => !spare f.l1)).foldl (fun s f => dropL1 s p a f.l1 keep) s

/-- Brings the line's owner, if it has one, to S, its dirty bytes going to the slice (SNP_DOWN, R228). -/
def downOwner (s : State) (p a : Nat) : State :=
  match (s.line p a).filter.find? (fun f => f.owner) with
  | none => s
  | some f =>
    let s := settleFlight s p a f.l1 true true
    let x := s.l1Line f.l1 a
    let s := if x.state == .m then takeDirty s p a x.data else s
    let s := s.modLine p a (fun n => { n with filter := n.filter.map (fun g => { g with owner := false }) })
    if x.state == .i then s else s.modL1 f.l1 a (fun y => { y with state := .s, data := [] })

/-! ## Writes -/

/-- A line becomes STAGED (R225): its committed value goes to memory first. -/
def markStaged (s : State) (p a : Nat) : State :=
  match (s.line p a).state with
  | .staged => s
  | _ =>
    let s := toSets s p a
    let s := if (s.line p a).state == .absent && !(s.line p a).pinned then makeRoom s p a else s
    let s := if (s.line p a).state == .clean then s else writeback s p a
    unDead (s.modLine p a (fun l => { l with state := .staged })) p a

/-- A committed write performed as a host MemWr (R234): every L1 copy goes and the bytes enter the slice as DIRTY. A line
that is staged takes them beside what is staged, and memory, which holds its committed value, takes them too. -/
def writeCommitted (s : State) (p a : Nat) (cells : List Host.Cell) : State :=
  let s := noteTables s p a cells
  let s := toSets (forgetReads (dropL1s s p a true (fun _ => false)) p a) p a
  let s := if (s.line p a).state == .absent then makeRoom s p a else s
  let s := if isStagedLine (s.line p a) then writeLine (s.modLine p a (fun l => { l with data := olay l.data cells })) p a cells
    else s.modLine p a (fun l => { l with state := .dirty, data := olay l.data cells })
  logDevice (unDead s p a) p (linePhys a)

/-- The same in the order of the line's transactions (R220): behind one in progress. -/
def homeWrite (s : State) (p a : Nat) (cells : List Host.Cell) : State :=
  if lineBusy (s.line p a) then
    s.modLine p a (fun l => { l with waiting := l.waiting ++ [.port 0 (cells.map (fun c => (Fin.ofNat 1024 c.1, c.2)))] })
  else writeCommitted s p a cells

/-- How a staged write came out. -/
inductive StageResult where
  | staged
  /-- STANDARD: written through, the unit is marked (R227). -/
  | through
  /-- STRICT: staging is full. -/
  | full
  deriving DecidableEq, Repr

/-- What a staged write of line `a` finds (R226, R227). -/
def stageCheck (s : State) (p a : Nat) : StageResult :=
  if canStage s p a then .staged else if (s.part p).record.check = 1 then .full else .through

/-- Writes bytes of the running unit into a line: staged, or through under STANDARD; nothing where staging is full. -/
def writeUnit (s : State) (p a : Nat) (cells : List Host.Cell) : State :=
  match stageCheck s p a with
  | .staged =>
    let s := markStaged (dropL1s s p a true (fun _ => false)) p a
    s.modLine p a (fun l => { l with data := olay l.data cells })
  | .through => writeCommitted s p a cells
  | .full => s

/-! ## Commit and discard (R228 to R231) -/

/-- The lines of a partition. -/
def lineKeys (s : State) (p : Nat) : List Nat := (s.part p).cache.lines.map (fun e => e.1)

/-- The ports that are UP. -/
def upPorts (s : State) : List Nat := (List.range 12).filter (fun j => (s.port j).state == .up)

/-- The ports an item may leave by, ascending, for a destination device (R332): those to a neighbour; to any other device a
free choice among the UP ports once the group is numbered, since the group's cabling is not the device's to know
(log entry 60). -/
def routePorts (s : State) (dst : Nat) : List Nat :=
  let near := (upPorts s).filter (fun j => (s.port j).farDevice = dst)
  if !near.isEmpty then near
  else if s.links.enumerated && dst ≠ ownNumber s then
    (upPorts s).filter (fun j => (Config.freeValue (s.links.routeSeed + dst)).getLsbD j)
  else []

/-- Whether the partition has a route to a device (R329). -/
def hasRoute (s : State) (p dst : Nat) : Bool :=
  (routePorts s dst).any (fun j => bit (s.part p).record.zlPorts j)

/-- Hops to a device (R332). -/
def hopsTo (s : State) (dst : Nat) : Nat :=
  if dst = ownNumber s then 0
  else if (upPorts s).any (fun j => (s.port j).farDevice = dst) then 1
  else if s.links.enumerated then Nat.max 2 ((Config.freeValue (s.links.routeSeed + dst)).toNat / 2 ^ 12 % 2 ^ 12) else 0

/-- An item is queued at the port SEQ selects among the route's ports (R332). -/
def queueItem (s : State) (type : Nat) (i : Item) : State :=
  let ps := routePorts s i.dstDevice.toNat
  match ps[i.seq.toNat % ps.length]? with
  | none => s
  | some j => s.modPort j (fun x => { x with sendItems := x.sendItems ++ [{ type := type, item := i }] })

/-- The commit unit in progress: kernel or epoch, its UNIT number and attempt (Table CHK-4, R309). -/
def unitOf (s : State) (p : Nat) : Bool × Nat × Nat :=
  let q := s.part p
  if q.kernel.running then (true, q.job.launches % 2 ^ 31, q.kernel.replays % 4)
  else (false, q.job.commits % 2 ^ 31, q.epoch.attempt % 4)

/-- An item of partition `p`'s unit in progress, with the next SEQ of a sequence. -/
def unitItemBy (s : State) (key p dst addr : Nat) (data : List Byte) : Item × State :=
  let (k, u, t) := unitOf s p
  let q := tget (s.part p).zlk.itemSeq key
  ({ srcDevice := BitVec.ofNat 12 (ownNumber s), dstDevice := BitVec.ofNat 12 dst,
     srcPartition := Fin.ofNat 64 p, attempt := Fin.ofNat 4 t, kernel := k, unit := BitVec.ofNat 31 u,
     seq := BitVec.ofNat 64 q, address := BitVec.ofNat 44 addr, operand := 0,
     byteCount := BitVec.ofNat 32 data.length, lanes := [], data := data },
   s.modPart p (fun x => { x with zlk := { x.zlk with itemSeq := tset x.zlk.itemSeq key (q + 1) } }))

/-- An item of partition `p`'s unit in progress, with the next SEQ for its destination. -/
def unitItem (s : State) (p dst addr : Nat) (data : List Byte) : Item × State := unitItemBy s dst p dst addr data

/-- A remote copy is asked for: a READ_REQ item of the whole line (R229, R328). -/
def askRemote (s : State) (p a : Nat) : State :=
  if (s.line p a).fetch = 0 then
    let (it, s) := unitItemBy s (4096 + lineDevice a) p (lineDevice a) (linePhys a) []
    (queueItem s 2 { it with byteCount := 1024 }).modLine p a (fun l => { l with fetch := 1, fetchSeq := it.seq.toNat })
  else s

/-- Sectors of a line that hold a byte of an overlay. -/
def dirtySectors (cs : List Host.Cell) : List Nat :=
  (List.range 4).filter (fun i => cs.any (fun c => c.1 / 256 = i))

/-- Sends the staged sectors of a remote copy to its device as WRITE items (R229). -/
def sendRemote (s : State) (p a : Nat) : State :=
  (dirtySectors (s.line p a).data).foldl (fun s k =>
    let bytes := (List.range 256).map (fun i => stagedByte s p a (256 * k + i))
    let (it, s) := unitItem s p (lineDevice a) (linePhys a + 256 * k) bytes
    queueItem s 1 it) s

/-- Writes a staged host-window line to the host, one cacheline per write (R230). -/
def sendHost (s : State) (p a : Nat) : State :=
  let l := s.line p a
  (List.range 16).foldl (fun s i =>
    let cs := (l.data.filter (fun c => c.1 / 64 = i)).map (fun c => (c.1 % 64, c.2))
    if cs.isEmpty then s
    else match hwinLookup s p (linePhys a - hwinBase + 64 * i) with
      | none => s
      | some h => logHost ({ s with hostCommit := s.hostCommit ++ [(p, h)] }.emit (.cacheWrite h cs)) p h) s

/-- Every remote copy that the unit in progress has written leaves as its commit becomes pending (R229, R260). -/
def sendStaged (s : State) (p : Nat) : State :=
  (((s.part p).cache.lines.map (fun e => e.1)).filter isRemoteLine).foldl (fun s a =>
    let s := downOwner s p a
    if (s.line p a).data.isEmpty then s else sendRemote s p a) s

/-- One line at a commit (R228 to R231); what a remote copy holds has left already. Every owner is brought to S, of a line
written through too, so that the next unit's write reaches the home (log entry 165). -/
def commitLine (s : State) (p a : Nat) : State :=
  let s := downOwner s p a
  if isRemoteLine a then
    (dropL1s s p a false (fun _ => false)).modLine p a
      (fun l => { l with state := .absent, data := [], bad := 0, met := 0, base := [], streamed := false })
  else match (s.line p a).state with
    | .staged =>
      if isHostLine a then (dropL1s (sendHost s p a) p a false (fun _ => false)).modLine p a
        (fun l => { l with state := .absent, data := [], bad := 0, met := 0 })
      else logDevice (s.modLine p a (fun l => { l with state := .dirty })) p (linePhys a)
    | .discardStaged => s.modLine p a (fun l => { l with state := .absent, data := [], bad := 0, met := 0 })
    | _ => s

/-- One line when its unit's staged data is discarded (R228, R229, R231). What a non-replayable kernel has written through
stands (R301); what an owner of any other kernel holds goes, and so does poison. -/
def discardLine (s : State) (p a : Nat) : State :=
  let s := forgetReads s p a
  match (s.line p a).state with
  | .staged => (dropL1s s p a false (fun _ => false)).modLine p a (fun l =>
      { l with state := .absent, data := [], bad := 0, met := 0, base := [], fetch := if l.fetch = 1 then 2 else l.fetch })
  | .discardStaged => s.modLine p a (fun l => { l with state := .dirty })
  | _ => if isRemoteLine a then (dropL1s s p a false (fun _ => false)).modLine p a (fun l =>
      { l with state := .absent, data := [], bad := 0, met := 0, base := [], streamed := false, fetch := if l.fetch = 1 then 2 else l.fetch })
    else if (s.part p).kernel.nonrepl then downOwner s p a
    else ((s.line p a).filter.filter (fun f => (s.l1Line f.l1 a).state == .m || s.noc.any (carriesDirty s p a f.l1))).foldl
      (fun s f => dropL1 s p a f.l1 false) s

/-! ## The ledger (R302 to R307) -/

/-- The entries of a stall's ledger that a request at an address matches (R303). -/
def ledgerMatch (s : State) (req : AtomRequest) (addr : Nat) : Option LedgerEntry :=
  (s.stall req.home).ledger.find? (fun e => e.address = addr && e.srcDevice = req.srcDevice.toNat &&
    e.srcPartition = req.srcPartition.val && e.unit = req.unit.toNat && e.kernel == req.kernel && e.seq = req.seq.toNat)

/-- Signed reading of an operand of `w` bits. -/
def sInt (w x : Nat) : Int := if x % 2 ^ w < 2 ^ (w - 1) then (x % 2 ^ w : Nat) else (x % 2 ^ w : Nat) - (2 ^ w : Nat)

/-- Width in bits of an atomic's type. -/
def atomBits (t : AtomType) : Nat := match t with | .u64 => 64 | .s64 => 64 | _ => 32

/-- The order key of a binary32 that is no NaN: −0 lies just below +0 (R192). -/
def f32Key (x : Nat) : Int := if bit x 31 then -(x % 2 ^ 31 : Nat) - 1 else (x % 2 ^ 31 : Nat)

/-- MIN or MAX of two binary32 values: the canonical NaN when either is a NaN (R192). -/
def f32MinMax (max : Bool) (x y : Nat) : Nat :=
  if flIsNan (of32 x) || flIsNan (of32 y) then flNan fmt32
  else if max == decide (f32Key y < f32Key x) then x else y

/-- One lane's new value (R192). -/
def atomApply (op : AtomOp) (t : AtomType) (old x cmp : Nat) : Nat :=
  let w := atomBits t
  let signed := t == .s32 || t == .s64
  let less := if signed then decide (sInt w x < sInt w old) else decide (x % 2 ^ w < old % 2 ^ w)
  match op with
  | .add => if t == .f32 then add32 old (x % 2 ^ 32) else (old + x) % 2 ^ w
  | .min => if t == .f32 then f32MinMax false old (x % 2 ^ 32) else if less then x % 2 ^ w else old
  | .max => if t == .f32 then f32MinMax true old (x % 2 ^ 32) else if less then old else x % 2 ^ w
  | .and => Nat.land old (x % 2 ^ w)
  | .or => Nat.lor old (x % 2 ^ w)
  | .xor => Nat.xor old (x % 2 ^ w)
  | .exch => x % 2 ^ w
  | .cas => if old = cmp % 2 ^ w then x % 2 ^ w else old

/-- The values the lanes of one address receive, and the value after the last lane (R191): lane by lane from a value. -/
def atomChain (f : Nat → AtomLane → Nat) : List AtomLane → Nat → List (Nat × Nat) × Nat
  | [], v => ([], v)
  | l :: r, v => let (rs, e) := atomChain f r (f v l); ((l.lane.val, v) :: rs, e)

/-- The value of `n` bytes of a line as the staging view sees them. -/
def stagedValue (s : State) (p a o n : Nat) : Nat := leNat ((List.range n).map (fun i => stagedByte s p a (o + i)))

/-- A field of an entry rewritten: an error that its parity shows stays one. -/
def rewriteEntry (e e' : LedgerEntry) : LedgerEntry :=
  { e' with parity := e.parity ^^^ ledgerParity (ledgerBytes e) ^^^ ledgerParity (ledgerBytes e') }

/-- Whether an entry's parity is right (Table CHK-2). -/
def entryGood (e : LedgerEntry) : Bool := e.parity == ledgerParity (ledgerBytes e)

/-- The bytes that an entry left at its address. -/
def entryCells (e : LedgerEntry) : List Host.Cell := cellsAt (e.address % 1024) (natLe (if e.size8 then 8 else 4) e.after)

/-- Rebuilds those of the lines `as`, which have been discarded, that carry ledger entries at the homes of partition `p`
(R304): each address takes the AFTER of its latest entry, and the line is STAGED. A line with an entry whose parity is wrong stays at its committed value (R318). The
ledger lists entries newest first. -/
def rebuildLedger (s : State) (p : Nat) (as : List Nat) : State :=
  ((s.part p).cache.sliceList).foldl (fun s h =>
    ((s.stall h).ledger.filter (fun e => decide (e.address / 1024 ∈ as) &&
      (s.stall h).ledger.all (fun f => f.address / 1024 ≠ e.address / 1024 || entryGood f))).reverse.foldl (fun s e =>
      let a := e.address / 1024
      (markStaged s p a).modLine p a (fun l => { l with data := olay l.data (entryCells e) })) s) s

/-- Entries that a COMMIT token frees and that were performed with no home unit in progress become part of the committed
value of their lines, which memory holds while these are STAGED (R225, R306). -/
def settleLoose (s : State) (p : Nat) (f : LedgerEntry → Bool) : State :=
  ((s.part p).cache.sliceList).foldl (fun s h =>
    ((s.stall h).ledger.filter (fun e => f e && e.loose && (s.line p (e.address / 1024)).state == .staged)).reverse.foldl (fun s e =>
      logDevice { s with mem := mwriteCells s.mem (e.address / 1024 * 1024) (entryCells e) } p (e.address / 1024 * 1024)) s) s

/-- Frees the ledger entries of a source unit at the homes of partition `p`, where `f` says so. -/
def freeLedger (s : State) (p : Nat) (f : LedgerEntry → Bool) : State :=
  ((s.part p).cache.sliceList).foldl (fun s h => s.modStall h (fun x => { x with ledger := x.ledger.filter (fun e => !f e) })) s

/-- Marks HOME_DONE in every entry at the homes of partition `p` (R306). -/
def homeDone (s : State) (p : Nat) : State :=
  ((s.part p).cache.sliceList).foldl (fun s h =>
    s.modStall h (fun x => { x with ledger := x.ledger.map (fun e => rewriteEntry e { e with homeDone := true, loose := false }) })) s

/-- Whether an entry was issued by a unit. -/
def issuedBy (dev part unit : Nat) (kernel : Bool) (e : LedgerEntry) : Bool :=
  e.srcDevice = dev && e.srcPartition = part && e.unit = unit && e.kernel == kernel

/-- Every STAGED line of the partition commits, HOME_DONE is set and the committing unit's entries with it are freed
(R228, R306). -/
def commitLines (s : State) (p : Nat) : State :=
  let (k, u, _) := unitOf s p
  let s := (lineKeys s p).foldl (fun s a => commitLine s p a) s
  let s := homeDone s p
  freeLedger s p (fun e => issuedBy (ownNumber s) p u k e && e.homeDone)

/-- Every staged line of the partition is discarded, and those with ledger entries are rebuilt (R296, R304). -/
def discardLines (s : State) (p : Nat) : State :=
  rebuildLedger ((lineKeys s p).foldl (fun s a => discardLine s p a) s) p
    ((lineKeys s p).filter (fun a => (s.line p a).state == .staged))

/-! ## Pins (R237) -/

/-- The line addresses of a physical range of whole lines. -/
def linesOf (phys bytes : Nat) : List Nat := (List.range (bytes / 1024)).map (fun i => phys / 1024 + i)

/-- Whether pinning the lines breaks a set's held or pinned limit. -/
def pinWaysBad (s : State) (p : Nat) (as : List Nat) : Bool :=
  as.any (fun a => match homeOf s p a with
    | none => true
    | some h =>
      let fresh := as.filter (fun b => homeOf s p b = some h && setOf b = setOf a && !(s.line p b).pinned)
      let pins := ((setLines s p a).filter (fun e => e.2.pinned)).length + fresh.length
      let held := ((setLines s p a).filter (fun e => e.2.pinned || isStagedLine e.2)).length +
        (fresh.filter (fun b => !isStagedLine (s.line p b))).length
      decide (12 < pins) || decide (waysOf s h - 4 < held))

/-- The fill of a pinned line that memory has brought, where no request does it; it is counted (R238). -/
def fillPinned (s : State) (p a : Nat) : State :=
  let l := s.line p a
  if l.pinned && l.state == .absent && !lineBusy l && l.waiting.isEmpty && l.here = wholeLine then
    tallyAdd ((makeRoom s p a).modLine p a filled) p clsPinned 2
  else s

/-- Pins one line; one that is absent is read from memory. -/
def pinLine (s : State) (p a : Nat) : State :=
  let s := s.modLine p a (fun l => { l with pinned := true })
  if (s.line p a).state == .absent then fillPinned (askMemory s p a wholeLine (.insider (Fin.ofNat 64 p))) p a else toSets s p a

/-- Clears one pin. -/
def unpinLine (s : State) (p a : Nat) : State := s.modLine p a (fun l => { l with pinned := false })

/-- A line's data goes without writeback (R231, command form). -/
def dropLine (s : State) (p a : Nat) : State :=
  let s := dropL1s s p a false (fun _ => false)
  noteDead (s.modLine p a (fun l => { l with state := .absent, data := [], bad := 0, met := 0, streamed := false })) p a

/-- Every committed dirty line goes back to memory and every line and L1 copy is invalid (R217, R482); pins stay where
`pins` says so. -/
def flushCache (s : State) (p : Nat) (pins : Bool) : State :=
  (lineKeys s p).foldl (fun s a =>
    let s := dropL1s s p a true (fun _ => false)
    let s := if (s.line p a).state == .dirty || (s.line p a).state == .discardStaged then writeback s p a else s
    s.modLine p a (fun l =>
      { l with
        state := .absent, data := [], here := 0, bad := 0, met := 0, wrong := [], base := [], streamed := false
        pinned := pins && l.pinned })) s

/-- Whether reads from outside the staging view wait: a commit of the partition is pending, or the host has not yet taken
every line of it (R230, R249, R311). -/
def readsWait (s : State) (p : Nat) : Bool := (s.part p).chk.pending || s.hostCommit.any (fun h => decide (h.1 = p))

/-- Every line of the partition is invalid without writeback, pins cleared (Table PTN-8). -/
def wipeCache (s : State) (p : Nat) : State :=
  let s := (lineKeys s p).foldl (fun s a => dropL1s s p a false (fun _ => false)) s
  dropAccesses (s.modPart p (fun q => { q with cache := { q.cache with lines := [], buffers := [], streams := [], dead := [] } })) p

/-- The ledger entries at the homes of a partition move to the homes that their lines now have. -/
def moveLedger (s : State) (p : Nat) (from' : List Nat) : State :=
  let es := from'.flatMap (fun h => (s.stall h).ledger)
  let s := from'.foldl (fun s h => s.modStall h (fun x => { x with ledger := [] })) s
  es.reverse.foldl (fun s e => match homeOf s p (e.address / 1024) with
    | none => s
    | some h => s.modStall h (fun x => { x with ledger := e :: x.ledger })) s

/-- A partition's lines are rehomed over its unfenced stalls, pinned lines filled again (R217); no unit is in progress. The
ledger goes with the lines, and lines that atomics of other devices left STAGED are STAGED again. -/
def rehome (s : State) (p : Nat) : State :=
  let old := (s.part p).cache.sliceList
  let staged := (lineKeys s p).filter (fun a => (s.line p a).state == .staged)
  let s := flushCache s p true
  let s := s.modPart p (fun q => { q with cache := { q.cache with
    sliceList := (setBits q.record.stalls 64).filter (fun i => !isFenced s i), buffers := [] } })
  let s := (lineKeys s p).foldl (fun s a => if (s.line p a).pinned then pinLine s p a else s) s
  rebuildLedger (moveLedger s p old) p staged

end Sys2Proof.Machine
end

