-- ==== Sys2Proof/Machine/Faults.lean ====
section
/-! DEFINITION. Errors and ends of work: CHK_LOG (R316), trace records (R518), queue entries that end (R391, R397), key
purges (R86), the end of a job, contained and fatal faults (R292, R315, R507), and control symbols sent (R326). -/

namespace Sys2Proof.Machine

/-! ## Logs -/

/-- Class codes of CHK_LOG. -/
def clsCorrected : Nat := 0
/-- CONTAINED. -/
def clsContained : Nat := 1
/-- FATAL. -/
def clsFatal : Nat := 2

/-- One record of CHK_LOG: 64 are kept, the oldest overwritten first (R316). -/
def chkLog (s : State) (r : ChkRecord) : State := 
  { s with chkLog := (r :: s.chkLog).take 64, chkCount := s.chkCount + 1 }

/-- The enabled record types of a trace (Table BTD-8). -/
def trRecovery : Nat := 1
/-- DEAD_READ. -/
def trDeadRead : Nat := 2
/-- BELL. -/
def trBell : Nat := 3
/-- COUNTER_SAMPLE. -/
def trSample : Nat := 4
/-- TRIGGER. -/
def trTrigger : Nat := 5
/-- BIST_MISR. -/
def trBist : Nat := 6
/-- FAULT. -/
def trFault : Nat := 7

/-- Bytes of the trace buffer. -/
def traceBytes : Nat := 2 ^ 24

/-- The 32 bytes of a trace record (Table BTD-8). -/
def traceBytesOf (type part where' code tick : Nat) (data : List Byte) : List Byte :=
  natLe 1 type ++ natLe 1 part ++ natLe 1 where' ++ natLe 1 code ++ natLe 4 0 ++ natLe 8 tick ++ padTo 16 data

/-- Appends a record at NEXT; a full buffer wraps with WRAP and stops tracing without (R519). NEXT at the top of a full
buffer is kept as its size. -/
def tracePut (s : State) (bs : List Byte) : State :=
  let h := s.shared
  let next := h.next + 32
  let full := decide (traceBytes ≤ next)
  { s with shared := { h with
      buffer := mwrites h.buffer h.next bs
      next := if full && h.wrap then 0 else next
      wrapped := h.wrapped || (full && h.wrap)
      tracing := h.wrap || !full } }

/-- A trace record of a partition, or of the device (none): written only while tracing runs, the buffer is owned as
TALLY, and the partition has the class enabled (R518). -/
def trace (s : State) (type : Nat) (p : Option Nat) (where' code tick : Nat) (data : List Byte) : State :=
  if s.shared.tracing && decide (s.shared.trace = 1) then
    match p with
    | none => tracePut s (traceBytesOf type 0xFF where' code tick data)
    | some p =>
      if bit (s.part p).tally.classes type then tracePut s (traceBytesOf type p where' code tick data) else s
  else s

/-- The attempt number of a partition's unit in progress. -/
def attemptOf (s : State) (p : Nat) : Nat := (unitOf s p).2.2

/-- A CORRECTED event of a partition is counted and recorded (R316). -/
def logCorrected (s : State) (p detail : Nat) (stall : Option Nat) : State :=
  let s := s.modPart p (fun q => { q with chk := { q.chk with corrected := satInc q.chk.corrected (2 ^ 32 - 1) } })
  chkLog s { detail := detail, cls := clsCorrected, part := p, stall := stall, deviceWide := false,
             attempt := attemptOf s p, tick := match stall with | some i => (s.dom p (dieOf i)).ticks | none => 0 }

/-- A CONTAINED event is recorded in the log and the trace (R316, R518). -/
def logContained (s : State) (p detail : Nat) (stall : Option Nat) : State :=
  let s := chkLog s { detail := detail, cls := clsContained, part := p, stall := stall, deviceWide := false,
                      attempt := attemptOf s p, tick := match stall with | some i => (s.dom p (dieOf i)).ticks | none => 0 }
  trace s trFault (some p) (stall.getD 0xFF) clsContained (tickFor s p) (natLe 8 detail)

/-! ## Control symbols sent (R326, Table ZLK-3) -/

/-- A symbol is queued at a port that is UP. -/
def sendSymbol (s : State) (j : Nat) (v : W64) : State :=
  if (s.port j).state == .up then s.modPort j (fun x => { x with sendSymbols := x.sendSymbols ++ [v] }) else s

/-- A flooded symbol goes to every UP port but the one it came by. -/
def flood (s : State) (v : W64) (except : Option Nat) : State :=
  ((List.range 12).filter (fun j => some j ≠ except)).foldl (fun s j => sendSymbol s j v) s

/-- A commit token or vote of TYPE 0x09 to 0x0C. -/
def unitSymbol (type dev part unit attempt : Nat) : W64 :=
  BitVec.ofNat 64 (pack [(0, 8, type), (8, 12, dev), (20, 6, part), (26, 31, unit), (57, 2, attempt)])

/-- A member that ends a unit without committing floods ABANDON (R312). -/
def sendAbandon (s : State) (p : Nat) : State :=
  if isLinked s p then
    let (_, u, t) := unitOf s p
    flood s (unitSymbol 0x0C (ownNumber s) p u t) none
  else s

/-! ## Queue entries that end -/

/-- Queue `k` of partition `p`. -/
def State.queue (s : State) (p k : Nat) : Queue := tget (s.part p).queues k
/-- The state with one queue changed. -/
def State.modQueue (s : State) (p k : Nat) (f : Queue → Queue) : State :=
  s.modPart p (fun q => { q with queues := tmod q.queues k f })

/-- A queue moves past `n` units of its current list, to the next list at its end. -/
def advance (q : Queue) (n : Nat) : Queue :=
  match q.lists with
  | [] => { q with unit := 0 }
  | l :: r => if q.unit + n < l.units then { q with unit := q.unit + n } else { q with lists := r, unit := 0 }

/-- Whether a QUEUE_HALT of the partition still waits for queue `k`. -/
def haltDue (s : State) (p k : Nat) : Bool :=
  s.outstanding.any (fun o => decide (o.part = p) && (match o.waits with | some (.queueHalt m _) => bit m k | _ => false))

/-- A queue that is flushed: its pending entry and its lists end with ABORTED (R391). -/
def flushQueue (q : Queue) : Queue :=
  if q.lists.isEmpty then { q with inProgress := false, failed := false, byLease := false }
  else { q with
    lists := [], unit := 0, inProgress := false, waitFrom := none, failed := false, failUnits := 0, byLease := false
    lastStatus := Status.aborted, lastDetail := 0, completed := (q.completed + 1) % 2 ^ 64 }

/-- Whether a QUEUE_HALT of the partition has halted every queue of its mask. -/
def haltMet (s : State) (p : Nat) (o : Outstanding) : Bool :=
  decide (o.part = p) && (match o.waits with
    | some (.queueHalt m _) => (setBits m 5).all (fun k => (s.queue p k).halted)
    | _ => false)

/-- A pending PLAN_RUN that is flushed runs no further epoch, and a flushed SERVE entry serves no more. -/
def flushRun (s : State) (p k : Nat) : State :=
  if k = 0 then s.modPart p (fun q => { q with run := none })
  else if k = 3 then s.modPart p (fun q => { q with ses := { q.ses with serving := false, follower := false } }) else s

/-- QUEUE_HALT replies once every queue of its mask has halted; FLUSH then empties them (R391). -/
def settleHalts (s : State) (p : Nat) : State :=
  let due := s.outstanding.filter (haltMet s p)
  let s' := due.foldl (fun s o => match o.waits with
    | some (.queueHalt m true) => (setBits m 5).foldl (fun s k => flushRun (s.modQueue p k flushQueue) p k) s
    | _ => s) s
  completeAll s' (haltMet s' p) Status.ok 0

/-- The head entry ended well; a HALT that waited for its end takes effect. -/
def entryDone (s : State) (p k units : Nat) : State :=
  let due := haltDue s p k
  settleHalts (s.modQueue p k (fun q => { advance q units with
    inProgress := false, waitFrom := none, completed := (q.completed + 1) % 2 ^ 64, halted := q.halted || due })) p

/-- The head entry is refused or failed: the queue halts, and a SOURCE QUEUE event carries the status (R385, R391). -/
def entryFail (s : State) (p k units status detail : Nat) : State :=
  let s := s.modQueue p k (fun q => { q with
    halted := true, failed := true, failUnits := units, inProgress := false, waitFrom := none
    lastStatus := status, lastDetail := detail, completed := (q.completed + 1) % 2 ^ 64 })
  settleHalts (partEvent s p srcQueue status detail) p

/-- Every queued and pending entry ends with ABORTED and writes no SIGNAL (R397). -/
def abortQueues (s : State) (p detail : Nat) : State :=
  (List.range 5).foldl (fun s k => s.modQueue p k (fun q =>
    if q.lists.isEmpty then { q with inProgress := false }
    else { q with
      lists := [], unit := 0, inProgress := false, waitFrom := none, failUnits := 0
      lastStatus := Status.aborted, lastDetail := detail, completed := (q.completed + 1) % 2 ^ 64 })) s

/-! ## Semaphores and signals (R396, R548) -/

/-- The LSM address of a semaphore, or the status and detail that fail its entry. -/
def semPhys (s : State) (p va : Nat) (write : Bool) : Except (Nat × Nat) Nat :=
  match translate s p va write with
  | .error d => .error (Status.badAddress, d)
  | .ok t => match localPhys s t with
    | none => .error (Status.badAddress, Detail.hstSemRange)
    | some a => if granted s p a then .ok a else .error (Status.badAddress, Detail.hstSemRange)

/-- A queue engine's translation fault goes to PTN_FAULT with AGENT 7 (R548); HST_SEM_RANGE is none. -/
def noteQueueFault (s : State) (p va : Nat) (write : Bool) (d : Nat) : State :=
  if d = Detail.hstSemRange then s else recordFault s p va (d % 256) 7 write

/-- The committed value of a semaphore. -/
def semValue (s : State) (a : Nat) : Nat := leNat (readCommitted s a 8)

/-- A semaphore written as a host MemWr is (R234). -/
def semWrite (s : State) (p a v : Nat) : State := homeWrite s p (a / 1024) (cellsAt (a % 1024) (natLe 8 v))

/-- The system address of a semaphore in the LSM of another member's device, to which the partition has a route (R260). -/
def semFar (s : State) (p va : Nat) : Option Nat :=
  match translate s p va true with
  | .error _ => none
  | .ok t =>
    let dev := t.sys / 2 ^ 44
    if dev ≠ ownNumber s && (s.part p).zlk.members.any (fun m => m.1 = dev) && decide (t.sys % 2 ^ 44 < lsmTop) && hasRoute s p dev
    then some t.sys else none

/-- A unit's SIGNAL to a semaphore of another device (R260): an item of the unit that committed last, behind its data. -/
def signalFar (s : State) (p sys v : Nat) (unit : Bool × Nat × Nat) : State :=
  let (it, s) := unitItem s p (sys / 2 ^ 44) (sys % 2 ^ 44) (natLe 8 v)
  queueItem s 1 { it with kernel := unit.1, unit := BitVec.ofNat 31 unit.2.1, attempt := Fin.ofNat 4 unit.2.2 }

/-- SIGNAL after a commit: written, or the failure the entry takes; address 0 means none (R168, R548). One to a semaphore of
another member's device leaves as an item (R260; log entry 166). -/
def signal (s : State) (p va v : Nat) : State × Option (Nat × Nat) :=
  if va = 0 then (s, none)
  else match (semFar s p va).bind (fun sys => (s.part p).zlk.sent.map (fun u => (sys, u))) with
  | some (sys, u) => (signalFar s p sys v u, none)
  | none => match semPhys s p va true with
    | .error (st, d) => (noteQueueFault s p va true d, some (st, d))
    | .ok a => if inHeldImage s a then (s, some (Status.badAddress, Detail.planHeld)) else (semWrite s p a v, none)

/-! ## Keys (R86) -/

/-- One feeder with the slots of a mask cleared. -/
def purgeFeeder (mask : Nat) (f : Feeder) : Feeder :=
  { f with
    slots := f.slots.filter (fun e => !bit mask e.1), epochKeys := f.epochKeys.filter (fun e => !bit mask e.1)
    blocks := f.blocks.filter (fun b => !(b.slot < 8 && bit mask b.slot && !b.spent)) }

/-- One engine with its weight and stationary registers zeroed. What the rows have summed stands (R93). -/
def zeroEngine (m : MUnit) : MUnit :=
  { m with tiles := [], inflight := m.inflight.map (fun w => { w with weights := [], scales := [] }) }

/-- The slots of a mask cleared in every feeder of the partition, pending keys included (R86, R443). -/
def purgeKeys (s : State) (p mask : Nat) : State :=
  let s := (stallsOf s p).foldl (fun s i => s.modStall i (fun x => { x with
    feederMxe := purgeFeeder mask x.feederMxe, feederMvu := purgeFeeder mask x.feederMvu })) s
  s.modPart p (fun q => { q with pendingKeys := q.pendingKeys.filter (fun e => !bit mask e.1) })

/-- The feeder, weight and stationary registers of every stall of a partition are zeroed (R86). -/
def zeroUnitRegs (s : State) (p : Nat) : State :=
  (stallsOf s p).foldl (fun s i => s.modStall i (fun x => { x with
    mxe := zeroEngine x.mxe, mvu := zeroEngine x.mvu
    feederMxe := { x.feederMxe with blocks := [], elemHeld := [], scaleHeld := [] }
    feederMvu := { x.feederMvu with blocks := [], elemHeld := [], scaleHeld := [] } })) s

/-- The partition's evidence key pair is destroyed (R437). -/
def dropEvidence (s : State) (p : Nat) : State := s.modPart p (fun q => { q with sec := { q.sec with evidence := none } })

/-- Pending keys go into their slots of every feeder (R85, R442). -/
def applyKeys (s : State) (p : Nat) : State :=
  let ks := (s.part p).pendingKeys
  let put := fun (f : Feeder) => ks.foldl (fun f k => { f with slots := tset f.slots k.1 k.2 }) f
  let s := (stallsOf s p).foldl (fun s i =>
    s.modStall i (fun x => { x with feederMxe := put x.feederMxe, feederMvu := put x.feederMvu })) s
  s.modPart p (fun q => { q with pendingKeys := [] })

/-! ## Session table entries (Table SES-1) -/

/-- The address of entry `i` of partition `p`'s range. -/
def sesAddr (s : State) (p i : Nat) : Nat := sesTable + 64 * ((s.part p).record.sesBase + i)

/-- CRC-8 of a state copy (Table SES-2). -/
def sesCheck (bs : List Byte) : Nat := crcMsbRun 8 0x07 bs 0

/-- The eight bytes of a state copy. -/
def sesCopy (state deadline : Nat) : List Byte :=
  let body := natLe 7 (pack [(0, 3, state), (8, 24, deadline)])
  body ++ natLe 1 (sesCheck body)

/-- Whether a copy is intact. -/
def sesIntact (c : List Byte) : Bool := sesCheck (c.take 7) = field c 7 1

/-- The state and deadline of an entry after the comparison of R314: none where the entry is quarantined. -/
def sesVote (e : List Byte) : Option (List Byte × Bool) :=
  let a := (e.drop 32).take 8
  let b := (e.drop 40).take 8
  match sesIntact a, sesIntact b with
  | true, true => if a = b then some (a, false) else none
  | true, false => some (a, true)
  | false, true => some (b, true)
  | false, false => none

/-- An entry's bytes. -/
def sesRead (s : State) (p i : Nat) : List Byte := mreads s.mem (sesAddr s p i) 64
/-- An entry written by the session engine. -/
def sesWrite (s : State) (p i : Nat) (bs : List Byte) : State := { s with mem := mwrites s.mem (sesAddr s p i) bs }
/-- STATE of an entry's first copy. -/
def sesState (e : List Byte) : Nat := bits (field e 32 8) 2 0
/-- DEADLINE_US of an entry's first copy. -/
def sesDeadline (e : List Byte) : Nat := bits (field e 32 8) 31 8
/-- Bytes `o` on of an entry replaced. -/
def patch (e : List Byte) (o : Nat) (bs : List Byte) : List Byte := e.take o ++ bs ++ e.drop (o + bs.length)
/-- An entry with both copies written for a state and a deadline. -/
def sesPut (e : List Byte) (state deadline : Nat) : List Byte :=
  patch e 32 (sesCopy state deadline ++ sesCopy state deadline)
/-- The session clock [µs]: microseconds since cold boot. -/
def sesClock (s : State) : Nat := s.devTime / 3300

/-- The pending APPEND of a RUNNING session: LIMIT, KV_PAGES, DEADLINE_US. -/
def pendingAppend (s : State) (p i : Nat) : Option (Nat × Nat × Nat) :=
  ((s.part p).ses.appends.find? (fun a => a.1 = i)).map (fun a => a.2)

/-- An entry with LIMIT, KV_PAGES and the deadline set. -/
def sesApply (e : List Byte) (x : Nat × Nat × Nat) : List Byte :=
  sesPut (patch (patch e 24 (natLe 4 x.1)) 28 (natLe 2 x.2.1)) (sesState e) (if x.2.2 = 0 then sesDeadline e else x.2.2)

/-- An entry made unused. -/
def sesClear (s : State) (p i : Nat) : State := sesWrite s p i (List.replicate 64 0)

/-- Whether a SESSION_CLOSE of a running session waits. -/
def closeDue (p i : Nat) (o : Outstanding) : Bool := decide (o.part = p) && o.waits = some (.sessionClose i)

/-- An entry with the APPEND that waits for its step's end. -/
def withAppend (s : State) (p i : Nat) (e : List Byte) : List Byte :=
  match pendingAppend s p i with | some x => sesApply e x | none => e

/-- FAILED. -/
def sesFailed : Nat := 6

/-- A session event of the partition's ring: status, and detail or index (R367). -/
def sesNote (s : State) (p status detail : Nat) : State := partEvent s p srcSession status detail

/-- A session fails: both copies say FAILED, and the event carries why (R314, R414). -/
def sesFail (s : State) (p i status detail : Nat) : State :=
  let e := sesRead s p i
  sesNote (sesWrite s p i (sesPut e sesFailed (sesDeadline e))) p status detail

/-- An entry as the engine uses it: repaired from its intact copy, or quarantined, which is contained to the session (R314,
R316). An entry that has already failed is not quarantined again. -/
def sesUse (s : State) (p i : Nat) : State × Option (List Byte) :=
  let e := sesRead s p i
  match sesVote e with
  | some (_, false) => (s, some e)
  | some (c, true) =>
    let e' := patch e 32 (c ++ c)
    let s := logCorrected (sesWrite s p i e') p Detail.chkSessionVote none
    ({ s with sessionRewrites := satInc s.sessionRewrites 65535 }, some e')
  | none => (sesFail (logContained s p Detail.chkSessionVote none) p i Status.badState Detail.chkSessionVote, none)

/-- A session of a batch whose step ends without its commit (R357): closed where a SESSION_CLOSE waits, else READY, with
what an APPEND set (R359). -/
def unrunSession (s : State) (p i : Nat) : State :=
  if s.outstanding.any (closeDue p i) then completeAll (sesClear s p i) (closeDue p i) Status.ok 0
  else match sesUse s p i with
    | (s, none) => s
    | (s, some e) =>
      if sesState e = 3 then (let e' := withAppend s p i e; sesWrite s p i (sesPut e' 2 (sesDeadline e'))) else s

/-- The sessions of the batch return to READY, with POS, AVAIL and DUE unchanged (R357). -/
def unrunBatch (s : State) (p : Nat) : State :=
  let b := (s.part p).ses.batch.map (fun e => e.1)
  let s := b.foldl (fun s i => unrunSession s p i) s
  s.modPart p (fun q => { q with ses := { q.ses with
    batch := [], remainder := [], left := [], round := [], stepping := false, serving := false, follower := false, fallback := false
    appends := [] } })

/-! ## The end of a job -/

/-- Whether a commit unit of the partition is in progress. -/
def unitRuns (s : State) (p : Nat) : Bool := (s.part p).epoch.running || (s.part p).kernel.running

/-- Whether a commit unit of the partition is in progress and has not committed for good: in the rest of a bell after the
final commit none is. -/
def unitLive (s : State) (p : Nat) : Bool := ((s.part p).epoch.running && !(s.part p).epoch.final) || (s.part p).kernel.running

/-- The groups of a partition end. -/
def endGroups (s : State) (p : Nat) : State :=
  { s with groups := s.groups.filter (fun g => g.2.part ≠ p || !g.2.live) }

/-- Engine, MVU and feeder state is emptied (R74). -/
def emptyEngines (s : State) (p : Nat) : State :=
  let clear := fun (m : MUnit) => { m with
    tiles := [], carry := [], run := [], inflight := [], verdicts := [] }
  let clearF := fun (f : Feeder) => { f with fetches := [], blocks := [], elemFed := 0, scaleFed := 0, elemHeld := [], scaleHeld := [], fetchTick := 0 }
  (stallsOf s p).foldl (fun s i => s.modStall i (fun x => { x with
    mxe := clear x.mxe, mvu := clear x.mvu, feederMxe := clearF x.feederMxe, feederMvu := clearF x.feederMvu
    fills := [], spills := [], bell := {}, error := none, stageReq := false, stageWire := []
    router := { x.router with hist := [], localIn := [] } })) s

/-- A pending power mode takes effect (R474). -/
def applyBoost (s : State) (p : Nat) : State :=
  match (s.part p).pendingBoost with
  | none => s
  | some b => s.modPart p (fun q => { q with boost := b, pendingBoost := none })

/-- Whether a packet is a DISCARD_LINES of the partition that waits. -/
def discardDue (p : Nat) (o : Outstanding) : Bool :=
  decide (o.part = p) && (match o.waits with | some (.discardLines _) => true | _ => false)

/-- The lines that the waiting DISCARD_LINES of the partition name. -/
def discardedLines (s : State) (p : Nat) : List Nat :=
  ((s.outstanding.filter (discardDue p)).flatMap (fun o => match o.waits with
    | some (.discardLines as) => as
    | _ => [])).eraseDups

/-- Deferred DISCARD_LINES of the partition act, once no unit is in progress (R231), no transaction is in progress on a line
they name (R220), and the host has given up every line that it may hold (R233). -/
def runDiscards (s : State) (p : Nat) : State :=
  let as := discardedLines s p
  let held := as.filter (fun a => (s.line p a).host)
  if as.any (fun a => lineBusy (s.line p a)) then s
  else if held.isEmpty then completeAll (as.foldl (fun s a => dropLine s p a) s) (discardDue p) Status.ok 0
  else (held.filter (fun a => (s.line p a).awaitHost.isEmpty)).foldl (fun s a => backInvalidate s p a) s

/-! ## Dirty logs -/

/-- The bitmap bytes a log still owes: byte index and value, each once. -/
def logBytes (l : DirtyLog) : List (Nat × Nat) :=
  ((l.marked.map (fun i => i / 8)).eraseDups).map (fun b => (b, ofBits ((l.marked.filter (fun i => i / 8 = b)).map (fun i => i % 8))))

/-- Every marked bit is written to the bitmap, in PF0's I/O virtual space (R424). -/
def flushLog (s : State) (l : DirtyLog) : State :=
  (logBytes l).foldl (fun s b => s.emit (.hostWrite 0 (l.bitmap + b.1) (natLe 1 b.2))) s

/-- One space's log of a partition. -/
def logOf (s : State) (p : Nat) (host : Bool) : Option DirtyLog := if host then (s.part p).logHost else (s.part p).logDevice
/-- One space's log replaced. -/
def setLog (s : State) (p : Nat) (host : Bool) (l : Option DirtyLog) : State :=
  s.modPart p (fun q => if host then { q with logHost := l } else { q with logDevice := l })

/-- COLLECT: the old bitmap is completed and the new one takes over. -/
def collectLog (s : State) (p : Nat) (host : Bool) (bitmap : Nat) : State :=
  match logOf s p host with
  | none => s
  | some l => setLog (flushLog s l) p host (some { l with bitmap := bitmap, marked := [] })

/-- STOP: the bitmap is completed and logging ends. -/
def stopLog (s : State) (p : Nat) (host : Bool) : State :=
  match logOf s p host with
  | none => s
  | some l => setLog (flushLog s l) p host none

/-- COLLECTs and STOPs that waited for a commit act once none is in progress (R425). -/
def settleLogs (s : State) (p : Nat) : State :=
  if (s.part p).chk.pending || (s.part p).state == .resetting then s
  else
    let due := s.outstanding.filter (fun o => o.part = p)
    let s := due.foldl (fun s o => match o.waits with
      | some (.collect h b) => collectLog s p h b
      | some (.logStop h) => stopLog s p h
      | _ => s) s
    completeAll s (fun o => o.part = p && (match o.waits with
      | some (.collect _ _) => true | some (.logStop _) => true | _ => false)) Status.ok 0

/-! ## The end of a job -/

/-- The stalls of a partition return to CLOCK_GATED, fenced ones to OFF (R487). -/
def gateStalls (s : State) (p : Nat) : State :=
  (stallsOf s p).foldl (fun s i => s.modStall i (fun x => { x with gate := if x.fenced then .off else .clockGated })) s

/-- Everything of a job that runs ends: queues are aborted, groups and epochs stop, and what waited for the job's end
happens (R397, R442, R474, R487). What the unit in progress staged is the caller's. -/
def stopJob (s : State) (p detail : Nat) : State :=
  let s := emptyEngines (endGroups (unrunBatch s p) p) p
  let s := if (s.part p).job.fencePending then rehome s p else s
  let s := abortQueues s p detail
  let s := s.modPart p (fun q => { q with
    job := { q.job with running := false, awaitStart := false, endPending := false, fencePending := false, companionDown := false }
    run := none, kernel := {}
    epoch := { entry := 0, replays := 0, nonrepl := false }
    refill := { q.refill with pending := false, waitsFor := none }
    chk := { q.chk with pending := false }
    zlk := { q.zlk with
      members := [], joined := q.zlk.joined.filter (fun m => !(m.1 = ownNumber s && m.2 = p)), votes := [], applied := [], held := [], commits := [], acted := [], sent := none, partners := [], masks := []
      reachOpen := false, startDelay := 0, reach := [], lostPort := none }
    lease := { q.lease with graceLeft := 0 }
    state := if q.state == .resetting then .resetting else .idle })
  let s := settleLogs (gateStalls (applyBoost s p) p) p
  let s := completeAll s (fun o => o.part = p && o.waits = some .jobStart) Status.aborted detail
  let s := completeAll s (fun o => o.part = p && o.waits = some .jobEnd) Status.ok 0
  runDiscards s p

/-- A SERVE entry in progress ends at JOB_END and its signal is written (R360); a PREEMPTED job leaves committed state as it
is (R418). -/
def endServing (s : State) (p : Nat) : State :=
  let z := (s.part p).ses
  if !z.serving || (s.part p).state == .preempted then s
  else (signal s p z.signal z.signalValue).1.modQueue p 3 (fun q =>
    { advance q 1 with inProgress := false, waitFrom := none, completed := (q.completed + 1) % 2 ^ 64, lastStatus := Status.ok, lastDetail := 0 })

/-- JOB_END takes effect (R170, R360, R397). -/
def jobEnds (s : State) (p : Nat) : State := stopJob (endServing s p) p 0

/-- The unit in progress is discarded: its own ledger entries are freed, then staged lines go and the rest is rebuilt
(R304, R312). -/
def discardUnit (s : State) (p : Nat) : State :=
  let (k, u, _) := unitOf s p
  let s := freeLedger s p (issuedBy (ownNumber s) p u k)
  discardLines s p

/-- A job ends without committing its unit in progress, with a status and detail on the partition's ring; a linked job
sends ABANDON (R293, R312, R315, R316). -/
def endJob (s : State) (p status detail : Nat) (stall : Option Nat) : State :=
  let s := logContained s p detail stall
  let s := sendAbandon s p
  let s := discardUnit s p
  let s := partEvent s p srcFault status detail
  (stopJob s p detail).modPart p (fun q => { q with job := { q.job with faulted := true } })

/-- A contained fault of a partition (R292): its job ends where one runs; otherwise it is only reported. -/
def contained (s : State) (p status detail : Nat) (stall : Option Nat) : State :=
  if (s.part p).job.running then endJob s p status detail stall
  else partEvent (logContained s p detail stall) p srcFault status detail

/-- The home of an entry whose parity shows wrong as the lines of a partition are rebuilt (R304, Table CHK-2). -/
def badEntry (s : State) (p : Nat) : Option Nat :=
  (s.part p).cache.sliceList.find? (fun h => (s.stall h).ledger.any (fun e => !entryGood e && (s.line p (e.address / 1024)).state == .staged))

/-- Staged lines are discarded and rebuilt; where the ledger fails its parity in that, the job ends (R318) and the entries
that failed go. -/
def discardChecked (s : State) (p : Nat) : State :=
  match badEntry s p with
  | none => discardLines s p
  | some h => freeLedger (contained (discardLines s p) p Status.partitionFault Detail.chkLedgerParity (some h)) p (fun e => !entryGood e)

/-- The stall at which an error of an epoch stands: an error that no stall found stands at the partition's lowest (log entry
150). -/
def errorStall (s : State) (p : Nat) (stall : Option Nat) : Nat := stall.getD ((stallsOf s p).headD 0)

/-- The unit in progress is marked ERROR with the first detail: an epoch's at the stall that found it, whose bell flit
carries it (R155, R294). -/
def markError (s : State) (p detail : Nat) (stall : Option Nat) : State :=
  let kernel := (s.part p).kernel.running
  let s := logCorrected s p detail stall
  if kernel then s.modPart p (fun q => { q with kernel := { q.kernel with error := some (q.kernel.error.getD detail) } })
  else (s.modPart p (fun q => { q with epoch := { q.epoch with error := some (q.epoch.error.getD detail) } })).modStall
    (errorStall s p stall) (fun x => { x with error := some (x.error.getD detail) })

/-- Whether the unit in progress is non-replayable. -/
def unitNonrepl (s : State) (p : Nat) : Bool :=
  ((s.part p).epoch.running && (s.part p).epoch.nonrepl) || ((s.part p).kernel.running && (s.part p).kernel.nonrepl)

/-- A detected error that replay mends: the unit in progress is marked ERROR. A non-replayable unit is a contained fault (R301), and so is an error of an epoch whose flooding has
completed (R171); with no unit in progress the event is only counted (R294, R295). -/
def unitError (s : State) (p detail : Nat) (stall : Option Nat) : State :=
  let q := s.part p
  if !unitRuns s p then logCorrected s p detail stall
  else if unitNonrepl s p || (q.epoch.running && q.epoch.inBell) then contained s p Status.partitionFault detail stall
  else markError s p detail stall

/-! ## Fences (R131, R217, R509, R510) -/

/-- The fenced positions of the whole device as the record's mask. -/
def fenceMask (s : State) : Nat := s.fencedPos

/-- The management port is alerted: MG_ALERT_N low (for 1 ms, or held). -/
def alertManager (s : State) : State := s.emit (.pin "MG_ALERT_N" false)

/-- One hardware parity detection at a stall, and whether it is the sixteenth within a second (R510). -/
def parityHit (s : State) (i : Nat) : State × Bool :=
  let near := ((s.stall i).parityTimes.filter (fun t => s.devTime < t + 3300000000))
  let s := s.modStall i (fun x => { x with parityTimes := s.devTime :: near })
  (s, decide (15 ≤ near.length))

/-! ## Fatal faults (R507) -/

/-- The update buffer is released, unclean (R505). -/
def releaseBuffer (s : State) (u : Nat) : State :=
  { s with clean := clearBit s.clean u, boot := { s.boot with update := none, programming := false } }

/-- The image is programmed and read back: it equals the buffer, or holds what the flash made of it. -/
def programImage (s : State) (bytes u : Nat) (equal : Bool) : State :=
  let (n, s) := s.draw
  let at' := fun o => if equal then mread s.mem (u * unitBytes + o) else Config.flashByte n o
  { s with flash := { s.flash with image := mwrites [] 0 ((List.range bytes).map at') } }

/-- The programming of an image ends: its COMMIT replies (R505). -/
def endProgramming (s : State) (equal : Bool) : State :=
  match s.boot.update with
  | some (bytes, u) =>
    if s.boot.programming then
      completeAll (releaseBuffer (programImage s bytes u equal) u) (fun o => o.waits = some .fwCommit)
        (if equal then Status.ok else Status.badState) (if equal then 0 else Detail.btdFlashWrite)
    else s
  | none => s

/-- Programming in progress at a FATAL fault completes first, whatever its read-back gives (Table BTD-11). -/
def finishFlash (s : State) : State :=
  if s.boot.programming then
    let (n, s) := s.draw
    endProgramming s ((Config.freeValue n).getLsbD 0)
  else s

/-- A FATAL fault stops the device: every job ends (R316), keys go, programming in progress completes, and every ring and the
management port hear of it (R507). -/
def fatal (s : State) (detail : Nat) : State :=
  let s := chkLog s { detail := detail, cls := clsFatal, part := 0, stall := none, deviceWide := true, attempt := 0, tick := 0 }
  let s := trace s trFault none 0xFF clsFatal s.devTime (natLe 8 detail)
  let s := (partsOf s).foldl (fun s p => dropEvidence (purgeKeys (zeroUnitRegs s p) p 0xFF) p) s
  let s := ((partsOf s).filter (fun p => (s.part p).job.running)).foldl (fun s p =>
    stopJob (discardUnit (sendAbandon (logContained s p detail none) p) p) p detail) s
  let s := finishFlash s
  let s := ((List.range 65).filter (fun fn => (s.fn fn).ringLog2 ≠ 0)).foldl (fun s fn =>
    postEvent s fn srcFault Status.deviceFatal detail s.devTime) s
  let s := alertManager s
  { s with boot := { s.boot with stage := .fatal, fatalDetail := detail } }

end Sys2Proof.Machine
end

