-- ==== Sys2Proof/Machine/Units.lean ====
section
/-! DEFINITION. Commit units as they end: the non-replayable mark (R301), the result block of a kernel (Table TGC-11),
kernel faults (R208), and pre-emption points (R170, R391, R417). -/

namespace Sys2Proof.Machine

/-- GSTAT bit of MMA_DIV. -/
def gstatDiv : Nat := 0
/-- GSTAT bit of NONREPL. -/
def gstatNonrepl : Nat := 1

/-- The live groups of a partition. -/
def groupsOf (s : State) (p : Nat) : List (Nat × Group) := s.groups.filter (fun g => g.2.live && decide (g.2.part = p))

/-- The unit in progress is marked non-replayable (R227, R301); a kernel's mark shows in GSTAT of every group (R207). -/
def markNonrepl (s : State) (p : Nat) : State :=
  if (s.part p).kernel.running then
    { (s.modPart p (fun q => { q with kernel := { q.kernel with nonrepl := true } })) with
      groups := s.groups.map (fun g => if g.2.live && decide (g.2.part = p)
        then (g.1, { g.2 with gstat := BitVec.ofNat 64 (setBit g.2.gstat.toNat gstatNonrepl) }) else g) }
  else s.modPart p (fun q => { q with epoch := { q.epoch with nonrepl := true } })

/-- Bytes of one cacheline written to the host through the host window (R230). -/
def writeHost (s : State) (p o : Nat) (bs : List Byte) : State × Option (Nat × Nat) :=
  match hwinLookup s p (o / 64 * 64) with
  | none => (s, some (Status.badAddress, Detail.hstHwinMiss))
  | some h => (logHost ({ s with hostCommit := s.hostCommit ++ [(p, h)] }.emit (.cacheWrite h (cellsAt (o % 64) bs))) p h, none)

/-- Writes bytes of one cacheline at a partition virtual address as the device's own queue engines do (R548): performed as
a host MemWr is; refused where translation fails, the image is held, or nothing stands behind the address. -/
def queueWrite (s : State) (p va : Nat) (bs : List Byte) : State × Option (Nat × Nat) :=
  match translate s p va true with
  | .error d => (recordFault s p va (d % 256) 7 true, some (Status.badAddress, d))
  | .ok t =>
    match localPhys s t with
    | none => (s, some (Status.badAddress, Detail.ptnPteRange))
    | some a =>
      if inHeldImage s a then (s, some (Status.badAddress, Detail.planHeld))
      else match regionOf a with
        | .spad i o => (spadPut s i o bs, none)
        | .host o => writeHost s p o bs
        | .companion _ _ => (s, some (Status.badAddress, Detail.ptnPteRange))
        | _ => if (homeOf s p (a / 1024)).isNone then (s, some (Status.partitionFault, Detail.uccNoHome)) else (homeWrite s p (a / 1024) (cellsAt (a % 1024) bs), none)

/-- Whether MMA_DIV is set in any group of the kernel. -/
def anyDiv (s : State) (p : Nat) : Bool :=
  (s.part p).kernel.mmaDiv || (groupsOf s p).any (fun g => g.2.gstat.getLsbD gstatDiv)

/-- CYCLES of a kernel as it ends: core cycles depend on issue choices that no rule fixes (R179), so the count is a free
value (log entry 46). -/
def timeKernel (s : State) (p : Nat) : State :=
  let (n, s) := s.draw
  s.modPart p (fun q => { q with kernel := { q.kernel with cycles := (Config.freeValue n).toNat } })

/-- The launch result block (Table TGC-11). -/
def resultBlock (s : State) (p status detail : Nat) : List Byte :=
  let k := (s.part p).kernel
  natLe 4 (status % 256 + 256 * detail) ++ natLe 1 (b2n (anyDiv s p) + 2 * b2n k.nonrepl) ++ natLe 1 k.replays ++
    natLe 2 0 ++ natLe 8 k.cycles ++ natLe 4 k.groupsDone ++ natLe 44 0

/-! ## Pre-emption points -/

/-- A queue that is not halted halts for the lease. -/
def leaseHalt (q : Queue) : Queue := if q.halted then q else { q with halted := true, byLease := true }

/-- A PREEMPTING job is pre-empted (R417): every queue halts, and the stalls are clock-gated. -/
def preempt (s : State) (p : Nat) : State :=
  let s := (List.range 5).foldl (fun s k => s.modQueue p k leaseHalt) s
  let s := s.modPart p (fun q => { q with state := .preempted, lease := { q.lease with graceLeft := 0 }, ses := { q.ses with excused := true } })
  let s := settleHalts (gateStalls s p) p
  partEvent s p srcQueue Status.accepted Detail.ptnPreempted

/-- A HALT of the PLAN queue that waits for a pre-emption point takes effect (R391). -/
def haltAtPoint (s : State) (p : Nat) : State :=
  settleHalts (if haltDue s p 0 then s.modQueue p 0 (fun q => { q with halted := true }) else s) p

/-- A pre-emption point (R170, R204, R417): a pending JOB_END ends the job, then a lease pre-empts it, then halts act. -/
def pointReached (s : State) (p : Nat) : State :=
  if (s.part p).job.endPending then jobEnds s p
  else if (s.part p).state == .preempting then preempt s p
  else haltAtPoint s p

/-! ## Kernel faults -/

/-- Every group of a kernel ends and its unit is discarded; the job goes on (R208). -/
def stopKernel (s : State) (p : Nat) : State :=
  endGroups (discardUnit (sendAbandon s p) p) p

/-- A kernel fault (R208): staged lines discarded, RESULT written, the LAUNCH entry fails and its queue halts. -/
def kernelFault (s : State) (p status detail : Nat) : State :=
  if (s.part p).kernel.running then
    let s := timeKernel s p
    let block := resultBlock s p status detail
    let va := (s.part p).kernel.result
    let s := stopKernel s p
    let s := (queueWrite s p va block).1
    let s := s.modPart p (fun q => { q with kernel := { failed := true } })
    pointReached (runDiscards (entryFail s p 1 2 status detail) p) p
  else s

end Sys2Proof.Machine
end

