-- ==== Sys2Proof/Machine/Placement.lean ====
section
/-! DEFINITION. Edges and stream modules (R17 to R22), the placement record (R162), and fences as they act on a partition
(R131, R217). -/

namespace Sys2Proof.Machine

/-- The module count of an edge (Table ORG-5). -/
def edgeModules (e : Nat) : Nat := if e < 4 then 8 else 12

/-- The stream-module count S of an edge: 2 at reset on a compute edge, 6 on a hub edge (Table ORG-5). -/
def edgeS (s : State) (e : Nat) : Nat :=
  if e < 4 then (if (tget s.edges e).streams = 0 then 2 else (tget s.edges e).streams) else 6

/-- The stream modules of an edge as a mask (R19). -/
def edgeMask (s : State) (e : Nat) : Nat :=
  ofBits ((List.range (edgeModules e)).filter (fun m => decide (edgeModules e - edgeS s e ≤ m)))

/-- The stream modules of an edge that a record grants: its mask, or on a hub edge those of its Zuloilo ports (R20). -/
def recordModules (r : PitchRecord) (e : Nat) : Nat :=
  if e < 4 then r.streamMask.getD e 0
  else ofBits ((setBits (r.zlPorts / 2 ^ (6 * (e - 4))) 6).map (fun j => 6 + j))

/-- Modules of an edge granted to some partition. -/
def grantedModules (s : State) (e : Nat) : Nat :=
  (partsOf s).foldl (fun x p => Nat.lor x (recordModules (s.part p).record e)) 0

/-- The code of a physical position in the placement record (R162). -/
def positionCode (s : State) (p q : Nat) : Nat :=
  match (stallsOf s p).find? (fun i => 18 * dieOf i + physOf s i = q) with
  | none => 0
  | some i => if isFenced s i then 3 else 1

/-- The placement record of a partition (R162). -/
def placementRecord (s : State) (p : Nat) : List Byte :=
  let r := (s.part p).record
  (List.range 72).map (fun q => BitVec.ofNat 8 (positionCode s p q)) ++
    (List.range 6).map (fun e => BitVec.ofNat 8 (edgeS s e)) ++
    (List.range 6).flatMap (fun e => natLe 2 (recordModules r e)) ++ natLe 2 r.zlPorts ++ natLe 4 0

/-- The placement signature is computed and stored (R162). -/
def sign (s : State) (p : Nat) : State :=
  let h := BitVec.ofNat 256 (leNat (sha256 (placementRecord s p)))
  s.modPart p (fun q => { q with signature := h })

/-- A fenced stall of a partition (R131, R217, Table UCC-5): a running kernel ends and the lines are rehomed at once, as they
are where no job runs; in any other case that waits for the next bell, where the job ends. The signature is computed
again. A kernel ends whether or not it has groups on the stall, since its lines go (log entry 172). -/
def fenceInPart (s : State) (p : Nat) : State :=
  let now := (s.part p).kernel.running || !(s.part p).job.running
  let s := kernelFault s p Status.partitionFault Detail.stallFenced
  let s := if now then rehome s p else s
  let s := if (s.part p).job.running
    then s.modPart p (fun q => { q with job := { q.job with fencePending := true } }) else s
  sign s p

/-- The fence record is to be rewritten with a mask of positions (R509). -/
def rewriteFences (s : State) (mask : Nat) : State :=
  { s with fencedPos := mask, flash := { s.flash with fenceWrite := some (BitVec.ofNat 72 mask) } }

/-- A stall is fenced in the field (R131, R509, R510): MG_ALERT_N is held low for 1 ms. -/
def fenceStall (s : State) (i : Nat) : State :=
  let q := 18 * dieOf i + physOf s i
  let s := alertManager (rewriteFences (s.modStall i (fun x => { x with fenced := true, gate := .off })) (setBit s.fencedPos q))
  match ownerOfStall s i with
  | none => s
  | some p => fenceInPart s p

/-- A fence is lifted (R513). -/
def unfenceStall (s : State) (i : Nat) : State :=
  let q := 18 * dieOf i + physOf s i
  rewriteFences (s.modStall i (fun x => { x with fenced := false, gate := .powerGated })) (clearBit s.fencedPos q)

end Sys2Proof.Machine
end

