-- ==== Sys2Proof/Machine/Parity.lean ====
section
/-! DEFINITION. Hardware parity errors where they are found (Table CHK-2): slices and snoop filters (R239), scratchpads, core
registers, L1s and instruction caches (R210), the redundant copies of pitch records and fuses (R313), and the fence of a stall
that finds too many (R510). -/

namespace Sys2Proof.Machine

/-! ## Fences -/

/-- A hardware parity detection at a stall counts toward a fence: the sixteenth within a second fences it (R510). -/
def countFence (s : State) (i : Nat) : State :=
  match parityHit s i with
  | (s, true) => if isFenced s i then s else fenceStall s i
  | (s, false) => s

/-- A parity error that replay mends, found at a stall (R294, R295, R510). -/
def hardwareError (s : State) (p i detail : Nat) : State := countFence (unitError s p detail (some i)) i

/-! ## Slices (R239) -/

/-- An error of a slice is counted (UCC_SLICE.PARITY_ERRS). -/
def countSlice (s : State) (i : Nat) : State := s.modStall i (fun x => { x with sliceParity := satInc x.sliceParity 65535 })

/-- A line that its slice invalidates: what it held is gone, and the mark of its parity with it. -/
def invalidate (s : State) (p a : Nat) : State :=
  let s := s.modPart p (fun q => { q with cache := { q.cache with buffers := q.cache.buffers.filter (fun b => b.2 ≠ a) } })
  s.modLine p a (fun l => { l with
    state := .absent, data := [], base := [], streamed := false, odd := false, here := 0, bad := 0, met := 0, wrong := [] })

/-- The filter entries of a line whose parity is wrong: the L1 lines they mirror are written back and invalidated, which is
counted and is no fault. -/
def checkFilter (s : State) (p h a : Nat) : State :=
  ((s.line p a).filter.filter (fun f => f.odd)).foldl (fun s f => dropL1 (countSlice (logCorrected s p 0 (some h)) h) p a f.l1 true) s

/-- The home looks a line up (R239): wrong parity of a line that memory or a replay gives again is a detected error; of
committed dirty data it is a contained fault. A STAGED line that other devices' atomics left, with no unit in progress, is
rebuilt from the ledger. -/
def lookUp (s : State) (p a : Nat) : State :=
  match homeOf s p a with
  | none => s
  | some h =>
    let s := if (s.line p a).filter.any (fun f => f.odd) then checkFilter s p h a else s
    if !(s.line p a).odd then s
    else
      let st := (s.line p a).state
      let s := countSlice (invalidate s p a) h
      if st == .dirty || st == .discardStaged then contained s p Status.partitionFault Detail.uccDirtyParity (some h)
      else hardwareError (if st == .staged && !unitLive s p then rebuildLedger s p [a] else s) p h Detail.uccParity

/-! ## Scratchpads -/

/-- The place of a byte among the granules of 32 bytes that have a parity bit (Table CHK-2). -/
def spadGranule (s : State) (i o : Nat) : Nat := (i * spadBytes + spadPhys s i o) / 32

/-- The offsets of a range whose granules' parity is wrong. -/
def oddOffsets (s : State) (i o n : Nat) : List Nat :=
  if s.spadOdd.isEmpty then [] else ((List.range n).map (fun k => o + k)).filter (fun x => decide (spadGranule s i x ∈ s.spadOdd))

/-- Whether an offset lies in carried state that a replay reads again: a READ_ONLY or SINGLE region, or the in copy of a
DOUBLE one. A SINGLE region counts with them, since no replay gives it again (log entry 178). -/
def spadCarried (s : State) (p i o : Nat) : Bool :=
  (s.part p).plan.isSome && (carriedRegions (imageOf s p)).any (fun x =>
    (x.pos = 0xFF || x.pos = positionOf s i) && decide (x.off ≤ o) && decide (o < x.off + x.bytes))

/-- A read of a scratchpad's bytes finds wrong parity, or none: carried state ends the job, and what a replay computes again is
a detected error. The marks of the granules read go. -/
def checkSpad (s : State) (p i o n : Nat) : State :=
  match oddOffsets s i o n with
  | [] => s
  | x :: xs =>
    let gone := (x :: xs).map (spadGranule s i)
    let t := { s with spadOdd := s.spadOdd.filter (fun g => !decide (g ∈ gone)) }
    if (x :: xs).any (spadCarried s p i) then contained t p Status.partitionFault Detail.chkSpadCarried (some i)
    else hardwareError t p i Detail.chkSpadParity

/-- The same of a range of device addresses. -/
def checkSpadAt (s : State) (p a n : Nat) : State :=
  match regionOf a with
  | .spad i o => if s.spadOdd.isEmpty then s else checkSpad s p i o n
  | _ => s

/-! ## Cores -/

/-- An error of a core's register file (TGC_CORE.REG_PARITY). -/
def registerError (s : State) (p i core : Nat) : State :=
  hardwareError (s.modStall i (fun x => { x with
    cores := tmod x.cores core (fun c => { c with regParity := satInc c.regParity 65535 }) })) p i Detail.tgcRegParity

/-- An error of a core's L1 or instruction cache is counted (TGC_CORE.L1_PARITY). -/
def countL1 (s : State) (i core : Nat) : State :=
  s.modStall i (fun x => { x with cores := tmod x.cores core (fun c => { c with l1Parity := satInc c.l1Parity 65535 }) })

/-- An access hits an L1 line whose parity is wrong: the line goes and the kernel is to be replayed. -/
def l1Error (s : State) (p : Nat) (l : L1Id) (a : Nat) : State :=
  hardwareError (countL1 (s.modL1 l a (fun x => { wbInFlight := x.wbInFlight })) l.stall l.core) p l.stall Detail.tgcL1Parity

/-- A fetch finds wrong parity in a line of the instruction cache: the line goes, to be fetched again, and the error is counted
(Table TGC-12). -/
def icacheError (s : State) (p i core line : Nat) : State :=
  logCorrected (countL1 (s.modStall i (fun x => { x with cores := tmod x.cores core (fun c => { c with
    icache := c.icache.filter (fun e => e.1 ≠ line), icacheOdd := c.icacheOdd.filter (fun e => e ≠ line) }) })) i core) p 0 (some i)

/-! ## Redundant copies (R313, Table CHK-6) -/

/-- What a vote finds of copies that are equal but for those whose CRC fails. -/
def copyView (odd : List Nat) : CopyView :=
  let ok := fun (i : Nat) => !decide (i ∈ odd)
  { intact0 := ok 0, intact1 := ok 1, intact2 := ok 2, equal01 := ok 0 && ok 1, equal02 := ok 0 && ok 2, equal12 := ok 1 && ok 2 }

/-- A vote's outcome for a pitch record. -/
def pitchOutcome (s : State) (p : Nat) : Vote → State
  | .used => s
  | .rewritten n => logCorrected { s with pitchRewrites := Nat.min 65535 (s.pitchRewrites + n) } p Detail.chkPitchVote none
  | .lost => contained (s.modPart p (fun q => { q with pitchLost := true })) p Status.partitionFault Detail.chkPitchVote none

/-- A vote's outcome for the fuse shadow. -/
def fuseOutcome (s : State) : Vote → State
  | .used => s
  | .rewritten n =>
    chkLog { s with fuseRewrites := Nat.min 65535 (s.fuseRewrites + n) }
      { detail := Detail.chkFuseVote, cls := clsCorrected, part := 0, stall := none, deviceWide := true, attempt := 0, tick := 0 }
  | .lost => fatal s Detail.chkFuseVote

/-- The copies of a partition's pitch record are voted as it is used. -/
def usePitch (s : State) (p : Nat) : State :=
  if (s.part p).pitchOdd.isEmpty then s
  else if !(s.part p).present || (s.part p).pitchLost then s
  else pitchOutcome (s.modPart p (fun q => { q with pitchOdd := [] })) p (voteCopies (copyView (s.part p).pitchOdd))

/-- The copies of the fuse shadow are voted as it is used. -/
def useFuses (s : State) : State :=
  if s.fuseOdd.isEmpty then s else fuseOutcome { s with fuseOdd := [] } (voteCopies (copyView s.fuseOdd))

/-- The command processor takes a packet that its event concerns: it uses the fuse shadow and the pitch record of the packet's
partition (R313). -/
def voted (s : State) (src : PktSrc) (mine : Packet → Bool) : State :=
  match packetAt s src with
  | none => s
  | some k => if mine k && mayStart s k then usePitch (useFuses s) k.part else s

/-- The course of a packet, with the copies voted that it uses. -/
def runVoted (s : State) (src : PktSrc) (mine : Packet → Bool) (body : Packet → State → Body) : State :=
  runPacket (voted s src mine) src mine body

end Sys2Proof.Machine
end

