-- ==== Sys2Proof/Machine/Coherence.lean ====
section
/-! DEFINITION. The home's transactions (R220 to R234): requests as they arrive, combining windows, snoops and their
responses, and the atomics a home performs (R190 to R193, R302 to R307). -/

namespace Sys2Proof.Machine

/-! ## Requests -/

/-- Who sends a request, for the counters and the stream detector. -/
def agentOf : HomeRequest → Agent
  | .rdS l => .core l
  | .rdU l => .core l
  | .upg l => .core l
  | .rdNa a _ _ => a
  | .wrl a _ => a
  | .atom r => r.agent
  | .disc a => a
  | .memRd _ _ => .host
  | .memWr _ _ => .host
  | .port _ _ => .dataPort
  | .unit i _ => .loader (Fin.ofNat 64 i)

/-- The tally class of an agent (Table UCC-4). -/
def classOfAgent : Agent → Nat
  | .core _ => clsCoreData
  | .feeder _ _ => clsWeight
  | .loader _ => clsActivation
  | .link _ => clsActivation
  | .porter _ _ => clsHostIo
  | .host => clsHostIo
  | .dataPort => clsHostIo

/-- Whether a request is a read that may join a combining window (R221). -/
def isRead : HomeRequest → Bool
  | .rdS _ => true
  | .rdNa _ _ _ => true
  | .memRd _ _ => true
  | _ => false

/-- Whether a write is performed as a host MemWr is (R234, R395): it waits at a staged line. -/
def isOutsideWrite : HomeRequest → Bool
  | .memWr _ _ => true
  | .port _ _ => true
  | .wrl a _ => isOutside a
  | _ => false

/-- Whether a request reads from outside. -/
def isOutsideRead : HomeRequest → Bool
  | .rdNa a _ _ => isOutside a
  | .memRd _ _ => true
  | _ => false

/-- Whether a request to a remote copy needs the line fetched first (R229). -/
def needsBase : HomeRequest → Bool
  | .wrl _ _ => false
  | .disc _ => false
  | _ => true

/-- Whether a request waits at the home for something other than memory although the line is free (R234, R249, R311, Table
PTN-9). -/
def held (s : State) (p a : Nat) (r : HomeRequest) : Bool :=
  let q := s.part p
  (isOutsideWrite r && (isStagedLine (s.line p a) || q.state == .resetting)) ||
    (isOutsideRead r && (readsWait s p || q.state == .resetting)) ||
    (isRemoteLine a && (s.line p a).base.isEmpty && needsBase r) ||
    (match r with
      | .atom x => (match x.agent with | .link _ => !canStage s p a | _ => false)
      | _ => false)

/-- Where the fill of a request's miss goes (R224, R236). -/
def missFill : HomeRequest → MissFill
  | .rdS _ => .slice
  | .rdU _ => .slice
  | .rdNa ag _ retain => match ag with
    | .loader _ => .slice
    | .porter _ _ => .stream
    | .host => .stream
    | _ => if retain then .slice else .fetch
  | .memRd _ _ => .stream
  | .atom _ => .fetch
  | .upg _ => .fetch
  | _ => .none

/-- Where the fill of several readers' one miss goes (R224). -/
def windowFill (rs : List HomeRequest) : MissFill :=
  if rs.any (fun r => missFill r = .slice) then .slice
  else if rs.any (fun r => missFill r = .stream) then .stream else .fetch

/-- Whether a virtual address lies in a line through a page with the KV attribute. -/
def kvAt (s : State) (p a va : Nat) : Bool :=
  match translate s p va false with
  | .ok t => t.kv && decide (lineOfSys s t.sys = a)
  | .error _ => false

/-- The class of a request's access (Table UCC-4): a loader's is KV where the block it moves lies in such a page. -/
def ownClass (s : State) (p a : Nat) (ag : Agent) : Nat :=
  match ag with
  | .loader i =>
    if (s.stall i).fills.any (fun f => kvAt s p a f.va) || (s.stall i).spills.any (fun f => kvAt s p a f.va) then clsKv
    else classOfAgent ag
  | _ => classOfAgent ag

/-! ## What a request needs of other holders -/

/-- The snoop an entry of the filter gets for a request, if one. -/
def snoopFor (s : State) (p a : Nat) (r : HomeRequest) (f : FilterEntry) : Option Nat :=
  let staged := isStagedLine (s.line p a)
  match r with
  | .rdS l => if f.l1 = l then none else if f.owner then some mSnpDown else none
  | .rdU l => if f.l1 = l then none else some mSnpInv
  | .upg l => if f.l1 = l then none else some mSnpInv
  | .rdNa ag _ _ => if f.owner && !(isOutside ag && staged) then some mSnpSnap else none
  | .wrl _ _ => some mSnpInv
  | .atom _ => some mSnpInv
  | .disc _ => some mSnpInv
  | .memRd _ grant => if f.owner && !staged then some (if grant then mSnpDown else mSnpSnap) else none
  | .memWr _ _ => some mSnpInv
  | .port _ _ => some mSnpInv
  | .unit _ _ => some mSnpInv

/-- Whether a request needs the host to give up a line whose HOST bit is set (R233). -/
def needsHost (s : State) (p a : Nat) (r : HomeRequest) : Bool :=
  (s.line p a).host && match r with
  | .rdU _ => true
  | .upg _ => true
  | .wrl _ _ => true
  | .atom _ => true
  | .disc _ => true
  | .unit _ _ => true
  | _ => false

/-! ## Grants -/

/-- The filter records an L1, its earlier entry replaced as stale (R222). -/
def enter (s : State) (p a : Nat) (l : L1Id) (owner : Bool) : State :=
  s.modLine p a (fun n => { n with filter := { l1 := l, owner := owner, way := l1Way s l a } :: n.filter.filter (fun f => f.l1 ≠ l) })

/-- A read for S is answered: E where no other L1 holds the line, the HOST bit is clear and the line is not hidden
(R218). -/
def grantS (s : State) (p a : Nat) (l : L1Id) (alone : Bool) : State :=
  let n := s.line p a
  let e := alone && n.filter.all (fun f => f.l1 = l) && !n.host && n.state != .discardStaged && !isRemoteLine a
  send (enter s p a l e) (.toL1 (if e then mDataE else mDataS) p l a)

/-- A store's claim to the line (R225, R227): staged and granted M, granted M without a mark under STANDARD with the
unit marked, or the kernel ends under STRICT (R207). `msg` answers the L1. -/
def grantM (s : State) (p a : Nat) (l : L1Id) (msg : NocMsg) : State :=
  match stageCheck s p a with
  | .staged => send (enter (markStaged s p a) p a l true) msg
  | .through => send (enter (markNonrepl s p) p a l true) msg
  | .full => kernelFault s p Status.partitionFault Detail.tgcStagingFull

/-- The bytes of the sectors asked for, in the reader's view (Table UCC-3). -/
def viewBytes (s : State) (p a : Nat) (ag : Agent) (sectors : Nat) : List Host.Cell :=
  (setBits sectors 4).flatMap (fun k => (List.range 256).map (fun i =>
    let o := 256 * k + i
    (o, if isOutside ag then committedByte s p a o else stagedByte s p a o)))

/-- Whether an agent is the partition's own: its cores, feeders, loaders and Porters (R232). -/
def isOwn : Agent → Bool
  | .core _ => true
  | .feeder _ _ => true
  | .loader _ => true
  | .porter _ _ => true
  | _ => false

/-- A read by the partition of a discarded line is traced where the partition has enabled the trap (R232, Table BTD-8): the
line address and the requester's number (log entry 170). -/
def deadRead (s : State) (p a : Nat) (ag : Agent) : State :=
  if (s.part p).cache.deadTrap && isOwn ag && (s.part p).cache.dead.any (fun d => d.2 = a) then
    trace s trDeadRead (some p) ((homeOf s p a).getD 0xFF) 0 (tickFor s p) (natLe 8 a ++ natLe 8 (detectorOf ag))
  else s

/-! ## Atomics at the home -/

/-- The addresses of a request in line order: each with its lanes in ascending order. -/
def atomGroups (lanes : List AtomLane) : List (Nat × List AtomLane) :=
  (lanes.map (fun l => l.offset.val)).eraseDups.map (fun o => (o, lanes.filter (fun l => l.offset.val = o)))

/-- The chain of one address from a value (R191). -/
def atomRun (r : AtomRequest) (lanes : List AtomLane) (v : Nat) : List (Nat × Nat) × Nat :=
  atomChain (fun v l => atomApply r.op r.type v l.operand.toNat l.compare.toNat) lanes v

/-- Entries of a home's ledger (R302). -/
def ledgerSize : Nat := 4096

/-- One address of an atomic request (R302, R303, R307): a logged turn returns its values and changes nothing; a new one
is performed on the staged line and logged, or unlogged where the ledger is full. Answers the lanes' values. -/
def atomAddress (s : State) (p a : Nat) (r : AtomRequest) (o : Nat) (lanes : List AtomLane) : State × List (Nat × Nat) :=
  let addr := linePhys a + o
  match ledgerMatch s r addr with
  | some e => (s, (atomRun r lanes e.before).1)
  | none =>
    let n := atomBits r.type / 8
    let before := stagedValue s p a o n
    let (vals, after) := atomRun r lanes before
    let bytes := cellsAt o (natLe n after)
    let free := !unitLive s p
    let s := if canStage s p a then (markStaged s p a).modLine p a (fun l => { l with data := olay l.data bytes })
      else writeCommitted s p a bytes
    if ledgerSize ≤ (s.stall r.home).ledger.length then (if r.srcDevice.toNat = ownNumber s then markNonrepl s p else s, vals)
    else
      let e : LedgerEntry := sealEntry
        { address := addr, size8 := decide (n = 8), srcDevice := r.srcDevice.toNat, srcPartition := r.srcPartition
          seq := r.seq.toNat, unit := r.unit.toNat, kernel := r.kernel, homeDone := free
          before := before, after := after, loose := free && isStagedLine (s.line p a) }
      (s.modStall r.home (fun x => { x with ledger := e :: x.ledger }), vals)

/-- Every address of a request in turn. -/
def atomAll (s : State) (p a : Nat) (r : AtomRequest) : List (Nat × List AtomLane) → State × List (Nat × Nat)
  | [] => (s, [])
  | (o, ls) :: rest =>
    let (s, vs) := atomAddress s p a r o ls
    let (s, ws) := atomAll s p a r rest
    (s, vs ++ ws)

/-- The addresses of a request that no entry matches. -/
def atomNew (s : State) (a : Nat) (r : AtomRequest) : List (Nat × List AtomLane) :=
  (atomGroups r.lanes).filter (fun g => (ledgerMatch s r (linePhys a + g.1)).isNone)

/-- Whether a matching entry of a request has wrong parity (Table CHK-2). -/
def atomBad (s : State) (a : Nat) (r : AtomRequest) : Bool :=
  (atomGroups r.lanes).any (fun g => match ledgerMatch s r (linePhys a + g.1) with
    | some e => !entryGood e
    | none => false)

/-- The partition's highest ledger use since JOB_START follows the homes (CHK_PART.LEDGER_MAX). -/
def noteLedger (s : State) (p h : Nat) : State :=
  s.modPart p (fun q => { q with chk := { q.chk with ledgerMax := Nat.max q.chk.ledgerMax (s.stall h).ledger.length } })

/-- A unit of another device that performed an atomic becomes a partner of the unit in progress (R311). -/
def notePartner (s : State) (p : Nat) (r : AtomRequest) : State :=
  let k := (r.srcDevice.toNat, r.srcPartition.val, r.unit.toNat)
  if r.srcDevice.toNat ≠ ownNumber s && unitLive s p && !decide (k ∈ (s.part p).zlk.partners) then
    s.modPart p (fun q => { q with zlk := { q.zlk with partners := k :: q.zlk.partners } })
  else s

/-- The values of an atomic by lane, 8 bytes a lane. -/
def atomCells (vs : List (Nat × Nat)) : List Host.Cell := vs.flatMap (fun v => cellsAt (8 * v.1) (natLe 8 v.2))

/-! ## The end of a transaction -/

/-- The stall whose scheduled write a write without an L1 is; the partition's lowest for one of a link engine. -/
def writerStall (s : State) (p : Nat) (ag : Agent) : Nat :=
  match ag with
  | .loader i => i.val
  | _ => (stallsOf s p).headD 0

/-- A scheduled write that finds staging full under STRICT (R227, R300): the stall makes a stage request, and in wide
staging the job ends. -/
def stageFull (s : State) (p i : Nat) : State :=
  if (s.part p).epoch.wide then contained s p Status.partitionFault Detail.chkStageOverflow (some i)
  else s.modStall i (fun x => { x with stageReq := true })

/-- An atomic at its home: staged like any write of a unit; staging full acts as for a core store (R207, R227). One to the
held image (R164), a matching entry with wrong parity, or under STRICT a ledger without room for its turns ends the job
before anything is performed (R307). The home takes its own partition's check mode for the issuing one's (log entry 171). -/
def performAtom (s : State) (p a : Nat) (r : AtomRequest) : State × Option (List (Nat × Nat)) :=
  let new := atomNew s a r
  if inHeldImage s (linePhys a) then (contained s p Status.badAddress Detail.planHeld (some r.home), none)
  else if atomBad s a r then (contained s p Status.partitionFault Detail.chkLedgerParity (some r.home), none)
  else if (s.part p).record.check = 1 ∧ ledgerSize < (s.stall r.home).ledger.length + new.length then
    (contained s p Status.partitionFault Detail.chkLedgerFull (some r.home), none)
  else if !new.isEmpty && stageCheck s p a == .full then
    (if (s.part p).kernel.running then kernelFault s p Status.partitionFault Detail.tgcStagingFull else stageFull s p ((stallsOf s p).headD 0), none)
  else
    let s := if !new.isEmpty && stageCheck s p a == .through then markNonrepl s p else s
    let (s, vs) := atomAll s p a r (atomGroups r.lanes)
    (noteLedger (notePartner s p r) p r.home, some vs)

/-- Bytes of the unit in progress enter their line (R225, R227), counted to a stall; one to the held image ends the job
(R164). The second says whether they did. -/
def putStaged (s : State) (p a stall : Nat) (cells : List Host.Cell) : State × Bool :=
  let s := lookUp s p a
  if isLsmLine a && inHeldImage s (linePhys a) then (contained s p Status.badAddress Detail.planHeld (some stall), false)
  else match stageCheck s p a with
  | .full => (stageFull s p stall, false)
  | .through => (markNonrepl (writeCommitted s p a cells) p, true)
  | .staged => (writeUnit s p a cells, true)

/-- A unit's whole-sector write. -/
def finishWrl (s : State) (p a : Nat) (ag : Agent) (cells : List Host.Cell) : State :=
  match putStaged s p a (writerStall s p ag) cells with
  | (s, true) => send s (.toAgent mAck p ag a [])
  | (s, false) => s

/-- A discard (R231): a DIRTY line is hidden, any other line is dropped. -/
def finishDisc (s : State) (p a : Nat) : State :=
  match (s.line p a).state with
  | .dirty =>
    let s := toSets s p a
    if canStage s p a then noteDead (s.modLine p a (fun l => { l with state := .discardStaged })) p a else s
  | .discardStaged => s
  | _ => noteDead (s.modLine p a (fun l => { l with state := .absent, data := [], streamed := false })) p a

/-- The 64 bytes of a cacheline in the committed view. -/
def cacheline (s : State) (address : Nat) : List Byte := readCommitted s address 64

/-- The data of a non-allocating read: the sectors asked for, in the reader's view, with what a snapshot brought. For another
device there is none where memory failed (R285). -/
def snapshotData (s : State) (p a : Nat) (ag : Agent) (sec : BitVec 4) (snap : List Host.Cell) : List Host.Cell :=
  match ag with
  | .link _ => if Nat.land (s.line p a).bad (sectorBursts sec.toNat) ≠ 0 && readsMemory s p a true then [] else data
  | _ => data
where
  /-- Without regard to failures. -/
  data : List Host.Cell := olay (viewBytes s p a ag sec.toNat) (snap.filter (fun c => sec.getLsbD (c.1 / 256)))

/-- Whether the burst of the host's cacheline came back poisoned (R285). -/
def poisonAt (s : State) (p a addr : Nat) : Bool :=
  readsMemory s p a true && bit (s.line p a).bad (addr % 1024 / 128)

/-- What a request does once every holder has answered. `snap` are the bytes a snapshot brought. -/
def finish (s : State) (p a : Nat) (r : HomeRequest) (snap : List Host.Cell) : State :=
  match r with
  | .rdS l => grantS (deadRead s p a (.core l)) p a l true
  | .rdU l => grantM (unDead s p a) p a l (.toL1 mDataM p l a)
  | .upg l =>
    if (s.line p a).filter.any (fun f => f.l1 = l) then grantM (unDead s p a) p a l (.toAgent mAck p (.core l) a [])
    else grantM (unDead s p a) p a l (.toL1 mDataM p l a)
  | .rdNa ag sec _ =>
    send (deadRead s p a ag) (.toAgent mDataNa p ag a (snapshotData s p a ag sec snap))
  | .wrl ag cells =>
    let cs := cells.map (fun c => (c.1.val, c.2))
    if isOutside ag then
      send (if isLsmLine a && inHeldImage s (linePhys a) then s else writeCommitted s p a cs) (.toAgent mAck p ag a [])
    else finishWrl s p a ag cs
  | .atom x =>
    match performAtom s p a x with
    | (s, none) => s
    | (s, some vs) => send s (.toAgent mAck p x.agent a (atomCells vs))
  | .disc ag => send (finishDisc s p a) (.toAgent mAck p ag a [])
  | .memRd addr grant =>
    let s := s.emit (.memData addr.toNat (cacheline s addr.toNat) (poisonAt s p a addr.toNat))
    if grant then s.modLine p a (fun l => { l with host := true }) else s
  | .memWr addr data =>
    if inHeldImage s addr.toNat then s.emit (.memDone addr.toNat Status.badAddress Detail.planHeld)
    else (writeCommitted s p a (cellsAt (addr.toNat % 1024) (data.take 64))).emit (.memDone addr.toNat Status.ok 0)
  | .port _ cells => writeCommitted s p a (cells.map (fun c => (c.1.val, c.2)))
  | .unit i cells => (putStaged s p a i (cells.map (fun c => (c.1.val, c.2)))).1

/-! ## Reads of memory (R268) -/

/-- Whose read of memory a request is. -/
def readerOf (p : Nat) (r : HomeRequest) : BurstReader :=
  match agentOf r with
  | .feeder i m => .feeder i m
  | .porter _ _ => .porter (Fin.ofNat 64 p)
  | .host => .host
  | .dataPort => .host
  | .link j => .remote (BitVec.ofNat 12 j)
  | _ => .insider (Fin.ofNat 64 p)

/-- Bursts of memory that a request needs: a line that is placed or owned comes whole, a non-allocating read brings the
sectors asked for, and the host's read the burst of its cacheline (R268). -/
def needMask (s : State) (p a : Nat) (r : HomeRequest) : Nat :=
  if !readsMemory s p a (isOutside (agentOf r)) then 0
  else
    let whole := placesLine s p a (agentOf r) (missFill r)
    match r with
    | .rdS _ => wholeLine
    | .rdU _ => wholeLine
    | .upg l => if (s.line p a).filter.any (fun f => f.l1 = l) then 0 else wholeLine
    | .rdNa _ sec _ => fetchMask whole sec.toNat
    | .memRd addr _ => if whole then wholeLine else 2 ^ (addr.toNat % 1024 / 128)
    | .atom _ => wholeLine
    | _ => 0

/-- Whether memory has brought what a request needs. -/
def memoryHere (s : State) (p a : Nat) (r : HomeRequest) : Bool := stillOut s p a (needMask s p a r) (!isOutside (agentOf r)) = 0

/-- A range within a line, read from outside: bursts of memory that it still waits for, where `whole` says that the line is
placed. -/
def outsideOut (s : State) (p a o n : Nat) (whole : Bool) : Nat :=
  if readsMemory s p a true then stillOut s p a (fetchMask whole (rangeSectors o n)) false else 0

/-- Whether a burst that such a range covers came back poisoned (R285). -/
def outsideBad (s : State) (p a o n : Nat) : Bool :=
  readsMemory s p a true && (List.range 8).any (fun b => bit (s.line p a).bad b && decide (o < 128 * (b + 1)) && decide (128 * b < o + n))

/-- What a request needs of memory is asked for. -/
def askFor (s : State) (p a : Nat) (r : HomeRequest) : State := askMemory s p a (needMask s p a r) (readerOf p r)

/-- Whether a request waits at the home although the line is free. -/
def blocked (s : State) (p a : Nat) (r : HomeRequest) : Bool := held s p a r || !memoryHere s p a r

/-- A request starts on a free line: it is counted, its snoops and back-invalidations go out, and with none to wait for
it ends at once. -/
def beginRequest (s : State) (p a : Nat) (r : HomeRequest) : State :=
  let s := access s p a (agentOf r) (ownClass s p a (agentOf r)) (missFill r)
  let snoops := (s.line p a).filter.filterMap (fun f => (snoopFor s p a r f).map (fun k => (f.l1, k)))
  let host := needsHost s p a r
  if snoops.isEmpty && !host then spendRead (finish s p a r []) p a
  else
    let s := snoops.foldl (fun s x => send s (.toL1 x.2 p x.1 a)) s
    let s := if host then backInvalidate s p a else s
    s.modLine p a (fun l => { l with cur := some r, awaiting := snoops.map (fun x => x.1) })

/-- The next waiting request that may start (R220). -/
def nextWaiting (s : State) (p a : Nat) : Option HomeRequest := (s.line p a).waiting.find? (fun r => !held s p a r)

/-- Waiting requests start in order while the line is free; one that needs memory asks for it, and those behind it wait too.
`n` bounds how many. -/
def homeNext (s : State) (p a : Nat) : Nat → State
  | 0 => s
  | n + 1 =>
    let s := lookUp s p a
    if lineBusy (s.line p a) then s
    else match nextWaiting s p a with
      | none => s
      | some r =>
        if memoryHere s p a r then homeNext (beginRequest (s.modLine p a (fun l => { l with waiting := l.waiting.erase r })) p a r) p a n
        else askFor s p a r

/-- Waiting requests of a line start (R220). -/
def serveLine (s : State) (p a : Nat) : State := homeNext s p a (s.line p a).waiting.length

/-- Waiting requests of every line of a partition start: after a commit, a discard or a reset. -/
def serveAll (s : State) (p : Nat) : State :=
  ((lineKeys s p).filter (fun a => !(s.line p a).waiting.isEmpty)).foldl (fun s a => serveLine s p a) s

/-- A transaction has ended: discards that waited for the line may act (R231). -/
def lineFree (s : State) (p : Nat) : State := if unitLive s p then s else runDiscards s p

/-- What the readers of a window need of memory is asked for. -/
def askWindow (s : State) (p a : Nat) : State := (s.line p a).window.foldl (fun s r => askFor s p a r) s

/-- The readers of a window that has closed are answered together, once memory has brought the line. -/
def deliverWindow (s : State) (p a : Nat) : State :=
  let rs := (s.line p a).window
  let s := s.modLine p a (fun l => { l with window := [] })
  let s := match rs with
    | [] => s
    | r :: _ => access s p a (agentOf r) (ownClass s p a (agentOf r)) (windowFill rs)
  let many := decide (2 ≤ (rs.filter (fun r => match r with | .rdS _ => true | _ => false)).length)
  let s := rs.foldl (fun s r => match r with
    | .rdS l => grantS (deadRead s p a (.core l)) p a l (!many)
    | r => finish s p a r []) s
  lineFree (serveLine (spendRead s p a) p a) p

/-- A window that has closed is served where memory has brought what its readers need, which is asked for otherwise. -/
def serveWindow (s : State) (p a : Nat) : State :=
  let rs := (s.line p a).window
  if rs.isEmpty || (s.line p a).windowOpen then s
  else if rs.all (fun r => memoryHere s p a r) then deliverWindow s p a else askWindow s p a

/-- A combining window closes (R221): the line is fetched once and every joined reader is answered. -/
def closeWindow (s : State) (p a : Nat) : State := serveWindow (s.modLine p a (fun l => { l with windowOpen := false })) p a

/-- Whether a line may be held for a partition, or a request answered, at a home of it (R213, R215, R216, R230): a line of its
own grants, a remote copy of another device's LSM, or, for a staged write or a discard, a host-window line. -/
def hasHome (s : State) (p a : Nat) (r : HomeRequest) : Bool :=
  (homeOf s p a).isSome &&
    if isRemoteLine a then decide (linePhys a < lsmTop)
    else if isLsmLine a then granted s p (linePhys a)
    else decide (isHostLine a = true ∧ linePhys a < compBase) && match r with
      | .wrl ag _ => !isOutside ag
      | .disc _ => true
      | .unit _ _ => true
      | _ => false

/-- A request arrives at the home of a line (R220, R221). A line with no home has none to arrive at (R216, R217). -/
def arrive (s : State) (p a : Nat) (r : HomeRequest) : State :=
  if !hasHome s p a r then s
  else
    let s := lookUp s p a
    let s := if isRemoteLine a && (s.line p a).base.isEmpty && needsBase r then askRemote s p a else s
    let l := s.line p a
    if l.windowOpen then
      if isRead r && !held s p a r then
        (missed (tallyAdd s p (classOf s p a (ownClass s p a (agentOf r))) 0) p a (agentOf r)).1.modLine p a
          (fun l => { l with window := l.window ++ [r] }) |> (fun s => askWindow s p a)
      else closeWindow (s.modLine p a (fun l => { l with waiting := l.waiting ++ [r] })) p a
    else if lineBusy l || !l.waiting.isEmpty || held s p a r then
      serveLine (s.modLine p a (fun l => { l with waiting := l.waiting ++ [r] })) p a
    else if isRead r && l.state == .absent && l.filter.all (fun f => !f.owner) then
      askWindow (s.modLine p a (fun l => { l with window := [r], windowOpen := true })) p a
    else serveLine (s.modLine p a (fun l => { l with waiting := [r] })) p a

/-! ## Responses -/

/-- With every answer in, the transaction in progress ends and the next starts. -/
def answered (s : State) (p a : Nat) (snap : List Host.Cell) : State :=
  let l := s.line p a
  match l.cur with
  | none => s
  | some r =>
    if l.awaiting.isEmpty && l.awaitHost.isEmpty then
      let s := s.modLine p a (fun l => { l with cur := none, host := if needsHost s p a r then false else l.host })
      lineFree (serveLine (spendRead (finish s p a r snap) p a) p a) p
    else s

/-- Whether the snoop of a request takes the L1's copy. -/
def snoopTakes (r : HomeRequest) : Bool :=
  match r with
  | .rdS _ => false
  | .rdNa _ _ _ => false
  | .memRd _ _ => false
  | _ => true

/-- An L1 answers a snoop: the filter entry goes, or drops to S, or stays, as the snoop asked. -/
def settleEntry (s : State) (p a : Nat) (l : L1Id) (r : HomeRequest) : State :=
  s.modLine p a (fun n => { n with
    awaiting := n.awaiting.filter (fun x => x ≠ l)
    filter := if snoopTakes r then n.filter.filter (fun f => f.l1 ≠ l)
      else match r with
        | .rdNa _ _ _ => n.filter
        | .memRd _ false => n.filter
        | _ => n.filter.map (fun f => if f.l1 = l then { f with owner := false } else f) })

/-- Dirty bytes from an L1 enter the slice (R223, R225): those of a kernel that can replay are staged, and a line that its L1
wrote without a message becomes STAGED now. -/
def mergeDirty (s : State) (p a : Nat) (cells : List Host.Cell) : State :=
  if cells.isEmpty then s
  else if !(s.part p).kernel.running || (s.part p).kernel.nonrepl || isStagedLine (s.line p a) then takeDirty s p a cells
  else match stageCheck s p a with
    | .staged => takeDirty (markStaged s p a) p a cells
    | .through => takeDirty (markNonrepl s p) p a cells
    | .full => kernelFault s p Status.partitionFault Detail.tgcStagingFull

/-- RSP_ACK, RSP_DATA and RSP_NP end the wait for one L1 (R220, R222). A discard's snooped data is dropped, and so is a
snapshot's once it is forwarded. -/
def snoopAnswer (s : State) (p a : Nat) (l : L1Id) (cells : List Host.Cell) (present : Bool) : State :=
  match (s.line p a).cur with
  | none => s
  | some r =>
    if l ∉ (s.line p a).awaiting then s
    else
      let snap := match r with | .rdNa _ _ _ => true | .memRd _ false => true | _ => false
      let drop := match r with | .disc _ => true | _ => false
      let s := if snap || drop then s else mergeDirty s p a cells
      let s := settleEntry s p a l r
      let s := if present then s else s.modLine p a (fun n => { n with filter := n.filter.filter (fun f => f.l1 ≠ l) })
      answered s p a (if snap then cells else [])

/-- A WB arrives (R223): its data is written and acknowledged, the entry goes, and it answers a snoop that waits. -/
def writebackArrives (s : State) (p a : Nat) (l : L1Id) (cells : List Host.Cell) : State :=
  let waits := decide (l ∈ (s.line p a).awaiting)
  let drop := match (s.line p a).cur with | some (.disc _) => waits | _ => false
  let s := if drop then s else mergeDirty s p a cells
  let s := s.modLine p a (fun n => { n with
    filter := n.filter.filter (fun f => f.l1 ≠ l), awaiting := n.awaiting.filter (fun x => x ≠ l) })
  let s := send s (.toL1 mWbAck p l a)
  if waits then answered s p a [] else s

end Sys2Proof.Machine
end

