-- ==== Sys2Proof/Machine/L1.lean ====
section
/-! DEFINITION. The core L1s (R188, R218, R222, R223): how lines enter and leave them and how they answer snoops. -/

namespace Sys2Proof.Machine

/-- The L1 gives up a line (R218): M goes out as a WB, S and E go silently. -/
def l1Evict (s : State) (l : L1Id) (a : Nat) : State :=
  let x := s.l1Line l a
  match x.state with
  | .m => send (s.modL1 l a (fun x => { x with state := .i, data := [], wbInFlight := true })) (.toHome mWb x.part l a x.data)
  | _ => s.modL1 l a (fun x => { x with state := .i, data := [] })

/-- Whether an L1 has nothing of a line any more, nor a fill or a writeback of it on its way. -/
def l1Gone (s : State) (p : Nat) (l : L1Id) (a : Nat) : Bool :=
  (s.l1Line l a).state == .i && !(s.l1Line l a).wbInFlight && !s.noc.any (grantsLine p a l)

/-- The entry of an L1's position at the home of line `a` is that line's now: the entry of a line that was there before goes
(R219). -/
def takePosition (s : State) (p : Nat) (l : L1Id) (a w : Nat) : State :=
  let old := (s.part p).cache.lines.filter (fun e => e.1 ≠ a && e.1 % 16 = a % 16 && homeOf s p e.1 = homeOf s p a &&
    e.2.filter.any (fun f => f.l1 = l && f.way = w) && l1Gone s p l e.1)
  let s := old.foldl (fun s e => s.modLine p e.1 (fun n => { n with filter := n.filter.filter (fun f => f.l1 ≠ l) })) s
  s.modLine p a (fun n => { n with filter := n.filter.map (fun f => if f.l1 = l then { f with way := w } else f) })

/-- A line enters the L1 at a position; the line there before leaves. -/
def l1Put (s : State) (p : Nat) (l : L1Id) (a : Nat) (st : Mesi) : State :=
  let w := l1Way s l a
  let s := match (l1Set s l a).find? (fun e => e.2.way = w) with
    | none => s
    | some v => l1Evict s l v.1
  takePosition (s.modL1 l a (fun x => { x with part := p, state := st, way := w })) p l a w

/-- Whether nothing of a line is on its way or in progress, so that a whole transaction can take place (R220). -/
def lineQuiet (s : State) (p a : Nat) : Bool :=
  let n := s.line p a
  !lineBusy n && n.waiting.isEmpty && !s.noc.any (fun m => match m with
    | .toL1 _ q _ b => q = p && b = a
    | .toAgent _ q _ b _ => q = p && b = a
    | .toHome _ q _ b _ => q = p && b = a)

/-- An L1's answer to a snoop it has just received. -/
def snoopReply (s : State) (p : Nat) (l : L1Id) (a k : Nat) : State :=
  let x := s.l1Line l a
  match x.state with
  | .i => send s (.toHome (if x.wbInFlight then mRspWbp else mRspNp) p l a [])
  | .m =>
    let s := if k = mSnpInv then s.modL1 l a (fun x => { x with state := .i, data := [] })
      else if k = mSnpDown then s.modL1 l a (fun x => { x with state := .s, data := [] }) else s
    send s (.toHome mRspData p l a x.data)
  | _ =>
    let s := if k = mSnpInv then s.modL1 l a (fun x => { x with state := .i, data := [] })
      else if k = mSnpDown then s.modL1 l a (fun x => { x with state := .s }) else s
    send s (.toHome mRspAck p l a [])

/-- A snoop of a kind reaches an L1. -/
def snoopArrives (s : State) (p : Nat) (l : L1Id) (a k : Nat) : State :=
  match takeMsg s (fun m => m == .toL1 k p l a) with
  | none => s
  | some (_, s) => snoopReply s p l a k

/-- A fill reaches an L1. -/
def fillArrives (s : State) (p : Nat) (l : L1Id) (a k : Nat) (st : Mesi) : State :=
  match takeMsg s (fun m => m == .toL1 k p l a) with
  | none => s
  | some (_, s) => l1Put s p l a st

/-- Takes a response of a kind off the network: its dirty bytes. -/
def takeHome (s : State) (p : Nat) (l : L1Id) (a k : Nat) : Option (List Host.Cell × State) :=
  match takeMsg s (fun m => match m with
    | .toHome k' p' l' a' _ => k' = k && p' = p && l' = l && a' = a
    | _ => false) with
  | some (.toHome _ _ _ _ cs, s) => some (cs, s)
  | _ => none

/-- Takes a message to an agent off the network: its bytes. -/
def takeAgent (s : State) (p : Nat) (ag : Agent) (a k : Nat) : Option (List Host.Cell × State) :=
  match takeMsg s (fun m => match m with
    | .toAgent k' p' g' a' _ => k' = k && p' = p && g' == ag && a' = a
    | _ => false) with
  | some (.toAgent _ _ _ _ cs, s) => some (cs, s)
  | _ => none

/-- The line of a partition's virtual address, if it translates to own or remote LSM. -/
def lineOfVa (s : State) (p va : Nat) : Option Nat :=
  match translate s p va false with
  | .ok t => some (lineOfSys s t.sys)
  | .error _ => none

/-- A line of a FILL reaches the scratchpad (R151): the oldest block that waits for it is written. -/
def fillData (s : State) (p i a : Nat) (cells : List Host.Cell) : State :=
  match (s.stall i).fills.find? (fun f => lineOfVa s p f.va = some a) with
  | none => s
  | some f =>
    let s := s.modStall i (fun x => { x with fills := x.fills.erase f })
    spadPut s i f.offset ((List.range 1024).map (fun o => (oget cells o).getD 0))

/-- A block of a SPILL is acknowledged by its home (R155). -/
def spillDone (s : State) (p i a : Nat) : State :=
  match (s.stall i).spills.find? (fun f => f.read && lineOfVa s p f.va = some a) with
  | none => s
  | some f => s.modStall i (fun x => { x with spills := x.spills.erase f })

end Sys2Proof.Machine
end

