-- ==== Sys2Proof/Machine/Messages.lean ====
section
/-! DEFINITION. Coherence messages (Table UCC-2) and the host's CXL.mem and CXL.cache requests (R233, R234, R369) as they
arrive. A message acts only where it is on its way, and on an existing partition. -/

namespace Sys2Proof.Machine

/-- The host asks for a line: a device at rest wakes, and a device that does not answer drops the request. -/
def hostAsks (s : State) (f : State → State) : State := if hostUp s then f (wakeBy s 1) else s

/-- The owner of a local line whose home exists. -/
def homeOwner (s : State) (address : Nat) : Option Nat :=
  (ownerOf s address).bind (fun p => (homeOf s p (address / 1024)).map (fun _ => p))

/-- Whether an L1 belongs to a partition's stall. -/
def l1Of (s : State) (p : Nat) (l : L1Id) : Bool := (s.part p).present && bit (s.part p).record.stalls l.stall

/-! ## Requests of the L1s and agents -/

/-- RD_S (R218, R221). -/
def execRdS (p : Fin 64) (l1 : L1Id) (line : BitVec 47) (s : State) : Host.Outcome State Fault Refusal :=
  .next (if l1Of s p l1 then arrive s p line.toNat (.rdS l1) else s)

/-- RD_U (R218). -/
def execRdU (p : Fin 64) (l1 : L1Id) (line : BitVec 47) (s : State) : Host.Outcome State Fault Refusal :=
  .next (if l1Of s p l1 then arrive s p line.toNat (.rdU l1) else s)

/-- UPG (R218). -/
def execUpg (p : Fin 64) (l1 : L1Id) (line : BitVec 47) (s : State) : Host.Outcome State Fault Refusal :=
  .next (if l1Of s p l1 then arrive s p line.toNat (.upg l1) else s)

/-- RD_NA (R224). -/
def execRdNa (p : Fin 64) (agent : Agent) (line : BitVec 47) (sectors : BitVec 4) (retain : Bool) (s : State) :
    Host.Outcome State Fault Refusal :=
  .next (if (s.part p).present then arrive s p line.toNat (.rdNa agent sectors retain) else s)

/-- The cells a write without an L1 brings: a loader's come from the snapshot of its SPILL (R151). -/
def wrlCells (s : State) (p a : Nat) (agent : Agent) (cells : List (Fin 1024 × Byte)) : List (Fin 1024 × Byte) :=
  match agent with
  | .loader i =>
    match (s.stall i).spills.find? (fun f => f.read && lineOfVa s p f.va = some a) with
    | none => []
    | some f => f.bytes.map (fun c => (Fin.ofNat 1024 c.1, c.2))
  | _ => cells

/-- WRL (R225). -/
def execWrl (p : Fin 64) (agent : Agent) (line : BitVec 47) (cells : List (Fin 1024 × Byte)) (s : State) :
    Host.Outcome State Fault Refusal :=
  let cs := wrlCells s p line.toNat agent cells
  .next (if (s.part p).present && !cs.isEmpty then arrive s p line.toNat (.wrl agent cs) else s)

/-- The partition whose home performs an atomic. -/
def atomOwner (s : State) (req : AtomRequest) : Option Nat :=
  let a := req.line.toNat
  if isLsmLine a then
    (ownerOf s (linePhys a)).bind (fun p => if homeOf s p a = some req.home.val then some p else none)
  else none

/-- ATOM (R190 to R193). -/
def execAtom (req : AtomRequest) (s : State) : Host.Outcome State Fault Refusal :=
  .next (match atomOwner s req with | none => s | some p => arrive s p req.line.toNat (.atom req))

/-- DISC (R231). -/
def execDisc (p : Fin 64) (agent : Agent) (line : BitVec 47) (s : State) : Host.Outcome State Fault Refusal :=
  .next (if (s.part p).present then arrive s p line.toNat (.disc agent) else s)

/-- WB (R223). A writeback on its way arrives; where none is, the L1 evicts its M line now and the writeback arrives. -/
def execWb (p : Fin 64) (l1 : L1Id) (line : BitVec 47) (s : State) : Host.Outcome State Fault Refusal :=
  let a := line.toNat
  let s := if (takeHome s p l1 a mWb).isNone && (s.l1Line l1 a).state == .m && l1Of s p l1 then l1Evict s l1 a else s
  .next (match takeHome s p l1 a mWb with
    | none => s
    | some (cs, s) => writebackArrives s p a l1 cs)

/-! ## Snoops, responses and fills -/

/-- SNP_INV (R222). -/
def execSnpInv (p : Fin 64) (l1 : L1Id) (line : BitVec 47) (s : State) : Host.Outcome State Fault Refusal :=
  .next (snoopArrives s p l1 line.toNat mSnpInv)

/-- SNP_DOWN (R222). -/
def execSnpDown (p : Fin 64) (l1 : L1Id) (line : BitVec 47) (s : State) : Host.Outcome State Fault Refusal :=
  .next (snoopArrives s p l1 line.toNat mSnpDown)

/-- SNP_SNAP (R224). -/
def execSnpSnap (p : Fin 64) (l1 : L1Id) (line : BitVec 47) (s : State) : Host.Outcome State Fault Refusal :=
  .next (snoopArrives s p l1 line.toNat mSnpSnap)

/-- RSP_ACK (R220). -/
def execRspAck (p : Fin 64) (l1 : L1Id) (line : BitVec 47) (s : State) : Host.Outcome State Fault Refusal :=
  .next (match takeHome s p l1 line.toNat mRspAck with
    | none => s
    | some (_, s) => snoopAnswer s p line.toNat l1 [] true)

/-- RSP_DATA (R220). -/
def execRspData (p : Fin 64) (l1 : L1Id) (line : BitVec 47) (s : State) : Host.Outcome State Fault Refusal :=
  .next (match takeHome s p l1 line.toNat mRspData with
    | none => s
    | some (cs, s) => snoopAnswer s p line.toNat l1 cs true)

/-- RSP_NP (R222). -/
def execRspNp (p : Fin 64) (l1 : L1Id) (line : BitVec 47) (s : State) : Host.Outcome State Fault Refusal :=
  .next (match takeHome s p l1 line.toNat mRspNp with
    | none => s
    | some (_, s) => snoopAnswer s p line.toNat l1 [] false)

/-- RSP_WBP (R223): the home goes on waiting, now for the WB. -/
def execRspWbp (p : Fin 64) (l1 : L1Id) (line : BitVec 47) (s : State) : Host.Outcome State Fault Refusal :=
  .next (match takeHome s p l1 line.toNat mRspWbp with
    | none => s
    | some (_, s) => s)

/-- DATA_S (R218). -/
def execDataS (p : Fin 64) (l1 : L1Id) (line : BitVec 47) (s : State) : Host.Outcome State Fault Refusal :=
  .next (fillArrives s p l1 line.toNat mDataS .s)

/-- DATA_E (R218). -/
def execDataE (p : Fin 64) (l1 : L1Id) (line : BitVec 47) (s : State) : Host.Outcome State Fault Refusal :=
  .next (fillArrives s p l1 line.toNat mDataE .e)

/-- DATA_M (R218). -/
def execDataM (p : Fin 64) (l1 : L1Id) (line : BitVec 47) (s : State) : Host.Outcome State Fault Refusal :=
  .next (fillArrives s p l1 line.toNat mDataM .m)

/-! ## Requests served for other devices (R328) -/

/-- TYPE of READ_REQ, READ_RSP, ATOM_REQ and ATOM_RSP. -/
def itReadReq : Nat := 2
/-- READ_RSP. -/
def itReadRsp : Nat := 3
/-- ATOM_REQ. -/
def itAtomReq : Nat := 4
/-- ATOM_RSP. -/
def itAtomRsp : Nat := 5

/-- An answer to a request: it carries the request's fields and goes back to its source (log entry 11). -/
def answerItem (s : State) (i : Item) (data : List Byte) (lanes : List AtomLane) (type : Nat) : State :=
  queueItem s type { i with dstDevice := i.srcDevice, data := data, lanes := lanes, byteCount := 0 }

/-- A request waits at a home for its answer. -/
def serveLater (s : State) (j type : Nat) (i : Item) : State :=
  { s with links := { s.links with served := s.links.served ++ [(j, type, i)] } }

/-- The oldest request of a port and TYPE for a line, taken off. -/
def servedOne (s : State) (j type a : Nat) : Option (Item × State) :=
  (s.links.served.find? (fun r => r.1 = j && r.2.1 = type && r.2.2.address.toNat / 1024 = a)).map (fun r =>
    (r.2.2, { s with links := { s.links with served := s.links.served.erase r } }))

/-- The parts of a range within lines of 1 KiB: start and length. -/
def lineParts (va : Nat) : Nat → Nat → List (Nat × Nat)
  | 0, _ => []
  | _, 0 => []
  | fuel + 1, n =>
    let k := Nat.min n (1024 - va % 1024)
    (va, k) :: lineParts (va + k) fuel (n - k)

/-- The lines of a read of another device: start and length of each part. -/
def itemParts (i : Item) : List (Nat × Nat) := lineParts i.address.toNat (i.byteCount.toNat / 1024 + 2) i.byteCount.toNat

/-- A read of another device that memory has failed (R285): its status and detail in OPERAND, and no data (log entry 111). -/
def answerFailed (s : State) (i : Item) : State :=
  answerItem s { i with operand := BitVec.ofNat 64 (Status.partitionFault + 256 * Detail.lsmStored) } [] [] itReadRsp

/-- A read of another device is answered with committed bytes (R261). -/
def answerRead (s : State) (p : Nat) (i : Item) : State :=
  let parts := itemParts i
  let s' := parts.foldl (fun s x => spendRead s p (x.1 / 1024)) s
  if parts.any (fun x => outsideBad s p (x.1 / 1024) (x.1 % 1024) x.2) then answerFailed s' i
  else answerItem s' i (readCommitted s i.address.toNat i.byteCount.toNat) [] itReadRsp

/-- A read of another device over several lines of a partition is answered once no commit is pending and memory has brought
what it needs (R249, R268); it waits until then. -/
def serveLate (s : State) (p : Nat) (i : Item) : State :=
  let s := (itemParts i).foldl (fun s x => lookUp s p (x.1 / 1024)) s
  let parts := (itemParts i).filter (fun x => outsideOut s p (x.1 / 1024) (x.1 % 1024) x.2 false ≠ 0)
  if !readsWait s p && parts.isEmpty then answerRead s p i
  else parts.foldl (fun s x => askMemory s p (x.1 / 1024) (outsideOut s p (x.1 / 1024) (x.1 % 1024) x.2 false)
      (.remote i.srcDevice))
    { s with links := { s.links with late := s.links.late ++ [(p, i)] } }

/-- Reads of other devices over several lines of a partition that wait are answered, where they can be. -/
def answerLate (s : State) (p : Nat) : State :=
  let due := s.links.late.filter (fun x => x.1 = p)
  due.foldl (fun s x => serveLate s p x.2) { s with links := { s.links with late := s.links.late.filter (fun x => x.1 ≠ p) } }

/-- A snapshot read for another device comes back to the link engine of a port (R224), with no data where memory failed. -/
def linkData (s : State) (j a : Nat) (cells : List Host.Cell) : State :=
  match servedOne s j itReadReq a with
  | none => s
  | some (i, s) =>
    if cells.isEmpty then answerFailed s i
    else answerItem s i ((List.range i.byteCount.toNat).map (fun x => (oget cells (i.address.toNat % 1024 + x)).getD 0)) [] itReadRsp

/-- What an ATOM_RSP says in OPERAND of the unit at whose home the atomic was performed, so that it becomes a partner
(R311), and of an atomic performed unlogged (R307) (log entry 111). -/
def atomReport (s : State) (p : Nat) (i : Item) : W64 :=
  let (k, u, _) := unitOf s p
  let logged := (stallsOf s p).any (fun h => (s.stall h).ledger.any (fun e => e.srcDevice = i.srcDevice.toNat &&
    e.srcPartition = i.srcPartition.val && e.seq = i.seq.toNat && e.unit = i.unit.toNat && e.kernel == i.kernel))
  BitVec.ofNat 64 (pack [(0, 31, u), (31, 1, b2n k), (32, 6, p), (38, 1, b2n (unitLive s p)), (39, 1, b2n (!logged))])

/-- An atomic's values come back to the link engine of a port. -/
def linkAck (s : State) (p j a : Nat) (cells : List Host.Cell) : State :=
  match servedOne s j itAtomReq a with
  | none => s
  | some (i, s) =>
    answerItem s { i with operand := atomReport s p i } [] (i.lanes.map (fun l =>
      { l with operand := BitVec.ofNat 64 (leNat ((List.range 8).map (fun k => (oget cells (8 * l.lane.val + k)).getD 0))) })) itAtomRsp

/-! ## Data and acknowledgements at their requesters -/

/-- What the data of a non-allocating read does at its requester: a FILL's line is written to the scratchpad
(R151), and a remote device's read is answered. -/
def useData (s : State) (p a : Nat) (agent : Agent) (cells : List Host.Cell) : State :=
  match agent with
  | .loader i => fillData s p i a cells
  | .link j => linkData s j a cells
  | _ => s

/-- DATA_NA (R224). -/
def execDataNa (p : Fin 64) (agent : Agent) (line : BitVec 47) (s : State) : Host.Outcome State Fault Refusal :=
  .next (match takeAgent s p agent line.toNat mDataNa with
    | none => s
    | some (cs, s) => useData s p line.toNat agent cs)

/-- The values of an atomic reach the group of a core that asked for the line first (R191). -/
def atomAck (s : State) (l : L1Id) (a : Nat) (cells : List Host.Cell) : State :=
  match (tget (s.stall l.stall).cores l.core).asked.find? (fun x => x.2 = a) with
  | none => s
  | some x =>
    let s := s.modStall l.stall (fun y => { y with
      cores := tmod y.cores l.core (fun c => { c with asked := c.asked.erase x }) })
    let key := groupKey l.stall l.core x.1
    if (tget s.groups key).live then
      { s with groups := tmod s.groups key (fun g => { g with replies := g.replies ++ [(a, cells)] }) }
    else s

/-- What an acknowledgement does at its requester: an L1 that asked for UPG holds the line in M; an atomic's values reach
its group; a SPILL's block is acknowledged. -/
def useAck (s : State) (p a : Nat) (agent : Agent) (cells : List Host.Cell) : State :=
  match agent with
  | .core l =>
    if !cells.isEmpty then atomAck s l a cells
    else if (s.l1Line l a).state == .s then l1Put s p l a .m else s
  | .loader i => spillDone s p i a
  | .link j => if cells.isEmpty then s else linkAck s p j a cells
  | _ => s

/-- ACK (R220). -/
def execAck (p : Fin 64) (agent : Agent) (line : BitVec 47) (s : State) : Host.Outcome State Fault Refusal :=
  .next (match takeAgent s p agent line.toNat mAck with
    | none => s
    | some (cs, s) => useAck s p line.toNat agent cs)

/-- WB_ACK (R223). -/
def execWbAck (p : Fin 64) (l1 : L1Id) (line : BitVec 47) (s : State) : Host.Outcome State Fault Refusal :=
  .next (match takeMsg s (fun m => m == .toL1 mWbAck p l1 line.toNat) with
    | none => s
    | some (_, s) => s.modL1 l1 line.toNat (fun x => { x with wbInFlight := false }))

/-- COMBINING_WINDOW_CLOSE (R221): 64 cycles after the window opened. -/
def execCombiningWindowClose (p : Fin 64) (line : BitVec 47) (s : State) : Host.Outcome State Fault Refusal :=
  .next (if (s.line p line.toNat).windowOpen then closeWindow s p line.toNat else s)

/-! ## The host through CXL.mem and CXL.cache -/

/-- MEMRD (R233, R268, R285): a line of a partition is read at its home; of any other LSM line one burst is read from memory
(R216, R271). -/
def execMemrd (address : BitVec 44) (metaValue : MetaValue) (s : State) : Host.Outcome State Fault Refusal :=
  let addr := address.toNat / 64 * 64
  .next (hostAsks s (fun s =>
    if lsmTop ≤ addr then s
    else match homeOwner s addr with
      | some p => arrive s p (addr / 1024) (.memRd (BitVec.ofNat 44 addr) (metaValue != .invalid))
      | none => queueAccess s { requester := deviceTraffic, line := addr / 1024, mask := 2 ^ (addr % 1024 / 128), write := false
                                reader := .host, address := addr }))

/-- MEMWR (R164, R234, R354): a line of a partition is written at its home; any other LSM line straight in memory, but
for the session table, which no host write reaches. -/
def execMemwr (address : BitVec 44) (data : List Byte) (s : State) : Host.Outcome State Fault Refusal :=
  let addr := address.toNat / 64 * 64
  .next (hostAsks s (fun s =>
    if lsmTop ≤ addr then s
    else if s.boot.stage == .fatal then s.emit (.memDone addr Status.ok 0)
    else match homeOwner s addr with
      | some p =>
        if inHeldImage s addr then s.emit (.memDone addr Status.badAddress Detail.planHeld)
        else arrive s p (addr / 1024) (.memWr (BitVec.ofNat 44 addr) data)
      | none =>
        if sesTable ≤ addr then s.emit (.memDone addr Status.badAddress Detail.sesTable)
        else (queueAccess { s with
          mem := mwrites s.mem addr (data.take 64)
          clean := clearBit s.clean (addr / unitBytes) }
          { requester := deviceTraffic, line := addr / 1024, mask := 2 ^ (addr % 1024 / 128), write := true
            reader := .host }).emit (.memDone addr Status.ok 0)))

/-- BIRSP (R233): the host has given up a cacheline; with the last answer the HOST bit is cleared and the home goes
on. -/
def execBirsp (address : BitVec 44) (s : State) : Host.Outcome State Fault Refusal :=
  let addr := address.toNat / 64 * 64
  .next (match homeOwner s addr with
    | none => s
    | some p =>
      let a := addr / 1024
      if addr ∈ (s.line p a).awaitHost then
        let s := s.modLine p a (fun l => { l with awaitHost := l.awaitHost.filter (fun x => x ∉ backAnswered addr) })
        if !(s.line p a).awaitHost.isEmpty then s
        else
          let s := if (s.line p a).cur.isSome then answered s p a [] else s.modLine p a (fun l => { l with host := false })
          if unitLive s p then s else runDiscards s p
      else s)

/-- Whether a waiting request is the host's for a cacheline. -/
def isHostRequest (addr : Nat) : HomeRequest → Bool
  | .memRd x _ => x.toNat / 64 = addr / 64
  | .memWr x _ => x.toNat / 64 = addr / 64
  | _ => false

/-- BICONFLICT (R233): the host's own request for a cacheline under back-invalidation is handled first. -/
def execBiconflict (address : BitVec 44) (s : State) : Host.Outcome State Fault Refusal :=
  let addr := address.toNat / 64 * 64
  .next (match homeOwner s addr with
    | none => s
    | some p =>
      let a := addr / 1024
      if addr ∈ (s.line p a).awaitHost then
        match (s.line p a).waiting.find? (isHostRequest addr) with
        | none => s
        | some r =>
          if blocked s p a r then askFor s p a r
          else spendRead (finish (s.modLine p a (fun l => { l with waiting := l.waiting.erase r })) p a r []) p a
      else s)

/-- HOST_SNOOP (R369): the device holds no host line in a cacheable state. -/
def execHostSnoop (hpa : BitVec 52) (s : State) : Host.Outcome State Fault Refusal :=
  .next (hostAsks s (fun s => s.emit (.rspIHitI hpa.toNat)))

end Sys2Proof.Machine
end

