-- ==== Sys2Proof/Machine/Reset.lean ====
section
/-! DEFINITION. Reset and scrub of a partition (R420 to R422), and its destruction (R423). -/

namespace Sys2Proof.Machine

/-! ## Reset -/

/-- Steps 1 to 3 of R420: the partition stops accepting, its queued commands and transfers are squashed. -/
def beginReset (s : State) (p : Nat) : State :=
  let s := s.modPart p (fun q => { q with state := .resetting, resets := (q.resets + 1) % 2 ^ 32 })
  let s := if (s.part p).job.running then sendAbandon s p else s
  let s := discardLines s p
  let s := freeLedger s p (fun _ => true)
  let s := stopJob s p Detail.ptnReset
  let s := completeAll s (fun o => o.part = p && (match o.waits with
    | some .reset => false | some .destroy => false | _ => true)) Status.aborted Detail.ptnReset
  let s := s.modPart p (fun q => { q with copies := [], halted := false, scanned := false })
  let s := s.modFn (p + 1) (fun f => { f with readAhead := [] })
  { s with
    groups := s.groups.filter (fun g => g.2.part ≠ p)
    links := { s.links with ports := s.links.ports.map (fun x =>
      (x.1, { x.2 with sendItems := x.2.sendItems.filter (fun i =>
        !(i.item.srcDevice.toNat = ownNumber s && i.item.srcPartition.val = p)) })) } }

/-- Whether a CXL request of the partition is still on the link (R420 step 4). -/
def cxlBusy (s : State) (p : Nat) : Bool :=
  decide ((s.part p).ioOut ≠ 0) || s.hostFetch.any (fun h => h.1 = p && h.2.2.isNone) || s.hostCommit.any (fun h => h.1 = p)

/-- Host requests that wait at the partition's lines (Table PTN-9). -/
def hostWaiters (s : State) (p : Nat) : List (Nat × HomeRequest) :=
  (s.part p).cache.lines.flatMap (fun e => (e.2.waiting.filter (fun r => match r with
    | .memRd _ _ => true | .memWr _ _ => true | _ => false)).map (fun r => (e.1, r)))

/-- The granted units zero-written, ascending, and clean (Table PTN-8). -/
def scrubMemory (s : State) (p : Nat) : State :=
  (setBits (s.part p).record.mem 2048).foldl (fun s u =>
    { s with mem := mzero s.mem (u * unitBytes) unitBytes, clean := setBit s.clean u }) s

/-- Every scratchpad of the partition zeroed. -/
def scrubSpads (s : State) (p : Nat) : State :=
  (stallsOf s p).foldl (fun s i => { s with
    spad := mzero s.spad (i * spadBytes) spadBytes, spadOdd := s.spadOdd.filter (fun g => g / (spadBytes / 32) ≠ i) }) s

/-- Every entry of a session range made unused. -/
def scrubSessions (s : State) (base count : Nat) : State := { s with mem := mzero s.mem (sesTable + 64 * base) (64 * count) }

/-- What a reset keeps of a partition (R420): the record and its signature, the power mode and the HWIN entries. -/
def freshPart (q : Part) : Part :=
  { present := q.present, record := q.record, signature := q.signature, pitchLost := q.pitchLost, pitchOdd := q.pitchOdd, boost := q.boost
    state := .idle, resets := q.resets, hwin := q.hwin
    cache := { sliceList := q.cache.sliceList, deadTrap := q.cache.deadTrap }
    sec := { attests := q.sec.attests, unwrapFails := q.sec.unwrapFails }
    tally := { classes := q.tally.classes, sampleUs := q.tally.sampleUs, sampledAt := q.tally.sampledAt } }

/-- The partition number of a companion request that a reset left behind: its completion is dropped. -/
def noPartition : Nat := 64

/-- Steps 5 and 6 of R420. -/
def scrub (s : State) (p : Nat) : State :=
  let s := dropEvidence (purgeKeys s p 0xFF) p
  let s := scrubSessions (scrubSpads (wipeCache (scrubMemory s p) p) p) (s.part p).record.sesBase (s.part p).record.sesCount
  let s := s.modPart p freshPart
  let s := (stallsOf s p).foldl (fun s i => s.modStall i (fun x => { x with
    ledger := [], parts := [], badParts := [], repage := false
    cores := x.cores.map (fun c => (c.1, { regParity := c.2.regParity, l1Parity := c.2.l1Parity }))
    router := { bank := false, addEmpty := false, parityErrs := x.router.parityErrs }
    mxe := {}, mvu := {}, feederMxe := {}, feederMvu := {} })) s
  { s with
    hostFetch := s.hostFetch.filter (fun h => h.1 ≠ p)
    domains := s.domains.filter (fun d => d.1 / 4 ≠ p)
    noc := s.noc.filter (fun m => match m with
      | .toL1 _ q _ _ => q ≠ p | .toAgent _ q _ _ _ => q ≠ p | .toHome _ q _ _ _ => q ≠ p)
    sites := s.sites.map (fun (x : Nat × Site) => (x.1, { x.2 with
      pending := x.2.pending.map (fun q => if q.1 = p then (noPartition, q.2) else q)
      data := x.2.data.filter (fun d => d.1 ≠ p) })) }

/-- A partition that no longer exists (R423): its resources are released, its record and HWIN entries erased. -/
def release (s : State) (p : Nat) : State :=
  let r := (s.part p).record
  let stalls := stallsOf s p
  let s := { s with parts := tdel s.parts p }
  let s := stalls.foldl (fun s i => s.modStall i (fun x => { x with gate := if x.fenced then .off else .powerGated })) s
  (List.range 4).foldl (fun s e =>
    if grantedModules s e = 0 && r.streamMask.getD e 0 ≠ 0 then
      { s with edges := tmod s.edges e (fun x => { x with streams := 2 }) } else s) s

/-- Whether a PARTITION_DESTROY of the partition waits. -/
def destroyDue (s : State) (p : Nat) : Bool := s.outstanding.any (fun o => o.part = p && o.waits = some .destroy)

/-- The end of a reset: scrub, the requests that waited, the replies, and the destruction where one is due (R421 to
R423). -/
def finishReset (s : State) (p : Nat) : State :=
  let waiters := hostWaiters s p
  let s := scrub s p
  let s := waiters.foldl (fun s w => arrive s p w.1 w.2) s
  let s := completeAll s (fun o => o.part = p && o.waits = some .reset) Status.ok 0
  if destroyDue s p then
    completeAll (release s p) (fun o => o.part = p && o.waits = some .destroy) Status.ok 0
  else s

/-- A reset that waits for its CXL transfers goes on once none is left (R420). -/
def continueReset (s : State) (p : Nat) : State :=
  if (s.part p).state == .resetting && !cxlBusy s p then finishReset s p else s

/-- A reset of a partition: a second one joins the first (R422). -/
def resetPart (s : State) (p : Nat) : State :=
  if (s.part p).state == .resetting then s else continueReset (beginReset s p) p

end Sys2Proof.Machine
end

