-- ==== Sys2Proof/Machine/HostCommands.lean ====
section
/-! DEFINITION. Command packets of the host port that need no engine: NOP to QUEUE_STATUS, and pins (R237, R383, R387 to
R392). -/

namespace Sys2Proof.Machine

/-! ## NOP, GET_INFO, SET_REPLY_RING -/

/-- NOP (R387). -/
def execNop (src : PktSrc) (s : State) : Host.Outcome State Fault Refusal :=
  .next (runVoted s src (fun k => k.op = 0x0001) (fun _ s => .ok s))

/-- An ASCII field, zero padded. -/
def asciiField (n : Nat) (t : String) : List Byte := padTo n (ascii t)

/-- FUNCTION of the GET_INFO block. -/
def functionCode (p : ReplyPort) : Nat := match p with | .host fn => fn | .mgmt _ => 0xFF

/-- The enabled, unfenced stalls. -/
def openStalls (s : State) : Nat := ofBits ((List.range 64).filter (fun i => !isFenced s i))

/-- The GET_INFO block (Table HST-9). -/
def infoBlock (s : State) (k : Packet) : List Byte :=
  let vf := k.port.isVf
  let r := (s.part k.part).record
  let sites := (s.site 0).state % 4 + 4 * ((s.site 1).state % 4)
  let head := asciiField 16 "BXK-S64" ++ asciiField 16 (if s.fuses.orderingK then "BXK-S64-K" else "BXK-S64-A") ++
    natLe 1 0xB0 ++ natLe 1 (functionCode k.port) ++ natLe 2 (ownNumber s) ++ natLe 4 (if s.boot.stage == .recovery then 0xFFFFFFFF else s.boot.fwVersion) ++
    natLe 1 2 ++ natLe 1 s.hostRate ++ natLe 1 s.hostWidth ++ natLe 1 sites ++ natLe 4 4096
  let body := natLe 8 (if vf then r.stalls else openStalls s) ++ natLe 8 (if vf then 0 else ofBits (partsOf s)) ++
    natLe 8 (if vf then popCount r.mem 2048 * unitBytes else lsmTop) ++
    (if vf then natLe 4 r.sesBase ++ natLe 4 r.sesCount ++ natLe 1 r.timing ++ natLe 1 r.check ++ natLe 1 r.session ++
      natLe 1 (b2n (s.part k.part).boost) else [])
  padTo 256 (head ++ body)

/-- GET_INFO (R388, R389). -/
def execGetInfo (src : PktSrc) (s : State) : Host.Outcome State Fault Refusal :=
  .next (runVoted s src (fun k => k.op = 0x0002) (fun k s =>
    if outOk k (k.param64 0) then .reply s Status.ok 0 (k.param64 0) (infoBlock s k) else .param s))

/-- log2 of an N that SET_REPLY_RING takes. -/
def ringLog (n : Nat) : Option Nat := ((List.range 8).map (fun i => 13 + i)).find? (fun i => 2 ^ i = n)

/-- Whether another packet of the function is outstanding (R381): started and not replied, or committed in a slot of a
function that has a ring. -/
def otherOutstanding (s : State) (k : Packet) : Bool :=
  !(outstandingOf s k.port).isEmpty || (match k.port with
    | .host fn => hasRing s k && !(s.fn fn).order.isEmpty
    | .mgmt _ => false)

/-- What SET_REPLY_RING finds (R383): its refusal, or log2 of its N. -/
def ringCheck (s : State) (k : Packet) : Except (Nat × Nat) Nat :=
  match ringLog (k.param 2) with
  | none => .error (Status.badState, Detail.hstParam)
  | some n =>
    if k.param64 0 % 4096 ≠ 0 then .error (Status.badState, Detail.hstParam)
    else if !otherOutstanding s k then .ok n else .error (Status.badState, Detail.hstRingBusy)

/-- The new ring, its own reply as entry 0, then the events that waited. -/
def setRing (s : State) (k : Packet) (fn n : Nat) : State :=
  let events := (s.fn fn).waiting
  let s := s.modFn fn (fun f => { f with
    ringBase := k.param64 0, ringLog2 := n, producer := 0, head := 0, waiting := [] })
  events.foldl (fun s e => postEntry s fn e) (replyNow s k Status.ok 0 0 [])

/-- A SET_REPLY_RING that passes R380; a refusal is replied, or on a function with no ring kept in NORING_STATUS
(R384). -/
def runRing (s : State) (k : Packet) (fn : Nat) : State :=
  match ringCheck s k with
  | .ok n => setRing s k fn n
  | .error (st, d) => if hasRing s k then replyNow s k st d 0 [] else noRing s k st

/-- SET_REPLY_RING (R383, R384). -/
def execSetReplyRing (src : PktSrc) (s : State) : Host.Outcome State Fault Refusal :=
  .next (match packetAt s src with
    | none => s
    | some k =>
      if k.op ≠ 0x0003 || !mayStart s k then s
      else
        let s := wakeBy (freeSlot s src) (wakeCauseOf k)
        match checkPacket s k, k.port with
        | none, .host fn => runRing s k fn
        | none, .mgmt _ => s
        | some (st, d), _ => if hasRing s k then refusePacket s src k st d else noRing s k st)

/-- INVALID_OPCODE_PACKET (R380): no row of Table HST-8 has the opcode. -/
def execInvalidOpcodePacket (src : PktSrc) (s : State) : Host.Outcome State Fault Refusal :=
  .next (runVoted s src (fun k => k.row.isNone) (fun _ s => .say s Status.badOpcode 0))

/-! ## Engine queues -/

/-- QUEUE_SUBMIT (R390, R546). -/
def execQueueSubmit (src : PktSrc) (s : State) : Host.Outcome State Fault Refusal :=
  .next (runVoted s src (fun k => k.op = 0x0010) (fun k s =>
    let q := k.param 0
    let list := k.param64 1
    let units := k.param 3
    if q ≥ 5 || !isVa list || list % 64 ≠ 0 || units = 0 || units > 65536 then .param s
    else if (s.queue k.part q).lists.length ≥ 64 then .say s Status.noResource Detail.hstQueueFull
    else .say (s.modQueue k.part q (fun x => { x with lists := x.lists ++ [{ address := list, units := units }] }))
      Status.accepted 0))

/-- Whether the head entry of a queue is in progress, so that HALT waits for its end (R391). -/
def queueRuns (s : State) (p k : Nat) : Bool :=
  if k = 3 then (s.part p).ses.stepping || !(s.part p).ses.remainder.isEmpty else (s.queue p k).inProgress

/-- HALT or FLUSH on a mask: queues that are not in progress halt at once. -/
def haltQueues (s : State) (p mask : Nat) : State :=
  (setBits mask 5).foldl (fun s k => if queueRuns s p k then s else
    s.modQueue p k (fun q => { q with halted := true, byLease := false })) s

/-- The replies of QUEUE_HALTs whose queues have all halted, of every partition. -/
def settleAllHalts (s : State) : State := (List.range 64).foldl settleHalts s

/-- Whether QUEUE_HALT's parameters are in range. -/
def haltParams (k : Packet) : Bool := decide (k.param 0 < 32) && decide (k.param 1 ≤ 2)

/-- QUEUE_HALT with ACTION HALT, and every ACTION out of range (R391). -/
def execQueueHalt (src : PktSrc) (s : State) : Host.Outcome State Fault Refusal :=
  .next (settleAllHalts (runVoted s src (fun k => k.op = 0x0011 && k.param 1 ≠ 1 && k.param 1 ≠ 2) (fun k s =>
    if haltParams k then .wait (haltQueues s k.part (k.param 0)) (.queueHalt (k.param 0) false) else .param s)))

/-- QUEUE_HALT with ACTION FLUSH (R391). -/
def execQueueFlush (src : PktSrc) (s : State) : Host.Outcome State Fault Refusal :=
  .next (settleAllHalts (runVoted s src (fun k => k.op = 0x0011 && k.param 1 = 2) (fun k s =>
    if haltParams k then .wait (haltQueues s k.part (k.param 0)) (.queueHalt (k.param 0) true) else .param s)))

/-- 64 bytes of the partition's memory in the committed view, as a queue engine reads them (R390, R548). -/
def readUnit (s : State) (p va : Nat) : Except Nat (List Byte) :=
  match translate s p (va % 2 ^ 48) false with
  | .error d => .error d
  | .ok t =>
    match localPhys s t with
    | none => .error Detail.ptnPteRange
    | some a => match regionOf a with
      | .lsm => .ok (readCommitted s a 64)
      | .spad i o => .ok ((List.range 64).map (fun j => spadRead s i (o + j)))
      | _ => .error Detail.ptnPteRange

/-- The first 64 bytes of the head entry of a queue. -/
def headUnit (s : State) (p k : Nat) : Except Nat (List Byte) :=
  match (s.queue p k).lists with
  | [] => .error 0
  | l :: _ => readUnit s p (l.address + 64 * (s.queue p k).unit)

/-- Whether the head entry waits for a job (R397). -/
def waitsForJob (s : State) (p k : Nat) : Bool :=
  !(s.part p).job.running && k ≠ 2 && !(s.queue p k).lists.isEmpty &&
    !(k = 0 && (match headUnit s p k with | .ok bs => decide (field bs 0 2 = 1) || decide (field bs 0 2 = 2) | .error _ => true))

/-- STATE of Table HST-10. -/
def queueState (s : State) (p k : Nat) : Nat :=
  let q := s.queue p k
  if q.halted then (if q.failed then 3 else 2)
  else if q.lists.isEmpty then 0 else if waitsForJob s p k then 4 else 1

/-- The queue status block (Table HST-10). -/
def queueBlock (s : State) (p k : Nat) : List Byte :=
  let q := s.queue p k
  padTo 64 (natLe 1 (queueState s p k) ++ natLe 1 q.lists.length ++ natLe 2 0 ++ natLe 4 q.unit ++
    natLe 8 (match q.lists with | [] => 0 | l :: _ => l.address) ++ natLe 1 q.lastStatus ++ natLe 3 q.lastDetail ++
    natLe 4 0 ++ natLe 8 q.completed)

/-- QUEUE_STATUS (R392). -/
def execQueueStatus (src : PktSrc) (s : State) : Host.Outcome State Fault Refusal :=
  .next (runVoted s src (fun k => k.op = 0x0012) (fun k s =>
    if k.param 0 ≥ 5 || !outOk k (k.param64 1) then .param s
    else .reply s Status.ok (queueState s k.part (k.param 0)) (k.param64 1) (queueBlock s k.part (k.param 0))))

/-! ## Pins and discards -/

/-- Whether PIN_LINES, UNPIN_LINES and DISCARD_LINES parameters are in range (Table HST-8, R546). -/
def lineParams (k : Packet) : Bool :=
  let va := k.param64 0
  let n := k.param64 2
  isVa va && decide (va % 1024 = 0) && decide (n ≠ 0) && decide (n % 1024 = 0) && decide (va + n ≤ 2 ^ 48)

/-- The LSM line of a partition's virtual address within its grants, if it is one (R237). -/
def grantLine (s : State) (p va : Nat) : Option Nat :=
  match translate s p va false with
  | .error _ => none
  | .ok t => (localPhys s t).bind (fun a => if granted s p a then some (a / 1024) else none)

/-- Every line of a virtual range, or none where the range leaves the grants. -/
def grantLines (s : State) (p va : Nat) : Nat → Option (List Nat)
  | 0 => some []
  | n + 1 =>
    match grantLine s p va, grantLines s p (va + 1024) n with
    | some a, some as => some (a :: as)
    | _, _ => none

/-- Whether a partition's slice list is empty, so that its accesses to LSM fail (R217). -/
def homeless (s : State) (p : Nat) : Bool := (s.part p).cache.sliceList.isEmpty

/-- PIN_LINES (R237, R217): of several refusals that apply, the range's counts first, then that the partition has no home, then
the ways', then the quota's (DESIGN CHOICE, log entry 174). -/
def execPinLines (src : PktSrc) (s : State) : Host.Outcome State Fault Refusal :=
  .next (runVoted s src (fun k => k.op = 0x0022) (fun k s =>
    if !lineParams k then .param s
    else match grantLines s k.part (k.param64 0) (k.param64 2 / 1024) with
      | none => .say s Status.badAddress Detail.uccPinRange
      | some as =>
        let fresh := as.eraseDups.filter (fun a => !(s.line k.part a).pinned)
        if homeless s k.part then .say s Status.partitionFault Detail.uccNoHome
        else if pinWaysBad s k.part fresh then .say s Status.pinLimit Detail.uccPinWays
        else if pinnedCount s k.part + fresh.length > (s.part k.part).record.pinQuota then
          .say s Status.pinLimit Detail.uccPinQuota
        else .ok (fresh.foldl (fun s a => pinLine s k.part a) s)))

/-- UNPIN_LINES (R237). -/
def execUnpinLines (src : PktSrc) (s : State) : Host.Outcome State Fault Refusal :=
  .next (runVoted s src (fun k => k.op = 0x0023) (fun k s =>
    if !lineParams k then .param s
    else match grantLines s k.part (k.param64 0) (k.param64 2 / 1024) with
      | none => .say s Status.badAddress Detail.uccPinRange
      | some as => .ok (as.foldl (fun s a => unpinLine s k.part a) s)))

/-- Deferred DISCARD_LINES act where no unit of their partition is in progress (R231). -/
def settleDiscards (s : State) : State := (List.range 64).foldl (fun s p => if unitLive s p then s else runDiscards s p) s

/-- DISCARD_LINES (R231): the lines are those the range names when the command starts. -/
def execDiscardLines (src : PktSrc) (s : State) : Host.Outcome State Fault Refusal :=
  .next (settleDiscards (runVoted s src (fun k => k.op = 0x0024) (fun k s =>
    if !lineParams k then .param s
    else match grantLines s k.part (k.param64 0) (k.param64 2 / 1024) with
      | none => .say s Status.badAddress Detail.uccPinRange
      | some as => if homeless s k.part then .say s Status.partitionFault Detail.uccNoHome else .wait s (.discardLines as))))

end Sys2Proof.Machine
end

