-- ==== Sys2Proof/Machine/PartitionCommands.lean ====
section
/-! DEFINITION. PARTITION_CREATE (R407 to R410), PARTITION_DESTROY and PARTITION_RESET (R420, R423) and
DIRTY_LOG_CONTROL (R424). -/

namespace Sys2Proof.Machine

/-! ## Creation -/

/-- The pitch record that 512 bytes spell (Table PTN-1). -/
def recordOf (bs : List Byte) : PitchRecord :=
  { stalls := field bs 0 8, root := field bs 8 8, timing := field bs 16 1, check := field bs 17 1
    session := field bs 18 1, memWeight := field bs 19 1, stageWays := field bs 20 1, powerShare := field bs 21 1
    zlPorts := field bs 22 2, stageQuota := field bs 24 4, pinQuota := field bs 28 4, sesBase := field bs 32 4
    sesCount := field bs 36 4, streamMask := (List.range 4).map (fun e => field bs (40 + e) 1)
    companion := field bs 44 1, mem := field bs 64 256, raw := bs }

/-- Whether a field of a record is out of range or a reserved field nonzero (Table PTN-1). -/
def recordFieldBad (r : PitchRecord) : Bool :=
  decide (r.stalls = 0) || decide (2 ^ 44 ≤ r.root) || decide (r.root % 4096 ≠ 0) ||
    !decide (r.timing = 1 ∨ r.timing = 2) || !decide (r.check = 1 ∨ r.check = 2) ||
    !decide (r.session = 1 ∨ r.session = 2) || decide (r.memWeight = 0) || decide (r.powerShare = 0) ||
    decide (4096 ≤ r.zlPorts) || decide (4194304 < r.sesBase + r.sesCount) || decide (4 ≤ r.companion) ||
    decide (field r.raw 45 19 ≠ 0) || decide (field r.raw 320 192 ≠ 0) || bit r.mem 2047

/-- The refusal of a mode combination (R33, Table ORG-9), lowest code first. -/
def modeRefusal (r : PitchRecord) : Option Nat :=
  if r.session ≠ 1 then none
  else if r.timing ≠ 1 then some Detail.modeWcetNotLockstep
  else if popCount r.stalls 64 > 16 then some Detail.modeWcetTooLarge
  else if r.zlPorts ≠ 0 then some Detail.modeWcetLinked
  else none

/-- The lowest module a stream mask names, or 8. -/
def lowestModule (m : Nat) : Nat := ((setBits m 8).head?).getD 8

/-- W_min − 4 of the listed slices. -/
def stageTop (s : State) (stalls : Nat) : Nat :=
  ((setBits stalls 64).map (fun i => waysOf s i)).foldl Nat.min 16 - 4

/-- Whether two session ranges overlap. -/
def rangesMeet (b n b' n' : Nat) : Bool := decide (n ≠ 0 ∧ n' ≠ 0 ∧ b < b' + n' ∧ b' < b + n)

/-- The number a REQUEST asks for: none where 0x7F finds none free. -/
def requestedPart (s : State) (req : Nat) : Option Nat :=
  if req = 0x7F then (List.range 64).find? (fun p => !(s.part p).present) else some req

/-- Whether a stall is queued or running in BIST (R512, R523). -/
def inBist (s : State) (i : Nat) : Bool := s.bistQueue.any (fun g => decide (i ∈ g.stalls))

/-- Whether the update buffer is one of a record's memory units (R503). -/
def updateHolds (s : State) (mem : Nat) : Bool := match s.boot.update with | some (_, u) => bit mem u | none => false

/-- The first check of Table PTN-2 that fails. -/
def createCheck (s : State) (w0 : Nat) (r : PitchRecord) : Option (Nat × Nat) :=
  let req := w0 % 128
  let others := partsOf s
  let n := popCount r.stalls 64
  let top := stageTop s r.stalls
  firstFail
    [(decide (req < 64) && (s.part req).present, Status.busy, Detail.ptnExists),
     (decide (req = 0x7F) && (requestedPart s req).isNone, Status.noResource, Detail.ptnNoneFree),
     ((decide (64 ≤ req) && decide (req < 0x7F)) || decide (128 ≤ w0) || recordFieldBad r, Status.badState, Detail.ptnField),
     ((modeRefusal r).isSome, Status.badState, (modeRefusal r).getD 0),
     ((setBits r.stalls 64).any (fun i => isFenced s i || (ownerOfStall s i).isSome || inBist s i), Status.busy, Detail.ptnStall),
     (others.any (fun p => Nat.land (s.part p).record.mem r.mem ≠ 0) || updateHolds s r.mem, Status.busy, Detail.ptnMemory),
     (others.any (fun p => rangesMeet r.sesBase r.sesCount (s.part p).record.sesBase (s.part p).record.sesCount),
       Status.busy, Detail.ptnSession),
     (others.any (fun p => Nat.land (s.part p).record.zlPorts r.zlPorts ≠ 0), Status.busy, Detail.ptnPort),
     ((List.range 4).any (fun e => Nat.land (grantedModules s e) (recordModules r e) ≠ 0), Status.busy, Detail.ptnModule),
     ((List.range 4).any (fun e => lowestModule (recordModules r e) < 2), Status.noResource, Detail.splitLimit),
     ((setBits r.companion 2).any (fun c => (s.site c).state ≠ 1 || others.any (fun p => bit (s.part p).record.companion c)),
       Status.busy, Detail.ptnCompanion),
     (decide (top < r.stageWays) || decide (n * 1536 * top < r.stageQuota) || decide (n * 1536 * top < r.pinQuota),
       Status.badState, Detail.ptnQuota),
     (!bit r.mem (r.root / unitBytes), Status.badAddress, Detail.ptnRoot)]

/-- Fabric modules of the compute edges become stream modules until every module named is one (R21, R408). -/
def convertModules (s : State) (r : PitchRecord) : State :=
  (List.range 4).foldl (fun s e =>
    let m := recordModules r e
    if m = 0 then s
    else { s with edges := tmod s.edges e (fun x => { x with streams := Nat.max (edgeS s e) (8 - lowestModule m) }) }) s

/-- The granted units that are not clean are zero-written (R410). -/
def zeroUnits (s : State) (mem : Nat) : State :=
  (setBits mem 2048).foldl (fun s u =>
    { s with
      mem := if bit s.clean u then s.mem else mzero s.mem (u * unitBytes) unitBytes
      clean := clearBit s.clean u }) s

/-- A partition that passed every check is created (R410). -/
def createPart (s : State) (p : Nat) (r : PitchRecord) : State :=
  let hwin := (s.part p).hwin
  let s := { s with parts := tset s.parts p { present := true, record := r, state := .idle, hwin := hwin } }
  let s := convertModules s r
  let s := s.modPart p (fun q => { q with cache := { q.cache with sliceList := setBits r.stalls 64 } })
  let s := sign s p
  let s := scrubSessions (zeroUnits s r.mem) r.sesBase r.sesCount
  (setBits r.stalls 64).foldl (fun s i =>
    (s.modStall i (fun x => { x with gate := .clockGated }))) (scrubSpads s p)

/-- PARTITION_CREATE (R407 to R410). -/
def execPartitionCreate (src : PktSrc) (s : State) : Host.Outcome State Fault Refusal :=
  .next (runVoted s src (fun k => k.op = 0x0040) (fun k s =>
    let r := recordOf (padTo 512 (k.paramBytes 1))
    match createCheck s (k.param 0) r with
    | some (st, d) => .say s st d
    | none =>
      match requestedPart s (k.param 0 % 128) with
      | none => .say s Status.noResource Detail.ptnNoneFree
      | some p => .say (createPart s p r) Status.ok p))

/-! ## Reset and destruction -/

/-- Resets of every partition that have drained their transfers end. -/
def settleResets (s : State) : State := (List.range 64).foldl continueReset s

/-- A reset begins, or joins the one that runs (R422). -/
def startReset (s : State) (p : Nat) : State := if (s.part p).state == .resetting then s else beginReset s p

/-- PARTITION_RESET (R420 to R422). -/
def execPartitionReset (src : PktSrc) (s : State) : Host.Outcome State Fault Refusal :=
  .next (settleResets (runVoted s src (fun k => k.op = 0x0042) (fun k s => .wait (startReset s k.part) .reset)))

/-- PARTITION_DESTROY (R423). -/
def execPartitionDestroy (src : PktSrc) (s : State) : Host.Outcome State Fault Refusal :=
  .next (settleResets (runVoted s src (fun k => k.op = 0x0041) (fun k s => .wait (startReset s k.part) .destroy)))

/-! ## Dirty logging -/

/-- Whether DIRTY_LOG_CONTROL's first word is in range. -/
def logWordOk (k : Packet) : Bool := decide (k.param 0 % 4 ≤ 2) && decide (k.param 0 < 8)
/-- The action of DIRTY_LOG_CONTROL. -/
def logAction (k : Packet) : Nat := k.param 0 % 4
/-- Whether the space is the host's. -/
def logHostSpace (k : Packet) : Bool := !bit (k.param 0) 2
/-- The page of a space. -/
def logPage (host : Bool) : Nat := if host then 4096 else 65536

/-- Every partition's COLLECTs and STOPs that may act do. -/
def settleAllLogs (s : State) : State := (List.range 64).foldl settleLogs s

/-- DIRTY_LOG_CONTROL with ACTION START, and every word 0 out of range (R424). -/
def execDirtyLogStart (src : PktSrc) (s : State) : Host.Outcome State Fault Refusal :=
  .next (runVoted s src (fun k => k.op = 0x0044 && (!logWordOk k || logAction k = 1)) (fun k s =>
    let h := logHostSpace k
    let base := k.param64 3
    let bytes := k.param64 5
    if !logWordOk k then .param s
    else if (logOf s k.part h).isSome || k.param64 1 % 64 ≠ 0 || base % logPage h ≠ 0 || bytes % logPage h ≠ 0 then
      .say s Status.badState Detail.ptnLogField
    else .ok (setLog s k.part h (some { bitmap := k.param64 1, base := base, bytes := bytes }))))

/-- DIRTY_LOG_CONTROL with ACTION COLLECT (R424, R425). -/
def execDirtyLogCollect (src : PktSrc) (s : State) : Host.Outcome State Fault Refusal :=
  .next (settleAllLogs (runVoted s src (fun k => k.op = 0x0044 && logWordOk k && logAction k = 2) (fun k s =>
    if (logOf s k.part (logHostSpace k)).isNone || k.param64 1 % 64 ≠ 0 then .say s Status.badState Detail.ptnLogField
    else .wait s (.collect (logHostSpace k) (k.param64 1)))))

/-- DIRTY_LOG_CONTROL with ACTION STOP (R424, R425). -/
def execDirtyLogStop (src : PktSrc) (s : State) : Host.Outcome State Fault Refusal :=
  .next (settleAllLogs (runVoted s src (fun k => k.op = 0x0044 && logWordOk k && logAction k = 0) (fun k s =>
    if (logOf s k.part (logHostSpace k)).isNone then .say s Status.badState Detail.ptnLogField
    else .wait s (.logStop (logHostSpace k)))))

end Sys2Proof.Machine
end

