-- ==== Sys2Proof/Machine/HostPort.lean ====
section
/-! DEFINITION. What the host does to slots, registers, the data port and the functions' resets (R370 to R402). -/

namespace Sys2Proof.Machine

/-! ## Slots -/

/-- A 32-bit word with bytes laid over it. -/
def wordLay (w : W32) (o : Nat) (b : Byte) : W32 :=
  BitVec.ofNat 32 (leNat (((natLe 4 w.toNat).zipIdx).map (fun e => if e.2 = o then b else e.1)))

/-- The slot's words with bytes written from an offset. -/
def slotLay (ws : Tbl W32) (offset : Nat) (data : List Byte) : Tbl W32 :=
  data.zipIdx.foldl (fun ws e =>
    let o := offset + e.2
    if o < 4096 then tmod ws (o / 4) (fun w => wordLay w (o % 4) e.1) else ws) ws

/-- SLOT_WRITE (R377, R378): the first write that covers a byte of word 0 commits the packet; a slot that is not free
ignores writes, and one to word 0 sets OVERRUN. -/
def execSlotWrite (fn : Fin 65) (k : Fin 8) (offset : BitVec 12) (data : List Byte) (s : State) :
    Host.Outcome State Fault Refusal :=
  let covers := decide (offset.toNat < 4) && !data.isEmpty
  .next (hostAsks s (fun s =>
    let sl := tget (s.fn fn).slots k
    if sl.committed then (if covers then s.modFn fn (fun f => { f with overrun := true }) else s)
    else s.modFn fn (fun f => { f with
      slots := tset f.slots k { words := slotLay sl.words offset.toNat data, committed := covers, after := f.dpWrites }
      order := if covers then f.order ++ [k.val] else f.order })))

/-! ## Registers -/

/-- VF_STATUS bits that a write of 1 clears. -/
def clearStatus (f : FnState) (v : Nat) : FnState :=
  { f with
    overrun := f.overrun && !bit v 11
    dpErr := f.dpErr && !bit v 12
    eventsLost := f.eventsLost && !bit v 13
    hwinRefused := f.hwinRefused && !bit v 15 }

/-- One word of the MSI-X table written; a vector that is unmasked with its pending bit set sends its message (R401). -/
def msixWrite (s : State) (fn w : Nat) (v : W32) : State :=
  let s := s.modFn fn (fun f => { f with msixTable := tset f.msixTable w v })
  let vec := w / 4
  if w % 4 = 3 && v.toNat % 2 = 0 && (s.fn fn).msixPending.getLsbD vec then
    (s.modFn fn (fun f => { f with msixPending := f.msixPending &&& ~~~ (BitVec.ofNat 8 (2 ^ vec)) })).emit (.msix fn vec)
  else s

/-- One 32-bit word of BAR0 written. -/
def bar0Write (s : State) (fn offset : Nat) (v : W32) : State :=
  if offset = 0 then s.modFn fn (fun f => clearStatus f v.toNat)
  else if 0x800 ≤ offset ∧ offset < 0x880 then msixWrite s fn ((offset - 0x800) / 4) v
  else s

/-- The words of a register access: offset and value. -/
def accessWords (offset : Nat) (wide : Bool) (value : W64) : List (Nat × W32) :=
  (offset, value.setWidth 32) :: (if wide then [(offset + 4, BitVec.ofNat 32 (value.toNat / 2 ^ 32))] else [])

/-- REGISTER_WRITE (R372, R373): aligned accesses of 4 or 8 bytes; a register without write access, and the PF0 window,
ignore it. PF0 BAR4 keeps what is written (log entry 17). -/
def execRegisterWrite (fn : Fin 65) (bar : Bar) (offset : BitVec 28) (wide : Bool) (value : W64) (s : State) :
    Host.Outcome State Fault Refusal :=
  let o := offset.toNat
  .next (hostAsks s (fun s =>
    if o % (if wide then 8 else 4) ≠ 0 then s
    else match bar with
      | .bar0 => (accessWords o wide value).foldl (fun s w => bar0Write s fn w.1 w.2) s
      | .bar2 => s
      | .bar4 =>
        if fn = 0 && o < 65536 then
          s.modFn 0 (fun f => { f with cxlRegs := (accessWords o wide value).foldl (fun t w => tset t (w.1 / 4) w.2) f.cxlRegs })
        else s))

/-- RING_HEAD_WRITE (R383): ignored where (P − HEAD) mod 2^32 would exceed N; otherwise waiting entries are written
while they have room. -/
def execRingHeadWrite (fn : Fin 65) (value : W64) (s : State) : Host.Outcome State Fault Refusal :=
  let head := value.toNat % 2 ^ 32
  .next (hostAsks s (fun s =>
    let f := s.fn fn
    if (f.producer + 2 ^ 32 - head) % 2 ^ 32 > ringSize f then s
    else
      let s := s.modFn fn (fun f => { f with head := head })
      drainRing fn (s.fn fn).waiting s))

/-- The causes whose mask a write clears while they are set. -/
def unmasked (f : FnState) (mask : BitVec 4) : List Nat :=
  (List.range 4).filter (fun i => f.intMask.getLsbD i && !mask.getLsbD i && f.intCause.getLsbD i)

/-- INT_CTRL_WRITE (R401). -/
def execIntCtrlWrite (fn : Fin 65) (value : W64) (s : State) : Host.Outcome State Fault Refusal :=
  .next (hostAsks s (fun s =>
    let v := value.toNat
    let mask := BitVec.ofNat 4 v
    let due := unmasked (s.fn fn) mask
    let s := s.modFn fn (fun f => { f with
      intMask := mask, vecReply := BitVec.ofNat 3 (v / 2 ^ 8), vecEvent := BitVec.ofNat 3 (v / 2 ^ 12)
      vecStall := BitVec.ofNat 3 (v / 2 ^ 16), vecDp := BitVec.ofNat 3 (v / 2 ^ 20) })
    due.foldl (fun s i => sendMsix s fn (vectorOf (s.fn fn) i)) s))

/-- INT_CAUSE_WRITE (R401). -/
def execIntCauseWrite (fn : Fin 65) (value : W64) (s : State) : Host.Outcome State Fault Refusal :=
  .next (hostAsks s (fun s => s.modFn fn (fun f => { f with intCause := f.intCause &&& ~~~ (value.setWidth 4) })))

/-! ## Host-window entries -/

/-- Whether two enabled entries' ranges overlap. -/
def hwinMeet (a b : Hwin) : Bool :=
  rangesMeet a.offset.toNat a.size.toNat b.offset.toNat b.size.toNat

/-- Whether an entry's range overlaps an enabled entry of any partition, itself apart. -/
def hwinOverlaps (s : State) (p r : Nat) (e : Hwin) : Bool :=
  (List.range 64).any (fun q => (List.range 8).any (fun i =>
    !(q = p && i = r) && (tget (s.part q).hwin i).enable && hwinMeet e (tget (s.part q).hwin i)))

/-- The entry after a write of HWIN_WIN or HWIN_HOST (R375). A SIZE above the range that the field's description gives, 1,048,576,
is kept and maps as written (DESIGN CHOICE, log entry 184). -/
def hwinApply (e : Hwin) (host : Bool) (v : Nat) : Hwin :=
  if host then { e with size := BitVec.ofNat 21 v, hpa := BitVec.ofNat 31 (v / 2 ^ 21) }
  else { e with enable := bit v 0, offset := BitVec.ofNat 20 (v / 2 ^ 21) }

/-- HWIN_WRITE (R375). -/
def execHwinWrite (p : Fin 64) (r : Fin 8) (host : Bool) (value : W64) (s : State) : Host.Outcome State Fault Refusal :=
  .next (hostAsks s (fun s =>
    let e := tget (s.part p).hwin r
    let e' := hwinApply e host value.toNat
    if (s.part p).job.running || (host && e.enable && e' ≠ e) || (!host && e'.enable && hwinOverlaps s p r e') then
      s.modFn 0 (fun f => { f with hwinRefused := true })
    else s.modPart p (fun q => { q with hwin := tset q.hwin r e' })))

/-! ## The data port (R398 to R400) -/

/-- DP_ADDR_WRITE (R399): the data port drops its cached translations (R413). -/
def execDpAddrWrite (p : Fin 64) (value : W64) (s : State) : Host.Outcome State Fault Refusal :=
  .next (hostAsks s (fun s =>
    (s.modFn (p + 1) (fun f => { f with dpAddr := value.setWidth 48, readAhead := [] })).modPart p (fun q => { q with
      cached := { q.cached with dataPort := [] } })))

/-- DP_CTRL_WRITE (R398, R399). -/
def execDpCtrlWrite (p : Fin 64) (value : W64) (s : State) : Host.Outcome State Fault Refusal :=
  let f3 := bits value.toNat 3 1
  .next (hostAsks s (fun s => s.modFn (p + 1) (fun f => { f with
    dpHold := bit value.toNat 0, dpPrefetch := if f3 ≤ 4 then BitVec.ofNat 3 f3 else f.dpPrefetch, readAhead := [] })))

/-- A data-port line part fails at an address (R400). -/
def dpFail (s : State) (p va : Nat) (write : Bool) : State :=
  let f := s.fn (p + 1)
  if f.dpErr then s
  else raiseCause (s.modFn (p + 1) (fun f => { f with
    dpErr := true, dpErrAddr := BitVec.ofNat 48 va, dpErrWrite := write })) (p + 1) 3

/-- Where a data-port byte address leads: the partition's LSM grants or its own scratchpads. -/
def dpReach (s : State) (p va : Nat) (write : Bool) : Except Nat Nat :=
  match translateFor s .dataPort p va write with
  | .error d => .error d
  | .ok t => match localPhys s t with
    | none => .error 0
    | some a => match regionOf a with
      | .lsm => if granted s p a && !(write && inHeldImage s a) && (homeOf s p (a / 1024)).isSome then .ok a else .error 0
      | .spad i _ => if bit (s.part p).record.stalls i then .ok a else .error 0
      | _ => .error 0

/-- A translation fault of the data port is recorded with AGENT 4. -/
def dpNote (s : State) (p va d : Nat) (write : Bool) : State := if d = 0 then s else recordFault s p va (d % 256) 4 write

/-- One line part of a data-port write: its enabled bytes by offset. -/
def dpWritePart (s : State) (p va : Nat) (bytes : List (Option Byte)) : State :=
  match dpReach s p (va % 2 ^ 48) true with
  | .error d => dpFail (dpNote s p va d true) p va true
  | .ok a =>
    let cells := bytes.zipIdx.filterMap (fun e => e.1.map (fun b => (e.2, b)))
    match regionOf a with
    | .spad i o => cells.foldl (fun s c => spadPut s i (o + c.1) [c.2]) s
    | _ => arrive s p (a / 1024) (.port va (cells.map (fun c => (Fin.ofNat 1024 (a % 1024 + c.1), c.2))))

/-- The access from its first enabled byte to its last. -/
def dpSpan (data : List (Option Byte)) : List (Option Byte) :=
  ((data.dropWhile (fun b => b.isNone)).reverse.dropWhile (fun b => b.isNone)).reverse

/-- DP_ADDR moves past an access's span. -/
def dpAdvance (s : State) (p n : Nat) : State :=
  s.modFn (p + 1) (fun f => { f with dpAddr := if f.dpHold then f.dpAddr else f.dpAddr + BitVec.ofNat 48 n })

/-- A data-port write is performed: every line part in turn; during a reset it is dropped (R400). -/
def dpWriteAll (s : State) (p va : Nat) (span : List (Option Byte)) : State :=
  let s := s.modFn (p + 1) (fun f => { f with readAhead := [] })
  if (s.part p).state == .resetting then s
  else (lineParts va 2 span.length).foldl (fun s x =>
    if (s.part p).present then dpWritePart s p x.1 ((span.drop (x.1 - va)).take x.2) else dpFail s p x.1 true) s

/-- One committed byte at a reachable device address. -/
def dpByte (s : State) (a : Nat) : Byte :=
  match regionOf a with
  | .spad i o => spadRead s i o
  | _ => ((readCommitted s a 1).head?).getD 0

/-- What one line part of a read waits for of memory: its line and the bursts, none where read-ahead holds it or it fails. -/
def dpOut (s : State) (p va n : Nat) : Option (Nat × Nat) :=
  match dpReach s p (va % 2 ^ 48) false with
  | .error _ => none
  | .ok a =>
    let m := outsideOut s p (a / 1024) (a % 1024) n false
    if lsmTop ≤ a || m = 0 || (List.range n).all (fun i => (oget (s.fn (p + 1)).readAhead (va + i)).isSome) then none
    else some (a / 1024, m)

/-- The bytes of one line part of a read, read-ahead first; none where it fails, as where memory does (R285, R400). -/
def dpReadPart (s : State) (p va n : Nat) : State × List Byte :=
  match dpReach s p (va % 2 ^ 48) false with
  | .error d => (dpFail (dpNote s p va d false) p va false, List.replicate n 0xFF)
  | .ok a =>
    let ahead := (s.fn (p + 1)).readAhead
    if lsmTop ≤ a then (checkSpadAt s p a n, (List.range n).map (fun i => (oget ahead (va + i)).getD (dpByte s (a + i))))
    else
      let t := spendRead (access s p (a / 1024) .dataPort (if kvAt s p (a / 1024) (va % 2 ^ 48) then clsKv else clsHostIo) .fetch) p (a / 1024)
      if outsideBad s p (a / 1024) (a % 1024) n then (dpFail t p va false, List.replicate n 0xFF)
      else (t, (List.range n).map (fun i => (oget ahead (va + i)).getD (dpByte s (a + i))))

/-- Bytes of read-ahead. -/
def aheadBytes (f : FnState) : Nat := match f.dpPrefetch.toNat with | 0 => 0 | 1 => 1024 | 2 => 4096 | 3 => 16384 | _ => 65536

/-- The read-ahead after an access: committed bytes from DP_ADDR on, where they can be reached. -/
def fillAhead (s : State) (p : Nat) : State :=
  let f := s.fn (p + 1)
  let va := f.dpAddr.toNat
  let cells := (List.range (aheadBytes f)).filterMap (fun i =>
    match oget f.readAhead (va + i), dpReach s p ((va + i) % 2 ^ 48) false with
    | some b, _ => some (va + i, b)
    | none, .ok a => some (va + i, dpByte s a)
    | none, .error _ => none)
  s.modFn (p + 1) (fun f => { f with readAhead := cells })

/-- Every line part of a read in turn. -/
def dpReadAll (s : State) (p : Nat) : List (Nat × Nat) → State × List Byte
  | [] => (s, [])
  | x :: r =>
    let (s, bs) := dpReadPart s p x.1 x.2
    let (s, rest) := dpReadAll s p r
    (s, bs ++ rest)

/-- A data-port read of `count` bytes from an address is answered. -/
def dpAnswer (s : State) (p va count : Nat) : State :=
  let (s, bs) := dpReadAll s p (lineParts va 2 count)
  (fillAhead s p).emit (.readData bs)

/-- The home of a line part looks its line up (R239). -/
def dpLookUp (s : State) (p va : Nat) : State :=
  match dpReach s p (va % 2 ^ 48) false with
  | .ok a => if a < lsmTop then lookUp s p (a / 1024) else s
  | .error _ => s

/-- Whether a data-port read may be answered now: the state with its homes looked up, and the bursts it still lacks; while a
commit of the partition is in progress it waits (R249, R268). -/
def dpLacks (s : State) (p va count : Nat) : State × List (Nat × Nat) :=
  let parts := lineParts va 2 count
  let s := parts.foldl (fun s y => dpLookUp s p y.1) s
  (s, parts.filterMap (fun y => dpOut s p y.1 y.2))

/-- A data-port read where no memory answers: all ones, during a reset without DP_ERR, and with it where the partition does
not exist (R400). -/
def dpOnes (s : State) (p va count : Nat) : State :=
  let s := if (s.part p).state == .resetting then s else (lineParts va 2 count).foldl (fun s x => dpFail s p x.1 false) s
  s.emit (.readData (List.replicate count 0xFF))

/-- Data-port accesses that have arrived are performed in order, up to the first that must wait: for a write at its home, a
commit, or memory, which is asked (R249, R268, R399); `k` bounds how many. -/
def dpNext (p : Nat) : Nat → State → State
  | 0, s => s
  | k + 1, s =>
    if !portIdle s p then s
    else match (s.fn (p + 1)).dpHeld with
    | [] => s
    | x :: r =>
      let rest := fun (s : State) => s.modFn (p + 1) (fun f => { f with dpHeld := r })
      match x with
      | .addr va => dpNext p k ((rest s).emit (.readData (natLe 8 va)))
      | .write va span => dpNext p k (dpWriteAll (rest s) p va span)
      | .read va count =>
        if !(s.part p).present || (s.part p).state == .resetting then dpNext p k (dpOnes (rest s) p va count)
        else
          let (s, due) := dpLacks s p va count
          if readsWait s p then s
          else if due.isEmpty then dpNext p k (dpAnswer (rest s) p va count)
          else due.foldl (fun s y => askMemory s p y.1 y.2 .host) s

/-- Data-port accesses go on, where they can. -/
def dpResume (s : State) (p : Nat) : State := dpNext p (s.fn (p + 1)).dpHeld.length s

/-- A data-port access arrives, behind those before it. -/
def dpArrive (s : State) (p : Nat) (x : PortAccess) : State :=
  dpResume (s.modFn (p + 1) (fun f => { f with dpHeld := f.dpHeld ++ [x] })) p

/-- DP_ADDR_READ (R399): completes once every earlier data-port write is performed. -/
def execDpAddrRead (p : Fin 64) (s : State) : Host.Outcome State Fault Refusal :=
  .next (hostAsks s (fun s => dpArrive s p (.addr (s.fn (p + 1)).dpAddr.toNat)))

/-- DATA_PORT_WRITE (R398 to R400). -/
def execDataPortWrite (p : Fin 64) (data : List (Option Byte)) (s : State) : Host.Outcome State Fault Refusal :=
  let span := dpSpan data
  .next (hostAsks s (fun s =>
    if span.isEmpty || span.length > 512 then s
    else
      let va := (s.fn (p + 1)).dpAddr.toNat
      let s := s.modFn (p + 1) (fun f => { f with dpWrites := f.dpWrites + 1 })
      dpArrive (dpAdvance s p span.length) p (.write va span)))

/-- DATA_PORT_READ (R249, R398 to R400): it waits while a commit of the partition is in progress. -/
def execDataPortRead (p : Fin 64) (count : Nat) (s : State) : Host.Outcome State Fault Refusal :=
  .next (hostAsks s (fun s =>
    if count > 512 then s.emit .unsupportedRequest
    else if count = 0 then s
    else
      let va := (s.fn (p + 1)).dpAddr.toNat
      dpArrive (dpAdvance s p count) p (.read va count)))

/-! ## Configuration space and resets of the port -/

/-- CONFIGURATION_REQUEST (R370, R402, R499): Retry Status until the firmware is ready. The manual lays out no register of
configuration space: a write is kept, and a word never written reads as a free value (log entry 18). -/
def execConfigurationRequest (fn : Fin 65) (write : Bool) (register : BitVec 12) (value : W32) (s : State) :
    Host.Outcome State Fault Refusal :=
  let r := register.toNat / 4
  let dark := s.perst || s.power.halted || s.power.tripped || s.power.coolantStop || s.power.state == .deep || s.power.state == .off
  .next (
    let s := if dark then s else wakeBy s 1
    if dark then s
    else if !s.boot.reached || (partsOf s).any (fun p => (s.part p).state == .resetting && cxlBusy s p) then
      s.emit .retryStatus
    else if write then (s.modFn fn (fun f => { f with config := tset f.config r value })).emit (.configCompletion 0)
    else match tget? (s.fn fn).config r with
      | some v => s.emit (.configCompletion v)
      | none =>
        let (n, s) := s.draw
        s.emit (.configCompletion ((Config.freeValue n).setWidth 32)))

/-- Packets of a function are forgotten without replies. -/
def dropPackets (s : State) (fn : Fin 65) : State :=
  { s with outstanding := s.outstanding.filter (fun o => o.replyTo.port ≠ .host fn) }

/-- FLR_VF (R402): the VF's packets go, its registers return to their reset values, and its partition is reset. -/
def execFlrVf (p : Fin 64) (s : State) : Host.Outcome State Fault Refusal :=
  .next (hostAsks s (fun s =>
    let fn : Fin 65 := ⟨p.val + 1, by omega⟩
    let s := { dropPackets s fn with fns := tdel s.fns fn }
    if (s.part p).present then resetPart s p else s))

/-- FLR_PF0 (R402): PF0's own state is reset and host-space dirty logging stops. -/
def execFlrPf0 (s : State) : Host.Outcome State Fault Refusal :=
  .next (hostAsks s (fun s =>
    let s := { dropPackets s 0 with fns := tdel s.fns 0 }
    (partsOf s).foldl (fun s p => s.modPart p (fun q => { q with logHost := none })) s))

/-- PERST_N_ASSERT (R402): every job ends, which the log records as contained (R316), every partition is reset, HWIN and
every function's state are cleared. CXL requests on the link end with it. -/
def execPerstNAssert (s : State) : Host.Outcome State Fault Refusal :=
  .next (
    let s := { s with perst := true, hostFetch := [], hostCommit := [], hostRate := 0, hostWidth := 0 }
    let s := (partsOf s).foldl (fun s p => s.modPart p (fun q => { q with ioOut := 0, stores := q.stores.filter (fun e => e.target ≠ 2) })) s
    let s := { s with
      fns := []
      outstanding := s.outstanding.filter (fun o => match o.replyTo.port with | .host _ => false | .mgmt _ => true) }
    let s := (partsOf s).foldl (fun s p => resetPart (if (s.part p).job.running then logContained s p 0 none else s) p) s
    (settleResets { s with parts := s.parts.map (fun q => (q.1, { q.2 with hwin := [] })), fns := [] }))

/-- The rate and width the port trains to: a free choice of those both ends may support (R369, R370, log entry 19). -/
def trainHost (s : State) : State :=
  let (n, s) := s.draw
  let v := (Config.freeValue n).toNat
  { s with hostRate := [64, 32, 16, 8].getD (v % 4) 64, hostWidth := [16, 8, 4].getD (v / 4 % 3) 16 }

/-- PERST_N_RELEASE (R370, R499): the host port trains. -/
def execPerstNRelease (s : State) : Host.Outcome State Fault Refusal :=
  .next (if s.perst then trainHost { s with perst := false } else s)

end Sys2Proof.Machine
end

