-- ==== Sys2Proof/Machine/Queues.lean ====
section
/-! DEFINITION. Engine queues at work: how the entry at a queue's head is read and refused (R390, R393, R397, R546, R548),
the SYNC queue (R396), Porter copies (R394, R395) and wait timeouts. -/

namespace Sys2Proof.Machine

/-! ## The entry at the head -/

/-- What a queue finds at its head: an entry, or a refusal with the units RESUME moves past. -/
inductive Head where
  | nothing
  | bad (units status detail : Nat)
  | entry (e : Entry)
  deriving DecidableEq, Repr

/-- The header's refusals, in the order of R393. -/
def headerRefusal (k : Nat) (left : Nat) (e : Entry) (fieldDetail : Nat) : Option (Nat × Nat) :=
  match tget? (listTable k) e.op with
  | none => some (Status.badOpcode, Detail.hstListOpcode)
  | some n =>
    if e.units ≠ n || left < n then some (Status.badLength, Detail.hstListLength)
    else if e.flags ≠ 0 || e.get 6 2 ≠ 0 then some (Status.badState, fieldDetail)
    else none

/-- The detail that refuses a field of a queue's entries: the LAUNCH and SESSION chapters name their own. -/
def fieldDetail (k : Nat) : Nat := if k = 1 then Detail.tgcLaunchField else if k = 3 then Detail.sesServeField else Detail.hstListField

/-- The head of queue `k`, as it is read in the committed view. -/
def headOf (s : State) (p k : Nat) : Head :=
  let q := s.queue p k
  match q.lists with
  | [] => .nothing
  | l :: _ =>
    let va := l.address + 64 * q.unit
    match readUnit s p va with
    | .error d => .bad 1 Status.badAddress d
    | .ok bs =>
      match headerRefusal k (l.units - q.unit) { bytes := bs } (fieldDetail k) with
      | some (st, d) => .bad (Nat.max 1 (field bs 4 2)) st d
      | none =>
        if field bs 4 2 = 2 then
          match readUnit s p (va + 64) with
          | .error d => .bad 1 Status.badAddress d
          | .ok more => .entry { bytes := bs ++ more }
        else .entry { bytes := bs }

/-- The address at which the head of a queue could not be read: its first 64 bytes, or its second where the first can be. -/
def headFaultVa (s : State) (p k : Nat) : Nat :=
  let q := s.queue p k
  let va := ((q.lists.head?).map (fun l => l.address)).getD 0 + 64 * q.unit
  match readUnit s p va with | .ok _ => va + 64 | .error _ => va

/-- A refused head: its queue halts, and a translation fault is recorded with AGENT 7 (R548). -/
def refuseHead (s : State) (p k units status detail : Nat) : State :=
  let s := if status = Status.badAddress then recordFault s p (headFaultVa s p k) (detail % 256) 7 false else s
  entryFail s p k units status detail

/-- Whether a partition's queues act: it exists, is not being reset, and is not halted for debug. -/
def partRuns (s : State) (p : Nat) : Bool := (s.part p).present && (s.part p).state != .resetting && !(s.part p).halted

/-- An entry of one opcode acts at the head of its queue. A head that cannot be read or is malformed is refused by
whichever event finds it; another opcode's entry waits for its own event; an entry that needs a job waits for one
(R397). -/
def runEntry (s : State) (p k op : Nat) (needsJob : Bool) (body : Entry → State → State) : State :=
  if !partRuns s p || (s.queue p k).halted then s
  else match headOf s p k with
    | .nothing => s
    | .bad u st d => refuseHead s p k u st d
    | .entry e => if e.op = op && (!needsJob || (s.part p).job.running) then body e s else s

/-- The head entry is refused for a field. -/
def refuseField (s : State) (p k : Nat) : State := entryFail s p k (listUnits k) Status.badState (fieldDetail k)
where
  /-- The length of a queue's entries. -/
  listUnits (k : Nat) : Nat := if k = 1 then 2 else 1

/-- The head entry fails for an address, with the fault recorded. -/
def failAddress (s : State) (p k units va : Nat) (write : Bool) (e : Nat × Nat) : State :=
  entryFail (if e.1 = Status.badAddress then noteQueueFault s p va write e.2 else s) p k units e.1 e.2

/-- Whether a WAIT is met: address 0 waits for nothing (R168, R255), and no semaphore is read while a commit is in progress
(R249). -/
def waitMet (s : State) (p va v : Nat) : Except (Nat × Nat) Bool :=
  if va = 0 then .ok true
  else match semPhys s p va false with
    | .error e => .error e
    | .ok a => .ok (!readsWait s p && decide (v ≤ semValue s a))

/-- Whether a semaphore write must wait: a unit holds its line, or a transaction is in progress on it (R234, R396). -/
def semBusy (s : State) (p a : Nat) : Bool :=
  let l := s.line p (a / 1024)
  isStagedLine l || lineBusy l

/-- The wait of a head entry begins, unless it has begun. -/
def beginWait (s : State) (p k : Nat) : State :=
  s.modQueue p k (fun q => { q with waitFrom := some (q.waitFrom.getD (s.part p).timers) })

/-! ## SYNC (R396) -/

/-- Whether a SYNC WAIT entry's fields are in range. -/
def syncWaitOk (e : Entry) : Bool :=
  isVa (e.get 8 8) && decide (e.get 8 8 % 8 = 0) && decide (e.get 28 1 ≤ 1) && e.zero 29 35

/-- Whether a SYNC WAIT's condition holds of a value. -/
def syncCond (e : Entry) (v : Nat) : Bool := if e.get 28 1 = 1 then decide (v = e.get 16 8) else decide (e.get 16 8 ≤ v)

/-- SYNC_WAIT: the entry ends once its semaphore meets its condition. -/
def execSyncWait (p : Fin 64) (s : State) : Host.Outcome State Fault Refusal :=
  .next (runEntry s p 4 1 true (fun e s =>
    if !syncWaitOk e then refuseField s p 4
    else match semPhys s p (e.get 8 8) false with
      | .error x => failAddress s p 4 1 (e.get 8 8) false x
      | .ok a => if !readsWait s p && syncCond e (semValue s a) then entryDone s p 4 1 else beginWait s p 4))

/-- Whether a SYNC SIGNAL or ADD entry's fields are in range. -/
def syncWriteOk (e : Entry) : Bool := isVa (e.get 8 8) && decide (e.get 8 8 % 8 = 0) && e.zero 24 40

/-- SIGNAL and ADD: `f` gives the new value from the old. -/
def syncWrite (s : State) (p : Nat) (e : Entry) (f : Nat → Nat) : State :=
  if !syncWriteOk e then refuseField s p 4
  else match semPhys s p (e.get 8 8) true with
    | .error x => failAddress s p 4 1 (e.get 8 8) true x
    | .ok a =>
      if inHeldImage s a then entryFail s p 4 1 Status.badAddress Detail.planHeld
      else if semBusy s p a then s
      else entryDone (semWrite s p a (f (semValue s a))) p 4 1

/-- SYNC_SIGNAL. -/
def execSyncSignal (p : Fin 64) (s : State) : Host.Outcome State Fault Refusal :=
  .next (runEntry s p 4 2 true (fun e s => syncWrite s p e (fun _ => e.get 16 8)))

/-- SYNC_ADD: modulo 2^64. -/
def execSyncAdd (p : Fin 64) (s : State) : Host.Outcome State Fault Refusal :=
  .next (runEntry s p 4 3 true (fun e s => syncWrite s p e (fun v => (v + e.get 16 8) % 2 ^ 64)))

/-- SYNC_NOTIFY: a device event with SOURCE NOTIFY and its CODE. -/
def execSyncNotify (p : Fin 64) (s : State) : Host.Outcome State Fault Refusal :=
  .next (runEntry s p 4 4 true (fun e s =>
    if e.get 8 8 < 2 ^ 24 && e.zero 16 48 then entryDone (partEvent s p srcNotify Status.ok (e.get 8 8)) p 4 1
    else refuseField s p 4))

/-! ## Porter copies -/

/-- The fields of a COPY: bytes 8 to 55 of its entry (Table HST-12). -/
def copyOf (e : Entry) : Copy :=
  { src := e.get 8 8, dst := e.get 16 8, bytes := e.get 24 8, dir := e.get 32 1, signal := e.get 40 8, signalValue := e.get 48 8 }

/-- Whether a COPY's fields are in range (Table HST-12, R546). -/
def copyOk (e : Entry) : Bool :=
  let c := copyOf e
  decide (c.src % 64 = 0) && decide (c.dst % 64 = 0) && decide (c.bytes ≠ 0) && decide (c.bytes % 64 = 0) &&
    decide (c.bytes ≤ 2 ^ 40) && decide (c.dir ≤ 2) && e.zero 33 7 && isVa c.signal && decide (c.signal % 8 = 0) &&
    (c.dir = 0 || isVa c.src) && (c.dir = 1 || isVa c.dst)

/-- Where a Porter's device operand leads: the partition's LSM grants or its own scratchpads (R395). -/
def porterReach (s : State) (p va : Nat) (write : Bool) : Except Nat Nat :=
  match translateFor s .porter p (va % 2 ^ 48) write with
  | .error d => .error d
  | .ok t => match localPhys s t with
    | none => .error 0
    | some a => match regionOf a with
      | .lsm => if granted s p a then .ok a else .error 0
      | .spad i _ => if bit (s.part p).record.stalls i then .ok a else .error 0
      | _ => .error 0

/-- Why a copy stops. -/
inductive CopyEnd where
  /-- It cannot go on now: a line is staged, the host has been asked, or the partition is paused. -/
  | waits
  | done
  | fails (status detail : Nat)
  deriving DecidableEq, Repr

/-- Bytes of the next piece: to the end of the source's and the destination's line. -/
def pieceBytes (c : Copy) : Nat :=
  Nat.min (c.bytes - c.done) (Nat.min (1024 - (c.src + c.done) % 1024) (1024 - (c.dst + c.done) % 1024))

/-- A piece written to the device; none where it must wait. -/
def putPiece (s : State) (p va : Nat) (bs : List Byte) : State × CopyEnd :=
  match porterReach s p va true with
  | .error d => (if d = 0 then s else recordFault s p va (d % 256) 3 true, .fails Status.badAddress Detail.hstPortRange)
  | .ok a =>
    match regionOf a with
    | .spad i o => (spadPut s i o bs, .done)
    | _ =>
      if inHeldImage s a then (s, .fails Status.badAddress Detail.planHeld)
      else if semBusy s p a then (s, .waits)
      else (writeCommitted s p (a / 1024) (cellsAt (a % 1024) bs), .done)

/-- The Porter channel that makes a partition's copy of a number: the channels of its stalls in turn (log entry 167). -/
def porterOf (s : State) (p number : Nat) : Agent :=
  let is := stallsOf s p
  .porter (Fin.ofNat 64 (is.getD (number / 2 % is.length) 0)) (Fin.ofNat 2 number)

/-- What a piece read from the device comes to. -/
inductive Piece where
  | bytes (bs : List Byte)
  /-- Memory has not brought it yet. -/
  | waits
  | fails (status detail : Nat)
  deriving DecidableEq, Repr

/-- A piece read from the device in the committed view, by the Porter of a copy; memory brings what the slice lacks (R268),
and may fail (R285). -/
def getPiece (s : State) (p number va n : Nat) : State × Piece :=
  match porterReach s p va false with
  | .error d => (if d = 0 then s else recordFault s p va (d % 256) 3 false, .fails Status.badAddress Detail.hstPortRange)
  | .ok a =>
    match regionOf a with
    | .spad i o => (checkSpad s p i o n, .bytes ((List.range n).map (fun j => spadRead s i (o + j))))
    | _ =>
      let s := lookUp s p (a / 1024)
      let ag := porterOf s p number
      let cls := if kvAt s p (a / 1024) (va % 2 ^ 48) then clsKv else clsHostIo
      let out := outsideOut s p (a / 1024) (a % 1024) n (placesLine s p (a / 1024) ag .stream)
      if out ≠ 0 then (askMemory s p (a / 1024) out (.porter (Fin.ofNat 64 p)), .waits)
      else
        let t := spendRead (access (deadRead s p (a / 1024) ag) p (a / 1024) ag cls .stream) p (a / 1024)
        if outsideBad s p (a / 1024) (a % 1024) n then (t, .fails Status.partitionFault Detail.lsmStored)
        else (t, .bytes (readCommitted s a n))

/-- A copy after its next piece. -/
def stepCopy (s : State) (p : Nat) (c : Copy) : State × Copy × CopyEnd :=
  let n := pieceBytes c
  if c.dir = 0 then
    if !c.held.isEmpty then
      match putPiece s p (c.dst + c.done) c.held with
      | (s, .done) => (s, { c with done := c.done + c.held.length, held := [] }, .done)
      | (s, e) => (s, c, e)
    else if c.asked then (s, c, .waits)
    else ((s.modPart p (fun q => { q with ioOut := q.ioOut + 1 })).emit (.hostRead (p + 1) (c.src + c.done) n), { c with asked := true }, .waits)
  else if readsWait s p then (s, c, .waits)
  else
    match getPiece s p c.number (c.src + c.done) n with
    | (s, .waits) => (s, c, .waits)
    | (s, .fails st d) => (s, c, .fails st d)
    | (s, .bytes bs) =>
      if c.dir = 1 then (s.emit (.hostWrite (p + 1) (c.dst + c.done) bs), { c with done := c.done + n }, .done)
      else match putPiece s p (c.dst + c.done) bs with
        | (s, .done) => (s, { c with done := c.done + n }, .done)
        | (s, e) => (s, c, e)

/-- A copy goes on as far as it can. -/
def driveCopy (p : Nat) : Nat → State → Copy → State × Copy × CopyEnd
  | 0, s, c => (s, c, if c.done = c.bytes then .done else .waits)
  | n + 1, s, c =>
    if c.done = c.bytes then (s, c, .done)
    else match stepCopy s p c with
      | (s, c, .done) => driveCopy p n s { c with retries := 0 }
      | r => r

/-- The end of a copy is reported: its signal and its queue entry, or its packet's reply (R395). -/
def endCopy (s : State) (p : Nat) (c : Copy) (e : Nat × Nat) : State :=
  match c.reply with
  | some who => completeAll s (fun o => o.replyTo = who && o.waits = some .portCopy) e.1 e.2
  | none => if e.1 = Status.ok then entryDone s p 2 1 else entryFail s p 2 1 e.1 e.2

/-- A copy whose bytes are all performed writes its signal, which waits like any semaphore write. -/
def signalCopy (s : State) (p : Nat) (c : Copy) : State × Option (Nat × Nat) :=
  if c.signal = 0 then (s, some (Status.ok, 0))
  else match semPhys s p c.signal true with
    | .error x => (noteQueueFault s p c.signal true x.2, some x)
    | .ok a =>
      if inHeldImage s a then (s, some (Status.badAddress, Detail.planHeld))
      else if semBusy s p a then (s, none) else (semWrite s p a c.signalValue, some (Status.ok, 0))

/-- Whether the Porters of a partition run (R417, R521). -/
def portersRun (s : State) (p : Nat) : Bool := partRuns s p && (s.part p).state != .preempted

/-- One copy is driven on; what is left of it. -/
def pumpCopy (s : State) (p : Nat) (c : Copy) : State × Option Copy :=
  match driveCopy p (c.bytes / 64 + 1) s c with
  | (s, c, .waits) => (s, some c)
  | (s, c, .fails st d) => (endCopy s p c (st, d), none)
  | (s, c, .done) => match signalCopy s p c with
    | (s, none) => (s, some c)
    | (s, some e) => (endCopy s p c e, none)

/-- Every copy of a partition in turn. -/
def pumpAll (p : Nat) : List Copy → State → State
  | [], s => s
  | c :: r, s =>
    let (s, left) := pumpCopy s p c
    let s := match left with | none => s | some c => s.modPart p (fun q => { q with copies := q.copies ++ [c] })
    pumpAll p r s

/-- The copies of a partition go on. -/
def pumpCopies (s : State) (p : Nat) : State :=
  if portersRun s p then pumpAll p (s.part p).copies (s.modPart p (fun q => { q with copies := [] })) else s

/-- A copy begins: it takes the partition's next number, and its Porters drop their cached translations (R413). -/
def startCopy (s : State) (p : Nat) (c : Copy) : State :=
  s.modPart p (fun q => { q with
    copies := q.copies ++ [{ c with number := q.copyCount }], copyCount := q.copyCount + 1
    cached := { q.cached with porters := [] } })

/-- COPY (R395): the entry at the head starts, and every copy of the partition goes on as far as it can. -/
def execCopy (p : Fin 64) (s : State) : Host.Outcome State Fault Refusal :=
  .next (pumpCopies (if (s.queue p 2).inProgress then s
    else runEntry s p 2 1 false (fun e s =>
      if copyOk e && e.zero 56 8 then
        startCopy (s.modQueue p 2 (fun q => { q with inProgress := true })) p (copyOf e)
      else refuseField s p 2)) p)

/-- The copies of every partition go on as far as they can. -/
def pumpEvery (s : State) : State := (List.range 64).foldl pumpCopies s

/-- PORT_COPY (R394): the same copy outside the queue. -/
def execPortCopy (src : PktSrc) (s : State) : Host.Outcome State Fault Refusal :=
  .next (pumpEvery (runVoted s src (fun k => k.op = 0x0020) (fun k s =>
    let e : Entry := { bytes := natLe 8 0 ++ padTo 48 (k.paramBytes 0) ++ natLe 8 0 }
    if copyOk e then
      .wait (startCopy s k.part { copyOf e with reply := some k.replyTo }) .portCopy
    else .param s)))

/-- The host's data for the oldest copy that asked, or its refusal (R395). -/
def copyData (s : State) (p : Nat) (data : Option (List Byte)) : State :=
  match (s.part p).copies.find? (fun c => c.asked) with
  | none => s
  | some c =>
    let rest := s.modPart p (fun q => { q with copies := q.copies.erase c })
    match data with
    | none => endCopy rest p c (Status.badAddress, Detail.hstHostAbort)
    | some bs => rest.modPart p (fun q => { q with
        copies := { c with asked := false, held := padTo (pieceBytes c) bs } :: q.copies })

/-- CXL_IO_COMPLETION (R395, R420): data for a copy, or an error; one that a reset left behind is discarded. -/
def execCxlIoCompletion (p : Fin 64) (data : Option (List Byte)) (s : State) : Host.Outcome State Fault Refusal :=
  .next (if (s.part p).ioOut = 0 then s
    else
      let s := s.modPart p (fun q => { q with ioOut := q.ioOut - 1 })
      continueReset (pumpCopies (copyData s p data) p) p)

/-! ## Wait timeouts -/

/-- WAIT, its value and its timeout of an entry that can time out: PLAN_RUN, LAUNCH or SYNC WAIT. -/
def waitFields (k : Nat) (e : Entry) : Option (Nat × Nat × Nat) :=
  if k = 0 ∧ e.op = 3 then some (e.get 16 8, e.get 24 8, e.get 48 4)
  else if k = 1 then some (e.get 64 8, e.get 72 8, e.get 96 4)
  else if k = 4 ∧ e.op = 1 then some (e.get 8 8, e.get 16 8, e.get 24 4)
  else none

/-- Whether the wait of an entry is met. -/
def entryMet (s : State) (p k : Nat) (e : Entry) (w : Nat × Nat × Nat) : Bool :=
  if k = 4 then (match semPhys s p w.1 false with | .ok a => syncCond e (semValue s a) | .error _ => true)
  else (match waitMet s p w.1 w.2.1 with | .ok b => b | .error _ => true)

/-- QUEUE_WAIT_TIMEOUT (R9, R168, R396): the wait of the head entry is evaluated, and where its time has passed unmet the entry
fails with TIMEOUT. A wait that is met, or an entry in progress, takes no timeout. -/
def execQueueWaitTimeout (p : Fin 64) (queue : Fin 5) (s : State) : Host.Outcome State Fault Refusal :=
  .next (if !partRuns s p || (s.queue p queue).halted || (s.queue p queue).inProgress || !(s.part p).job.running then s
    else match headOf s p queue with
      | .entry e => match waitFields queue e with
        | some w =>
          if entryMet s p queue e w then s
          else match (s.queue p queue).waitFrom with
            | none => beginWait s p queue
            | some t =>
              if w.2.2 ≠ 0 && decide (t + 3300 * w.2.2 ≤ (s.part p).timers) then
                entryFail s p queue (if queue = 1 then 2 else 1) Status.timeout 0 else s
        | none => s
      | _ => s)

end Sys2Proof.Machine
end

