-- ==== Sys2Proof/Machine/Memory.lean ====
section
/-! DEFINITION. Stacked memory (spec/10): bursts as they end, retries, persistent failures and their outcomes (R278 to R286), refresh,
recalibration and retraining (R273 to R275), and stack temperatures (R287, R288). -/

namespace Sys2Proof.Machine

/-- Reissues so far of an access. -/
def attemptsOf (c : Chan) (b : Nat) (write : Bool) : Nat :=
  ((c.attempts.find? (fun a => a.1 = b && a.2.1 == write)).map (fun a => a.2.2)).getD 0

/-- Reissues of an access set; 0 forgets it. -/
def setAttempts (s : State) (b : Nat) (write : Bool) (n : Nat) : State :=
  s.modChan (burstChan b) (fun c =>
    let rest := c.attempts.filter (fun a => !(a.1 = b && a.2.1 == write))
    { c with attempts := if n = 0 then rest else (b, write, n) :: rest })

/-- DEV_TIME ticks in a millisecond. -/
def msTicks : Nat := 3300000

/-- A reissue is counted (R275, R278) and logged as CORRECTED. -/
def countRetry (s : State) (b : Nat) : State :=
  let now := s.devTime
  let s := s.modChan (burstChan b) (fun c => { c with
    retries := satInc c.retries (2 ^ 32 - 1), recent := now :: c.recent.filter (fun t => decide (now < t + msTicks)) })
  match ownerOf s (burstAddr b) with
  | some p => logCorrected s p 0 none
  | none => chkLog s { detail := 0, cls := clsCorrected, part := 0, stall := none, deviceWide := true, attempt := 0, tick := 0 }

/-- A persistent failure is recorded (R280, R286). -/
def recordFailure (s : State) (b : Nat) (write : Bool) : State :=
  let owner := ownerOf s (burstAddr b)
  let r : FailRecord := { burst := b, write := write, part := owner.getD 0, granted := owner.isSome }
  { (s.modChan (burstChan b) (fun c => { c with persistent := satInc c.persistent 65535 })) with
    failLog := (r :: s.failLog).take 16, failCount := s.failCount + 1 }

/-- The pages of 64 KiB that a range of virtual addresses touches. -/
def pagesOf (r : Nat × Nat) : List Nat :=
  (List.range ((r.1 % 65536 + r.2 + 65535) / 65536)).map (fun i => r.1 / 65536 * 65536 + 65536 * i)

/-- Whether a range touches the burst at a place within one of its pages. -/
def rangeTouches (r : Nat × Nat) (page place : Nat) : Bool :=
  decide (page + place < r.1 + r.2) && decide (r.1 < page + place + 128)

/-- The virtual page of a reloadable burst (R281): a weight or tag range reads it, and it lies outside the held image. -/
def reloadPage (s : State) (p addr : Nat) : Option Nat :=
  match (s.part p).plan with
  | none => none
  | some h =>
    if inHeldImage s addr then none
    else h.reloadable.findSome? (fun r => (pagesOf r).find? (fun va => rangeTouches r va (addr % 65536) &&
      match translate s p va false with
      | .ok t => localPhys s t = some (addr / 65536 * 65536)
      | .error _ => false))

/-- Whether the partition's unit in progress can be replayed. -/
def replayable (s : State) (p : Nat) : Bool :=
  let q := s.part p
  (q.epoch.running && !q.epoch.nonrepl) || (q.kernel.running && !q.kernel.nonrepl)

/-- Refills of the unit in progress. -/
def unitRefills (s : State) (p : Nat) : Nat :=
  if (s.part p).kernel.running then (s.part p).kernel.refills else (s.part p).epoch.refills

/-- A persistent read failure met by an agent of the owning partition (R280, R282, R283). Only the burst that a refill is
begun for counts as refilled (Table LSM-3). -/
def ownFailure (s : State) (p b : Nat) : State :=
  match reloadPage s p (burstAddr b) with
  | none => contained s p Status.partitionFault Detail.lsmStored none
  | some va =>
    if !replayable s p then contained s p Status.partitionFault Detail.lsmStored none
    else if b ∈ (s.part p).refill.failed then contained s p Status.partitionFault Detail.lsmRefillRepeat none
    else if (s.part p).refill.waitsFor.isSome then unitError s p Detail.lsmRefill none
    else if 4 ≤ unitRefills s p then contained s p Status.partitionFault Detail.lsmRefillRepeat none
    else (unitError s p Detail.lsmRefill none).modPart p (fun q => { q with refill := { q.refill with
      failed := b :: q.refill.failed, waitsFor := some (BitVec.ofNat 48 va) } })

/-! ## Bursts that come back (R278, R280) -/

/-- The bytes of a burst as memory holds them. -/
def burstData (s : State) (b : Nat) : List Byte := mreads s.mem (burstAddr b) 128

/-- The bytes that came back other than they are, by their place in the line. -/
def wrongCells (b : Nat) (held got : List Byte) : List Host.Cell :=
  (((List.range 128).zip (held.zip got)).filter (fun e => e.2.1 ≠ e.2.2)).map (fun e => (b % 8 * 128 + e.1, e.2.2))

/-- A burst is here for the line that asked for it, poisoned where its read failed for good: its data is then zeros
(R282). -/
def landBurst (s : State) (b : Nat) (x : MemAccess) (got : List Byte) (failed : Bool) : State :=
  s.modLine x.requester x.line (fun l => { l with
    asked := clearBit l.asked (b % 8), here := setBit l.here (b % 8)
    bad := if failed then setBit l.bad (b % 8) else clearBit l.bad (b % 8)
    met := if failed && ownReader x.reader then setBit l.met (b % 8) else clearBit l.met (b % 8)
    wrong := olay (l.wrong.filter (fun c => c.1 / 128 ≠ b % 8)) (wrongCells b (burstData s b) got) })

/-- A read of the host of a line in no grant completes: with its cacheline, or with the failure (R280). -/
def hostBurst (s : State) (x : MemAccess) (got : List Byte) (failed : Bool) : State :=
  if failed then s.emit (.memDone x.address Status.badAddress Detail.lsmStored)
  else s.emit (.memData x.address ((got.drop (x.address % 128)).take 64) false)

/-- What waited for memory at a line, or for a partition's lines, goes on. -/
def memoryCame (s : State) (x : MemAccess) : State :=
  let p := x.requester
  let s := fillPinned (serveLine (serveWindow s p x.line) p x.line) p x.line
  let s := dpResume (answerLate s p) p
  match x.reader with | .porter _ => pumpCopies s p | _ => s

/-- A burst of an access ends with data, or for good without. -/
def endBurst (s : State) (b : Nat) (x : MemAccess) (got : List Byte) (failed : Bool) : State :=
  let s := setAttempts s b false 0
  let s := if failed then recordFailure s b false else s
  if x.requester = deviceTraffic then burstEnds (hostBurst s x got failed) b x
  else
    let s := burstEnds (landBurst s b x got failed) b x
    memoryCame (if failed && ownReader x.reader then ownFailure s x.requester b else s) x

/-- A read's burst comes back (R276, R278, R280): one that passes its check ends; a bad one is reissued at most four times; a
FAILED channel fails at once. -/
def readBurst (s : State) (b : Nat) (x : MemAccess) (flips : List (Fin 64 × Fin 18)) : State :=
  let c := s.chan (burstChan b)
  let held := burstData s b
  let zeros : List Byte := List.replicate 128 0
  if c.failed then endBurst s b x zeros true
  else if flips.isEmpty then endBurst s b x held false
  else
    let (d, ok) := received c.seed b held flips
    if ok then endBurst s b x (descrambled c.seed b d) false
    else if attemptsOf c b false < 4 then setAttempts (countRetry s b) b false (attemptsOf c b false + 1)
    else endBurst s b x zeros true

/-- A burst that the firmware reads of a line in no grant (R280, log entry 175). -/
def firmwareBurst (s : State) (b : Nat) (flips : List (Fin 64 × Fin 18)) : State :=
  let c := s.chan (burstChan b)
  let fail := fun (s : State) =>
    (recordFailure (setAttempts s b false 0) b false).emit (.memDone (burstAddr b) Status.badAddress Detail.lsmStored)
  if c.failed then fail s
  else if (received c.seed b (burstData s b) flips).2 then setAttempts s b false 0
  else if attemptsOf c b false < 4 then setAttempts (countRetry s b) b false (attemptsOf c b false + 1)
  else fail s

/-- LSM_READ_RETURN (R278, R280): a burst of the access that its channel serves comes back, the bits turned over that
`flips` says. -/
def execLsmReadReturn (burst : BitVec 32) (reader : BurstReader) (flips : List (Fin 64 × Fin 18)) (s : State) :
    Host.Outcome State Fault Refusal :=
  let b := burst.toNat
  .next (match servingBurst s b false with
    | some x => if x.reader = reader then readBurst s b x flips else s
    | none => if reader = .firmware && (ownerOf s (burstAddr b)).isNone then firmwareBurst s b flips else s)

/-- A burst's write fails for good: committed data is lost (R280), but a scrub goes on (Table LSM-3). -/
def persistentWrite (s : State) (b : Nat) : State :=
  let s := recordFailure (setAttempts s b true 0) b true
  match ownerOf s (burstAddr b) with
  | none => s
  | some p => if (s.part p).state == .resetting then s else contained s p Status.partitionFault Detail.lsmWrite none

/-- Whether a burst is being written: by the access that its channel serves, or by the scrub of its partition, whose accesses
are not queued one by one (log entry 175). -/
def writing (s : State) (b : Nat) : Bool :=
  (servingBurst s b true).isSome ||
    (match ownerOf s (burstAddr b) with | some p => (s.part p).state == .resetting | none => false)

/-- A write's burst has ended. -/
def writeEnds (s : State) (b : Nat) : State :=
  match servingBurst s b true with | some x => burstEnds s b x | none => s

/-- BASE_DIE_WRITE_ERROR (R278, R280). -/
def execBaseDieWriteError (burst : BitVec 32) (s : State) : Host.Outcome State Fault Refusal :=
  let b := burst.toNat
  let c := s.chan (burstChan b)
  .next (
    if !writing s b then s
    else if c.failed then persistentWrite (writeEnds s b) b
    else if attemptsOf c b true < 4 then setAttempts (countRetry s b) b true (attemptsOf c b true + 1)
    else persistentWrite (writeEnds s b) b)

/-- LSM_WRITE_COMPLETE (R278, R280). -/
def execLsmWriteComplete (burst : BitVec 32) (s : State) : Host.Outcome State Fault Refusal :=
  let b := burst.toNat
  .next (if !writing s b then s
    else if (s.chan (burstChan b)).failed then persistentWrite (writeEnds s b) b
    else setAttempts (writeEnds s b) b true 0)

/-- REFRESH (R273): one refresh command to a bank. -/
def execRefresh (channel : Fin 512) (bank : Fin 32) (s : State) : Host.Outcome State Fault Refusal :=
  .next (s.modChan channel (fun c => { c with refreshes := tmod c.refreshes bank (fun n => n + 1) }))

/-- CHANNEL_RECALIBRATE (R274): in RUN only. -/
def execChannelRecalibrate (channel : Fin 512) (s : State) : Host.Outcome State Fault Refusal :=
  .next (if s.power.state == .run then s.modChan channel (fun c => { c with recalibrations := c.recalibrations + 1 }) else s)

/-- CHANNEL_RETRAIN (R275): sixteen reissues within a millisecond retrain a channel, or fail it. -/
def execChannelRetrain (channel : Fin 512) (succeeds : Bool) (s : State) : Host.Outcome State Fault Refusal :=
  let c := s.chan channel
  .next (if 16 ≤ (c.recent.filter (fun t => decide (s.devTime < t + msTicks))).length then
      s.modChan channel (fun c => { c with
        retrains := satInc c.retrains 255, failed := c.failed || !succeeds, recent := [] })
    else s)

/-- The bubble share of a stack at a temperature, in 1/256 (R287). -/
def stackShare (k : Stack) : Nat := if k.throttle then Nat.min 240 ((k.temp - 85) * 24) else 0

/-- A report's effect on its stack: thermal bubbles from 85 °C until 83 °C, activations stopped from 95 °C until below 92 °C. A
stopped stack counts the 100 µs between reports. -/
def stackReport (s : State) (stack t : Nat) : State :=
  { s with hbm := tmod s.hbm stack (fun k => { k with
    temp := t
    throttle := if 85 ≤ t then true else if t ≤ 83 then false else k.throttle
    stopped := if 95 ≤ t then true else if t < 92 then false else k.stopped
    stopTime := if k.stopped then Nat.min (k.stopTime + 100) (2 ^ 32 - 1) else k.stopTime }) }

/-- STACK_TEMP_REPORT (R287, R288): the channels of a stack that resumes issue what waits. -/
def execStackTempReport (stack : Fin 8) (celsius : BitVec 8) (s : State) : Host.Outcome State Fault Refusal :=
  let t := stackReport s stack celsius.toNat
  .next (if (tget s.hbm stack).stopped && !(tget t.hbm stack).stopped then
      (List.range 64).foldl (fun s c => arbitrate s (64 * stack + c)) t
    else t)

/-- 100 ms in ticks of DEV_TIME. -/
def refillTicks : Nat := 330000000

/-- REFILL_TIMEOUT (R283). -/
def execRefillTimeout (p : Fin 64) (s : State) : Host.Outcome State Fault Refusal :=
  .next (if (s.part p).refill.pending && decide ((s.part p).refill.timer + refillTicks ≤ (s.part p).timers) then endJob s p Status.timeout Detail.lsmRefillTimeout none else s)

end Sys2Proof.Machine
end

