-- ==== Sys2Proof/Machine/Bubble.lean ====
section
/-! DEFINITION. Bubble shares and the cycles they mark (R455 to R461, R465 to R469). -/

namespace Sys2Proof.Machine

/-- The largest share any actuator applies, in 1/256. -/
def shareTop : Nat := 240

/-- rev8: the order of the 8 low bits reversed (R456). -/
def rev8 (n : Nat) : Nat := ofBits ((List.range 8).filter (fun i => bit n (7 - i)))

/-- Whether cycle `c` is a bubble at share k/256 (R456). -/
def isBubble (k c : Nat) : Bool := decide (rev8 (c % 256) < k)

/-- ceil(a / b). -/
def ceilDiv (a b : Nat) : Nat := (a + b - 1) / b

/-- The required share (R455). -/
def requiredShare (pt ph a : Nat) : Nat :=
  if pt ≤ a then 0 else if ph < a then Nat.min shareTop (ceilDiv (256 * (pt - a)) (pt - ph)) else shareTop

/-- Whether a droop is in progress on a die: its detectors', or a low VIN_IVR (R465, R534). -/
def drooping (s : State) (d : Nat) : Bool := (s.die d).droop || (s.die d).lowVinDroop

/-- Whether a partition runs LOCKSTEP. -/
def isLockstep (s : State) (p : Nat) : Bool := (s.part p).record.timing = 1

/-- The share that an alert or a breach of the design limit applies (R467, R468). -/
def alertShare (s : State) : Nat := if s.power.alert || s.power.hold ≠ 0 then shareTop else 0

/-- The temperature share of a die: its own and its stacks' (R287, R469). -/
def heatShare (s : State) (d : Nat) : Nat :=
  Nat.max (s.die d).thermal (Nat.max (stackShare (tget s.hbm (2 * d))) (stackShare (tget s.hbm (2 * d + 1))))

/-- The share by feedback of a partition on a die (R459), a long droop's part included (R465). -/
def feedbackShare (s : State) (p d : Nat) : Nat := tget (s.part p).pwr.share d + (s.die d).droopShare

/-- The mask share k of a domain (R456, R458, R460): in ELASTIC the largest share that applies, in LOCKSTEP the share the
last bell fixed. -/
def maskShareOf (s : State) (p d : Nat) : Nat :=
  if isLockstep s p then (s.part p).pwr.maskShare
  else Nat.min shareTop (Nat.max (feedbackShare s p d) (Nat.max (heatShare s d) (alertShare s)))

/-- The share a LOCKSTEP domain must reach with extra bubbles (R461, R467, R468). -/
def extraNeed (s : State) (p : Nat) : Nat :=
  if isLockstep s p then Nat.max (s.part p).pwr.extraShare (alertShare s) else 0

/-- x of R461: 0 where the mask share is enough. -/
def extraRate (s : State) (p : Nat) : Nat :=
  let m := (s.part p).pwr.maskShare
  let k := extraNeed s p
  if k ≤ m then 0 else Nat.min shareTop (ceilDiv (256 * (k - m)) (256 - m))

/-- The share applied to a core of a partition on a die (R457 to R459). -/
def coreShare (s : State) (p d : Nat) : Nat :=
  Nat.min shareTop (Nat.max (feedbackShare s p d) (Nat.max (heatShare s d) (alertShare s)))

end Sys2Proof.Machine
end

