-- ==== Sys2Proof/Machine/Budget.lean ====
section
/-! DEFINITION. The power budget: how Scales divides the cap among partitions and dies (R453, R454), learned phases and
the mask share of the next epoch (R460, R462), and the frequency of BOOST (R463). Powers are in milliwatts, and a quotient
is rounded down (DESIGN CHOICE, log entry 41). -/

namespace Sys2Proof.Machine

/-- Partitions with stalls powered: those with a job that is not pre-empted (R454). -/
def poweredParts (s : State) : List Nat :=
  (partsOf s).filter (fun p => (s.part p).job.running && (s.part p).state != .preempted && (s.part p).state != .resetting)

/-- Every demand met but those above the level λ: partition, demand and weight to partition and allocation. -/
def fillLevels : Nat → Nat → List (Nat × Nat × Nat) → List (Nat × Nat)
  | 0, _, _ => []
  | n + 1, m, qs =>
    let w := qs.foldl (fun x q => x + q.2.2) 0
    let full := qs.filter (fun q => decide (q.2.1 * w ≤ m * q.2.2))
    let rest := qs.filter (fun q => !decide (q.2.1 * w ≤ m * q.2.2))
    if full.isEmpty then qs.map (fun q => (q.1, m * q.2.2 / w))
    else full.map (fun q => (q.1, q.2.1)) ++ fillLevels n (m - full.foldl (fun x q => x + q.2.1) 0) rest

/-- The allocations of R454 from M and the partitions' demands and weights. -/
def allocations (m : Nat) (qs : List (Nat × Nat × Nat)) : List (Nat × Nat) :=
  let d := qs.foldl (fun x q => x + q.2.1) 0
  let w := qs.foldl (fun x q => x + q.2.2) 0
  if d ≤ m then qs.map (fun q => (q.1, q.2.1 + (m - d) * q.2.2 / w)) else fillLevels (qs.length + 1) m qs

/-- The largest sustained power of the cap that partitions may share: C less U. -/
def sharedPower (s : State) : Nat := 1000 * s.power.cap - s.power.unmanaged

/-- Allocations from demands by partition and die, stored. -/
def allocate (s : State) (pt : Nat → Nat → Nat) : State :=
  let qs := poweredParts s
  let demand := fun p => (diesOf s p).foldl (fun x d => x + pt p d) 0
  let al := allocations (sharedPower s) (qs.map (fun p => (p, demand p, (s.part p).record.powerShare)))
  (partsOf s).foldl (fun s p =>
    let a := (lookup al p).getD 0
    s.modPart p (fun q => { q with pwr := { q.pwr with
      alloc := a
      allocDie := (diesOf s p).map (fun d => (d, if demand p = 0 then 0 else a * pt p d / demand p)) } })) s

/-- P_t of a partition on a die as last measured. -/
def measuredPt (s : State) (p d : Nat) : Nat := tget (s.part p).pwr.pt d
/-- P_h of a partition on a die as last measured. -/
def measuredPh (s : State) (p d : Nat) : Nat := tget (s.part p).pwr.ph d

/-- The matrix clock of a partition on a die [MHz]. -/
def matrixMhz (s : State) (p d : Nat) : Nat := let f := tget (s.part p).pwr.freq d; if f = 0 then 3300 else f

/-- The phase entry of a die, if it is valid. -/
def phaseEntry (s : State) (p d phase : Nat) : Option PhaseEntry := tget? (s.part p).pwr.phases (256 * d + phase)

/-- The demand that the next epoch's phase publishes for a die at a frequency: its entry scaled, else the averages. -/
def phaseDemand (s : State) (p phase : Nat) (mhz : Nat → Nat) (d : Nat) : Nat × Nat :=
  match phaseEntry s p d phase with
  | some e => (e.pt * mhz d / 3300, e.ph)
  | none => (measuredPt s p d, measuredPh s p d)

/-- One value moves by an eighth of the difference, rounded to the nearest milliwatt (R462). -/
def learn (old new : Nat) : Nat := if old ≤ new then old + (new - old + 4) / 8 else old - (old - new + 4) / 8

/-- An average of a span, or the last value where it holds no sample. -/
def spanMean (sum n last : Nat) : Nat := if n = 0 then last else sum / n

/-- The ending epoch's phase entry of every die is updated (R462). -/
def learnPhase (s : State) (p phase : Nat) : State :=
  (diesOf s p).foldl (fun s d =>
    let x := tget (s.part p).pwr.epoch d
    let pt := spanMean x.ptSum x.taken (measuredPt s p d) * 3300 / matrixMhz s p d
    let ph := spanMean x.phSum x.held (measuredPh s p d)
    let e : PhaseEntry := match phaseEntry s p d phase with
      | none => { pt := pt, ph := ph }
      | some o => { pt := learn o.pt pt, ph := learn o.ph ph }
    s.modPart p (fun q => { q with pwr := { q.pwr with phases := tset q.pwr.phases (256 * d + phase) e } })) s

/-- The next frequency of a BOOST partition on a die (R463). -/
def nextMhz (s : State) (p d : Nat) : Nat :=
  let q := s.part p
  let x := tget q.pwr.epoch d
  let f := matrixMhz s p d
  if !q.boost then 3300
  else if x.alert || x.heat then 3300
  else if 8 < x.exchange || 90 ≤ x.tj || 83 ≤ x.stack then Nat.max 3300 (f - 50)
  else if x.share = 0 && decide (x.tj ≤ 85) && decide (x.stack ≤ 80) &&
      decide (measuredPt s p d * (f + 50) ≤ tget q.pwr.allocDie d * f) then Nat.min 3600 (f + 50)
  else f

/-- Frequencies of the next epoch: glides begin (R463, R464). -/
def startGlides (s : State) (p : Nat) : State :=
  (diesOf s p).foldl (fun s d =>
    let f := nextMhz s p d
    if f = matrixMhz s p d then s
    else s.modPart p (fun q => { q with pwr := { q.pwr with glide := tset q.pwr.glide d f } })) s

/-- The frequency a die is gliding to, or its own. -/
def targetMhz (s : State) (p d : Nat) : Nat := (tget? (s.part p).pwr.glide d).getD (matrixMhz s p d)

/-- The early exchange before an epoch of a phase (R462). -/
def earlyExchange (s : State) (p phase : Nat) : State :=
  allocate s (fun q d => if q = p then (phaseDemand s p phase (targetMhz s p) d).1 else measuredPt s q d)

/-- The mask share that a LOCKSTEP partition asks for (R460). -/
def wantedMask (s : State) (p phase : Nat) : Nat :=
  (diesOf s p).foldl (fun k d =>
    let x := phaseDemand s p phase (targetMhz s p) d
    Nat.max k (Nat.max (requiredShare x.1 x.2 (tget (s.part p).pwr.allocDie d)) (heatShare s d))) 0

/-- The spans of a new epoch: temperatures and shares as they stand. -/
def freshSpans (s : State) (p : Nat) : Tbl PowerSpan :=
  (diesOf s p).map (fun d => (d,
    { share := tget (s.part p).pwr.share d, tj := (s.die d).tj
      stack := Nat.max (tget s.hbm (2 * d)).temp (tget s.hbm (2 * d + 1)).temp
      heat := decide (heatShare s d ≠ 0), alert := s.power.alert }))

end Sys2Proof.Machine
end

