-- ==== Sys2Proof/Machine/Access.lean ====
section
/-! DEFINITION. How an agent inside a partition reads a virtual address (R26, R411, Table UCC-3): own memory through its
home, scratchpads, the host window (R230, R375), companion sites (R539) and other devices' memory (R229). -/

namespace Sys2Proof.Machine

/-- What a read finds. -/
inductive ReadResult where
  | data (bs : List Byte)
  /-- The bytes have been asked for and have not arrived. -/
  | waits
  | fault (status detail : Nat)
  deriving DecidableEq, Repr

/-- The cachelines that a range touches, by first byte. -/
def cachelinesOf (a n : Nat) : List Nat := (List.range ((a % 64 + n + 63) / 64)).map (fun i => a / 64 * 64 + 64 * i)

/-- Whether another device lets an address of its own be reached over the links: its LSM and scratchpads (R28). -/
def reachable (a : Nat) : Bool := match regionOf a with | .lsm => true | .spad _ _ => true | _ => false

/-- The bytes of a cacheline that has arrived from the host. -/
def hostLine (s : State) (p hpa : Nat) : Option (List Byte) :=
  match s.hostFetch.find? (fun h => h.1 = p && h.2.1 = hpa) with
  | some (_, _, some bs) => some bs
  | _ => none

/-- A cacheline is asked of the host, once. -/
def askHost (s : State) (p hpa : Nat) : State :=
  if s.hostFetch.any (fun h => h.1 = p && h.2.1 = hpa) then s
  else { s with hostFetch := s.hostFetch ++ [(p, hpa, none)] }.emit (.cacheRead hpa)

/-- Cachelines taken from those that have arrived: RdCurr allocates nothing (R230). -/
def dropHost (s : State) (p : Nat) (hs : List Nat) : State :=
  { s with hostFetch := s.hostFetch.filter (fun h => !(h.1 = p && decide (h.2.1 ∈ hs) && h.2.2.isSome)) }

/-- A host-window read at an offset (R230, R375): staged bytes of the line first, then the host's. -/
def readHost (s : State) (p off n : Nat) : State × ReadResult :=
  let byteAt := fun (o : Nat) => hwinLookup s p (off + o)
  if (List.range n).any (fun o => (byteAt o).isNone) then (s, .fault Status.badAddress Detail.hstHwinMiss)
  else
    let line := s.line p ((hwinBase + off) / 1024)
    let own := fun (o : Nat) => if line.state == .staged then oget line.data ((off + o) % 1024) else none
    let hpa := fun (o : Nat) => (byteAt o).getD 0
    let need := (((List.range n).filter (fun o => (own o).isNone)).map (fun o => hpa o / 64 * 64)).eraseDups
    if need.all (fun h => (hostLine s p h).isSome) then
      (dropHost s p need, .data ((List.range n).map (fun o =>
        (own o).getD (((hostLine s p (hpa o / 64 * 64)).getD []).getD (hpa o % 64) 0))))
    else (need.foldl (fun s h => askHost s p h) s, .waits)

/-- A request to a companion site goes out (R537). -/
def askSite (s : State) (i p off : Nat) (write : Bool) (bs : List Byte) : State :=
  (s.modSite i (fun x => { x with pending := x.pending ++ [(p, off, write)] })).emit
    (.companionRequest i write (compBase + i * compBytes + off) bs)

/-- A companion read (R539): cachelines that have arrived are taken, others asked for. -/
def readSite (s : State) (p i off n : Nat) : State × ReadResult :=
  if (s.site i).state ≠ 1 then (s, .fault Status.badAddress Detail.ptnPteRange)
  else
    let need := cachelinesOf off n
    let have' := fun (c : Nat) => ((s.site i).data.find? (fun d => d.1 = p && d.2.1 = c)).map (fun d => d.2.2)
    if need.all (fun c => (have' c).isSome) then
      (s.modSite i (fun x => { x with data := x.data.filter (fun d => !(d.1 = p && decide (d.2.1 ∈ need))) }),
        .data ((List.range n).map (fun o => ((have' ((off + o) / 64 * 64)).getD []).getD ((off + o) % 64) 0)))
    else
      (need.foldl (fun s c =>
        if (s.site i).pending.any (fun q => q.1 = p && q.2.1 = c && !q.2.2) || (s.site i).data.any (fun d => d.1 = p && d.2.1 = c)
        then s else askSite s i p c false []) s, .waits)

/-- A remote read (R229): the copy at its home, fetched first where it is not there. -/
def readRemote (s : State) (p a o n : Nat) : State × ReadResult :=
  if !hasRoute s p (lineDevice a) then (s, .fault Status.badAddress Detail.zlkNoRoute)
  else if !reachable (linePhys a) then (s, .fault Status.badAddress Detail.zlkItemAddress)
  else if (homeOf s p a).isNone then (s, .fault Status.partitionFault Detail.uccNoHome)
  else if (s.line p a).base.isEmpty then (askRemote s p a, .waits)
  else (s, .data ((List.range n).map (fun i => stagedByte s p a (o + i))))

/-- A read of `n` bytes at a system address by an agent of partition `p`, in the staging view. -/
def readSys (s : State) (p sys n : Nat) : State × ReadResult :=
  if sys / 2 ^ 44 ≠ ownNumber s then readRemote s p (lineOfSys s sys) (sys % 1024) n
  else
    let a := sys % 2 ^ 44
    match regionOf a with
    | .lsm => if (homeOf s p (a / 1024)).isNone then (s, .fault Status.partitionFault Detail.uccNoHome)
      else (s, .data (readStaged s p a n))
    | .spad i o => (s, .data ((List.range n).map (fun j => spadRead s i (o + j))))
    | .host o => readHost s p o n
    | .companion i o => readSite s p i o n
    | _ => (s, .fault Status.badAddress Detail.ptnPteRange)

/-- The same at a virtual address; a translation fault is recorded under the agent's number (R414). -/
def readVa (s : State) (p agent va n : Nat) : State × ReadResult :=
  match translate s p va false with
  | .error d => (recordFault s p va (d % 256) agent false, .fault Status.badAddress d)
  | .ok t => readSys s p t.sys n

end Sys2Proof.Machine
end

