-- ==== Sys2Proof/Machine/Program.lean ====
section
/-! DEFINITION. The schedule programs of a stall as their units read them: operation words (R96, R113, Table MXE-10,
Table PLN-7), the injections of a program with the tile each meets (R70 to R72, R106), and router tables (R121 to R125). -/

namespace Sys2Proof.Machine

/-! ## Operation words -/

/-- An operation word: its four quadwords. -/
abbrev OpWord := List Nat

/-- OP. -/
def opCode (w : OpWord) : Nat := bits (w.getD 0 0) 7 0
/-- FLAGS. -/
def opFlags (w : OpWord) : Nat := bits (w.getD 0 0) 15 8
/-- TICK. -/
def opTick (w : OpWord) : Nat := bits (w.getD 0 0) 39 16
/-- Quadword `j`. -/
def opQ (w : OpWord) (j : Nat) : Nat := w.getD j 0

/-- OP of FETCH, LOAD, PASS, SWAP. -/
def opFetch : Nat := 1
/-- LOAD. -/
def opLoad : Nat := 2
/-- PASS. -/
def opPass : Nat := 3
/-- SWAP. -/
def opSwap : Nat := 4
/-- STREAM of a scratchpad port. -/
def opStream : Nat := 0x10
/-- FILL. -/
def opFill : Nat := 0x11
/-- SPILL. -/
def opSpill : Nat := 0x12

/-! ### FETCH -/

/-- First block: virtual address or scratchpad offset. -/
def fetchAddr (w : OpWord) : Nat := bits (opQ w 1) 47 0
/-- Key slot; 0xF is a clear stream (R87). -/
def fetchSlot (w : OpWord) : Nat := bits (opQ w 1) 51 48
/-- Source: 0 memory, 1 relay, 2 scratchpad. -/
def fetchSource (w : OpWord) : Nat := bits (opQ w 1) 55 52
/-- TAG_BASE. -/
def fetchTags (w : OpWord) : Nat := bits (opQ w 3) 47 0
/-- Block count. -/
def fetchBlocks (w : OpWord) : Nat := bits (opQ w 3) 63 48

/-! ### LOAD -/

/-- Format of a LOAD. -/
def loadFormat (w : OpWord) : Nat := bits (opQ w 1) 35 32
/-- M. -/
def loadM (w : OpWord) : Nat := bits (opQ w 1) 43 36
/-- K. -/
def loadK (w : OpWord) : Nat := bits (opQ w 1) 51 44
/-- Offset of the element plane. -/
def loadElems (w : OpWord) : Nat := bits (opQ w 1) 22 0
/-- Offset of the scale plane. -/
def loadScales (w : OpWord) : Nat := bits (opQ w 2) 22 0
/-- FABRIC. -/
def loadFabric (w : OpWord) : Bool := bit (opFlags w) 1
/-- LO. -/
def loadLo (w : OpWord) : Bool := bit (opFlags w) 0
/-- Bits of an element in a LOAD's plane: an FP32S plane holds binary32 (R97). -/
def planeBits (code : Nat) : Nat := if code = 0xD then 32 else elemBits code

/-! ### PASS -/

/-- N. -/
def passN (w : OpWord) : Nat := bits (opQ w 1) 15 0
/-- Weight format. -/
def passFormat (w : OpWord) : Nat := bits (opQ w 1) 19 16
/-- Output format. -/
def passOut (w : OpWord) : Nat := bits (opQ w 1) 23 20
/-- Shift. -/
def passShift (w : OpWord) : Nat := bits (opQ w 1) 28 24
/-- y_in: 0 zero, 1 carry, 2 fabric. -/
def passYin (w : OpWord) : Nat := bits (opQ w 1) 33 32
/-- y_out: bit 0 carry, bit 1 scratchpad, bit 2 fabric. -/
def passYout (w : OpWord) : Nat := bits (opQ w 1) 36 34
/-- Carry base. -/
def passCarry (w : OpWord) : Nat := bits (opQ w 2) 10 0
/-- Scratchpad offset of the output elements. -/
def passElems (w : OpWord) : Nat := bits (opQ w 2) 54 32
/-- Scratchpad offset of the output scales. -/
def passScales (w : OpWord) : Nat := bits (opQ w 3) 22 0
/-- LAST. -/
def passLast (w : OpWord) : Bool := bit (opFlags w) 0

/-! ### Port operations -/

/-- Scratchpad offset of a STREAM. -/
def streamOff (w : OpWord) : Nat := bits (opQ w 1) 22 0
/-- Lanes of a STREAM. -/
def streamLanes (w : OpWord) : Nat := bits (opQ w 1) 28 24
/-- COUNT of a STREAM. -/
def streamCount (w : OpWord) : Nat := bits (opQ w 2) 23 0
/-- Virtual address of a FILL or SPILL. -/
def portVa (w : OpWord) : Nat := bits (opQ w 1) 47 0
/-- Scratchpad offset of a FILL or SPILL. -/
def portOff (w : OpWord) : Nat := bits (opQ w 2) 22 0
/-- Bytes of a FILL or SPILL. -/
def portBytes (w : OpWord) : Nat := bits (opQ w 3) 22 0

/-! ## Units -/

/-- Rows of a unit: 128, or 8 of an MVU (R102). -/
def unitRows (mvu : Bool) : Nat := if mvu then 8 else 128
/-- Ticks from injection to delivery (R69, R104). -/
def unitLatency (mvu : Bool) : Nat := if mvu then 24 else 262
/-- Ticks from a carry write's injection to the earliest read's (R73, R105). -/
def carryDistance (mvu : Bool) : Nat := unitLatency mvu + 1
/-- Ticks a load takes (R71, R106). -/
def loadTicks (mvu : Bool) (code : Nat) : Nat := if mvu then (if code = 0xD then 32 else 16) else 130

/-- A stationary tile's shape: format code, M and K. -/
structure Shape where
  format : Nat
  m : Nat
  k : Nat
  deriving DecidableEq, Repr, Inhabited

/-- The shape a LOAD gives. -/
def loadShape (w : OpWord) : Shape := { format := loadFormat w, m := loadM w, k := loadK w }

/-- What the array holds: nothing, the all +0 tile of R72, or the tile of the LOAD with an ordinal in its program. -/
inductive Active where
  | none
  | zero
  | load (n : Nat) (shape : Shape)
  deriving DecidableEq, Repr, Inhabited

/-- The shape a pass meets; the all +0 tile takes the pass's own format and every row and column (log entry 20). -/
def activeShape (mvu : Bool) (w : OpWord) (a : Active) : Shape :=
  match a with
  | .load _ x => x
  | _ => { format := passFormat w, m := unitRows mvu, k := 128 }

/-- One injection of a program: a PASS or a SWAP, its index, its first tick, its words, and the tile it meets. -/
structure Injection where
  index : Nat
  word : OpWord
  first : Nat
  words : Nat
  tile : Active
  /-- The rate class of the pass (R47, R78). -/
  rc : Nat
  /-- The last word carries the swap mark (R71). -/
  flagged : Bool
  deriving DecidableEq, Repr, Inhabited

/-- Its last injection tick. -/
def Injection.last (i : Injection) : Nat := i.first + i.words - 1
/-- Whether it is a PASS. -/
def Injection.isPass (i : Injection) : Bool := opCode i.word = opPass

/-- Insertion by TICK, after those of the same tick. -/
def insertOp (x : Nat × OpWord) : List (Nat × OpWord) → List (Nat × OpWord)
  | [] => [x]
  | y :: r => if opTick x.2 < opTick y.2 then x :: y :: r else y :: insertOp x r

/-- Operations with their indices, by TICK. -/
def byTick (ops : List OpWord) : List (Nat × OpWord) :=
  ((List.range ops.length).zip ops).foldl (fun l x => insertOp x l) []

/-- The LOADs of a program, by TICK: the ordinal of each is its place here. -/
def loadsOf (ops : List OpWord) : List OpWord := ((byTick ops).filter (fun x => opCode x.2 = opLoad)).map (fun x => x.2)

/-- The tile that a flagged word at tick `b` activates, after one at `a` (none: no flag before): the latest LOAD of
`a < t ≤ b`, else the tile that was active (R72). -/
def swapTo (loads : List OpWord) (a : Option Nat) (b : Nat) (cur : Active) : Active :=
  let hits := ((List.range loads.length).zip loads).filter (fun l => decide (opTick l.2 ≤ b) &&
    (match a with | none => true | some a => decide (a < opTick l.2)))
  match hits.getLast? with
  | some (n, w) => .load n (loadShape w)
  | none => match cur with | .none => .zero | x => x

/-- The injections of sorted operations, with the tile and the flag so far. -/
def injectFrom (mvu : Bool) (loads : List OpWord) : Active → Option Nat → List (Nat × OpWord) → List Injection
  | _, _, [] => []
  | cur, flag, (n, w) :: r =>
    if opCode w = opSwap then
      { index := n, word := w, first := opTick w, words := 1, tile := cur, rc := 1, flagged := true } ::
        injectFrom mvu loads (swapTo loads flag (opTick w) cur) (some (opTick w)) r
    else if opCode w = opPass then
      let rc := passRate (activeShape mvu w cur).format (passFormat w)
      let words := (passN w + rc - 1) / Nat.max 1 rc
      let i : Injection := { index := n, word := w, first := opTick w, words := words, tile := cur, rc := rc, flagged := passLast w }
      if passLast w then i :: injectFrom mvu loads (swapTo loads flag i.last cur) (some i.last) r
      else i :: injectFrom mvu loads cur flag r
    else injectFrom mvu loads cur flag r

/-- The injections of a program in injection order. -/
def injections (mvu : Bool) (ops : List OpWord) : List Injection := injectFrom mvu (loadsOf ops) .none none (byTick ops)

/-- The injection in progress at an epoch tick, with its word number. -/
def injectionAt (is : List Injection) (t : Nat) : Option (Injection × Nat) :=
  (is.find? (fun i => decide (i.first ≤ t) && decide (t < i.first + i.words))).map (fun i => (i, t - i.first))

/-- The last flagged word injected before tick `t`. -/
def flagBefore (is : List Injection) (t : Nat) : Option Nat :=
  (((is.filter (fun i => i.flagged && decide (i.last < t))).map (fun i => i.last)).max?)

/-- The first flagged word injected at or after tick `t`. -/
def flagFrom (is : List Injection) (t : Nat) : Option Nat :=
  (((is.filter (fun i => i.flagged && decide (t ≤ i.last))).map (fun i => i.last)).min?)

/-- The shape of the tile that a unit's active registers hold at tick `t`. -/
def activeAt (mvu : Bool) (ops : List OpWord) (t : Nat) : Active :=
  let is := injections mvu ops
  is.foldl (fun cur i => if i.flagged && decide (i.last < t) then
    swapTo (loadsOf ops) (flagBefore is i.last) i.last cur else cur) .none

/-- K of a pass rounded up to a whole MX block (R88). -/
def kPad (k : Nat) : Nat := (k + 31) / 32 * 32

/-- Element bytes, and scale bytes, of one weight word (R88). -/
def wordElemBytes (code rc k : Nat) : Nat := rc * (kPad k * elemBits code / 8)
/-- Scale bytes of one weight word. -/
def wordScaleBytes (code rc k : Nat) : Nat := if isMx code then rc * (kPad k / 32) else 0

/-! ## Router tables -/

/-- ENTRIES, PERIOD and START of a table at `off`. -/
def tableHeader (rd : Nat → Byte) (off : Nat) : Nat × Nat × Nat :=
  (bits (rdN rd off 8) 12 0, bits (rdN rd off 8) 40 16, bits (rdN rd (off + 8) 8) 23 0)

/-- Quadword `j` of entry `i`. -/
def entryQ (rd : Nat → Byte) (off i j : Nat) : Nat := rdN rd (off + 16 + 192 * i + 8 * j) 8
/-- DURATION of entry `i`. -/
def entryDuration (rd : Nat → Byte) (off i : Nat) : Nat := bits (entryQ rd off i 0) 15 0
/-- BELL of entry `i`. -/
def entryBell (rd : Nat → Byte) (off i : Nat) : Bool := bit (entryQ rd off i 0) 16
/-- SINK_MAP[l]. -/
def entrySink (rd : Nat → Byte) (off i l : Nat) : Nat := bits (entryQ rd off i 1) (4 * l + 3) (4 * l)
/-- SOURCE_MAP[l]. -/
def entrySource (rd : Nat → Byte) (off i l : Nat) : Nat := bits (entryQ rd off i 2) (4 * l + 3) (4 * l)
/-- SEL[j]. -/
def entrySel (rd : Nat → Byte) (off i j : Nat) : Nat := bits (entryQ rd off i (3 + j / 4)) (16 * (j % 4) + 15) (16 * (j % 4))

/-- The entry that covers an offset `u` of the period, from entry `i` with `n` entries to try (R121). -/
def entryFrom (rd : Nat → Byte) (off : Nat) : Nat → Nat → Nat → Option Nat
  | 0, _, _ => none
  | n + 1, i, u => if u < entryDuration rd off i + 1 then some i else entryFrom rd off n (i + 1) (u - (entryDuration rd off i + 1))

/-- The entry a table applies in epoch tick `t` (R121). -/
def entryAt (rd : Nat → Byte) (off t : Nat) : Option Nat :=
  let (n, period, start) := tableHeader rd off
  if t < start || period = 0 then none else entryFrom rd off n 0 ((t - start) % period)

end Sys2Proof.Machine
end

