-- ==== Sys2Proof/Machine/Feeder.lean ====
section
/-! DEFINITION. The weight feeder (R79 to R92, R549): blocks as they are fetched, checked, decrypted and unpacked, and the
weight words drawn from them. -/

namespace Sys2Proof.Machine

/-- A stall's feeder: of the engine, or of the MVU. -/
def feederOf (s : State) (i : Nat) (mvu : Bool) : Feeder := if mvu then (s.stall i).feederMvu else (s.stall i).feederMxe
/-- A stall's feeder changed. -/
def modFeeder (s : State) (i : Nat) (mvu : Bool) (f : Feeder → Feeder) : State :=
  s.modStall i (fun x => if mvu then { x with feederMvu := f x.feederMvu } else { x with feederMxe := f x.feederMxe })
/-- A stall's engine or MVU. -/
def munitOf (s : State) (i : Nat) (mvu : Bool) : MUnit := if mvu then (s.stall i).mvu else (s.stall i).mxe
/-- A stall's engine or MVU changed. -/
def modMunit (s : State) (i : Nat) (mvu : Bool) (f : MUnit → MUnit) : State :=
  s.modStall i (fun x => if mvu then { x with mvu := f x.mvu } else { x with mxe := f x.mxe })

/-- Bytes of a weight block. -/
def blockBytes : Nat := 65536
/-- Blocks the buffer of a stream holds (Table MXE-7). -/
def bufferBlocks (scales : Bool) : Nat := if scales then 2 else 3

/-! ## Weight pack (R89, R90) -/

/-- The code lengths of a pack block: `n` nibbles from byte 16. -/
def packLengths (bs : List Byte) (n : Nat) : List Nat := (List.range n).map (fun i => field bs (16 + i / 2) 1 / 16 ^ (i % 2) % 16)

/-- How many symbols have a length. -/
def countLen (ls : List Nat) (l : Nat) : Nat := (ls.filter (fun x => x = l)).length

/-- The first code of length `l` (RFC 1951): each length's codes follow those of the length before. -/
def firstCode (ls : List Nat) : Nat → Nat
  | 0 => 0
  | l + 1 => (firstCode ls l + (if l = 0 then 0 else countLen ls l)) * 2

/-- The symbol of a code of a length, if there is one. -/
def symbolOf (ls : List Nat) (l code : Nat) : Option Nat :=
  let syms := (List.range ls.length).filter (fun i => ls.getD i 0 = l)
  if l = 0 ∨ code < firstCode ls l then none else syms[code - firstCode ls l]?

/-- Bit `i` of a byte string, bit 0 of each byte first. -/
def bitAt (bs : List Byte) (i : Nat) : Bool := bit (field bs (i / 8) 1) (i % 8)

/-- Decodes `n` bits from bit `i`, with `l` bits of a code read: the symbols, or none where the bits end inside a code or
a code grows past 12 bits. -/
def decodeBits (ls : List Nat) (bs : List Byte) : Nat → Nat → Nat → Nat → Option (List Nat)
  | 0, _, l, _ => if l = 0 then some [] else none
  | n + 1, i, l, c =>
    let c := 2 * c + b2n (bitAt bs i)
    match symbolOf ls (l + 1) c with
    | some x => (decodeBits ls bs n (i + 1) 0 0).map (fun r => x :: r)
    | none => if l + 1 < 12 then decodeBits ls bs n (i + 1) (l + 1) c else none

/-- Feed-order bytes of decoded symbols: two 4-bit symbols a byte, the lower k in [3:0]. -/
def symbolBytes (four : Bool) : List Nat → List Byte
  | [] => []
  | [x] => if four then [] else [BitVec.ofNat 8 x]
  | x :: y :: r => if four then BitVec.ofNat 8 (x + 16 * y) :: symbolBytes four r else BitVec.ofNat 8 x :: symbolBytes four (y :: r)

/-- Whether the code lengths are accepted: at most 12, and complete or one symbol of length 1 (R90). -/
def packTableOk (ls : List Nat) : Bool :=
  ls.all (fun l => decide (l ≤ 12)) &&
    (decide (ls.foldl (fun t l => t + (if l = 0 then 0 else 2 ^ (12 - l))) 0 = 4096) ||
      (decide ((ls.filter (fun l => l ≠ 0)).length = 1) && ls.any (fun l => l = 1)))

/-- Whether every bit from `i` on is zero. -/
def zeroFrom (bs : List Byte) (i : Nat) : Bool := (List.range (8 * bs.length - i)).all (fun j => !bitAt bs (i + j))

/-- The feed-order bytes of a pack block drawn by a format of `w` bits, or none where R90 refuses it. -/
def unpack (bs : List Byte) (w : Nat) : Option (List Byte) :=
  let kind := field bs 0 1
  let out := field bs 4 4
  let inBits := field bs 8 4
  if field bs 1 3 ≠ 0 ∨ field bs 12 4 ≠ 0 ∨ out = 0 ∨ !(w = 4 || w = 8) then none
  else if kind = 0 then
    if inBits = 0 ∧ out ≤ 65520 ∧ zeroFrom bs (8 * (16 + out)) then some ((bs.drop 16).take out) else none
  else if (kind = 1 ∧ w = 4) ∨ (kind = 2 ∧ w = 8) then
    let n := if kind = 1 then 16 else 256
    let ls := packLengths bs n
    let start := 8 * (16 + n / 2)
    if out ≤ 131072 ∧ packTableOk ls ∧ 16 + n / 2 + (inBits + 7) / 8 ≤ blockBytes ∧ zeroFrom bs (start + inBits) then
      match decodeBits ls bs inBits start 0 0 with
      | none => none
      | some syms =>
        let bytes := symbolBytes (kind = 1) syms
        if bytes.length = out ∧ (kind = 2 ∨ syms.length = 2 * out) then some bytes else none
    else none
  else none

/-! ## Blocks -/

/-- The 12-byte IV of a block (R81). -/
def blockIv (k : Key) (index : Nat) : List Byte := natLe 4 k.nonce.toNat ++ natLe 8 index
/-- The additional data of a block (R81). -/
def blockAad (format : Nat) (scales : Bool) : List Byte := natLe 1 format ++ natLe 1 (b2n scales) ++ natLe 2 0
/-- The plaintext of a block: a clear stream is read as it stands (R87). -/
def blockPlain (f : Feeder) (b : Block) : List Byte :=
  if b.slot = 0xF then b.cipher
  else match tget? f.epochKeys b.slot with
    | none => b.cipher
    | some k => gcmPlain (natLe 32 k.key.toNat) (blockIv k b.index) b.cipher
/-- The tag a block should have under a format code. -/
def blockTag (f : Feeder) (b : Block) (format : Nat) : List Byte :=
  match tget? f.epochKeys b.slot with
  | none => []
  | some k => gcmTag (natLe 32 k.key.toNat) (blockIv k b.index) (blockAad format b.scales) b.cipher

/-- The feed-order bytes of a block for a format of `w` bits; none where a pack block is malformed. -/
def feedBytes (f : Feeder) (b : Block) (w : Nat) : Option (List Byte) :=
  if b.packed then unpack (blockPlain f b) w else some (blockPlain f b)

/-- Whether a block's tag is right: under the format of the pass that draws it; a block that no pass draws is judged
against no format, so under any (log entry 14). -/
def tagRight (f : Feeder) (b : Block) (format : Option Nat) : Bool :=
  match format with
  | some c => blockTag f b c = b.tag
  | none => (List.range 16).any (fun c => blockTag f b c = b.tag)

/-- Whether a pack block breaks R90 whatever format draws it; it is judged as it becomes ready (DEDUCED, log entry 161). -/
def neverAccepted (f : Feeder) (b : Block) : Bool :=
  b.packed && (feedBytes f b 4).isNone && (feedBytes f b 8).isNone

/-- How many feed-order bytes a verified block yields. -/
def feedLength (f : Feeder) (b : Block) : Nat := if b.packed then field (blockPlain f b) 4 4 else blockBytes

/-- Whether a block's lines and tag are all here. -/
def blockWhole (b : Block) : Bool := decide (64 ≤ b.lines) && (b.tagHere || b.slot = 0xF)

/-- Fetches begin blocks in order while the buffer of their stream has room; within a stream a fetch waits for the one
before it (R79). -/
def beginBlocks : Nat → Feeder → Feeder
  | 0, f => f
  | n + 1, f =>
    let room := fun (sc : Bool) => decide ((f.blocks.filter (fun b => b.scales == sc)).length < bufferBlocks sc)
    let firstOf := fun (sc : Bool) => f.fetches.find? (fun x => x.scales == sc && decide (x.asked < x.blocks))
    let go := fun (x : Fetch) =>
      let b : Block :=
        { index := (x.index + x.asked) % 2 ^ 64, va := x.va + blockBytes * x.asked
          tagVa := x.tagBase + 16 * (x.index + x.asked), slot := x.slot, source := x.source
          packed := x.packed, scales := x.scales, retain := x.retain, relayOut := x.relayOut }
      { f with blocks := f.blocks ++ [b], fetches := f.fetches.map (fun y => if y = x then { y with asked := y.asked + 1 } else y) }
    match firstOf false, firstOf true with
    | some x, some y =>
      if room false then beginBlocks n (go x) else if room true then beginBlocks n (go y) else f
    | some x, none => if room false then beginBlocks n (go x) else f
    | none, some y => if room true then beginBlocks n (go y) else f
    | none, none => f

/-- A FETCH joins the feeder's list (R92, R96). -/
def addFetch (f : Feeder) (w : OpWord) : Feeder :=
  beginBlocks 5 { f with fetches := f.fetches ++
    [{ va := fetchAddr w, slot := fetchSlot w, source := fetchSource w, index := opQ w 2, tagBase := fetchTags w
       blocks := fetchBlocks w, packed := bit (opFlags w) 0, retain := bit (opFlags w) 1, scales := bit (opFlags w) 2
       relayOut := bit (opFlags w) 3 }] }

/-! ## Drawing -/

/-- What a draw of feed-order bytes finds. -/
inductive Drawn where
  | bytes (bs : List Byte) (left : List Block) (done : Nat)
  /-- A block is not ready: the domain withholds the tick (R80). The bytes before it are here. -/
  | short (bs : List Byte) (left : List Block) (done : Nat)
  | malformed
  deriving DecidableEq, Repr

/-- Whether a drawn block may leave the buffer: a relayed one stays until it is forwarded whole. -/
def blockLeaves (b : Block) : Bool := !b.relayOut || decide (blockBytes + 64 ≤ b.relayed)

/-- A draw from a block and what stays of it, before a draw from the blocks after it. -/
def drawnFirst (got : List Byte) (stays : List Block) (fed : Nat) : Drawn → Drawn
  | .bytes bs left done => .bytes (got ++ bs) (stays ++ left) (done + fed)
  | .short bs left done => .short (got ++ bs) (stays ++ left) (done + fed)
  | .malformed => .malformed

/-- `n` bytes drawn from the blocks of one stream, in order, for a pass of `w`-bit elements; `done` counts the feed bytes of
the blocks it empties. A pack block is judged by the pass that draws its first byte (R90). From a block that failed its tag
on, zeros are drawn (R95). -/
def drawBlocks (f : Feeder) (w : Nat) : List Block → Nat → Drawn
  | bs, 0 => .bytes [] bs 0
  | [], _ + 1 => .short [] [] 0
  | b :: r, n + 1 =>
    if b.spent then drawnFirst [] (if blockLeaves b then [] else [b]) 0 (drawBlocks f w r (n + 1))
    else if b.failed then .bytes (List.replicate (n + 1) 0) (b :: r) 0
    else if !b.verified || b.wait ≠ 0 then .short [] (b :: r) 0
    else
      let width := if b.drawn = 0 then w else b.width
      match feedBytes f b width with
      | none => .malformed
      | some feed =>
        let got := (feed.drop b.drawn).take (n + 1)
        let b' := { b with drawn := b.drawn + got.length, width := width, spent := decide (feed.length ≤ b.drawn + got.length) }
        if !b'.spent then .bytes got (b' :: r) 0
        else drawnFirst got (if blockLeaves b then [] else [b']) feed.length (drawBlocks f w r (n + 1 - got.length))

/-- The blocks of one stream, in order. -/
def streamBlocks (f : Feeder) (scales : Bool) : List Block := f.blocks.filter (fun b => b.scales == scales)

/-- A feeder with the blocks of one stream replaced, and its next blocks begun. -/
def setStream (f : Feeder) (scales : Bool) (bs : List Block) (done : Nat) : Feeder :=
  beginBlocks 5 { f with
    blocks := f.blocks.filter (fun b => b.scales != scales) ++ bs
    elemFed := if scales then f.elemFed else f.elemFed + done
    scaleFed := if scales then f.scaleFed + done else f.scaleFed }

/-- The weights of a column and the scale bytes of its blocks, from the bytes of a word: `rc` columns of `kPad k` elements
(R88). -/
def wordWeights (code rc k : Nat) (bs : List Byte) : List Nat :=
  let b := elemBits code
  let x := leNat bs
  (List.range (rc * kPad k)).map (fun j => x / 2 ^ (b * j) % 2 ^ b)

/-! ## The format of a block (R81, R90) -/

/-- The weight format of the pass that draws byte `pos` of a stream, by the program. -/
def formatAt (mvu : Bool) (scales : Bool) : List Injection → Nat → Option Nat
  | [], _ => none
  | i :: r, pos =>
    if i.isPass then
      let k := (activeShape mvu i.word i.tile).k
      let n := i.words * (if scales then wordScaleBytes (passFormat i.word) i.rc k else wordElemBytes (passFormat i.word) i.rc k)
      if pos < n then some (passFormat i.word) else formatAt mvu scales r (pos - n)
    else formatAt mvu scales r pos

/-- Where a block's first byte stands in its stream: after every block before it. -/
def blockPos (f : Feeder) (b : Block) : Nat :=
  let before := ((streamBlocks f b.scales).takeWhile (fun x => x ≠ b)).filter (fun x => !x.spent)
  (if b.scales then f.scaleFed else f.elemFed) + before.foldl (fun t x => t + feedLength f x) 0

end Sys2Proof.Machine
end

