-- ==== Sys2Proof/Machine/Engine.lean ====
section
/-! DEFINITION. The matrix engine and the matrix-vector unit, tick by tick (spec/03, spec/04): loads (R97, R106),
injections (R68 to R73, R88), results (R48, R49, R52, R67), checks (R58 to R61, R110) and outputs (R98, R113). -/

namespace Sys2Proof.Machine

/-! ## The running program -/

/-- The part a stall runs in an epoch descriptor; none where it runs none. -/
def partAt (s : State) (rd : Nat → Byte) (d i : Nat) : Option Nat :=
  let q := epochPart rd d (positionOf s i)
  if q = 0xFFFF then none else some q

/-- Program `k` of a stall in a descriptor: 0 engine, 1 MVU, 2 to 5 ports. -/
def stallProgram (s : State) (rd : Nat → Byte) (d i k : Nat) : List OpWord :=
  match partAt s rd d i with
  | none => []
  | some q => programOf rd q k

/-- The number of a unit's program. -/
def unitProgram (mvu : Bool) : Nat := b2n mvu

/-! ## Scheduled scratchpad accesses (R97, R98, R106, R150) -/

/-- A scheduled access: the unit that makes it, its scratchpad offset, its bytes, and whether it writes. -/
structure SpadAccess where
  unit : Nat
  off : Nat
  bytes : Nat
  write : Bool
  deriving DecidableEq, Repr

/-- Bytes of `m` rows of `b`-bit elements. -/
def rowBytes (m b : Nat) : Nat := (m * b + 7) / 8

/-- The element columns that a LOAD takes in its tick `i`. With FABRIC an MVU takes eight in each of its first 16 ticks, of an
FP32S plane too (DESIGN CHOICE, log entry 158). -/
def loadColumns (mvu : Bool) (w : OpWord) (i : Nat) : List Nat :=
  if mvu then
    let d := loadTicks true (loadFormat w)
    let n := 128 / (if loadFabric w then 16 else d)
    ((List.range n).map (fun j => n * i + j)).filter (fun k => k < loadK w)
  else if i < loadK w then [i] else []

/-- The scale block that a LOAD reads in its tick `i`. -/
def loadScaleBlock (mvu : Bool) (w : OpWord) (i : Nat) : Option Nat :=
  let step := if mvu then loadTicks true (loadFormat w) / 4 else 32
  if isMx (loadFormat w) && i % step = 0 && decide (i / step < (loadK w + 31) / 32) then some (i / step) else none

/-- The accesses of a LOAD in epoch tick `t`. -/
def loadAccess (mvu : Bool) (w : OpWord) (t : Nat) : List SpadAccess :=
  if t < opTick w then []
  else
    let b := planeBits (loadFormat w)
    let cols := if loadFabric w then [] else loadColumns mvu w (t - opTick w)
    cols.map (fun k => { unit := 2 * b2n mvu, off := loadElems w + k * 16 * b, bytes := rowBytes (loadM w) b, write := false }) ++
      (match loadScaleBlock mvu w (t - opTick w) with
        | none => []
        | some j => [{ unit := 2 * b2n mvu, off := loadScales w + 128 * j, bytes := loadM w, write := false }])

/-- The width of an output element: a binary32 or INT32 output is 32 bits. -/
def outBits (code : Nat) : Nat := if code = 0 then 32 else elemBits code

/-- The columns of word `w` of a pass (R70). -/
def wordColumns (i : Injection) (w : Nat) : List Nat :=
  ((List.range i.rc).map (fun j => w * i.rc + j)).filter (fun n => n < passN i.word)

/-- The runs of 32 columns that word `w` completes (R98). -/
def runsDone (i : Injection) (w : Nat) : List Nat :=
  ((wordColumns i w).filter (fun n => n % 32 = 31 || n + 1 = passN i.word)).map (fun n => n / 32)

/-- The accesses of the output stage in the tick in which word `w` of a pass leaves. -/
def outputAccess (mvu : Bool) (i : Injection) (w : Nat) : List SpadAccess :=
  if !bit (passYout i.word) 1 then []
  else
    let m := (activeShape mvu i.word i.tile).m
    let b := outBits (passOut i.word)
    let col := fun (n : Nat) => ({ unit := 2 * b2n mvu + 1, off := passElems i.word + n * 16 * b, bytes := rowBytes m b, write := true } : SpadAccess)
    if isMx (passOut i.word) then
      (runsDone i w).flatMap (fun r =>
        { unit := 2 * b2n mvu + 1, off := passScales i.word + 128 * r, bytes := m, write := true } ::
          (List.range 32).map (fun j => col (32 * r + j)))
    else (wordColumns i w).map col

/-- The accesses of a unit's program in epoch tick `t`. -/
def unitAccess (mvu : Bool) (ops : List OpWord) (is : List Injection) (t : Nat) : List SpadAccess :=
  (loadsOf ops).flatMap (fun w => loadAccess mvu w t) ++
    is.flatMap (fun i => if i.isPass && decide (i.first + unitLatency mvu ≤ t) && decide (t < i.first + unitLatency mvu + i.words)
      then outputAccess mvu i (t - i.first - unitLatency mvu) else [])

/-- The STREAM of a port in progress in tick `t`. -/
def streamAt (ops : List OpWord) (t : Nat) : Option OpWord :=
  ops.find? (fun w => opCode w = opStream && decide (opTick w ≤ t) && decide (t < opTick w + streamCount w))

/-- Where a STREAM stands in the scratchpad in tick `t`. -/
def streamOffset (w : OpWord) (t : Nat) : Nat := streamOff w + 64 * streamLanes w * (t - opTick w)

/-- The access of port `k` (2 to 5) in tick `t`. -/
def portAccess (k : Nat) (ops : List OpWord) (t : Nat) : List SpadAccess :=
  match streamAt ops t with
  | none => []
  | some w => [{ unit := 2 + k, off := streamOffset w t, bytes := 64 * streamLanes w, write := decide (4 ≤ k) }]

/-- Every scheduled access of a part in tick `t`. -/
def partAccess (rd : Nat → Byte) (q t : Nat) : List SpadAccess :=
  [false, true].flatMap (fun mvu =>
    let ops := programOf rd q (unitProgram mvu)
    unitAccess mvu ops (injections mvu ops) t) ++
  [2, 3, 4, 5].flatMap (fun k => portAccess k (programOf rd q k) t)

/-- The 1 KiB blocks an access touches. -/
def accessBlocks (a : SpadAccess) : List Nat :=
  if a.bytes = 0 then [] else (List.range ((a.off + a.bytes - 1) / 1024 - a.off / 1024 + 1)).map (fun j => a.off / 1024 + j)

/-! ## Tiles -/

/-- The element of a tile: bits of row m and column k, 0 where nothing was loaded. -/
def tileElem (t : Tile) (m k : Nat) : Nat := tget t.elems (128 * k + m)
/-- The scale of a tile's row m and block j, 0x7F where none was read (R97). -/
def tileScale (t : Tile) (m j : Nat) : Nat := (tget? t.scales (128 * j + m)).getD 0x7F

/-- Element `m` of a column's bit string in `b`-bit elements. -/
def elemOf (x b m : Nat) : Nat := x / 2 ^ (b * m) % 2 ^ b

/-- A loaded element: an FP32S plane is split by LO (R56, R97). -/
def loadElem (w : OpWord) (x : Nat) : Nat :=
  if loadFormat w = 0xD then (if loadLo w then splitLo x else splitHi x) else x

/-- One column, as its bit string, written into a tile. -/
def putColumn (w : OpWord) (t : Tile) (k x : Nat) : Tile :=
  let b := planeBits (loadFormat w)
  { t with elems := (List.range (loadM w)).foldl (fun e m => tset e (128 * k + m) (loadElem w (elemOf x b m))) t.elems }

/-- The empty tile of a LOAD. -/
def newTile (w : OpWord) : Tile := { format := loadFormat w, m := loadM w, k := loadK w }

/-- The tile that a pass meets; the all +0 tile has no entries. -/
def tileOf (u : MUnit) (mvu : Bool) (i : Injection) : Tile :=
  match i.tile with
  | .load n x => (tget? u.tiles n).getD { format := x.format, m := x.m, k := x.k }
  | _ => let x := activeShape mvu i.word i.tile
    { format := x.format, m := x.m, k := x.k }

/-! ## Results (R48, R49, R51) -/

/-- Weight `k` of column `j` of a word; the feeder injects zero from K rounded up to 127 (R88). -/
def wordElem (o : OutWord) (kp j k : Nat) : Nat := if k < kp then o.weights.getD (j * kp + k) 0 else 0
/-- Scale of block `b` of column `j`. -/
def wordScale (o : OutWord) (kp j b : Nat) : Nat := if b < kp / 32 then o.scales.getD (j * (kp / 32) + b) 0x7F else 0x7F

/-- The code under which a weight stream's elements are read: 0xD carries bfloat16 (R47). -/
def weightCode (c : Nat) : Nat := if c = 0xD then 0x1 else c

/-- The product that the cell of row m and column k forms for column j of a word (R48, R51). -/
def cellProduct (t : Tile) (o : OutWord) (wf kp j m k : Nat) : Fl :=
  if isIntFmt t.format then flOfInt (elemInt t.format (tileElem t m k) * elemInt wf (wordElem o kp j k)) 0 false
  else flMul (elemFl t.format (tileElem t m k) (tileScale t m (k / 32)))
    (elemFl (weightCode wf) (wordElem o kp j k) (wordScale o kp j (k / 32)))

/-- A group register that is complete joins the running value, and is empty after (R48, R49, R51). -/
def closeGroup (isInt : Bool) (scale : Int) (a : PartialSum) : PartialSum :=
  if isInt then
    { a with value := ((a.group.foldl (fun (x : Int) p => match p with | Fl.fin neg n _ => if neg then x - n else x + n | _ => x)
        (a.value : Int)) % 2 ^ 32).toNat, group := [] }
  else
    let g := groupSum a.group scale
    { value := chainAdd a.value g, group := [], skipped := a.skipped + b2n (!flIsFin g) }

/-- A product joins the group register; the cell of logical column 31, 63, 95 or 127 closes the group (R67). -/
def cellStep (isInt : Bool) (k : Nat) (scale : Int) (p : Fl) (a : PartialSum) : PartialSum :=
  let a := { a with group := a.group ++ [p] }
  if k % 32 = 31 then closeGroup isInt scale a else a

/-- What the cell of row m and column k does to the registers of its row for column j of a word. -/
def useCell (t : Tile) (o : OutWord) (wf kp j m k : Nat) (a : PartialSum) : PartialSum :=
  cellStep (isIntFmt t.format) k
    (scaleExp t.format (weightCode wf) (tileScale t m (k / 32)) (wordScale o kp j (k / 32))) (cellProduct t o wf kp j m k) a

/-- y_out of row m, column j of a word whose weights are all there: the row's 128 cells in ascending k (R49, R52). -/
def cellOut (t : Tile) (o : OutWord) (wf kp j m y : Nat) : PartialSum :=
  (List.range 128).foldl (fun a k => useCell t o wf kp j m k a) { value := y }

/-! ## The checksum row (R58 to R61) -/

/-- The value of a tile's element with its scale applied. -/
def tileValue (t : Tile) (m k : Nat) : Fl :=
  let v := elemFl t.format (tileElem t m k) (tileScale t m (k / 32))
  if isMx t.format then flScale v ((tileScale t m (k / 32) : Int) - 127) else v

/-- X_k or A_k of R58. -/
def columnSum (t : Tile) (mag : Bool) (k : Nat) : Nat :=
  sum32 ((List.range 128).map (fun m => let v := tileValue t m k; if mag then flAbs v else v))

/-- The product of the checksum row's cell of column k for c, or with `mag` for a, of column j of a word (R58, R59). -/
def checkProduct (t : Tile) (o : OutWord) (wf kp j : Nat) (mag : Bool) (k : Nat) : Fl :=
  if isIntFmt t.format then
    flOfInt ((List.range 128).foldl (fun (z : Int) m => z + elemInt t.format (tileElem t m k)) 0 * elemInt wf (wordElem o kp j k)) 0 false
  else
    let w := elemFl (weightCode wf) (wordElem o kp j k) (wordScale o kp j (k / 32))
    flMul (of32 (columnSum t mag k)) (if mag then flAbs w else w)

/-- What the checksum row's cell of column k does to the registers of c, or of a, for column j of a word. -/
def checkCell (t : Tile) (o : OutWord) (wf kp j : Nat) (mag : Bool) (k : Nat) (a : PartialSum) : PartialSum :=
  cellStep (isIntFmt t.format) k (if isMx wf then (wordScale o kp j (k / 32) : Int) - 127 else 0)
    (checkProduct t o wf kp j mag k) a

/-- The comparison of a column with its c and a: none where it is not compared (R59 to R61). -/
def checkColumn (isInt : Bool) (tol c a : Nat) (ys : List (Nat × Nat)) : Option Bool :=
  if isInt then some (((c : Int) - ys.foldl (fun (x : Int) y => x + (y.2 : Int) - (y.1 : Int)) 0) % 4294967296 == 0)
  else checkFloat tol c a (ys.map (fun y => flAdd (of32 y.2) (flNeg (of32 y.1))))

/-! ## The array (R65 to R69, R93) -/

/-- The physical positions that carry logical 0 to 127, in order: those of 130 that are not mapped out (Table MXE-1). -/
def dataPositions (out : List Nat) : List Nat := ((List.range 130).filter (fun x => !decide (x ∈ out))).take 128

/-- The logical column whose cell of physical row `r` uses a word of an age: that of physical column age − 1 − r. A
mapped-out position and an unused spare are none, and forward (R66, R68). -/
def cellAt (cols : List Nat) (age r : Nat) : Option Nat := if age ≤ r then none else cols.idxOf? (age - 1 - r)

/-- The weight registers of a word of an age: a column's are empty two ticks after its last row has used them (R93). -/
def wipeWeights (cols : List Nat) (kp : Nat) (o : OutWord) : OutWord :=
  let used := fun (k : Nat) => decide (cols.getD k 0 + 132 < o.age)
  { o with
    weights := o.weights.mapIdx (fun x v => if used (x % kp) then 0 else v)
    scales := o.scales.mapIdx (fun x v => if used (32 * (x % (kp / 32)) + 31) then 0 else v) }

/-- A word one tick further through the engine's array (R68). -/
def arrayTick (rows cols : List Nat) (t : Tile) (wf kp : Nat) (o : OutWord) : OutWord :=
  let o := { o with age := o.age + 1 }
  wipeWeights cols kp { o with
    sums := o.sums.mapIdx (fun x a => match cellAt cols o.age (rows.getD (x % 128) 0) with
      | none => a
      | some k => useCell t o wf kp (x / 128) (x % 128) k a)
    checks := o.checks.mapIdx (fun x a => match cellAt cols o.age 130 with
      | none => a
      | some k => checkCell t o wf kp (x / 2) (x % 2 = 1) k a) }

/-- A word one tick further through the MVU: its products are formed in the tick after its injection, and its weights are
gone two ticks later (Table MVU-2, R93). -/
def vectorTick (t : Tile) (wf kp : Nat) (o : OutWord) : OutWord :=
  let o := { o with age := o.age + 1 }
  if o.age = 1 then { o with sums := o.sums.mapIdx (fun x a => cellOut t o wf kp (x / 8) (x % 8) a.value) }
  else if o.age = 3 then { o with weights := [], scales := [] }
  else o

/-- T of a pass (R63). -/
def passTolerance (rd : Nat → Byte) (x w : Nat) : Nat :=
  let sec := sectionOf rd 4 0
  let tbl := if sec.bytes = 0 then [] else (List.range 16).map (fun c => rd (sec.off + c))
  Nat.max (toleranceOf tbl x) (toleranceOf tbl w)

/-- A word as it leaves: its columns with y_in and y_out of every row, whether its comparison passes, and how many
columns or groups were not checked. -/
def deliver (rd : Nat → Byte) (mvu : Bool) (u : MUnit) (i : Injection) (o : OutWord) :
    List (Nat × List (Nat × Nat)) × Bool × Nat :=
  let t := tileOf u mvu i
  let rows := unitRows mvu
  let sum := fun (j m : Nat) => o.sums.getD (j * rows + m) {}
  let cols := ((List.range i.rc).zip (wordColumns i o.word)).map (fun c =>
    (c.1, c.2, (List.range rows).map (fun m => (o.yin.getD (c.1 * rows + m) 0, (sum c.1 m).value))))
  let check := fun (x : Nat) => (o.checks.getD x {}).value
  let verdicts := if mvu then []
    else cols.map (fun c => checkColumn (isIntFmt t.format) (passTolerance rd t.format (passFormat i.word)) (check (2 * c.1))
      (check (2 * c.1 + 1)) c.2.2)
  let skipped := if mvu
    then cols.foldl (fun n c => n + (List.range t.m).foldl (fun n m => n + (sum c.1 m).skipped) 0) 0
    else (verdicts.filter (fun v => v.isNone)).length
  (cols.map (fun c => (c.2.1, c.2.2)), verdicts.all (fun v => v.getD true), skipped)

/-! ## Outputs (R98, R113) -/

/-- One value converted to a scalar output format. -/
def convOut (intPass : Bool) (code shift y : Nat) : Nat :=
  if intPass then
    match code with | 0xA => convInt 8 shift y | 0xB => convInt 4 shift y | _ => y % 2 ^ 32
  else convFloat code y

/-- `n` rows of `b`-bit elements written at a scratchpad offset; bits beyond the last row stay. -/
def putRows (s : State) (i off b : Nat) (vs : List Nat) : State :=
  let n := vs.length * b
  let x := ((List.range vs.length).zip vs).foldl (fun x v => x + v.2 % 2 ^ b * 2 ^ (b * v.1)) 0
  let keep := if n % 8 = 0 then 0 else (spadRead s i (off + n / 8)).toNat / 2 ^ (n % 8) * 2 ^ n
  spadPut s i off (natLe ((n + 7) / 8) (x + keep))

/-- The columns of a run from the unit's buffer: their rows' binary32 values. -/
def runValues (u : MUnit) (m : Nat) (cols : List Nat) : List Fl := cols.map (fun n => of32 (tget u.run (65536 * m + n)))

/-- A completed MX run written: 32 columns of elements, and the scale bytes (R45, R98). -/
def putRun (s : State) (i : Nat) (mvu : Bool) (w : OpWord) (m r : Nat) : State :=
  let u := munitOf s i mvu
  let cols := ((List.range 32).map (fun j => 32 * r + j)).filter (fun n => n < passN w)
  let b := outBits (passOut w)
  let blocks := (List.range m).map (fun row => mxBlock (passOut w) (runValues u row cols))
  let s := (List.range 32).foldl (fun s j =>
    putRows s i (passElems w + (32 * r + j) * 16 * b) b (blocks.map (fun x => x.2.getD j 0))) s
  let s := spadPut s i (passScales w + 128 * r) (blocks.map (fun x => BitVec.ofNat 8 x.1))
  modMunit s i mvu (fun u => { u with run := u.run.filter (fun e => e.1 % 65536 / 32 ≠ r) })

/-- A word's results written: carry buffer, scratchpad (R73, R98); the fabric takes them in the same tick. The carry buffer
takes every row of the unit (DESIGN CHOICE, log entry 157). -/
def putWord (s : State) (i : Nat) (mvu : Bool) (inj : Injection) (o : OutWord) (cols : List (Nat × List (Nat × Nat))) : State :=
  let w := inj.word
  let m := (activeShape mvu w inj.tile).m
  let isInt := isIntFmt (activeShape mvu w inj.tile).format
  let lay := fun (t : Tbl Nat) (wide base rows : Nat) =>
    cols.foldl (fun t c => ((List.range rows).zip c.2).foldl (fun t y => tset t (wide * y.1 + base + c.1) y.2.2) t) t
  let s := if bit (passYout w) 0 then modMunit s i mvu (fun u => { u with carry := lay u.carry 2048 (passCarry w) (unitRows mvu) })
    else s
  if !bit (passYout w) 1 then s
  else if isMx (passOut w) then
    let s := modMunit s i mvu (fun u => { u with run := lay u.run 65536 0 m })
    (runsDone inj o.word).foldl (fun s r => putRun s i mvu w m r) s
  else cols.foldl (fun s c =>
    putRows s i (passElems w + c.1 * 16 * outBits (passOut w)) (outBits (passOut w))
      ((c.2.take m).map (fun y => convOut isInt (passOut w) (passShift w) y.2))) s

/-! ## Loads and injections -/

/-- The columns that a LOAD takes in tick `t` written into its tile; `fabric` gives the bytes of the mapped lanes. Eight
columns of an MVU_LOAD are one bit string, B · b bits each (Table FAB-5). -/
def loadTick (s : State) (i : Nat) (mvu : Bool) (n : Nat) (w : OpWord) (t : Nat) (fabric : List Byte) : State :=
  if t < opTick w ∨ opTick w + loadTicks mvu (loadFormat w) ≤ t then s
  else
    let j := t - opTick w
    let b := planeBits (loadFormat w)
    let cols := loadColumns mvu w j
    let read := fun (k : Nat) =>
      if loadFabric w then leNat fabric / 2 ^ (if mvu then k % 8 * (loadM w * b) else 0)
      else leNat ((List.range (rowBytes (loadM w) b)).map (fun x => spadRead s i (loadElems w + k * 16 * b + x)))
    let base := (tget? (munitOf s i mvu).tiles n).getD (newTile w)
    let tile := cols.foldl (fun x k => putColumn w x k (read k)) base
    let tile := match loadScaleBlock mvu w j with
      | none => tile
      | some g => { tile with scales := (List.range (loadM w)).foldl (fun e m =>
          tset e (128 * g + m) (spadRead s i (loadScales w + 128 * g + m)).toNat) tile.scales }
    modMunit s i mvu (fun u => { u with tiles := tset u.tiles n tile })

/-- The LOADs of a program in tick `t`. -/
def loadsTick (s : State) (i : Nat) (mvu : Bool) (ops : List OpWord) (t : Nat) (fabric : List Byte) : State :=
  let ls := loadsOf ops
  ((List.range ls.length).zip ls).foldl (fun s l => loadTick s i mvu l.1 l.2 t fabric) s

/-- What a stream gives for the rest of a word of a pass. -/
def drawStream (f : Feeder) (mvu : Bool) (i : Injection) (scales : Bool) : Drawn :=
  let k := (activeShape mvu i.word i.tile).k
  let wf := passFormat i.word
  if scales then drawBlocks f 8 (streamBlocks f true) (wordScaleBytes wf i.rc k - f.scaleHeld.length)
  else drawBlocks f (elemBits wf) (streamBlocks f false) (wordElemBytes wf i.rc k - f.elemHeld.length)

/-- What the feeder gives for a word of a pass: element and scale bytes and the feeder after, or why not: `true` for a
malformed block, `false` for one that is not ready. -/
def drawWord (f : Feeder) (mvu : Bool) (i : Injection) : Except Bool (List Byte × List Byte × Feeder) :=
  match drawStream f mvu i false, drawStream f mvu i true with
  | .malformed, _ => .error true
  | _, .malformed => .error true
  | .bytes es left done, .bytes ss left' done' =>
    .ok (f.elemHeld ++ es, f.scaleHeld ++ ss,
      { setStream (setStream f false left done) true left' done' with elemHeld := [], scaleHeld := [] })
  | _, _ => .error false

/-- While a word is due and not ready, what its streams have for it moves to the unpack registers, and the blocks it
empties make room (R91). -/
def gatherWord (f : Feeder) (mvu : Bool) (i : Injection) : Feeder :=
  let keep := fun (f : Feeder) (scales : Bool) => match drawStream f mvu i scales with
    | .short bs left done =>
      let f := setStream f scales left done
      if scales then { f with scaleHeld := f.scaleHeld ++ bs } else { f with elemHeld := f.elemHeld ++ bs }
    | _ => f
  keep (keep f false) true

/-- y_in of the rows and columns of a word: zero, the carry buffer, or the fabric's bytes (R73, R105, R125). -/
def wordYin (u : MUnit) (mvu : Bool) (i : Injection) (w : Nat) (fabric : List Byte) (half : Bool) : List Nat :=
  let rows := unitRows mvu
  let fr := if mvu then (activeShape mvu i.word i.tile).m else 128
  (wordColumns i w).zip (List.range i.rc) |>.flatMap (fun c => (List.range rows).map (fun m =>
    match passYin i.word with
    | 1 => tget u.carry (2048 * m + passCarry i.word + c.1)
    | 2 => if m < fr then
        (if half then 65536 * field fabric (2 * (c.2 * fr + m)) 2 else field fabric (4 * (c.2 * fr + m)) 4) else 0
    | _ => 0))

/-- Word `w` of a pass injected in tick `t` (R70, R88). -/
def injectWord (s : State) (i : Nat) (mvu : Bool) (inj : Injection) (w t : Nat) (es ss : List Byte) (f : Feeder)
    (fabric : List Byte) (half : Bool) : State :=
  let k := (activeShape mvu inj.word inj.tile).k
  let yin := wordYin (munitOf s i mvu) mvu inj w fabric half
  let o : OutWord :=
    { leave := t + unitLatency mvu, index := inj.index, word := w
      weights := wordWeights (passFormat inj.word) inj.rc k es, scales := ss.map (fun b => b.toNat)
      yin := yin
      sums := (List.range (unitRows mvu * inj.rc)).map (fun x => { value := yin.getD x 0 })
      checks := if mvu then [] else List.replicate (2 * inj.rc) {} }
  modMunit (modFeeder s i mvu (fun _ => f)) i mvu (fun u => { u with inflight := u.inflight ++ [o] })

/-- The words in a unit go one tick further. -/
def moveWords (s : State) (i : Nat) (mvu : Bool) (ops : List OpWord) : State :=
  let q := positionOf s i
  let rows := dataPositions (tget s.fuses.rowsOut q)
  let cols := dataPositions (tget s.fuses.colsOut q)
  let is := injections mvu ops
  modMunit s i mvu (fun u => { u with inflight := u.inflight.map (fun o =>
    match is.find? (fun x => x.index = o.index) with
    | none => o
    | some inj =>
      let t := tileOf u mvu inj
      let wf := passFormat inj.word
      if mvu then vectorTick t wf (kPad t.k) o else arrayTick rows cols t wf (kPad t.k) o) })

end Sys2Proof.Machine
end

