-- ==== Sys2Proof/Machine/Fabric.lean ====
section
/-! DEFINITION. The scheduled fabric (R117 to R134): the mesh with its pass-through routers, die crossings, router
tables tick by tick, local endpoints, and bell neighbours (R155, R156). -/

namespace Sys2Proof.Machine

/-- A flit's payload; no entry is an empty flit. -/
abbrev Flit := BitVec 512

/-! ## Flits with their parity (R119, R128) -/

/-- The eight parity bits of a flit: bit i covers bytes 8i to 8i + 7, and bit 7 the valid bit too. Each is even (log entry
147). -/
def flitParity (v : Flit) (valid : Bool) : Byte :=
  BitVec.ofNat 8 (ofBits ((List.range 8).filter (fun i =>
    (popCount (v.toNat / 2 ^ (64 * i)) 64 + (if i = 7 then b2n valid else 0)) % 2 = 1)))

/-- A flit as a router sends it: with parity. -/
def wireOf (f : Option Flit) : WireFlit :=
  match f with
  | none => {}
  | some v => { payload := v, valid := true, parity := flitParity v true }

/-- The contents of a flit, as they enter a router's operations. -/
def wireFlit (w : WireFlit) : Option Flit := if w.valid then some w.payload else none

/-- Whether a flit fails its parity check. -/
def wireBad (w : WireFlit) : Bool := flitParity w.payload w.valid != w.parity

/-- The payload of a bell flit (Table PLN-9). -/
def bellPayload (f : BellFlit) : Flit :=
  BitVec.ofNat 512 (pack [(0, 64, f.ready), (64, 1, b2n f.error), (65, 1, b2n f.nonrepl), (128, 32, f.seq)])

/-- The bell flit that a lane carries; an empty flit carries nothing. -/
def wireBell (w : WireFlit) : BellFlit :=
  match wireFlit w with
  | none => {}
  | some v => { ready := v.toNat % 2 ^ 64, error := v.getLsbD 64, nonrepl := v.getLsbD 65, seq := bits v.toNat 159 128 }

/-! ## The mesh (R17, R130) -/

/-- The opposite port: N 0, E 1, S 2, W 3. -/
def opposite (dir : Nat) : Nat := (dir + 2) % 4

/-- The die edge that a port of a die's rim faces, and whether the die is the one named first (Table ORG-5). -/
def dieEdge (d dir : Nat) : Option (Nat × Bool) :=
  match d, dir with
  | 0, 1 => some (0, true) | 0, 2 => some (2, true)
  | 1, 3 => some (0, false) | 1, 2 => some (3, true)
  | 2, 1 => some (1, true) | 2, 0 => some (2, false) | 2, 2 => some (4, true)
  | 3, 3 => some (1, false) | 3, 0 => some (3, false) | 3, 2 => some (5, true)
  | _, _ => none

/-- The logical stall at a physical position 18 · die + p (R12). -/
def stallAt (s : State) (q : Nat) : Option Nat :=
  let es := enabledPos s (q / 18)
  let n := es.findIdx (fun p => p = q % 18)
  if n < es.length ∧ n < 16 then some (16 * (q / 18) + n) else none

/-- Whether a position's router is pass-through (R130, R131): harvested, or fenced, but for a fence its partition's job
has yet to meet at a bell. -/
def passThrough (s : State) (q : Nat) : Bool :=
  match stallAt s q with
  | none => true
  | some i => isFenced s i && !(match ownerOfStall s i with
    | some p => (s.part p).job.running && (s.part p).job.fencePending
    | none => false)

/-- What lies one hop from a router. -/
inductive Hop where
  | router (q : Nat)
  | edge (e : Nat) (first : Bool)
  | package
  deriving DecidableEq, Repr

/-- A die edge, or the package's. -/
def rimHop (q dir : Nat) : Hop := match dieEdge (q / 18) dir with | some (e, f) => .edge e f | none => .package

/-- One hop from position `q` through a port. -/
def hop (q dir : Nat) : Hop :=
  let r := q % 18 / 6
  let c := q % 18 % 6
  match dir with
  | 0 => if 0 < r then .router (q - 6) else rimHop q 0
  | 1 => if c < 5 then .router (q + 1) else rimHop q 1
  | 2 => if r < 2 then .router (q + 6) else rimHop q 2
  | _ => if 0 < c then .router (q - 1) else rimHop q 3

/-- Where a port leads through `n` pass-through routers: a router, or an edge at the position of its edge router. -/
inductive Reach where
  | router (q n : Nat)
  | crossing (e : Nat) (first : Bool) (q n : Nat)
  | nowhere
  deriving DecidableEq, Repr

/-- Follows a port of a router straight on. -/
def reachFrom (s : State) (dir : Nat) : Nat → Nat → Nat → Reach
  | 0, _, _ => .nowhere
  | k + 1, q, n =>
    match hop q dir with
    | .router q' => if passThrough s q' then reachFrom s dir k q' (n + 1) else .router q' n
    | .edge e f => .crossing e f q n
    | .package => .nowhere

/-- Where a port of a router leads. -/
def reach (s : State) (q dir : Nat) : Reach := reachFrom s dir 7 q 0

/-- Routers along an edge: 3 of an east–west edge, 6 of a north–south edge. -/
def edgeLength (e : Nat) : Nat := if e < 2 then 3 else 6
/-- Where a position stands along an edge. -/
def edgePos (e q : Nat) : Nat := if e < 2 then q % 18 / 6 else q % 18 % 6
/-- The edge router of position `x` on a side of an edge. -/
def edgeRouter (e : Nat) (first : Bool) (x : Nat) : Nat :=
  match e, first with
  | 0, true => 6 * x + 5 | 0, false => 18 + 6 * x
  | 1, true => 36 + 6 * x + 5 | 1, false => 54 + 6 * x
  | 2, true => 12 + x | 2, false => 36 + x
  | 3, true => 18 + 12 + x | 3, false => 54 + x
  | 4, _ => 36 + 12 + x
  | _, _ => 54 + 12 + x
/-- The die on a side of an edge; the hub is side 2 of edges 4 and 5. -/
def edgeDie (e : Nat) (first : Bool) : Nat := edgeRouter e first 0 / 18
/-- The port that faces the edge from a side. -/
def edgeDir (e : Nat) (first : Bool) : Nat :=
  if e < 2 then (if first then 1 else 3) else (if first then 2 else 0)

/-- The stream modules attached at a position of an edge, ascending (R17, R19). -/
def modulesAt (s : State) (e x : Nat) : List Nat :=
  (setBits (edgeMask s e) 12).filter (fun m => m * edgeLength e / edgeModules e = x)

/-- The module a lane toward an edge belongs to. -/
def laneModule (s : State) (e q i : Nat) : Option Nat := (modulesAt s e (edgePos e q))[i]?

/-- Whether a stream module is granted to a partition (R20). -/
def moduleGranted (s : State) (p e m : Nat) : Bool := bit (recordModules (s.part p).record e) m

/-- The number of a module's direction: F is 0, V is 1. -/
def crossKey (e m dir : Nat) : Nat := 32 * e + 2 * m + dir

/-- The granted modules whose sending half a die holds: edge, module, and the side. -/
def sendsOn (s : State) (p d : Nat) : List (Nat × Nat × Bool) :=
  (List.range 6).flatMap (fun e => [true, false].flatMap (fun f =>
    if edgeDie e f = d && (e < 4 || f) then
      ((setBits (edgeMask s e) 12).filter (fun m => moduleGranted s p e m)).map (fun m => (e, m, f))
    else []))

/-- The next epoch tick of the domain that receives what a side sends; link engines tick with the die at their edge. -/
def receiverTick (s : State) (p e : Nat) (first : Bool) : Nat :=
  (s.dom p (if e < 4 then edgeDie e (!first) else edgeDie e true)).epochTick

/-- Flits of a crossing not yet delivered (R133). -/
def undelivered (s : State) (p e m : Nat) (first : Bool) : Nat :=
  ((tget s.crossings (crossKey e m (b2n (!first)))).flits.filter
    (fun x => decide (receiverTick s p e first ≤ x.tick + 6))).length

/-! ## A router's inputs -/

/-- A lane's flit among output registers `n` ticks older than the newest. -/
def laneOf (h : List (Tbl WireFlit)) (n j : Nat) : WireFlit :=
  match h[n]? with | none => {} | some t => (tget? t j).getD {}

/-- The flit of a sender tick in a crossing: none where it has not arrived. -/
def crossFlit (s : State) (key τ : Nat) : Option CrossFlit := (tget s.crossings key).flits.find? (fun x => x.tick = τ)

/-- The flit that a module delivers in epoch tick `t` behind `n` pass-through routers (R132): none where it has not
arrived. -/
def moduleIn (s : State) (p e m : Nat) (first : Bool) (n t : Nat) : Option WireFlit :=
  if !moduleGranted s p e m || t < 6 + n then some {}
  else (crossFlit s (crossKey e m (b2n first)) (t - 6 - n)).map (fun x => x.flit)

/-- Input lane `j` of the router at `q` in epoch tick `t` (R120, R130, R132): none where a crossing's flit has not
arrived. -/
def inputLane (s : State) (p q t j : Nat) : Option WireFlit :=
  if 64 ≤ j then
    match stallAt s q with
    | none => some {}
    | some i => some (wireOf (tget? (s.stall i).router.localIn (j - 64)))
  else
    match reach s q (j / 16) with
    | .nowhere => some {}
    | .router q' n =>
      match stallAt s q' with
      | none => some {}
      | some i =>
        if bit (s.part p).record.stalls i
        then some (laneOf (s.stall i).router.hist n (16 * opposite (j / 16) + j % 16)) else some {}
    | .crossing e f q' n =>
      match laneModule s e q' (j % 16) with
      | none => some {}
      | some m => moduleIn s p e m f n t

/-- The lanes from neighbouring routers and stream modules whose flits fail their parity check in tick `t` (R128). -/
def badLanes (s : State) (p q t : Nat) : List Nat :=
  (List.range 64).filter (fun j => match inputLane s p q t j with | none => false | some w => wireBad w)

/-! ## Selectors (R124, R126, R127) -/

/-- SRC_A, SRC_B and OP of a selector. -/
def selFields (x : Nat) : Nat × Nat × Nat := (bits x 6 0, bits x 13 7, bits x 15 14)

/-- The output lanes a table drives in a tick, with their selectors: lane 15 carries no selector where BELL is set, and
none applies in the bell window (R145). -/
def drivenLanes (rd : Nat → Byte) (off t len : Nat) : List (Nat × Nat × Nat × Nat) :=
  if len ≤ t + 64 then []
  else match entryAt rd off t with
    | none => []
    | some e =>
      ((List.range 80).filter (fun j => !(entryBell rd off e && j % 16 = 15))).filterMap (fun j =>
        let x := selFields (entrySel rd off e j)
        if x.2.2 = 0 then none else some (j, x))

/-- The input lanes a table reads in a tick. -/
def neededLanes (rd : Nat → Byte) (off t len : Nat) : List Nat :=
  (drivenLanes rd off t len).flatMap (fun x =>
    [x.2.1].filter (fun a => a < 80) ++ (if 2 ≤ x.2.2.2 then [x.2.2.1].filter (fun b => b < 80) else []))

/-- The sum of two flits, element by element (R127). -/
def addFlits (wide : Bool) (a b : Flit) : Flit :=
  let n := if wide then 16 else 32
  let w := if wide then 32 else 16
  let el := fun (x : Flit) (i : Nat) => x.toNat / 2 ^ (w * i) % 2 ^ w
  BitVec.ofNat 512 ((List.range n).foldl (fun z i =>
    z + (if wide then add32 (el a i) (el b i) else add16 (el a i) (el b i)) * 2 ^ (w * i)) 0)

/-- What a selector makes of its operands: the flit, and whether exactly one operand of an ADD is empty. -/
def selectFlit (op : Nat) (a b : Option Flit) : Option Flit × Bool :=
  match op, a, b with
  | 1, a, _ => (a, false)
  | _, some x, some y => (some (addFlits (op = 2) x y), false)
  | _, none, none => (none, false)
  | _, _, _ => (none, true)

/-- A router's output registers after tick `t`, and whether an ADD whose operands pass their parity check had one empty
operand: with a parity error only that is reported (Table FAB-11). -/
def routerTick (s : State) (p q : Nat) (rd : Nat → Byte) (off t len : Nat) : Tbl WireFlit × Bool :=
  (drivenLanes rd off t len).foldl (fun r x =>
    let get := fun (n : Nat) => if n < 80 then (inputLane s p q t n).getD {} else {}
    let (a, b) := (get x.2.1, get x.2.2.1)
    match selectFlit x.2.2.2 (wireFlit a) (wireFlit b) with
    | (some f, _) => ((x.1, wireOf (some f)) :: r.1, r.2)
    | (none, bad) => (r.1, r.2 || (bad && !wireBad a && !wireBad b))) ([], false)

/-! ## Local endpoints (R125) -/

/-- The entry that maps a stall's endpoints in a tick: none in the bell window. -/
def mapEntry (rd : Nat → Byte) (off t len : Nat) : Option Nat := if len ≤ t + 64 then none else entryAt rd off t

/-- The local lanes a sink is mapped to, ascending. -/
def sinkLanes (rd : Nat → Byte) (off e code : Nat) : List Nat := (List.range 16).filter (fun l => entrySink rd off e l = code)
/-- The local lanes a source is mapped to, ascending. -/
def sourceLanes (rd : Nat → Byte) (off e code : Nat) : List Nat := (List.range 16).filter (fun l => entrySource rd off e l = code)

/-- The flits on a sink's lanes, as its router sent them in the tick before. -/
def sinkFlits (r : Router) (lanes : List Nat) : List (Option Flit) := lanes.map (fun l => wireFlit (laneOf r.hist 0 (64 + l)))
/-- Their bytes; an empty flit has a zero payload (R119). -/
def flitBytes (fs : List (Option Flit)) : List Byte := fs.flatMap (fun f => natLe 64 ((f.map (fun x => x.toNat)).getD 0))

/-- The flits of a byte string of a source on its lanes. -/
def laneFlits (lanes : List Nat) (bs : List Byte) : Tbl Flit :=
  ((List.range lanes.length).zip lanes).filterMap (fun e =>
    if 64 * e.1 < bs.length then some (e.2, BitVec.ofNat 512 (field bs (64 * e.1) 64)) else none)

/-! ## Bell flits (R155 to R157) -/

/-- Whether a stall's router drives the sideband of an edge: enabled, unfenced, and in the bordering row or column. -/
def bordersEdge (s : State) (i e : Nat) (first : Bool) : Bool :=
  let q := 18 * dieOf i + physOf s i
  !isFenced s i && decide (q = edgeRouter e first (edgePos e q))

/-- The bell neighbour of a stall of a partition in a direction of its own die: stall and pass-through routers crossed. -/
def meshNeighbour (s : State) (p i dir : Nat) : Option (Nat × Nat) :=
  match reach s (18 * dieOf i + physOf s i) dir with
  | .router q n => (stallAt s q).bind (fun k => if bit (s.part p).record.stalls k then some (k, n) else none)
  | _ => none

/-- The bell neighbours of a stall of a partition on its own die. -/
def meshNeighbours (s : State) (p i : Nat) : List (Nat × Nat) := (List.range 4).filterMap (meshNeighbour s p i)

/-- The bell neighbours across die edges: at 6 ticks. -/
def edgeNeighbours (s : State) (p i : Nat) : List Nat :=
  (List.range 4).flatMap (fun e => [true, false].flatMap (fun f =>
    if edgeDie e f = dieOf i && bordersEdge s i e f then
      (stallsOf s p).filter (fun k => dieOf k = edgeDie e (!f) && bordersEdge s k e (!f))
    else []))

/-- The sidebands that a stall's router drives and takes from: edge, and whether its die is the one named first (R25). -/
def sidebandsOf (s : State) (i : Nat) : List (Nat × Bool) :=
  (List.range 4).flatMap (fun e => ([true, false].filter (fun f => edgeDie e f = dieOf i && bordersEdge s i e f)).map (fun f => (e, f)))

/-- The number of a sideband's direction: from the die named first it is 2e. -/
def sideKey (e : Nat) (first : Bool) : Nat := 2 * e + b2n (!first)

/-- The parity bits of a sideband word: one per 32 bits, even (R25, log entry 147). -/
def sideParity (w : SideWord) : Byte :=
  BitVec.ofNat 8 (ofBits ((List.range 8).filter (fun i =>
    popCount ([w.ready, w.error, w.nonrepl, w.stage].getD (i / 2) 0 / 2 ^ (32 * (i % 2))) 32 % 2 = 1)))

/-- The word that the routers along a side of an edge drive in a cycle (R25): what each holds for its own partition. -/
def sideWord (s : State) (e : Nat) (first : Bool) : SideWord :=
  let w := (List.range 64).foldl (fun (w : SideWord) i =>
    if edgeDie e first = dieOf i && bordersEdge s i e first then
      match ownerOfStall s i with
      | none => w
      | some p =>
        let f := (s.stall i).bell
        let put := fun (x : Nat) (b : Bool) => if b then setBit x p else x
        { w with
          ready := Nat.lor w.ready (Nat.land f.ready (s.part p).record.stalls)
          error := put w.error f.error, nonrepl := put w.nonrepl f.nonrepl
          stage := put w.stage ((s.stall i).stageWire.headD false) }
    else w) {}
  { w with parity := sideParity w }

/-- Every sideband carries its next word: one cycle of the fabric clock (R25, R492). -/
def pushSidebands (s : State) : State :=
  { s with sidebands := (List.range 4).flatMap (fun e => [true, false].map (fun f =>
      (sideKey e f, (sideWord s e f :: (tget? s.sidebands (sideKey e f)).getD []).take 6))) }

/-- The words that have reached a stall's router across the edges it borders: driven six cycles ago (R25). -/
def sideWords (s : State) (i : Nat) : List SideWord :=
  (sidebandsOf s i).map (fun x => ((tget? s.sidebands (sideKey x.1 (!x.2))).getD []).getD 5 {})

/-- What a router of a partition takes from a sideband word. -/
def sideBell (s : State) (p : Nat) (w : SideWord) : BellFlit :=
  { ready := Nat.land w.ready (s.part p).record.stalls, error := bit w.error p, nonrepl := bit w.nonrepl p }

/-- Two bell flits combined. -/
def orFlit (a b : BellFlit) : BellFlit :=
  { ready := Nat.lor a.ready b.ready, error := a.error || b.error, nonrepl := a.nonrepl || b.nonrepl, seq := Nat.lor a.seq b.seq }

/-- The lane 15 that a router receives from its bell neighbour in a direction. -/
def bellLane (s : State) (p i t dir : Nat) : WireFlit :=
  if (meshNeighbour s p i dir).isSome then (inputLane s p (18 * dieOf i + physOf s i) t (16 * dir + 15)).getD {} else {}

/-- What a stall's router sends on lane 15 in a bell tick: its own flit with its neighbours' (R155). -/
def bellFlit (s : State) (p i t : Nat) (own : BellFlit) : BellFlit :=
  ((List.range 4).map (fun dir => wireBell (bellLane s p i t dir)) ++ (sideWords s i).map (sideBell s p)).foldl orFlit own

/-- Whether a bell flit or sideband word that a stall's router receives fails its parity check (R25, R157): lane 15 in a
tick of bell traffic, a sideband in every tick. -/
def bellBad (s : State) (p i t : Nat) (traffic : Bool) : Bool :=
  (traffic && (List.range 4).any (fun dir => wireBad (bellLane s p i t dir))) ||
    (sideWords s i).any (fun w => sideParity w != w.parity)

/-- Lane 15 toward each bell neighbour carries the router's bell flit. -/
def bellLanes (s : State) (p i : Nat) (f : BellFlit) : Tbl WireFlit :=
  ((List.range 4).filter (fun dir => (meshNeighbour s p i dir).isSome)).map (fun dir => (16 * dir + 15, wireOf (some (bellPayload f))))

/-- The stage wire of a stall's router in the next cycle (R300): its own request, and what its bell neighbours hold. -/
def stageNext (s : State) (p i : Nat) : Bool :=
  (s.stall i).stageReq || (s.stall i).stageWire.headD false ||
    (meshNeighbours s p i).any (fun k => (s.stall k.1).stageWire.getD k.2 false) || (sideWords s i).any (fun w => bit w.stage p)

/-- The stage wires of a domain take one cycle, whether or not its tick is taken, and the domain stops once a request has
reached it (R300); where it has no stall, once one stands in the partition. -/
def moveStage (s : State) (p d : Nat) : State :=
  let ws := ((stallsOf s p).filter (fun i => dieOf i = d)).map (fun i => (i, stageNext s p i))
  let s := ws.foldl (fun s w => s.modStall w.1 (fun x => { x with stageWire := (w.2 :: x.stageWire).take 9 })) s
  let here := if ws.isEmpty then (stallsOf s p).any (fun i => (s.stall i).stageWire.headD false) else ws.any (fun w => w.2)
  s.modDom p d (fun x => { x with stopped := x.stopped || here })

/-- Whether a stage request stands in a partition. -/
def stageRequested (s : State) (p : Nat) : Bool := (stallsOf s p).any (fun i => (s.stall i).stageReq)

/-- Ticks a flit takes from a stall to each stall: relaxed once over every stall and neighbour. -/
def relax (s : State) (p : Nat) (dist : Tbl Nat) : Tbl Nat :=
  (stallsOf s p).foldl (fun t i =>
    let near := (meshNeighbours s p i).map (fun k => (k.1, k.2 + 1)) ++ (edgeNeighbours s p i).map (fun k => (k, 6))
    near.foldl (fun t k => match tget? dist k.1, tget? t i with
      | some x, none => tset t i (x + k.2)
      | some x, some y => if x + k.2 < y then tset t i (x + k.2) else t
      | none, _ => t) t) dist

/-- Distances from stall `i`, over 64 rounds. -/
def bellDistances (s : State) (p i : Nat) : Tbl Nat := (List.range 64).foldl (fun t _ => relax s p t) [(i, 0)]

/-- Whether every stall of a partition reaches every other within 64 ticks along bell neighbours (R156). -/
def bellGraphOk (s : State) (p : Nat) : Bool :=
  (stallsOf s p).all (fun i =>
    let t := bellDistances s p i
    (stallsOf s p).all (fun k => match tget? t k with | some x => decide (x ≤ 64) | none => false))

end Sys2Proof.Machine
end

