-- ==== Sys2Proof/Machine/LinkEngine.lean ====
section
/-! DEFINITION. Link engines at work for a partition's LINKED epochs: link programs (R333, R338, R339), stream flits
(R335, R336), PUT, and the expert token routing of DISPATCH and COMBINE (R344 to R348). -/

namespace Sys2Proof.Machine

/-! ## Link programs -/

/-- The LINK_PROGRAM section of a port. -/
def linkSection (rd : Nat → Byte) (j : Nat) : Section := sectionOf rd 0xB j
/-- The job group's members that a section lists: device and partition. -/
def memberList (rd : Nat → Byte) (x : Section) : List (Nat × Nat) :=
  (List.range (rdN rd x.off 2)).map (fun i => let w := rdN rd (x.off + 64 + 4 * i) 4; (bits w 11 0, bits w 17 12))
/-- The operations of a port's program up to END. -/
def linkOps (rd : Nat → Byte) (j : Nat) : List OpWord :=
  let x := linkSection rd j
  if x.bytes = 0 then []
  else ((List.range ((x.bytes - rdN rd (x.off + 2) 2) / 32)).map (opWord rd (x.off + rdN rd (x.off + 2) 2))).takeWhile
    (fun w => opCode w ≠ 0)

/-- OP of a link STREAM. -/
def opLinkStream : Nat := 0x20
/-- PUT. -/
def opPut : Nat := 0x21
/-- DISPATCH. -/
def opDispatch : Nat := 0x22
/-- COMBINE. -/
def opCombine : Nat := 0x23

/-- Whether a link STREAM drives the hub lane. -/
def linkHub (w : OpWord) : Bool := bit (opQ w 1) 0
/-- SRC_A of a link STREAM. -/
def linkA (w : OpWord) : Nat := bits (opQ w 1) 7 1
/-- SRC_B. -/
def linkB (w : OpWord) : Nat := bits (opQ w 1) 14 8
/-- Its operation: 1 FWD, 2 ADD32, 3 ADD16. -/
def linkOp (w : OpWord) : Nat := bits (opQ w 1) 16 15
/-- COUNT. -/
def linkCount (w : OpWord) : Nat := bits (opQ w 2) 23 0
/-- The sources a link STREAM reads. -/
def linkSources (w : OpWord) : List Nat := [linkA w].filter (fun a => a ≠ 127) ++ (if 2 ≤ linkOp w then [linkB w].filter (fun b => b ≠ 127) else [])

/-- The STREAMs of a port's program in progress in a tick. -/
def linkStreams (rd : Nat → Byte) (j t : Nat) : List OpWord :=
  (linkOps rd j).filter (fun w => opCode w = opLinkStream && decide (opTick w ≤ t) && decide (t < opTick w + linkCount w))

/-- The ports of a partition that a die's hub edge serves (R19). -/
def portsOn (s : State) (p d : Nat) : List Nat :=
  if d = 2 then (setBits (s.part p).record.zlPorts 12).filter (fun j => j < 6)
  else if d = 3 then (setBits (s.part p).record.zlPorts 12).filter (fun j => 6 ≤ j) else []

/-- The hub edge and module of a port. -/
def hubModule (j : Nat) : Nat × Nat := (4 + j / 6, 6 + j % 6)

/-- What a link source holds in a tick. -/
inductive LinkIn where
  | flit (f : Option Flit)
  | waits
  /-- The flit is missing: a later one is here, it was lost with its frame, or the port has left UP (R327, R335). -/
  | missing
  deriving DecidableEq, Repr

/-- A source as delivered in tick `t`: a port's flit of sender tick t − 512, a hub lane's of t − 6. -/
def linkIn (s : State) (t n : Nat) : LinkIn :=
  if n < 12 then
    if t < 512 then .flit none
    else match (s.port n).rxFlits.find? (fun x => x.1 = t - 512) with
      | some x => .flit (some x.2)
      | none => if (s.port n).gap || (s.port n).state != .up || (s.port n).rxFlits.any (fun x => t - 512 < x.1) then .missing else .waits
  else if n < 28 && 16 ≤ n then
    let h := hubModule (n - 16)
    if t < 6 then .flit none
    else match crossFlit s (crossKey h.1 h.2 0) (t - 6) with
      | some f => .flit (wireFlit f.flit)
      | none => .waits
  else .flit none

/-- Whether a source waits for its flit. -/
def linkWaits (s : State) (t n : Nat) : Bool := linkIn s t n == .waits

/-- Whether a port that is UP has no room for the flit of tick `t`: too many that the far end has not delivered, or that have
not left (R335, R336). A port that is not UP sends nothing. -/
def linkFull (s : State) (j t : Nat) : Bool :=
  (s.port j).state == .up && (decide ((s.port j).credited + 4096 ≤ t) || decide (64 ≤ (s.port j).sendFlits.length))

/-- Whether the link engine holds up a domain in tick `t`: a flit it must read has not come, or a port has no room for
one it must send. -/
def linkHolds (s : State) (p d : Nat) (rd : Nat → Byte) (t : Nat) : Bool :=
  (portsOn s p d).any (fun j => (linkStreams rd j t).any (fun w =>
    (linkSources w).any (linkWaits s t) || (!linkHub w && linkFull s j (t + 1))))

/-- A flit of a source. -/
def linkFlit (s : State) (t n : Nat) : Option Flit := match linkIn s t n with | .flit f => f | _ => none

/-- The results of a port's streams of one direction in a tick; the second says that an ADD had one empty operand. -/
def linkResult (s : State) (rd : Nat → Byte) (j t : Nat) (hub : Bool) : Option Flit × Bool :=
  match (linkStreams rd j t).find? (fun w => linkHub w == hub) with
  | none => (none, false)
  | some w => selectFlit (linkOp w) (linkFlit s t (linkA w)) (linkFlit s t (linkB w))

/-- A crossing with the flit of a sender tick added, under its tick mark (R132). -/
def pushCrossing (s : State) (key τ : Nat) (f : WireFlit) : State :=
  { s with crossings := tmod s.crossings key (fun x => { x with
      flits := x.flits ++ [{ tick := τ, mark := BitVec.ofNat 8 τ, flit := f }] }) }

/-- One port of a partition in a tick it takes: what its streams made goes out in the next tick. -/
def linkPort (s : State) (rd : Nat → Byte) (t j : Nat) : State × Bool :=
  let h := hubModule j
  let key := crossKey h.1 h.2 1
  let (up, bad1) := linkResult s rd j t true
  let (out, bad2) := linkResult s rd j t false
  let s := if t = 0 then pushCrossing s key 0 {} else s
  let s := pushCrossing s key (t + 1) (wireOf up)
  let s := s.modPort j (fun x => { x with
    sendFlits := match out with | none => x.sendFlits | some f => if x.state == .up then x.sendFlits ++ [(t + 1, some f)] else x.sendFlits
    rxFlits := x.rxFlits.filter (fun y => decide (t ≤ y.1 + 512)), delivered := t + 1 - 512 })
  (s, bad1 || bad2)

/-- Whether a stream of a port met a missing flit in tick `t`. -/
def linkMissing (s : State) (rd : Nat → Byte) (t j : Nat) : Bool :=
  (linkStreams rd j t).any (fun w => (linkSources w).any (fun n => linkIn s t n == .missing))

/-! ## Items of a unit (R328, R348) -/

/-- Whether `n` bytes from a device address are the partition's own LSM, with homes, or a scratchpad of its stalls. -/
def ownRange (s : State) (p a n : Nat) : Bool :=
  match regionOf a with
  | .lsm => granted s p a && granted s p (a + (n - 1)) && (homeOf s p (a / 1024)).isSome
  | .spad i o => bit (s.part p).record.stalls i && decide (o + n ≤ spadBytes)
  | _ => false

/-- The bytes of a range by line. -/
def lineCells (a : Nat) (bs : List Byte) : List (Nat × List Host.Cell) :=
  let cs := cellsAt a bs
  ((cs.map (fun c => c.1 / 1024)).eraseDups).map (fun l => (l, (cs.filter (fun c => c.1 / 1024 = l)).map (fun c => (c.1 % 1024, c.2))))

/-- One line of such a write: at once where the line is free, else in its turn at the home, behind what is in progress there
and what the host must give up first (R220, R233). -/
def unitLine (s : State) (p a : Nat) (cells : List Host.Cell) : State :=
  let i := (stallsOf s p).headD 0
  if (s.line p a).host || lineBusy (s.line p a) || !(s.line p a).waiting.isEmpty then
    arrive s p a (.unit i (cells.map (fun c => (Fin.ofNat 1024 c.1, c.2))))
  else (putStaged (access s p a (.loader (Fin.ofNat 64 i)) clsActivation .none) p a i cells).1

/-- Bytes of a unit written at an own device address by its link engine: staged in the memory, or to a scratchpad; the
held image (R164) and any other range (R26) end the job. -/
def unitWrite (s : State) (p a : Nat) (bs : List Byte) : State :=
  if !(s.part p).job.running then s
  else if inHeldImage s a then contained s p Status.badAddress Detail.planHeld none
  else if !ownRange s p a bs.length then contained s p Status.badAddress Detail.zlkItemAddress none
  else match regionOf a with
    | .spad i o => spadPut s i o bs
    | _ => (lineCells a bs).foldl (fun s x => unitLine s p x.1 x.2) s

/-- A vector of bytes sent to a device address as items of one TYPE (R348): 63 slots an item; with no route to the device
(R329), or to a range there that no device reaches (R28), the job ends. -/
def sendVector (s : State) (p dev type a : Nat) (operand : Nat) (bs : List Byte) : State :=
  if !(s.part p).job.running then s
  else if !hasRoute s p dev then contained s p Status.badAddress Detail.zlkNoRoute none
  else if !reachable a then contained s p Status.badAddress Detail.zlkItemAddress none
  else (List.range ((bs.length + 4031) / 4032)).foldl (fun s i =>
    let (it, s) := unitItem s p dev (a + 4032 * i) ((bs.drop (4032 * i)).take 4032)
    queueItem s type { it with operand := BitVec.ofNat 64 operand }) s

/-- TYPE of a TOKEN, COUNT, RESULT and WRITE item. -/
def itWrite : Nat := 1
/-- TOKEN. -/
def itToken : Nat := 6
/-- COUNT. -/
def itCount : Nat := 7
/-- RESULT. -/
def itResult : Nat := 8

/-! ## The expert map (R344) -/

/-- The map's header: E, S, K, TOKEN_SLOTS, RESULT_SLOTS. -/
structure ExpertMap where
  off : Nat
  experts : Nat
  sources : Nat
  choices : Nat
  tokenSlots : Nat
  resultSlots : Nat
  deriving DecidableEq, Repr

/-- The EXPERT_MAP section of an image. -/
def expertMap (rd : Nat → Byte) : ExpertMap :=
  let o := (sectionOf rd 7 0).off
  { off := o, experts := rdN rd o 2, sources := rdN rd (o + 2) 2, choices := rdN rd (o + 4) 1
    tokenSlots := rdN rd (o + 6) 2, resultSlots := rdN rd (o + 8) 2 }

/-- Source `k`: device and RESULTS. -/
def mapSource (rd : Nat → Byte) (m : ExpertMap) (k : Nat) : Nat × Nat :=
  (rdN rd (m.off + 64 + 16 * k) 2, rdN rd (m.off + 72 + 16 * k) 8)

/-- Bytes `o` to `o + n - 1` of expert `e`'s entry. -/
def expertField (rd : Nat → Byte) (m : ExpertMap) (e o n : Nat) : Nat := rdN rd (m.off + 64 + 16 * m.sources + 48 * e + o) n
/-- HOME of an expert. -/
def expertHome (rd : Nat → Byte) (m : ExpertMap) (e : Nat) : Nat := expertField rd m e 0 2
/-- CAP of an expert. -/
def expertCap (rd : Nat → Byte) (m : ExpertMap) (e : Nat) : Nat := expertField rd m e 2 2

/-- The source index of a device. -/
def sourceIndex (rd : Nat → Byte) (m : ExpertMap) (dev : Nat) : Nat :=
  ((List.range m.sources).find? (fun k => (mapSource rd m k).1 = dev)).getD 0

/-- A token and its tag written at its home. -/
def applyToken (put : State → Nat → List Byte → State) (s : State) (rd : Nat → Byte) (a tag : Nat) (bs : List Byte) : State :=
  let m := expertMap rd
  let sz := 64 * m.tokenSlots
  let s := put s a bs
  match (List.range m.experts).find? (fun e => expertHome rd m e = ownNumber s && decide (expertField rd m e 8 8 ≤ a) &&
    decide (a < expertField rd m e 8 8 + m.sources * expertCap rd m e * sz)) with
  | none => s
  | some e => put s (expertField rd m e 16 8 + 8 * ((a - expertField rd m e 8 8) / sz)) (natLe 8 tag)

/-- A count applied (R347): the token slots and tags beyond it are zeroed. -/
def applyCount (put : State → Nat → List Byte → State) (s : State) (rd : Nat → Byte) (a c : Nat) : State :=
  let m := expertMap rd
  let s := put s a (natLe 4 c)
  match (List.range m.experts).find? (fun e => expertHome rd m e = ownNumber s && decide (expertField rd m e 24 8 ≤ a) &&
    decide (a < expertField rd m e 24 8 + 4 * m.sources)) with
  | none => s
  | some e =>
    let k := (a - expertField rd m e 24 8) / 4
    let cap := expertCap rd m e
    (List.range (cap - c)).foldl (fun s r =>
      let n := k * cap + c + r
      let s := put s (expertField rd m e 8 8 + n * 64 * m.tokenSlots) (List.replicate (64 * m.tokenSlots) 0)
      put s (expertField rd m e 16 8 + 8 * n) (natLe 8 0)) s

/-- A TOKEN to a home: an item, or a staged write of the own device. -/
def sendToken (s : State) (p : Nat) (rd : Nat → Byte) (dev a tag : Nat) (bs : List Byte) : State :=
  if dev = ownNumber s then applyToken (fun s => unitWrite s p) s rd a tag bs else sendVector s p dev itToken a tag bs

/-- A COUNT to a home; its value is the item's first four data bytes (DEDUCED, log entry 40). -/
def sendCount (s : State) (p : Nat) (rd : Nat → Byte) (dev a c : Nat) : State :=
  if dev = ownNumber s then applyCount (fun s => unitWrite s p) s rd a c else sendVector s p dev itCount a 0 (padTo 64 (natLe 4 c))

/-- A RESULT to a source's device. -/
def sendResult (s : State) (p dev a tag : Nat) (bs : List Byte) : State :=
  if dev = ownNumber s then unitWrite s p a bs else sendVector s p dev itResult a tag bs

/-- One byte that a link engine reads at a virtual address in the committed view (R339). A byte of the host window or of a
companion is a free value: no command brings a link engine an answer (log entry 148). -/
def linkByte (s : State) (p va : Nat) : Except Nat (State × Byte) :=
  match translate s p va false with
  | .error d => .error d
  | .ok t => match localPhys s t with
    | none => .error Detail.ptnPteRange
    | some a => match regionOf a with
      | .lsm => .ok (s, ((readCommitted s a 1).head?).getD 0)
      | .spad k o => .ok (s, spadRead s k o)
      | .host o => match hwinLookup s p o with
        | none => .error Detail.hstHwinMiss
        | some h => let (n, s) := s.draw
          .ok (if h % 64 = 0 then s.emit (.cacheRead h) else s, BitVec.ofNat 8 (Config.freeValue n).toNat)
      | .companion k o => let (n, s) := s.draw
        .ok (if o % 64 = 0 then s.emit (.companionRequest k false (compBase + k * compBytes + o) []) else s,
          BitVec.ofNat 8 (Config.freeValue n).toNat)
      | _ => .error Detail.ptnPteRange

/-- Bytes that a link engine reads. -/
def linkBytes (s : State) (p va : Nat) : Nat → Except (Nat × Nat) (State × List Byte)
  | 0 => .ok (s, [])
  | n + 1 => match linkBytes s p va n with
    | .error e => .error e
    | .ok (s, bs) => match linkByte s p ((va + n) % 2 ^ 48) with
      | .error d => .error ((va + n) % 2 ^ 48, d)
      | .ok (s, b) => .ok (s, bs ++ [b])

/-- What a link engine does with bytes it reads; a translation fault is recorded under AGENT 5 and ends the job (R27,
R414). -/
def linkRead (s : State) (p va n : Nat) (act : State → List Byte → State) : State :=
  if !(s.part p).job.running then s
  else match linkBytes s p va n with
    | .error (v, d) => contained (recordFault s p v (d % 256) 5 false) p Status.badAddress d none
    | .ok (s, bs) => act s bs

/-- One token sent to slot (k, r) of expert `x` with tag (i, j). -/
def dispatchOne (s : State) (p : Nat) (rd : Nat → Byte) (base x r i j : Nat) : State :=
  let m := expertMap rd
  let k := sourceIndex rd m (ownNumber s)
  let sz := 64 * m.tokenSlots
  linkRead s p (base + i * sz) sz (fun s bs =>
    sendToken s p rd (expertHome rd m x) (expertField rd m x 8 8 + (k * expertCap rd m x + r) * sz) (i + 2 ^ 32 * j) bs)

/-- One choice of one position (R346), with the counts used so far. -/
def dispatchChoice (rd : Nat → Byte) (p route base : Nat) (r : State × Tbl Nat) (ij : Nat × Nat) : State × Tbl Nat :=
  let (s, used) := r
  let m := expertMap rd
  let at' := route + 2 * (ij.1 * m.choices + ij.2)
  let e := match linkBytes s p at' 2 with | .ok (_, bs) => leNat bs | .error _ => 0
  let s := linkRead s p at' 2 (fun s _ => s)
  let alt := expertField rd m e 6 2
  if m.experts ≤ e || !(s.part p).job.running then (s, used)
  else if tget used e < expertCap rd m e then
    (dispatchOne s p rd base e (tget used e) ij.1 ij.2, tset used e (tget used e + 1))
  else if expertField rd m e 4 1 = 1 && decide (tget used alt < expertCap rd m alt) then
    (dispatchOne s p rd base alt (tget used alt) ij.1 ij.2, tset used alt (tget used alt + 1))
  else
    let k := sourceIndex rd m (ownNumber s)
    (unitWrite s p ((mapSource rd m k).2 + (ij.1 * m.choices + ij.2) * 64 * m.resultSlots) (List.replicate (64 * m.resultSlots) 0), used)

/-- DISPATCH (R346). -/
def dispatch (s : State) (p : Nat) (rd : Nat → Byte) (w : OpWord) : State :=
  let m := expertMap rd
  let n := bits (opQ w 1) 63 48
  let (s, used) := ((List.range n).flatMap (fun i => (List.range m.choices).map (fun j => (i, j)))).foldl
    (dispatchChoice rd p (bits (opQ w 1) 47 0) (bits (opQ w 2) 47 0)) (s, [])
  let k := sourceIndex rd m (ownNumber s)
  (List.range m.experts).foldl (fun s e =>
    sendCount s p rd (expertHome rd m e) (expertField rd m e 24 8 + 4 * k) (tget used e)) s

/-- What a link engine does with committed bytes of an own device address; outside the partition's ranges the job ends
(R26). -/
def ownRead (s : State) (p a n : Nat) (act : State → List Byte → State) : State :=
  if !(s.part p).job.running then s
  else if !ownRange s p a n then contained s p Status.badAddress Detail.zlkItemAddress none
  else match regionOf a with
    | .spad i o => act s ((List.range n).map (fun j => spadRead s i (o + j)))
    | _ => act s (readCommitted s a n)

/-- COMBINE (R347). -/
def combine (s : State) (p : Nat) (rd : Nat → Byte) (w : OpWord) : State :=
  let m := expertMap rd
  let first := bits (opQ w 1) 15 0
  let last := bits (opQ w 1) 31 16
  ((List.range (last + 1 - first)).map (fun i => first + i)).foldl (fun s e =>
    if expertHome rd m e ≠ ownNumber s then s
    else (List.range m.sources).foldl (fun s k =>
      ownRead s p (expertField rd m e 24 8 + 4 * k) 4 (fun s c =>
        (List.range (leNat c)).foldl (fun s r =>
          let n := k * expertCap rd m e + r
          let sz := 64 * m.resultSlots
          ownRead s p (expertField rd m e 16 8 + 8 * n) 8 (fun s t =>
            let tag := leNat t
            ownRead s p (expertField rd m e 32 8 + n * sz) sz (fun s bs =>
              sendResult s p (mapSource rd m k).1 ((mapSource rd m k).2 + (bits tag 31 0 * m.choices + bits tag 35 32) * sz)
                tag bs))) s)) s) s

/-- PUT (R338): one item a KiB; to the own device a staged write. -/
def putOp (s : State) (p : Nat) (w : OpWord) : State :=
  let va := bits (opQ w 1) 47 0
  let sys := bits (opQ w 2) 55 0
  (List.range (bits (opQ w 3) 31 0 / 1024)).foldl (fun s i =>
    linkRead s p (va + 1024 * i) 1024 (fun s bs =>
      let a := sys % 2 ^ 44 + 1024 * i
      if sys / 2 ^ 44 = ownNumber s then unitWrite s p a bs else sendVector s p (sys / 2 ^ 44) itWrite a 0 bs)) s

/-- The item operations of a port's program that start in a tick. -/
def linkStarts (s : State) (p : Nat) (rd : Nat → Byte) (t j : Nat) : State :=
  (linkOps rd j).foldl (fun s w =>
    if opTick w ≠ t then s
    else if opCode w = opPut then putOp s p w
    else if opCode w = opDispatch then dispatch s p rd w
    else if opCode w = opCombine then combine s p rd w else s) s

/-- The link engine of a partition's ports on a die, in a tick taken: the state, whether an ADD had one empty operand, and
whether a flit was missing. -/
def linkTick (s : State) (p d : Nat) (rd : Nat → Byte) (t : Nat) : State × Bool × Bool :=
  (portsOn s p d).foldl (fun r j =>
    let miss := linkMissing s rd t j
    let (s', bad) := linkPort r.1 rd t j
    (linkStarts s' p rd t j, r.2.1 || bad, r.2.2 || miss)) (s, false, false)

end Sys2Proof.Machine
end

