-- ==== Sys2Proof/Machine/Domain.lean ====
section
/-! DEFINITION. One cycle of a scheduled domain (R117, R118, R135 to R137): whether it is withheld and for what, and what
every unit, router and crossing does in a tick taken. -/

namespace Sys2Proof.Machine

/-! ## The running epoch -/

/-- The descriptor of the running epoch. -/
def runningDesc (s : State) (p : Nat) : Nat := (bellAt (imageOf s p) (s.part p).epoch.entry).epoch
/-- L of the running epoch. -/
def runningLen (s : State) (p : Nat) : Nat := epochLen (imageOf s p) (runningDesc s p)
/-- Whether the running epoch is LINKED. -/
def epochLinked (s : State) (p : Nat) : Bool := bit (epochFlags (imageOf s p) (runningDesc s p)) 0

/-- The dies on which a partition has a domain: those of its stalls, and of the hub edges of its ports (R117). -/
def domainsOf (s : State) (p : Nat) : List Nat :=
  (List.range 4).filter (fun d => decide (d ∈ diesOf s p) || !(portsOn s p d).isEmpty)

/-- The stalls of a domain. -/
def domainStalls (s : State) (p d : Nat) : List Nat := (stallsOf s p).filter (fun i => dieOf i = d)

/-- The router table of a stall in a descriptor: its offset in the image. -/
def tableAt (s : State) (rd : Nat → Byte) (desc i : Nat) : Option Nat :=
  match partAt s rd desc i with
  | none => none
  | some q => let u := partUnit rd q 6
    if u.2 = 0 then none else some u.1

/-! ## Withholding (Table FAB-6) -/

/-- Whether a crossing holds a domain up (R133). -/
def elasticHolds (s : State) (p d : Nat) (rd : Nat → Byte) (desc t len : Nat) : Bool :=
  (domainStalls s p d).any (fun i => match tableAt s rd desc i with
    | none => false
    | some off => (neededLanes rd off t len).any (fun j => (inputLane s p (positionOf s i) t j).isNone)) ||
  (sendsOn s p d).any (fun m => decide (32 ≤ undelivered s p m.1 m.2.1 m.2.2))

/-- The pass a unit injects a word of in a tick, with the word's number. -/
def passAt (ops : List OpWord) (mvu : Bool) (t : Nat) : Option (Injection × Nat) :=
  match injectionAt (injections mvu ops) t with
  | some (i, w) => if i.isPass then some (i, w) else none
  | none => none

/-- The FETCHes a program starts in a tick, taken by the feeder: in the first cycle of the tick, withheld or not
(DEDUCED, log entry 160). -/
def fetchAt (f : Feeder) (ops : List OpWord) (t : Nat) : Feeder :=
  if t < f.fetchTick then f
  else ops.foldl (fun f w => if opCode w = opFetch && opTick w = t then addFetch f w else f) { f with fetchTick := t + 1 }

/-- What a unit's feeder gives for the word due in a tick; none where none is due. -/
def wordDue (s : State) (i : Nat) (mvu : Bool) (ops : List OpWord) (t : Nat) :
    Option (Injection × Nat × Except Bool (List Byte × List Byte × Feeder)) :=
  (passAt ops mvu t).map (fun x => (x.1, x.2, drawWord (feederOf s i mvu) mvu x.1))

/-- Whether a feeder holds a domain up (R80). -/
def feederHolds (s : State) (p d : Nat) (rd : Nat → Byte) (desc t : Nat) : Bool :=
  (domainStalls s p d).any (fun i => [false, true].any (fun mvu =>
    match wordDue s i mvu (stallProgram s rd desc i (unitProgram mvu)) t with
    | some (_, _, .error false) => true
    | _ => false))

/-- Whether a scheduled access meets a block that a FILL has still to write, or a scheduled write one that a SPILL has
still to read (R151). -/
def fillHolds (s : State) (p d : Nat) (rd : Nat → Byte) (desc t : Nat) : Bool :=
  (domainStalls s p d).any (fun i => match partAt s rd desc i with
    | none => false
    | some q => (partAccess rd q t).any (fun a => (accessBlocks a).any (fun b =>
        (s.stall i).fills.any (fun f => f.offset / 1024 = b) ||
          (a.write && (s.stall i).spills.any (fun f => !f.read && f.offset / 1024 = b)))))

/-- Whether a cycle of a domain is a power bubble, and whether one of the mask (R456, R461). -/
def bubbleHere (s : State) (p d : Nat) : Option Bool :=
  if isBubble (extraRate s p) (s.dom p d).extra then some false
  else if isBubble (maskShareOf s p d) (s.dom p d).mask then some true else none

/-- Why a cycle of a domain is withheld, in the order of Table FAB-6: 1 elastic, 2 bubble (true: of the mask), 3 feeder,
4 memory, 5 staging, 6 link port, 7 debug. Inside a bell nothing scheduled waits, and bubbles and a debug halt act on. -/
def holdCause (s : State) (p d : Nat) : Option (Nat × Bool) :=
  let rd := imageOf s p
  let desc := runningDesc s p
  let len := epochLen rd desc
  let dm := s.dom p d
  let t := dm.epochTick
  let bell := (s.part p).epoch.inBell
  if !bell && elasticHolds s p d rd desc t len then some (1, false)
  else match bubbleHere s p d with
    | some m => some (2, m)
    | none =>
      if !bell && feederHolds s p d rd desc t then some (3, false)
      else if !bell && fillHolds s p d rd desc t then some (4, false)
      else if !bell && dm.stopped then some (5, false)
      else if !bell && epochLinked s p && linkHolds s p d rd t then some (6, false)
      else if (s.part p).halted then some (7, false)
      else none

/-! ## Recovery events (R516) -/

/-- The run of lost ticks of a domain ends and joins the events of the epoch. -/
def closeLost (s : State) (p d : Nat) : State :=
  match (s.dom p d).lost with
  | none => s
  | some e => (s.modPart p (fun q => { q with tally := { q.tally with epochEvents := e :: q.tally.epochEvents } })).modDom p d
      (fun x => { x with lost := none })

/-- A LOCKSTEP domain loses a tick to a cause: the run goes on, or a new one begins. -/
def loseTick (s : State) (p d cause : Nat) : State :=
  if !isLockstep s p then s
  else match (s.dom p d).lost with
    | some (c, t, n) =>
      if c = cause then s.modDom p d (fun x => { x with lost := some (c, t, n + 1) })
      else (closeLost s p d).modDom p d (fun x => { x with lost := some (cause, x.epochTick, 1) })
    | none => s.modDom p d (fun x => { x with lost := some (cause, x.epochTick, 1) })

/-- A whole recovery event of a LOCKSTEP partition: cause, epoch tick, count. -/
def recoveryEvent (s : State) (p cause tick count : Nat) : State :=
  if isLockstep s p && count ≠ 0 then
    s.modPart p (fun q => { q with tally := { q.tally with epochEvents := (cause, tick, count) :: q.tally.epochEvents } })
  else s

/-- Counter `k` of BTD_TALLY rises (R515). -/
def btdAdd (s : State) (p k n : Nat) : State :=
  s.modPart p (fun q => { q with tally := { q.tally with tally := tmod q.tally.tally k (fun x => (x + n) % 2 ^ 64) } })

/-- A cycle withheld for a cause (R137). -/
def withhold (s : State) (p d cause : Nat) (mask : Bool) : State :=
  let s := btdAdd s p cause 1
  let s := s.modDom p d (fun x => { x with
    withheld := (x.withheld + 1) % 2 ^ 64, mask := if mask then x.mask + 1 else x.mask, cycles := x.cycles + 1, held := true })
  let s := if cause = 2 then s.modPart p (fun q => { q with pwr := { q.pwr with
      bubbles := if mask then q.pwr.bubbles + 1 else q.pwr.bubbles, extra := if mask then q.pwr.extra else q.pwr.extra + 1 } }) else s
  if mask then closeLost s p d else loseTick s p d cause

/-! ## Starting operations -/

/-- A key fault of a partition (R86): registers are zeroed and the job ends. -/
def keyFault (s : State) (p : Nat) : State := contained (zeroUnitRegs s p) p Status.keyInvalid Detail.keySlotEmpty none

/-- Whether a FETCH that starts in a tick names an empty slot. -/
def fetchKeyless (f : Feeder) (ops : List OpWord) (t : Nat) : Bool :=
  decide (f.fetchTick ≤ t) &&
    ops.any (fun w => opCode w = opFetch && opTick w = t && fetchSlot w ≠ 0xF && (tget? f.epochKeys (fetchSlot w)).isNone)

/-- A pack block that its unpacker refuses ends the job (R90). -/
def packFault (s : State) (p i : Nat) (mvu : Bool) : State :=
  contained (modFeeder s i mvu (fun f => { f with packErrors := satInc f.packErrors 255 })) p
    Status.partitionFault Detail.packMalformed (some i)

/-- The units of a domain's stalls: stall, and whether it is the MVU. -/
def domainUnits (s : State) (p d : Nat) : List (Nat × Bool) := (domainStalls s p d).flatMap (fun i => [(i, false), (i, true)])

/-- A malformed pack block that a word of the tick draws: the job ends (R90). -/
def feederFault (s : State) (p d : Nat) (rd : Nat → Byte) (desc t : Nat) : Option State :=
  ((domainUnits s p d).find? (fun u => match wordDue s u.1 u.2 (stallProgram s rd desc u.1 (unitProgram u.2)) t with
    | some (_, _, .error true) => true
    | _ => false)).map (fun u => packFault s p u.1 u.2)

/-- The blocks of a feeder come one cycle nearer to their first word (R80). -/
def ageFeeder (f : Feeder) : Feeder := { f with blocks := f.blocks.map (fun b => { b with wait := b.wait - 1 }) }

/-- One cycle of a domain's feeders: blocks come nearer to their first word, the tick's FETCHes begin, and the word due
gathers what is here (R80, R91). A FETCH of an empty slot ends the job, and so does a pack block that no format could draw,
as it becomes ready (R86, R90). -/
def feederCycle (s : State) (p d : Nat) : State :=
  let rd := imageOf s p
  let desc := runningDesc s p
  let t := (s.dom p d).epochTick
  let units := domainUnits s p d
  let prog := fun (u : Nat × Bool) => stallProgram s rd desc u.1 (unitProgram u.2)
  let bad := fun (u : Nat × Bool) =>
    let f := feederOf s u.1 u.2
    f.blocks.any (fun b => b.verified && decide (b.wait = 1) && neverAccepted f b)
  if (s.part p).epoch.inBell then s
  else if units.any (fun u => fetchKeyless (feederOf s u.1 u.2) (prog u) t) then keyFault s p
  else match units.find? bad with
    | some u => packFault s p u.1 u.2
    | none => units.foldl (fun s u => modFeeder s u.1 u.2 (fun f =>
        let f := fetchAt (ageFeeder f) (prog u) t
        match passAt (prog u) u.2 t with
        | none => f
        | some x => gatherWord f u.2 x.1)) s

/-- A FILL starts: every block it targets is pending (R151). -/
def startFill (s : State) (i : Nat) (w : OpWord) : State :=
  s.modStall i (fun x => { x with fills := x.fills ++ (List.range (portBytes w / 1024)).map (fun j =>
    { va := portVa w + 1024 * j, offset := portOff w + 1024 * j }) })

/-- A SPILL starts: its blocks are taken as they stand at its TICK (R151), and their parity is checked. -/
def startSpill (s : State) (p i : Nat) (w : OpWord) : State :=
  (checkSpad s p i (portOff w) (portBytes w)).modStall i (fun x => { x with spills := x.spills ++ (List.range (portBytes w / 1024)).map (fun j =>
    { va := portVa w + 1024 * j, offset := portOff w + 1024 * j
      bytes := (List.range 1024).map (fun o => (o, spadRead s i (portOff w + 1024 * j + o))) }) })

/-- A stall's port reads the oldest block of its SPILLs whose bank no scheduled access takes (R150, R151): the banks that
the accesses of a tick taken use are given. -/
def readSpill (s : State) (i : Nat) (used : List Nat) : State :=
  match (s.stall i).spills.find? (fun f => !f.read && !decide (f.offset / 1024 % 32 ∈ used)) with
  | none => s
  | some f => s.modStall i (fun x => { x with spills := x.spills.map (fun y => if y = f then { y with read := true } else y) })

/-- The SPILLs of a domain in one cycle: in a tick taken the scheduled accesses come first. -/
def readSpills (s : State) (p d : Nat) (taken : Bool) : State :=
  let rd := imageOf s p
  (domainStalls s p d).foldl (fun s i =>
    readSpill s i (match partAt s rd (runningDesc s p) i with
      | none => []
      | some q => if taken && !(s.part p).epoch.inBell
        then ((partAccess rd q (s.dom p d).epochTick).flatMap accessBlocks).map (fun b => b % 32) else [])) s

/-- The FILLs and SPILLs of a port's program that start in a tick. -/
def startPort (s : State) (p i : Nat) (ops : List OpWord) (t : Nat) : State :=
  ops.foldl (fun s w =>
    if opTick w ≠ t then s
    else if opCode w = opFill then startFill s i w
    else if opCode w = opSpill then startSpill s p i w else s) s

/-! ## One stall in a tick taken -/

/-- The lanes of an endpoint in a tick: of a sink, or of a source. -/
def endpointLanes (rd : Nat → Byte) (tab : Option Nat) (t len : Nat) (source : Bool) (code : Nat) : List Nat :=
  match tab with
  | none => []
  | some off => match mapEntry rd off t len with
    | none => []
    | some e => if source then sourceLanes rd off e code else sinkLanes rd off e code

/-- Lanes of a word's y_in or y_out in binary32 (Table FAB-5). -/
def wideLanes (mvu : Bool) (rc m : Nat) : Nat := if mvu then ceilDiv (rc * m * 4) 64 else 8 * rc

/-- A word's `rc` columns as they travel on the fabric: column by column, rows ascending; what R70 does not deliver
travels as zero. -/
def wordFabric (mvu half : Bool) (m rc : Nat) (cols : List (Nat × List (Nat × Nat))) : List Byte :=
  (List.range rc).flatMap (fun j => (List.range (if mvu then m else 128)).flatMap (fun r =>
    let y := match cols[j]? with
      | none => 0
      | some c => if r < m then (c.2.getD r (0, 0)).2 else 0
    if half then natLe 2 (flEncode fmtBf16 false (of32 y)) else natLe 4 y))

/-- What a unit's program does in a tick before anything is written: fetches begin, loads read, a word is injected. -/
def unitReads (s : State) (i : Nat) (mvu : Bool) (rd : Nat → Byte) (ops : List OpWord) (tab : Option Nat) (t len : Nat) : State :=
  let r := (s.stall i).router
  let bytesOf := fun (code : Nat) => flitBytes (sinkFlits r (endpointLanes rd tab t len false code))
  let due := wordDue s i mvu ops t
  let yl := endpointLanes rd tab t len false (if mvu then 3 else 1)
  let s := moveWords s i mvu ops
  let s := loadsTick s i mvu ops t (bytesOf (if mvu then 4 else 2))
  match due with
  | some (inj, w, .ok (es, ss, f)) =>
    let m := (activeShape mvu inj.word inj.tile).m
    injectWord s i mvu inj w t es ss f (flitBytes (sinkFlits r yl)) (decide (yl.length ≠ wideLanes mvu inj.rc m))
  | _ => s

/-- The words of a unit that leave in a tick are written, checked and sent: the state and the bytes for the fabric. -/
def unitWrites (s : State) (p i : Nat) (mvu : Bool) (rd : Nat → Byte) (ops : List OpWord) (tab : Option Nat) (t len : Nat) :
    State × List Byte :=
  match (munitOf s i mvu).inflight.find? (fun o => o.leave = t) with
  | none => (s, [])
  | some o =>
    match (injections mvu ops).find? (fun x => x.index = o.index) with
    | none => (s, [])
    | some inj =>
      let u := munitOf s i mvu
      let (cols, pass, skip) := deliver rd mvu u inj o
      let m := (activeShape mvu inj.word inj.tile).m
      let lanes := endpointLanes rd tab t len true (if mvu then 2 else 1)
      let half := decide (lanes.length ≠ wideLanes mvu inj.rc m)
      let s := putWord s i mvu inj o cols
      let s := modMunit s i mvu (fun u => { u with
        inflight := u.inflight.filter (fun x => x ≠ o), verdicts := u.verdicts ++ [(pass, skip)]
        passes := if o.word + 1 = inj.words then (u.passes + 1) % 2 ^ 32 else u.passes })
      let s := if skip = 0 then s else btdAdd s p 0 skip
      (s, if bit (passYout inj.word) 2 then wordFabric mvu half m inj.rc cols else [])

/-- Flits a relaying feeder sends on `w` lanes: 64-byte pieces of each block, ciphertext then tag, as they are here
(DESIGN CHOICE, log entry 21). -/
def relayOut (f : Feeder) (w : Nat) : Feeder × List Byte :=
  match f.blocks.find? (fun b => b.relayOut && decide (b.relayed < blockBytes + 64)) with
  | none => (f, [])
  | some b =>
    let here := if b.cipher.length < blockBytes then b.cipher.length / 64 * 64
      else if b.tagHere || b.slot = 0xF then blockBytes + 64 else blockBytes
    let n := Nat.min (64 * w) (here - b.relayed)
    let bs := ((b.cipher ++ padTo 64 b.tag).drop b.relayed).take n
    let b' := { b with relayed := b.relayed + n }
    let gone := decide (b'.relayed = blockBytes + 64) && b.spent
    ({ f with blocks := f.blocks.flatMap (fun x => if x = b then (if gone then [] else [b']) else [x]) }, bs)

/-- Relayed flits that reach a feeder join its first incomplete block of source 1. -/
def relayIn (f : Feeder) (fs : List (Option Flit)) : Feeder :=
  fs.foldl (fun f x => match x with
    | none => f
    | some v =>
      match f.blocks.find? (fun b => b.source = 1 && !b.tagHere) with
      | none => f
      | some b =>
        let bs := natLe 64 v.toNat
        let b' := if b.cipher.length < blockBytes then
            { b with cipher := b.cipher ++ bs, lines := (b.cipher.length + 64) / 1024 }
          else { b with
            tag := bs.take 16, tagHere := true, verified := b.slot = 0xF, wait := if b.slot = 0xF then 24 else 0 }
        { f with blocks := f.blocks.map (fun y => if y = b then b' else y) }) f

/-- The read ports' STREAM bytes in a tick. -/
def portReads (s : State) (i : Nat) (ops : List OpWord) (t : Nat) : List Byte :=
  match streamAt ops t with
  | none => []
  | some w => (List.range (64 * streamLanes w)).map (fun j => spadRead s i (streamOffset w t + j))

/-- A write port's STREAM takes what its lanes bring. -/
def portWrites (s : State) (i : Nat) (ops : List OpWord) (t : Nat) (bs : List Byte) : State :=
  match streamAt ops t with
  | none => s
  | some w => spadPut s i (streamOffset w t) (padTo (64 * streamLanes w) bs)

/-- Every unit of a stall in a tick taken; the router's local inputs for the next tick are what its endpoints drive. -/
def stallTick (s : State) (p i : Nat) (rd : Nat → Byte) (desc t len : Nat) : State :=
  match partAt s rd desc i with
  | none => s.modStall i (fun x => { x with router := { x.router with localIn := [] } })
  | some q =>
    let ops := fun (k : Nat) => programOf rd q k
    let tab := tableAt s rd desc i
    let r := (s.stall i).router
    let sink := fun (code : Nat) => sinkFlits r (endpointLanes rd tab t len false code)
    let src := fun (code : Nat) => endpointLanes rd tab t len true code
    let rd0 := portReads s i (ops 2) t
    let rd1 := portReads s i (ops 3) t
    let s := [2, 3, 4, 5].foldl (fun s k => startPort s p i (ops k) t) s
    let s := unitReads s i false rd (ops 0) tab t len
    let s := unitReads s i true rd (ops 1) tab t len
    let (s, y0) := unitWrites s p i false rd (ops 0) tab t len
    let (s, y1) := unitWrites s p i true rd (ops 1) tab t len
    let s := portWrites s i (ops 4) t (flitBytes (sink 5))
    let s := portWrites s i (ops 5) t (flitBytes (sink 6))
    let (f0, x0) := relayOut (relayIn (feederOf s i false) (sink 7)) (src 5).length
    let (f1, x1) := relayOut (relayIn (feederOf s i true) (sink 8)) (src 6).length
    let s := modFeeder (modFeeder s i false (fun _ => f0)) i true (fun _ => f1)
    let drive := fun (code : Nat) (bs : List Byte) => laneFlits (src code) bs
    s.modStall i (fun x => { x with router := { x.router with
      localIn := drive 1 y0 ++ drive 2 y1 ++ drive 3 rd0 ++ drive 4 rd1 ++ drive 5 x0 ++ drive 6 x1 } })

/-! ## Routers, crossings and bell flits in a tick taken -/

/-- The flit a side of an edge sends on a module in tick `t`: what the first table-driven router inward drove, older by the
pass-through routers between, or what the module across a column of pass-through routers brought (R130). -/
def moduleFlit (s : State) (p e m : Nat) (first : Bool) (t : Nat) : WireFlit :=
  let x := m * edgeLength e / edgeModules e
  let lane := ((modulesAt s e x).findIdx (fun k => k = m))
  let q := edgeRouter e first x
  let dir := edgeDir e first
  let take := fun (q n : Nat) => match stallAt s q with
    | none => {}
    | some i => if bit (s.part p).record.stalls i then laneOf (s.stall i).router.hist n (16 * dir + lane) else {}
  if passThrough s q then
    match reach s q (opposite dir) with
    | .router q' n => take q' (n + 1)
    | .crossing e' f q' n => match laneModule s e' q' lane with
      | none => {}
      | some m' => (moduleIn s p e' m' f n t).getD {}
    | .nowhere => {}
  else take q 0

/-- What a module out of service brings (R24): the rule does not say, so it is a free value, by draw (log entry 149). -/
def brokenFlit (n : Nat) : WireFlit :=
  let x := Config.moduleWord n
  { payload := BitVec.ofNat 512 x, valid := bit x 512, parity := BitVec.ofNat 8 (x / 2 ^ 513) }

/-- Every module a domain sends on takes the flit of sender tick `t` (R132). -/
def sendModules (s : State) (p d t : Nat) : State :=
  (sendsOn s p d).foldl (fun s m =>
    let key := crossKey m.1 m.2.1 (b2n (!m.2.2))
    let (k, s) := if bit (tget s.edges m.1).failed m.2.1 then s.draw else (0, s)
    let s := pushCrossing s key t (if bit (tget s.edges m.1).failed m.2.1 then brokenFlit k else moduleFlit s p m.1 m.2.1 m.2.2 t)
    let n := undelivered s p m.1 m.2.1 m.2.2
    { s with crossings := tmod s.crossings key (fun x => { x with maxOcc := Nat.max x.maxOcc n }) }) s

/-- The directions of a partition's modules that a die's receiving halves take in; the link engine of a hub edge ticks with
the die there. -/
def receivesOn (s : State) (p d : Nat) : List Nat :=
  (List.range 6).flatMap (fun e => [true, false].flatMap (fun f =>
    if edgeDie e f = d && (e < 4 || f) then
      ((setBits (edgeMask s e) 12).filter (fun m => moduleGranted s p e m)).flatMap (fun m =>
        crossKey e m (b2n f) :: (if e < 4 then [] else [crossKey e m 0]))
    else []))

/-- The flit delivered in tick `t` whose tick mark is not that of its sender tick, if it is so (R133). -/
def wrongMark (s : State) (key t : Nat) : Option CrossFlit :=
  if t < 6 then none
  else (crossFlit s key (t - 6)).bind (fun x => if x.mark = BitVec.ofNat 8 (t - 6) then none else some x)

/-- The receiving halves of a domain check the tick marks of what they deliver in tick `t`: an error is counted, and
reported but for a flit that fails its parity check too, which the router reports (R133, Table FAB-11). -/
def checkMarks (s : State) (p d t : Nat) : State :=
  (receivesOn s p d).foldl (fun s' key => match wrongMark s key t with
    | none => s'
    | some x =>
      let s' := { s' with crossings := tmod s'.crossings key (fun y => { y with markErrs := satInc y.markErrs 65535 }) }
      if !wireBad x.flit then unitError s' p Detail.fabTickMark none
      else if 4 ≤ key / 32 && key % 2 = 0 then unitError s' p Detail.fabParity none else s') s

/-- Flits that no router of the receiving die can still need are dropped. -/
def pruneModules (s : State) (p d t : Nat) : State :=
  (List.range 6).foldl (fun s e => [true, false].foldl (fun s f =>
    if edgeDie e f = d && (e < 4 || f) then
      ((setBits (edgeMask s e) 12).filter (fun m => moduleGranted s p e m)).foldl (fun s m =>
        let drop := fun (s : State) (dir : Nat) => { s with crossings := tmod s.crossings (crossKey e m dir) (fun x =>
          { x with flits := x.flits.filter (fun y => decide (t < y.tick + 14)) }) }
        let s := drop s (b2n f)
        if e < 4 then s else drop s 0) s
    else s) s) s

/-- Whether a request is a link engine's staged write counted to a stall. -/
def isUnitWrite (i : Nat) : HomeRequest → Bool
  | .unit j _ => decide (i = j)
  | _ => false

/-- Whether such a write still waits at a home of the stall's partition (R233). -/
def writesWait (s : State) (i : Nat) : Bool :=
  match ownerOfStall s i with
  | none => false
  | some p => (s.part p).cache.lines.any (fun e => e.2.cur.any (isUnitWrite i) || e.2.waiting.any (isUnitWrite i))

/-- Whether a stall has done all its scheduled work (R155): its verdicts are in, its scratchpad operations complete and
its staged writes acknowledged, those of link engines that are counted to it among them. -/
def stallReady (s : State) (i : Nat) (rd : Nat → Byte) (desc t : Nat) : Bool :=
  let x := s.stall i
  x.mxe.inflight.isEmpty && x.mxe.verdicts.isEmpty && x.mvu.inflight.isEmpty && x.mvu.verdicts.isEmpty &&
    x.fills.isEmpty && x.spills.isEmpty && !writesWait s i &&
    [0, 1, 2, 3, 4, 5].all (fun k => (stallProgram s rd desc i k).all (fun w =>
      decide (opTick w + (if opCode w = opStream then streamCount w - 1 else 0) < t)))

/-- A stall's own bell flit. -/
def ownFlit (s : State) (p i : Nat) (rd : Nat → Byte) (desc t : Nat) : BellFlit :=
  let e := (s.part p).epoch
  { ready := if stallReady s i rd desc t then 2 ^ i else 0, error := (s.stall i).error.isSome, nonrepl := e.nonrepl
    seq := (s.part p).job.bells % 2 ^ 32 }

/-- Whether a router combines bell flits in a tick (R155). -/
def bellTraffic (s : State) (i : Nat) (rd : Nat → Byte) (desc t len : Nat) : Bool :=
  decide (len ≤ t + 64) || (match tableAt s rd desc i with
    | none => false
    | some off => match entryAt rd off t with | none => false | some e => entryBell rd off e)

/-- What a stall's router does in a tick: its output registers, its bell flit, whether an ADD met one empty operand, how
many flits at its inputs fail their parity check, and whether a bell flit does. -/
structure RouterOut where
  stall : Nat
  lanes : Tbl WireFlit
  bell : BellFlit
  addEmpty : Bool
  bad : Nat
  bellBad : Bool
  deriving DecidableEq, Repr

/-- What a stall's router does in a tick, from the state before it. -/
def routerOut (s : State) (p i : Nat) (rd : Nat → Byte) (desc t len : Nat) : RouterOut :=
  let q := positionOf s i
  let traffic := bellTraffic s i rd desc t len
  let r := match tableAt s rd desc i with | none => ([], false) | some off => routerTick s p q rd off t len
  let f := if traffic then bellFlit s p i t (ownFlit s p i rd desc t) else {}
  { stall := i, lanes := (if traffic then bellLanes s p i f else []) ++ r.1, bell := f, addEmpty := r.2
    bad := ((badLanes s p q t).filter (fun j => !(traffic && j % 16 = 15 && (meshNeighbour s p i (j / 16)).isSome))).length
    bellBad := bellBad s p i t traffic }

/-- A router's registers after a tick. -/
def routerMove (s : State) (o : RouterOut) : State :=
  s.modStall o.stall (fun x => { x with
    bell := o.bell
    router := { x.router with
      hist := (o.lanes :: x.router.hist).take 9, addEmpty := x.router.addEmpty || o.addEmpty
      parityErrs := Nat.min 65535 (x.router.parityErrs + o.bad) } })

/-- The parity errors that a router found (R128, R157). -/
def routerErrors (s : State) (p : Nat) (o : RouterOut) : State :=
  let s := if o.bad = 0 then s else unitError s p Detail.fabParity (some o.stall)
  if o.bellBad then unitError s p Detail.chkBellParity (some o.stall) else s

/-- A stall whose part in schedule memory fails its parity as the tick reads it: a detected error, and the part is to be
paged again (R293, R296). -/
def checkParts (s : State) (p d : Nat) (rd : Nat → Byte) (desc : Nat) : State :=
  (domainStalls s p d).foldl (fun s i => match partAt s rd desc i with
    | none => s
    | some q =>
      if q ∈ (s.stall i).badParts then
        hardwareError (s.modStall i (fun x => { x with badParts := x.badParts.erase q, repage := true })) p i Detail.chkSchedParity
      else s) s

/-- The scratchpad bytes that a tick's scheduled accesses read are checked (Table CHK-2). -/
def checkReads (s : State) (p d : Nat) (rd : Nat → Byte) (desc t : Nat) : State :=
  if s.spadOdd.isEmpty then s
  else (domainStalls s p d).foldl (fun s i => match partAt s rd desc i with
    | none => s
    | some q => ((partAccess rd q t).filter (fun a => !a.write)).foldl (fun s a => checkSpad s p i a.off a.bytes) s) s

/-- TICK_SYNC goes to the ports whose far device is a member of the job group (R326). -/
def floodGroup (s : State) (p : Nat) (v : W64) (except : Option Nat) : State :=
  ((List.range 12).filter (fun j => some j ≠ except && ((s.part p).zlk.members.any (fun m => m.1 = (s.port j).farDevice)))).foldl
    (fun s j => sendSymbol s j v) s

/-- The root of a LOCKSTEP job group floods TICK_SYNC every 4,096 ticks (R337), counted in its lowest-numbered domain. -/
def syncTicks (s : State) (p d old new : Nat) : State :=
  if isLockstep s p && isLinked s p && (s.part p).zlk.root = ownNumber s && (stallsOf s p).head?.map dieOf = some d &&
      old / 4096 ≠ new / 4096 then
    floodGroup s p (BitVec.ofNat 64 (pack [(0, 8, 0x0F), (8, 12, ownNumber s), (20, 32, new % 2 ^ 32)])) none
  else s

/-- A tick that a domain takes: units and routers read the state before it, then everything moves (R118, R120). -/
def takeTick (s : State) (p d : Nat) : State :=
  let rd := imageOf s p
  let desc := runningDesc s p
  let len := epochLen rd desc
  let t := (s.dom p d).epochTick
  let stalls := domainStalls s p d
  match feederFault s p d rd desc t with
  | some s => s
  | none =>
    let outs := stalls.map (fun i => routerOut s p i rd desc t len)
    let s1 := stalls.foldl (fun s i => stallTick s p i rd desc t len) s
    let s1 := outs.foldl routerMove s1
    let s1 := checkMarks s1 p d t
    let s1 := pruneModules (sendModules s1 p d t) p d t
    let (s1, bad, miss) := if epochLinked s p && decide (t < len) then linkTick s1 p d rd t else (s1, false, false)
    let s1 := s1.modDom p d (fun x => { x with
      ticks := (x.ticks + 1) % 2 ^ 64, epochTick := x.epochTick + 1, mask := x.mask + 1, cycles := x.cycles + 1, held := false
      waits := false })
    let s1 := syncTicks s1 p d (s.dom p d).ticks (s1.dom p d).ticks
    let s1 := checkReads (checkParts (outs.foldl (fun s o => routerErrors s p o) s1) p d rd desc) p d rd desc t
    let s1 := if miss then unitError s1 p Detail.zlkTickMark none else s1
    if !(s1.part p).job.running then s1
    else match outs.find? (fun o => o.addEmpty) with
    | some o => contained s1 p Status.partitionFault Detail.fabAddEmpty (some o.stall)
    | none => if bad then contained s1 p Status.partitionFault Detail.zlkAddEmpty none else s1

/-! ## DOMAIN_TICK -/

/-- A FILL block from outside the own memory is written once it can be read (R151, R230, R539). -/
def fillOutside (s : State) (p i : Nat) (f : FillLine) : State :=
  match translate s p f.va false with
  | .error d => contained (recordFault s p f.va (d % 256) 2 false) p Status.badAddress d (some i)
  | .ok t =>
    if t.sys / 2 ^ 44 = ownNumber s && decide (t.sys % 2 ^ 44 < lsmTop) && (homeOf s p (t.sys % 2 ^ 44 / 1024)).isSome then s
    else match readSys s p t.sys 1024 with
      | (s, .data bs) => spadPut (s.modStall i (fun x => { x with fills := x.fills.erase f })) i f.offset bs
      | (s, .waits) => s
      | (s, .fault st dt) => contained s p st dt (some i)

/-- A SPILL block to a scratchpad or a companion is written at once; memory and the host window take it through their
homes (R539). -/
def spillOutside (s : State) (p i : Nat) (f : SpillLine) : State :=
  match translate s p f.va true with
  | .error d => contained (recordFault s p f.va (d % 256) 2 true) p Status.badAddress d (some i)
  | .ok t =>
    let done := fun (s : State) => s.modStall i (fun x => { x with spills := x.spills.erase f })
    let bs := f.bytes.map (fun c => c.2)
    if t.sys / 2 ^ 44 ≠ ownNumber s then
      (if hasRoute s p (t.sys / 2 ^ 44) then s else contained s p Status.badAddress Detail.zlkNoRoute (some i))
    else match regionOf (t.sys % 2 ^ 44) with
      | .spad k o => spadPut (done s) k o bs
      | .companion k o => (List.range 16).foldl (fun s j => askSite s k p (o + 64 * j) true ((bs.drop (64 * j)).take 64)) (done s)
      | _ => s

/-- Transfers of a domain's ports that lead outside the own memory go on. -/
def pumpPorts (s : State) (p d : Nat) : State :=
  (domainStalls s p d).foldl (fun s i =>
    let s := (s.stall i).fills.foldl (fun s f => if (s.part p).job.running then fillOutside s p i f else s) s
    ((s.stall i).spills.filter (fun f => f.read)).foldl (fun s f => if (s.part p).job.running then spillOutside s p i f else s) s) s

/-- Whether the clocks of a partition's domains run. -/
def clocksRun (s : State) : Bool :=
  !s.power.halted && !s.power.tripped && !s.power.coolantStop && (s.power.state == .run)

/-- Whether a domain takes cycles: an epoch of its job is in progress. -/
def domainRuns (s : State) (p d : Nat) : Bool :=
  (s.part p).present && (s.part p).job.running && !(s.part p).job.awaitStart && (s.part p).epoch.running &&
    (s.part p).state != .preempted && (s.part p).state != .resetting && clocksRun s && decide (d ∈ domainsOf s p)

/-- The cause of a bell wait: 0x9 FLOOD, 0xA PAGE, 0xB LINK (R159). -/
def waitCause (s : State) (p : Nat) : Nat :=
  if !(s.part p).epoch.inBell then 0x9 else if (s.part p).epoch.stage ≤ 2 then 0xB else 0xA

/-- A tick of a bell wait (R157, R159): it counts once for the partition, in its lowest-numbered domain. -/
def bellWaitTick (s : State) (p d : Nat) : State :=
  let s := if (stallsOf s p).head?.map dieOf = some d then
    s.modPart p (fun q => { q with job := { q.job with bellWait := (q.job.bellWait + 1) % 2 ^ 64 } }) else s
  loseTick (s.modDom p d (fun x => { x with bellTicks := x.bellTicks + 1, waits := true })) p d (waitCause s p)

/-- X of R342: the link allowance of a LINKED bell in LOCKSTEP. -/
def linkAllowance (s : State) (p : Nat) : Nat :=
  if epochLinked s p && isLockstep s p then 924 * s.links.diameter - 64 else 0

/-- A tick inside a bell that waits: nothing scheduled moves, the counters do. A tick of the link allowance is no bell
wait. -/
def idleBellTick (s : State) (p d : Nat) : State :=
  let old := (s.dom p d).ticks
  let s := s.modDom p d (fun x => { x with
    ticks := (x.ticks + 1) % 2 ^ 64, mask := x.mask + 1, cycles := x.cycles + 1, held := false, waits := false })
  let s := syncTicks s p d old (s.dom p d).ticks
  if (s.part p).epoch.stage ≤ 2 && decide ((s.dom p d).linkTicks < linkAllowance s p) then
    closeLost (s.modDom p d (fun x => { x with linkTicks := x.linkTicks + 1 })) p d
  else bellWaitTick s p d

/-- The run of stretched cycles of a domain ends and joins the events of the epoch (R516). -/
def closeStretch (s : State) (p d : Nat) : State :=
  match (s.dom p d).stretch with
  | none => s
  | some (t, n) => recoveryEvent (s.modDom p d (fun x => { x with stretch := none })) p 0x8 t n

/-- `n` stretched cycles are counted, whether or not their ticks are withheld (R136, R137, Table FAB-11). -/
def stretchTicks (s : State) (p d n : Nat) : State :=
  let s := (btdAdd s p 8 n).modPart p (fun q => { q with pwr := { q.pwr with stretched := q.pwr.stretched + n } })
  s.modDom p d (fun x => { x with stretch := match x.stretch with | none => some (x.epochTick, n) | some (t, k) => some (t, k + n) })

/-- The cycles of a domain whose clock a droop stretches. -/
def stretchCycle (s : State) (p d : Nat) : State := if drooping s d then stretchTicks s p d 1 else closeStretch s p d

/-- Whether every stall of a domain holds READY for every stall of the partition (R157). -/
def domainReady (s : State) (p d : Nat) : Bool :=
  (domainStalls s p d).all (fun i => Nat.land (s.stall i).bell.ready (s.part p).record.stalls = (s.part p).record.stalls)

/-- A tick that a domain takes: of the epoch, of a wait after it, one of the bell ticks that come before the BELL step, or
a tick inside a bell that waits. -/
def takenTick (s : State) (p d : Nat) : State :=
  if (s.part p).epoch.inBell then idleBellTick s p d
  else
    let late := decide (runningLen s p ≤ (s.dom p d).epochTick)
    let begun := domainReady s p d && decide ((s.dom p d).bellTick < 64)
    let s := takeTick s p d
    if !(late && (s.part p).epoch.running) then closeLost s p d
    else if begun then closeLost (s.modDom p d (fun x => { x with bellTick := x.bellTick + 1 })) p d
    else bellWaitTick s p d

/-- DOMAIN_TICK (R117 to R137): one cycle of a partition's domain on a die. -/
def execDomainTick (p : Fin 64) (d : Fin 4) (s : State) : Host.Outcome State Fault Refusal :=
  .next (
    if !domainRuns s p d then s
    else
      let s := moveStage (pumpPorts (feederCycle s p d) p d) p d
      if !domainRuns s p d then s
      else
        let need := decide (extraRate s p ≠ 0)
        let hold := holdCause s p d
        let s := stretchCycle (readSpills s p d hold.isNone) p d
        let s := s.modDom p d (fun x => { x with extra := if need then x.extra + 1 else 0 })
        match hold with
        | some (c, m) => withhold s p d c m
        | none => takenTick s p d)

end Sys2Proof.Machine
end

