-- ==== Sys2Proof/Machine/PlanCheck.lean ====
section
/-! DEFINITION. The checks of PLAN_LOAD (R63, R99, R114, R129, R141 to R154, R156, R161, R166, R340, R345, R547): each rule
as a predicate over the image and the partition, and the lowest detail that applies. -/

namespace Sys2Proof.Machine

/-- Bytes of a stall's scratchpad. -/
def spadTop : Nat := 2 ^ 23

/-- Whether bytes `o` to `o + n - 1` of an image are zero. -/
def zeroAt (rd : Nat → Byte) (o n : Nat) : Bool := (List.range n).all (fun i => rd (o + i) = 0)

/-! ## Layout (R141, R142, R547) -/

/-- Whether two ranges overlap. -/
def overlap (a n b m : Nat) : Bool := decide (n ≠ 0 ∧ m ≠ 0 ∧ a < b + m ∧ b < a + n)

/-- Whether R141 is broken. -/
def headerBad (rd : Nat → Byte) (len : Nat) : Bool :=
  let n := rdN rd 16 4
  let dir := rdN rd 72 8
  let secs := sectionsOf rd
  decide (rdN rd 0 4 ≠ 0x4E414C50) || decide (rdN rd 4 2 ≠ 1) || decide (rdN rd 6 2 ≠ 256) || decide (rdN rd 8 8 ≠ len) ||
    decide (n < 2) || decide (65556 < n) || decide (8 ≤ planFlags rd) || decide (2 < rdN rd 24 1) || decide (2 < rdN rd 25 1) ||
    decide (2 < rdN rd 26 1) || !zeroAt rd 27 1 || !zeroAt rd 80 176 || decide (dir % 256 ≠ 0) || decide (dir < 256) ||
    decide (len < dir + 32 * n) ||
    (List.range n).any (fun e => !zeroAt rd (dir + 32 * e + 4) 4 || !zeroAt rd (dir + 32 * e + 24) 8) ||
    secs.any (fun x => decide (x.off % 256 ≠ 0) || decide (x.off < 256) || decide (len < x.off + x.bytes) ||
      overlap x.off x.bytes dir (32 * n)) ||
    (List.range secs.length).any (fun i => (List.range i).any (fun j => match secs[i]?, secs[j]? with
      | some x, some y => overlap x.off x.bytes y.off y.bytes
      | _, _ => false))

/-- Whether the directory cannot be read. -/
def directoryBad (rd : Nat → Byte) (len : Nat) : Bool :=
  decide (rdN rd 72 8 % 256 ≠ 0) || decide (rdN rd 72 8 < 256) || decide (len < rdN rd 72 8 + 32 * rdN rd 16 4)

/-- Sections of a type. -/
def countType (rd : Nat → Byte) (t : Nat) : Nat := ((sectionsOf rd).filter (fun x => x.type = t)).length

/-- Whether R547 is broken. -/
def keyRefsBad (rd : Nat → Byte) : Bool :=
  let x := sectionOf rd 6 0
  let n := x.bytes / 32
  decide (x.bytes % 32 ≠ 0) || decide (8 < n) ||
    (List.range n).any (fun e => decide (7 < rdN rd (x.off + 32 * e) 1) || !zeroAt rd (x.off + 32 * e + 1) 15 ||
      (List.range e).any (fun f => rdN rd (x.off + 32 * e) 1 = rdN rd (x.off + 32 * f) 1))

/-- Whether R142 or R547 is broken. -/
def sectionBad (rd : Nat → Byte) : Bool :=
  let secs := sectionsOf rd
  let m := planModes rd
  secs.any (fun x => decide (x.type = 0) || decide (11 < x.type) ||
    (decide (x.type ≠ 3) && decide (x.type ≠ 11) && decide (x.index ≠ 0)) || (decide (x.type = 11) && decide (11 < x.index)) ||
    decide (1 < (secs.filter (fun y => y.type = x.type && y.index = x.index)).length)) ||
    decide (countType rd 1 ≠ 1) || decide (countType rd 2 ≠ 1) || decide (countType rd 3 < 1) || decide (65535 < countType rd 3) ||
    [4, 5, 6, 7, 8, 9, 10].any (fun t => decide (1 < countType rd t)) || decide (12 < countType rd 11) ||
    (decide (m.2.2 = 1) && decide (countType rd 8 ≠ 1)) || (bit (planFlags rd) 0 && decide (countType rd 9 ≠ 1)) ||
    (bit (planFlags rd) 1 && decide (countType rd 10 ≠ 1)) || keyRefsBad rd

/-! ## Epochs, bells and parts (R143, R144, R146, R147) -/

/-- Whether a position is granted to a partition. -/
def positionGranted (s : State) (p q : Nat) : Bool := (stallsOf s p).any (fun i => positionOf s i = q)

/-- Whether a part is present. -/
def partPresent (rd : Nat → Byte) (q : Nat) : Bool := (sectionsOf rd).any (fun x => x.type = 3 && x.index = q)

/-- Whether R143 or R144 is broken. -/
def epochBad (s : State) (p : Nat) (rd : Nat → Byte) : Bool :=
  let e := sectionOf rd 1 0
  let b := sectionOf rd 2 0
  decide (e.bytes % 320 ≠ 0) || decide (e.bytes = 0) || decide (b.bytes % 8 ≠ 0) || decide (b.bytes = 0) ||
    decide (65536 < bellCount rd) ||
    (List.range (epochCount rd)).any (fun d =>
      let o := descAt rd d
      decide (epochLen rd d < 1024) || decide (2 ^ 24 < epochLen rd d) || decide (3 < epochFlags rd d) || !zeroAt rd (o + 6) 2 ||
        !zeroAt rd (o + 160) 160 || (setBits (epochKeys rd d) 8).any (fun k => (keyRef rd k).isNone) ||
        (List.range 72).any (fun q => decide (epochPart rd d q ≠ 0xFFFF) &&
          (!positionGranted s p q || !partPresent rd (epochPart rd d q)))) ||
    (List.range (bellCount rd)).any (fun i => decide (2 ^ 26 ≤ bellWord rd i) || decide (epochCount rd ≤ (bellAt rd i).epoch))

/-- A descriptor with a position of the partition and the part it runs there. -/
def runPairs (s : State) (p : Nat) (rd : Nat → Byte) : List (Nat × Nat × Nat) :=
  (List.range (epochCount rd)).flatMap (fun d => ((List.range 72).filter (fun q => positionGranted s p q &&
    decide (epochPart rd d q ≠ 0xFFFF) && partPresent rd (epochPart rd d q))).map (fun q => (d, q, epochPart rd d q)))

/-- The parts that no descriptor runs: what needs no epoch is checked of them too, at the greatest L and with every key. -/
def looseParts (rd : Nat → Byte) (runs : List (Nat × Nat × Nat)) : List Nat :=
  ((sectionsOf rd).filter (fun x => x.type = 3 && runs.all (fun r => r.2.2 ≠ x.index))).map (fun x => x.index)

/-- Whether a part breaks R146 in its size or the place of its programs and table. -/
def partPlaceBad (rd : Nat → Byte) (x : Section) : Bool :=
  decide (2 ^ 20 < x.bytes) || decide (x.bytes < 64) || !zeroAt rd (x.off + 56) 8 ||
    (List.range 7).any (fun k =>
      let o := rdN rd (x.off + 8 * k) 4
      let n := rdN rd (x.off + 8 * k + 4) 4
      decide (n ≠ 0) && (decide (o < 64) || decide (x.bytes < o + n) || decide (o % (if k = 6 then 16 else 32) ≠ 0)))

/-- Bytes of schedule memory that two consecutive bell entries need at a position (R147). -/
def pairBytes (rd : Nat → Byte) (b c q : Nat) : Nat :=
  let size := fun (n : Nat) => if n = 0xFFFF then 0 else (sectionOf rd 3 n).bytes
  let x := epochPart rd (bellAt rd b).epoch q
  let y := epochPart rd (bellAt rd c).epoch q
  if x = y then size x else size x + size y

/-- Whether R146 or R147 is broken; the pairs known at load are neighbours of the bell table. -/
def schedMemBad (rd : Nat → Byte) : Bool :=
  ((sectionsOf rd).filter (fun x => x.type = 3)).any (partPlaceBad rd) ||
    (List.range (bellCount rd - 1)).any (fun b => (List.range 72).any (fun q => decide (2 ^ 20 < pairBytes rd b (b + 1) q)))

/-- Whether a program's words are whole and hold an END (R146). -/
def programBad (rd : Nat → Byte) (part k : Nat) : Bool :=
  let u := partUnit rd part k
  decide (u.2 ≠ 0) && (decide (u.2 % 32 ≠ 0) ||
    !(List.range (u.2 / 32)).any (fun i => bits (rdN rd (u.1 + 32 * i) 8) 7 0 = 0))

/-! ## Engine and MVU programs (R99, R114) -/

/-- Whether an output format suits a pass (R98). -/
def outOk' (intPass : Bool) (code : Nat) : Bool :=
  if intPass then code = 0 || code = 0xA || code = 0xB || code = 0xC else decide (code ≤ 9)

/-- Bytes from a plane's offset to the end of its last column. -/
def planeEnd (n m b : Nat) : Nat := if n = 0 then 0 else (n - 1) * 16 * b + rowBytes m b

/-- Whether a FETCH's fields are in range. -/
def fetchOk (mask : Nat) (w : OpWord) : Bool :=
  let k := fetchSlot w
  decide (opFlags w < 16) && zeroBits (opQ w 1) 56 8 && decide (fetchSource w ≤ 2) && (decide (k ≤ 7) || k = 0xF) &&
    (k = 0xF || bit mask k) && decide (fetchAddr w % 65536 = 0) && decide (fetchTags w % 16 = 0) && decide (fetchBlocks w ≠ 0) &&
    (fetchSource w ≠ 2 || (decide (fetchAddr w + 65536 * fetchBlocks w ≤ spadTop) && decide (fetchTags w < spadTop) &&
      (k = 0xF || decide (fetchTags w + 16 * (opQ w 2 + fetchBlocks w) ≤ spadTop))))

/-- Whether a LOAD's fields are in range. -/
def loadOk (mvu : Bool) (w : OpWord) : Bool :=
  let f := loadFormat w
  decide (opFlags w < 4) && zeroBits (opQ w 1) 23 9 && zeroBits (opQ w 1) 52 12 && zeroBits (opQ w 2) 23 41 && opQ w 3 = 0 &&
    decide (rateClass f ≠ 0) && (!loadLo w || f = 0xD) && decide (1 ≤ loadM w) && decide (loadM w ≤ unitRows mvu) &&
    decide (1 ≤ loadK w) && decide (loadK w ≤ 128) &&
    (loadFabric w || decide (loadElems w + planeEnd (loadK w) (loadM w) (planeBits f) ≤ spadTop)) &&
    (!isMx f || decide (loadScales w + 128 * ((loadK w + 31) / 32 - 1) + loadM w ≤ spadTop))

/-- Columns that a pass writes to scratchpad: whole runs for an MX output (R98). -/
def outColumns (w : OpWord) : Nat := if isMx (passOut w) then (passN w + 31) / 32 * 32 else passN w

/-- Whether a PASS's fields are in range for the tile it meets. -/
def passOk (mvu : Bool) (i : Injection) : Bool :=
  let w := i.word
  let x := activeShape mvu w i.tile
  decide (opFlags w < 2) && zeroBits (opQ w 1) 29 3 && zeroBits (opQ w 1) 37 27 && zeroBits (opQ w 2) 11 21 &&
    zeroBits (opQ w 2) 55 9 && zeroBits (opQ w 3) 23 41 && decide (1 ≤ passN w) && pairOk x.format (passFormat w) &&
    outOk' (isIntFmt x.format) (passOut w) && decide (passYin w ≤ 2) &&
    (!bit (passYout w) 1 ||
      (decide (passElems w + planeEnd (outColumns w) x.m (outBits (passOut w)) ≤ spadTop) &&
        (!isMx (passOut w) || decide (passScales w + 128 * ((passN w + 31) / 32 - 1) + x.m ≤ spadTop))))

/-- Whether the END word of a program sets a field that Table MXE-10 does not give it: all but OP and TICK are reserved. -/
def endReserved (rd : Nat → Byte) (part k : Nat) : Bool :=
  let u := partUnit rd part k
  let n := (programOf rd part k).length
  let w := opWord rd u.1 n
  decide (n < u.2 / 32) &&
    (decide (opFlags w ≠ 0) || !zeroBits (opQ w 0) 40 24 || opQ w 1 ≠ 0 || opQ w 2 ≠ 0 || opQ w 3 ≠ 0)

/-- Whether the FIELD rule of a unit's program is broken. -/
def unitFieldBad (mvu : Bool) (rd : Nat → Byte) (mask part : Nat) : Bool :=
  let k := unitProgram mvu
  let ops := programOf rd part k
  programBad rd part k || endReserved rd part k ||
    ops.any (fun w => !zeroBits (opQ w 0) 40 24 || (match opCode w with
      | 1 => !fetchOk mask w
      | 2 => !loadOk mvu w
      | 3 => false
      | 4 => decide (opFlags w ≠ 0) || opQ w 1 ≠ 0 || opQ w 2 ≠ 0 || opQ w 3 ≠ 0
      | _ => true)) ||
    (injections mvu ops).any (fun i => i.isPass && !passOk mvu i)

/-- Whether injections overlap or pass the epoch's end. -/
def overlapBad (mvu : Bool) (ops : List OpWord) (len : Nat) : Bool :=
  let is := injections mvu ops
  is.any (fun i => decide (len ≤ i.last)) || ((is.zip is.tail).any (fun x => decide (x.2.first ≤ x.1.last)))

/-- Whether R72 or R106 is broken, or a PASS comes before the first SWAP. -/
def windowBad (mvu : Bool) (ops : List OpWord) : Bool :=
  let is := injections mvu ops
  let loads := loadsOf ops
  (match is with | [] => false | i :: _ => i.isPass) ||
    loads.any (fun w =>
      let t := opTick w
      let a := flagBefore is t
      let b := flagFrom is t
      (match a with | none => false | some a => decide (t < a + (if mvu then 2 else 132))) ||
        (match b with | none => false | some b => if mvu then decide (b + 1 < t + loadTicks true (loadFormat w)) else false) ||
        (a.isSome && b.isSome &&
          decide (1 < (loads.filter (fun y => flagBefore is (opTick y) = a && flagFrom is (opTick y) = b)).length)))

/-- The passes that write, or read, the carry buffer. -/
def carryWriters (is : List Injection) : List Injection := is.filter (fun i => i.isPass && bit (passYout i.word) 0)
/-- The passes that read the carry buffer. -/
def carryReaders (is : List Injection) : List Injection := is.filter (fun i => i.isPass && passYin i.word = 1)
/-- The tick in which a pass injects the word of carry column `c`, if it has one. -/
def carryTick (i : Injection) (c : Nat) : Option Nat :=
  let b := passCarry i.word
  if b ≤ c ∧ c < b + passN i.word then some (i.first + (c - b) / Nat.max 1 i.rc) else none

/-- The latest write of a carry column injected before a tick. -/
def lastWrite (is : List Injection) (c t : Nat) : Option Nat :=
  (((carryWriters is).filterMap (fun i => carryTick i c)).filter (fun x => x < t)).max?

/-- Whether the carry distance or bounds are broken (R73, R105). -/
def carryBad (mvu : Bool) (ops : List OpWord) : Bool :=
  let is := injections mvu ops
  (carryWriters is ++ carryReaders is).any (fun i => decide (2048 < passCarry i.word + passN i.word)) ||
    (carryReaders is).any (fun i => (List.range (passN i.word)).any (fun n =>
      match carryTick i (passCarry i.word + n) with
      | none => false
      | some t => match lastWrite is (passCarry i.word + n) t with
        | none => false
        | some x => decide (t < x + carryDistance mvu)))

/-- Whether a pass reads a carry column that nothing wrote before. -/
def unwrittenBad (mvu : Bool) (ops : List OpWord) : Bool :=
  let is := injections mvu ops
  (carryReaders is).any (fun i => (List.range (passN i.word)).any (fun n =>
    match carryTick i (passCarry i.word + n) with
    | none => false
    | some t => (lastWrite is (passCarry i.word + n) t).isNone))

/-- Whether PACKED stands where no pass can draw it. -/
def packBad (mvu : Bool) (ops : List OpWord) : Bool :=
  let narrow := (injections mvu ops).any (fun i => i.isPass && (elemBits (passFormat i.word) = 4 || elemBits (passFormat i.word) = 8))
  ops.any (fun w => opCode w = opFetch && bit (opFlags w) 0 && (bit (opFlags w) 2 || !narrow))

/-- The checks of a unit's program in an epoch of `len` ticks with KEY_MASK `mask`, in the order of their details. -/
def unitChecks (mvu : Bool) (rd : Nat → Byte) (mask len part : Nat) : List Bool :=
  let ops := programOf rd part (unitProgram mvu)
  [unitFieldBad mvu rd mask part, overlapBad mvu ops len, windowBad mvu ops, carryBad mvu ops,
    unwrittenBad mvu ops, packBad mvu ops]

/-- The lowest detail of a unit's programs over every epoch and position and every loose part, if one is broken. -/
def unitDetail (mvu : Bool) (rd : Nat → Byte) (runs : List (Nat × Nat × Nat)) : Option Nat :=
  let base := if mvu then Detail.mvuField else Detail.mxeField
  let cases := runs.map (fun r => (epochKeys rd r.1, epochLen rd r.1, r.2.2)) ++
    (looseParts rd runs).map (fun x => (0xFF, 2 ^ 24, x))
  ((List.range 6).find? (fun n => cases.any (fun c => (unitChecks mvu rd c.1 c.2.1 c.2.2).getD n false))).map (fun n => base + n)

/-! ## Router tables (R121 to R125, R129) -/

/-- How many lanes a port of a router has (Table FAB-1). -/
def portLanes (s : State) (q port : Nat) : Nat :=
  if port = 4 then 16
  else match hop q port with
    | .router _ => 16
    | .edge e _ => (modulesAt s e (edgePos e q)).length
    | .package => 0

/-- Whether a lane exists at a router. -/
def laneExists (s : State) (q j : Nat) : Bool := decide (j < 80) && decide (j % 16 < portLanes s q (j / 16))

/-- Whether a selector breaks Table FAB-4 at a router, as that of output lane `j`. -/
def selBad (s : State) (q j x : Nat) : Bool :=
  let f := selFields x
  let srcBad := fun (n : Nat) => n ≠ 127 && !laneExists s q n
  f.2.2 ≠ 0 && (!laneExists s q j || srcBad f.1 || (decide (2 ≤ f.2.2) && srcBad f.2.1))

/-- Whether an unused field of a selector is reserved: 80 to 126. -/
def selReserved (x : Nat) : Bool :=
  let f := selFields x
  (decide (80 ≤ f.1) && decide (f.1 ≤ 126)) || (decide (80 ≤ f.2.1) && decide (f.2.1 ≤ 126))

/-- Whether the table of a part breaks R121, R123 or R124 at any router. -/
def tableShapeBad (rd : Nat → Byte) (part : Nat) : Bool :=
  let (off, len) := partUnit rd part 6
  let (n, period, _) := tableHeader rd off
  decide (len ≠ 0) && (decide (n = 0) || decide (4096 < n) || decide (len ≠ 16 + 192 * n) || decide (period = 0) ||
    decide (2 ^ 24 < period) || !zeroBits (rdN rd off 8) 13 3 || !zeroBits (rdN rd off 8) 41 23 ||
    !zeroBits (rdN rd (off + 8) 8) 24 40 ||
    decide ((List.range n).foldl (fun t e => t + entryDuration rd off e + 1) 0 ≠ period) ||
    (List.range n).any (fun e => !zeroBits (entryQ rd off e 0) 17 47 || decide (entryQ rd off e 23 ≠ 0) ||
      (List.range 16).any (fun l => decide (8 < entrySink rd off e l) || decide (6 < entrySource rd off e l)) ||
      (List.range 80).any (fun j => selReserved (entrySel rd off e j))))

/-- Whether FAB_FIELD applies to the table at a position. -/
def tableFieldBad (s : State) (rd : Nat → Byte) (q part : Nat) : Bool :=
  let (off, len) := partUnit rd part 6
  tableShapeBad rd part || (decide (len ≠ 0) &&
    (List.range (tableHeader rd off).1).any (fun e => (List.range 80).any (fun j => selBad s q j (entrySel rd off e j))))

/-- The output lanes that some entry of a table drives. -/
def tableDrives (rd : Nat → Byte) (part : Nat) : List Nat :=
  let (off, len) := partUnit rd part 6
  if len = 0 then []
  else (List.range 80).filter (fun j => (List.range (tableHeader rd off).1).any (fun e => (selFields (entrySel rd off e j)).2.2 ≠ 0))

/-- Whether driving a lane leaves the partition (R129). -/
def driveBad (s : State) (p q j : Nat) : Bool :=
  if 64 ≤ j then false
  else match reach s q (j / 16) with
    | .router q' _ => !positionGranted s p q'
    | .crossing e _ q' _ => match laneModule s e q' (j % 16) with
      | none => true
      | some m => !moduleGranted s p e m
    | .nowhere => true

/-- Whether FAB_BOUNDARY applies to the table at a position. -/
def boundaryBad (s : State) (p : Nat) (rd : Nat → Byte) (q part : Nat) : Bool := (tableDrives rd part).any (driveBad s p q)

/-- The lane counts an endpoint may have in a tick by the stall's programs; none where it does not act. -/
def endpointWidths (rd : Nat → Byte) (part t : Nat) (source : Bool) (code : Nat) : Option (List Nat) :=
  let unit := fun (mvu : Bool) => programOf rd part (unitProgram mvu)
  let yWidths := fun (mvu : Bool) (i : Injection) =>
    let m := (activeShape mvu i.word i.tile).m
    [wideLanes mvu i.rc m, if mvu then ceilDiv (i.rc * m * 2) 64 else 4 * i.rc]
  let yout := fun (mvu : Bool) => ((injections mvu (unit mvu)).find? (fun i => i.isPass && bit (passYout i.word) 2 &&
    decide (i.first + unitLatency mvu ≤ t) && decide (t < i.first + unitLatency mvu + i.words))).map (yWidths mvu)
  let yin := fun (mvu : Bool) => match passAt (unit mvu) mvu t with
    | some (i, _) => if passYin i.word = 2 then some (yWidths mvu i) else none
    | none => none
  let load := fun (mvu : Bool) => ((loadsOf (unit mvu)).find? (fun w => loadFabric w && decide (opTick w ≤ t) &&
    decide (t < opTick w + (if mvu then 16 else 128)))).map (fun w =>
      [if mvu then ceilDiv (loadM w * planeBits (loadFormat w)) 64 else ceilDiv (16 * planeBits (loadFormat w)) 64])
  let port := fun (k : Nat) => (streamAt (programOf rd part k) t).map (fun w => [streamLanes w])
  match source, code with
  | true, 1 => yout false | true, 2 => yout true | true, 3 => port 2 | true, 4 => port 3
  | false, 1 => yin false | false, 2 => load false | false, 3 => yin true | false, 4 => load true
  | false, 5 => port 4 | false, 6 => port 5
  | _, _ => none

/-- Whether FAB_WIDTH applies to the table at a position in an epoch: relays take 1 to 4 lanes, other endpoints their
width in every tick in which they act. -/
def widthBad (rd : Nat → Byte) (d part : Nat) : Bool :=
  let (off, len) := partUnit rd part 6
  let l := epochLen rd d
  let tab := if len = 0 then none else some off
  (List.range l).any (fun t => [true, false].any (fun src => (List.range 9).any (fun code =>
    let n := (endpointLanes rd tab t l src code).length
    match endpointWidths rd part t src code with
    | some ws => !decide (n ∈ ws)
    | none => (if src then code = 5 || code = 6 else code = 7 || code = 8) && decide (4 < n))))

/-- The router that drives, or reads, a module's lane on a side: its position, output port lane, and pass-through routers
crossed. -/
def moduleRouter (s : State) (e m : Nat) (first : Bool) : Option (Nat × Nat × Nat) :=
  let x := m * edgeLength e / edgeModules e
  let lane := (modulesAt s e x).findIdx (fun k => k = m)
  let q := edgeRouter e first x
  let dir := edgeDir e first
  if passThrough s q then (match reach s q (opposite dir) with | .router q' n => some (q', 16 * dir + lane, n + 1) | _ => none)
  else some (q, 16 * dir + lane, 0)

/-- Whether the table at a position drives, or reads, a lane in a tick of an epoch. -/
def laneUsed (rd : Nat → Byte) (d q j t : Nat) (drive : Bool) : Bool :=
  let part := epochPart rd d q
  let (off, len) := partUnit rd part 6
  decide (part ≠ 0xFFFF) && decide (len ≠ 0) &&
    (if drive then (drivenLanes rd off t (epochLen rd d)).any (fun x => x.1 = j)
     else decide (j ∈ neededLanes rd off t (epochLen rd d)))

/-- Whether FAB_CROSSING applies to an epoch (R129): sends and reads of a crossing must match, 6 ticks and the
pass-through routers apart. -/
def crossingBad (s : State) (p : Nat) (rd : Nat → Byte) (d : Nat) : Bool :=
  (List.range 4).any (fun e => ((setBits (edgeMask s e) 8).filter (fun m => moduleGranted s p e m)).any (fun m =>
    [true, false].any (fun f => match moduleRouter s e m f, moduleRouter s e m (!f) with
      | some (q, j, n), some (q', j', n') =>
        (List.range (epochLen rd d)).any (fun t =>
          laneUsed rd d q j t true != laneUsed rd d q' j' (t + 6 + n + n') false ||
            (decide (t < 6 + n + n') && laneUsed rd d q' j' t false))
      | some (q, j, _), none => (List.range (epochLen rd d)).any (fun t => laneUsed rd d q j t true)
      | none, some (q', j', _) => (List.range (epochLen rd d)).any (fun t => laneUsed rd d q' j' t false)
      | none, none => false)))

/-! ## Bell window, ports and carried regions (R145, R149 to R154) -/

/-- Whether R145 is broken by a part in an epoch. -/
def bellWindowBad (rd : Nat → Byte) (d part : Nat) : Bool :=
  let l := epochLen rd d
  [false, true].any (fun mvu => (injections mvu (programOf rd part (unitProgram mvu))).any (fun i =>
    decide (l ≤ i.last + 64) || (i.isPass && decide (l < i.last + unitLatency mvu + 112)))) ||
  [2, 3, 4, 5].any (fun k => (programOf rd part k).any (fun w =>
    if opCode w = opStream then decide (l < opTick w + streamCount w + 64) else decide (l ≤ opTick w + 64)))

/-- Whether a port operation's fields are in range (R149). -/
def portOpOk (w : OpWord) : Bool :=
  opFlags w = 0 && zeroBits (opQ w 0) 40 24 && (match opCode w with
    | 0x10 => zeroBits (opQ w 1) 23 1 && zeroBits (opQ w 1) 29 35 && decide (1 ≤ streamLanes w) && decide (streamLanes w ≤ 16) &&
        zeroBits (opQ w 2) 24 40 && opQ w 3 = 0 && decide (streamOff w + 64 * streamLanes w * streamCount w ≤ spadTop)
    | 0x11 | 0x12 => zeroBits (opQ w 1) 48 16 && zeroBits (opQ w 2) 23 41 && zeroBits (opQ w 3) 23 41 && portVa w % 1024 = 0 &&
        portOff w % 1024 = 0 && portBytes w % 1024 = 0 && decide (portOff w + portBytes w ≤ spadTop)
    | _ => false)

/-- Whether a port program breaks R146 or R149. -/
def portBad (rd : Nat → Byte) (part k : Nat) : Bool :=
  let ops := programOf rd part k
  let streams := ops.filter (fun w => opCode w = opStream)
  programBad rd part k || endReserved rd part k || ops.any (fun w => !portOpOk w) ||
    (ops.zip ops.tail).any (fun x => decide (opTick x.2 < opTick x.1)) ||
    (streams.zip streams.tail).any (fun x => decide (opTick x.2 < opTick x.1 + streamCount x.1))

/-- Whether two scheduled accesses of one tick meet in a bank (R150): different units or blocks of one bank. -/
def bankBad (rd : Nat → Byte) (d part : Nat) : Bool :=
  (List.range (epochLen rd d)).any (fun t =>
    let xs := ((partAccess rd part t).flatMap (fun a => (accessBlocks a).map (fun b => (a.unit, b)))).eraseDups
    (List.range xs.length).any (fun i => (List.range i).any (fun j => match xs[i]?, xs[j]? with
      | some x, some y => decide (x.2 % 32 = y.2 % 32)
      | _, _ => false)))

/-- Bytes a carried region takes. -/
def regionBytes (x : CarriedRegion) : Nat := if x.kind = 1 then 2 * x.bytes else x.bytes

/-- Whether R152 or R153 is broken. -/
def carriedBad (s : State) (p : Nat) (rd : Nat → Byte) : Bool :=
  let sec := sectionOf rd 5 0
  let rs := carriedRegions rd
  let meet := fun (x y : CarriedRegion) => (x.pos = y.pos || x.pos = 0xFF || y.pos = 0xFF) && overlap x.off (regionBytes x) y.off (regionBytes y)
  decide (sec.bytes % 16 ≠ 0) || decide (64 < rs.length) ||
    (List.range rs.length).any (fun i => !zeroAt rd (sec.off + 16 * i + 2) 2 || !zeroAt rd (sec.off + 16 * i + 12) 4) ||
    rs.any (fun x => decide (2 < x.kind) || decide (x.bytes = 0) || decide (x.bytes % 1024 ≠ 0) || decide (x.off % 1024 ≠ 0) ||
      decide (spadTop < x.off + regionBytes x) || (x.pos ≠ 0xFF && !positionGranted s p x.pos)) ||
    (List.range rs.length).any (fun i => (List.range i).any (fun j => match rs[i]?, rs[j]? with
      | some x, some y => meet x y
      | _, _ => false))

/-- The scratchpad ranges that a part's scheduled writes reach (R154): outputs, write STREAMs and FILLs. -/
def writtenRanges (rd : Nat → Byte) (part : Nat) : List (Nat × Nat) :=
  [false, true].flatMap (fun mvu => (injections mvu (programOf rd part (unitProgram mvu))).flatMap (fun i =>
    if i.isPass && bit (passYout i.word) 1 then
      (List.range i.words).flatMap (fun w => (outputAccess mvu i w).map (fun a => (a.off, a.bytes)))
    else [])) ++
  [2, 3, 4, 5].flatMap (fun k => (programOf rd part k).flatMap (fun w =>
    if opCode w = opStream && decide (4 ≤ k) then [(streamOff w, 64 * streamLanes w * streamCount w)]
    else if opCode w = opFill then [(portOff w, portBytes w)] else []))

/-- Whether the writes of a part in an epoch reach what region `r` forbids (R154). -/
def regionWriteBad (rd : Nat → Byte) (d q part r : Nat) (x : CarriedRegion) : Bool :=
  (x.pos = 0xFF || x.pos = q) && (writtenRanges rd part).any (fun w =>
    match x.kind with
    | 0 => overlap w.1 w.2 x.off x.bytes
    | 1 => overlap w.1 w.2 x.off x.bytes || (!bit (epochCarry rd d) r && overlap w.1 w.2 (x.off + x.bytes) x.bytes)
    | _ => false)

/-- Whether the writes of a part reach a SINGLE region. -/
def writesSingle (rd : Nat → Byte) (q part : Nat) : Bool :=
  (carriedRegions rd).any (fun x => x.kind = 2 && (x.pos = 0xFF || x.pos = q) &&
    (writtenRanges rd part).any (fun w => overlap w.1 w.2 x.off x.bytes))

/-- Whether an epoch writes a SINGLE region and so is non-replayable (R154). -/
def epochSingle (s : State) (p : Nat) (rd : Nat → Byte) (d : Nat) : Bool :=
  ((runPairs s p rd).filter (fun r => r.1 = d)).any (fun r => writesSingle rd r.2.1 r.2.2)

/-- Whether PLN_CARRY applies. -/
def planCarryBad (s : State) (p : Nat) (rd : Nat → Byte) (runs : List (Nat × Nat × Nat)) : Bool :=
  let rs := carriedRegions rd
  carriedBad s p rd ||
    (List.range (epochCount rd)).any (fun d => (setBits (epochCarry rd d) 64).any (fun r => match rs[r]? with
      | none => true
      | some x => x.kind ≠ 1)) ||
    runs.any (fun r => ((List.range rs.length).zip rs).any (fun x => regionWriteBad rd r.1 r.2.1 r.2.2 x.1 x.2))

/-! ## Tolerance, sessions and links (R63, R161, R340, R345) -/

/-- Whether R63 is broken. -/
def toleranceBad (rd : Nat → Byte) : Bool :=
  let x := sectionOf rd 4 0
  decide (countType rd 4 = 1) && (decide (x.bytes ≠ 16) || (List.range 16).any (fun c =>
    let v := (rd (x.off + c)).toNat
    decide (v ≠ 0) && (decide (v < 17) || decide (22 < v) || decide (rateClass c = 0) || isIntFmt c)))

/-- Whether a range of a step ends with the only STEP_END it holds. -/
def rangeBad (rd : Nat → Byte) (a b : Nat) : Bool :=
  decide (b < a) || decide (bellCount rd ≤ b) || !(bellAt rd b).stepEnd ||
    (List.range (b - a)).any (fun i => (bellAt rd (a + i)).stepEnd)

/-- Whether an entry of SESSION_STEPS or FALLBACK is malformed. -/
def stepBad (rd : Nat → Byte) (type n : Nat) : Bool :=
  let x := stepRange rd type n
  let o := (sectionOf rd type 0).off + 16 * n
  !(type = 10 && x.thinFirst = 0xFFFF) &&
    (rangeBad rd x.thinFirst x.thinLast || rangeBad rd x.wideFirst x.wideLast || decide (x.threshold < 1) ||
      decide (8 < x.threshold) || !zeroAt rd (o + 9) 7)

/-- Whether R161 is broken. -/
def planSessionBad (rd : Nat → Byte) : Bool :=
  (decide (countType rd 8 = 1) && (decide ((sectionOf rd 8 0).bytes ≠ 16 * epochCount rd) ||
    (List.range (epochCount rd)).any (fun d =>
      let (t, k, r) := wcetOf rd d
      let o := (sectionOf rd 8 0).off + 16 * d
      let n := epochLen rd d + 256
      !zeroAt rd (o + 5) 3 || !zeroAt rd (o + 12) 4 || decide (t < n + ceilDiv (n * k) (256 - k) + r)))) ||
  (decide (countType rd 9 = 1) && (decide ((sectionOf rd 9 0).bytes % 16 ≠ 0) || decide (256 < stepCount rd) ||
    (List.range (stepCount rd)).any (stepBad rd 9))) ||
  (decide (countType rd 10 = 1) && (decide ((sectionOf rd 10 0).bytes ≠ 16 * stepCount rd) ||
    (List.range (stepCount rd)).any (stepBad rd 10)))

/-- The LINK_PROGRAM sections of an image, by port. -/
def linkPorts (rd : Nat → Byte) : List Nat := (List.range 12).filter (fun j => (sectionsOf rd).any (fun x => x.type = 11 && x.index = j))

/-- Whether a link operation's fields are in range (Table ZLK-5). -/
def linkOpOk (w : OpWord) : Bool :=
  let src := fun (n : Nat) => decide (n < 12) || (decide (16 ≤ n) && decide (n < 28)) || n = 127
  opFlags w = 0 && zeroBits (opQ w 0) 40 24 && (match opCode w with
    | 0x20 => decide (1 ≤ linkOp w) && src (linkA w) && src (linkB w) && zeroBits (opQ w 1) 17 47 && zeroBits (opQ w 2) 24 40 && opQ w 3 = 0
    | 0x21 => zeroBits (opQ w 1) 48 16 && bits (opQ w 1) 47 0 % 1024 = 0 && zeroBits (opQ w 2) 56 8 && opQ w 2 % 1024 = 0 &&
        zeroBits (opQ w 3) 32 32 && opQ w 3 % 1024 = 0
    | 0x22 => zeroBits (opQ w 2) 48 16 && opQ w 3 = 0
    | 0x23 => zeroBits (opQ w 1) 32 32 && opQ w 2 = 0 && opQ w 3 = 0 && decide (bits (opQ w 1) 15 0 ≤ bits (opQ w 1) 31 16)
    | _ => false)

/-- Whether the END word of a link program sets a field that Table ZLK-5 does not give it: all but OP and TICK are reserved. -/
def linkEndBad (rd : Nat → Byte) (j : Nat) : Bool :=
  let x := linkSection rd j
  let w := opWord rd (x.off + rdN rd (x.off + 2) 2) (linkOps rd j).length
  opFlags w ≠ 0 || !zeroBits (opQ w 0) 40 24 || opQ w 1 ≠ 0 || opQ w 2 ≠ 0 || opQ w 3 ≠ 0

/-- Whether two STREAMs of a program drive one output in one tick. -/
def linkClash (ops : List OpWord) : Bool :=
  let xs := ops.filter (fun w => opCode w = opLinkStream)
  (List.range xs.length).any (fun i => (List.range i).any (fun j => match xs[i]?, xs[j]? with
    | some x, some y => linkHub x == linkHub y && overlap (opTick x) (linkCount x) (opTick y) (linkCount y)
    | _, _ => false))

/-- Whether ZLK_FIELD applies. -/
def linkFieldBad (s : State) (p : Nat) (rd : Nat → Byte) : Bool :=
  let ports := linkPorts rd
  let lists := ports.map (fun j => memberList rd (linkSection rd j))
  ports.any (fun j =>
    let x := linkSection rd j
    let n := rdN rd x.off 2
    let ops := rdN rd (x.off + 2) 2
    let ms := memberList rd x
    decide (n < 2) || decide (4096 < n) || !zeroAt rd (x.off + 4) 60 || decide (ops < 64 + 4 * n) || decide (x.bytes < ops) ||
      (List.range n).any (fun i => decide (2 ^ 18 ≤ rdN rd (x.off + 64 + 4 * i) 4)) ||
      (ms.zip ms.tail).any (fun m => decide (m.2.1 ≤ m.1.1)) || !decide ((ownNumber s, p) ∈ ms) ||
      !(List.range ((x.bytes - ops) / 32)).any (fun i => rdN rd (x.off + ops + 32 * i) 1 = 0) ||
      linkEndBad rd j || (linkOps rd j).any (fun w => !linkOpOk w) || linkClash (linkOps rd j)) ||
    (lists.zip lists.tail).any (fun x => x.1 ≠ x.2)

/-- Whether ZLK_PORT applies. -/
def linkPortBad (s : State) (p : Nat) (rd : Nat → Byte) : Bool :=
  let z := (s.part p).record.zlPorts
  (linkPorts rd).any (fun j => !bit z j || (linkOps rd j).any (fun w => opCode w = opLinkStream &&
    (linkSources w).any (fun n => !bit z (if n < 12 then n else n - 16))))

/-- Whether ZLK_RATE applies (R336): more than 9 flits on one port in 10 consecutive ticks. -/
def linkRateBad (rd : Nat → Byte) : Bool :=
  (linkPorts rd).any (fun j => (linkOps rd j).any (fun w => opCode w = opLinkStream && !linkHub w &&
    (List.range 10).any (fun b =>
      let t0 := opTick w - b
      decide (9 < ((List.range 10).filter (fun i => !((linkStreams rd j (t0 + i)).filter (fun y => !linkHub y)).isEmpty)).length))))

/-- Whether a byte of the map that R344 gives as zero is not. -/
def mapReserved (rd : Nat → Byte) (m : ExpertMap) : Bool :=
  !zeroAt rd (m.off + 5) 1 || !zeroAt rd (m.off + 10) 54 ||
    (List.range m.experts).any (fun e =>
      let o := m.off + 64 + 16 * m.sources + 48 * e
      !zeroAt rd (o + 5) 1 || !zeroAt rd (o + 40) 8)

/-- Whether R345, or the layout of R344, is broken. -/
def linkMapBad (s : State) (rd : Nat → Byte) : Bool :=
  let m := expertMap rd
  let members := (linkPorts rd).flatMap (fun j => (memberList rd (linkSection rd j)).map (fun x => x.1))
  decide (countType rd 7 = 1) && (
    decide (m.experts < 1) || decide (4096 < m.experts) || decide (m.sources < 1) || decide (4096 < m.sources) ||
      decide ((sectionOf rd 7 0).bytes < 64 + 16 * m.sources + 48 * m.experts) || mapReserved rd m ||
      ((List.range m.sources).zip (List.range m.sources).tail).any (fun x => decide ((mapSource rd m x.2).1 ≤ (mapSource rd m x.1).1)) ||
      decide (m.choices < 1) || decide (16 < m.choices) || decide (m.tokenSlots < 1) || decide (1024 < m.tokenSlots) ||
      decide (m.resultSlots < 1) || decide (1024 < m.resultSlots) ||
      decide (((List.range m.sources).filter (fun k => (mapSource rd m k).1 = ownNumber s)).length ≠ 1) ||
      (List.range m.sources).any (fun k => decide ((mapSource rd m k).2 % 64 ≠ 0)) ||
      (List.range m.experts).any (fun e => !decide (expertHome rd m e ∈ members) ||
        (expertField rd m e 4 1 = 1 && (decide (m.experts ≤ expertField rd m e 6 2) || expertField rd m e 6 2 = e)) ||
        decide (1 < expertField rd m e 4 1) ||
        [8, 16, 24, 32].any (fun o => decide (expertField rd m e o 8 % 64 ≠ 0))))

/-! ## The refusal (R166) -/

/-- The lowest detail that refuses an image, or none. A directory that cannot be read leaves nothing else to check. -/
def planRefusal (s : State) (p : Nat) (rd : Nat → Byte) (len : Nat) : Option Nat :=
  if directoryBad rd len then some Detail.plnHeader
  else
    let runs := runPairs s p rd
    let loose := looseParts rd runs
    let strict := decide ((s.part p).record.check = 1)
    let any := fun (f : Nat → Nat → Nat → Bool) => runs.any (fun r => f r.1 r.2.1 r.2.2)
    match unitDetail false rd runs, unitDetail true rd runs with
    | some d, _ => some d
    | none, some d => some d
    | none, none =>
      ([(any (fun _ q x => tableFieldBad s rd q x) || loose.any (tableShapeBad rd), Detail.fabField),
        (any (fun _ q x => boundaryBad s p rd q x), Detail.fabBoundary),
        (any (fun d _ x => widthBad rd d x), Detail.fabWidth),
        ((List.range (epochCount rd)).any (crossingBad s p rd), Detail.fabCrossing),
        (headerBad rd len, Detail.plnHeader),
        (sectionBad rd, Detail.plnSection),
        (epochBad s p rd, Detail.plnEpoch),
        (any (fun d _ x => bellWindowBad rd d x), Detail.plnBellWindow),
        (schedMemBad rd, Detail.plnSchedMem),
        (any (fun d _ x => bankBad rd d x || [2, 3, 4, 5].any (portBad rd x)) ||
          loose.any (fun x => [2, 3, 4, 5].any (portBad rd x)), Detail.plnBank),
        (planCarryBad s p rd runs, Detail.plnCarry),
        (strict && any (fun _ q x => writesSingle rd q x), Detail.plnNonreplayable),
        (toleranceBad rd, Detail.plnTolerance),
        (planSessionBad rd, Detail.plnSession),
        (!bellGraphOk s p, Detail.plnBellGraph),
        (linkFieldBad s p rd, Detail.zlkField),
        (linkPortBad s p rd, Detail.zlkPort),
        (linkRateBad rd, Detail.zlkRate),
        (linkMapBad s rd, Detail.zlkMap)].find? (fun c => c.1)).map (fun c => c.2)

end Sys2Proof.Machine
end

