-- ==== Sys2Proof/Machine/SessionEngine.lean ====
section
/-! DEFINITION. The session engine (spec/13): entries as they are used (R314, R356), how a batch is gathered (R361, R362,
R364), the step record, the update at a step's end, and admission (R363). -/

namespace Sys2Proof.Machine

/-! ## Entries (Table SES-1) -/

/-- BUF. -/
def sesBuf (e : List Byte) : Nat := field e 0 8 % 2 ^ 48
/-- KV_LIST. -/
def sesKv (e : List Byte) : Nat := field e 8 8
/-- POS. -/
def sesPos (e : List Byte) : Nat := field e 16 4
/-- AVAIL. -/
def sesAvail (e : List Byte) : Nat := field e 20 4
/-- LIMIT. -/
def sesLimit (e : List Byte) : Nat := field e 24 4
/-- KV_PAGES. -/
def sesPages (e : List Byte) : Nat := field e 28 2
/-- STEP. -/
def sesStep (e : List Byte) : Nat := field e 30 1
/-- NO_FALLBACK. -/
def sesNoFallback (e : List Byte) : Bool := bit (field e 31 1) 0
/-- EVENT_ON_DONE. -/
def sesEvent (e : List Byte) : Bool := bit (field e 31 1) 1
/-- DUE. -/
def sesDue (e : List Byte) : Nat := field e 48 8
/-- Session states (Table SES-2). -/
def sesIdle : Nat := 1
/-- READY. -/
def sesReady : Nat := 2
/-- RUNNING. -/
def sesRunning : Nat := 3
/-- WAIT_HOST. -/
def sesWait : Nat := 4
/-- DONE. -/
def sesDone : Nat := 5

/-- The READY sessions of a partition, by index. -/
def readySessions (s : State) (p : Nat) : State × List (Nat × List Byte) :=
  (List.range (s.part p).record.sesCount).foldl (fun r i =>
    match sesUse r.1 p i with
    | (s, some e) => if sesState e = sesReady then (s, r.2 ++ [(i, e)]) else (s, r.2)
    | (s, none) => (s, r.2)) (s, [])

/-! ## Gathering -/

/-- Insertion of a session by a key, ties after those already there. -/
def insertBy (key : Nat × List Byte → Nat) (x : Nat × List Byte) : List (Nat × List Byte) → List (Nat × List Byte)
  | [] => [x]
  | y :: r => if key x < key y then x :: y :: r else y :: insertBy key x r

/-- Sessions by a key, ties by index. -/
def sortBy (key : Nat × List Byte → Nat) (l : List (Nat × List Byte)) : List (Nat × List Byte) :=
  l.foldl (fun r x => insertBy key x r) []

/-- The first batch of an ordered list: up to 256 sessions with the STEP of its first. -/
def firstBatch (l : List (Nat × List Byte)) : List (Nat × List Byte) :=
  match l with
  | [] => []
  | x :: _ => (l.filter (fun y => sesStep y.2 = sesStep x.2)).take 256

/-- The READY sessions of a list of indices. -/
def stillReady (s : State) (p : Nat) (is : List Nat) : State × List (Nat × List Byte) :=
  is.foldl (fun r i => match sesUse r.1 p i with
    | (s, some e) => if sesState e = sesReady then (s, r.2 ++ [(i, e)]) else (s, r.2)
    | (s, none) => (s, r.2)) (s, [])

/-- The 32-bit word of a session's buffer at a position, in the committed view. -/
def sesToken (s : State) (p : Nat) (e : List Byte) (n : Nat) : State × ReadResult :=
  let va := (sesBuf e + 4 * n) % 2 ^ 48
  match translate s p va false with
  | .error d => (recordFault s p va (d % 256) 6 false, .fault Status.badAddress d)
  | .ok t => match localPhys s t with
    | none => readSys s p t.sys 4
    | some a => match regionOf a with
      | .lsm => (s, .data (readCommitted s a 4))
      | _ => readSys s p t.sys 4

/-- A member of a batch: index, entry, token, and KEEP. -/
structure Slotted where
  index : Nat
  entry : List Byte
  token : Nat
  keep : Bool
  deriving DecidableEq, Repr

/-- One selected session is gathered: it fails for a STEP the plan has not or for its buffer, waits for KV pages, or
takes a slot (Table SES-3). -/
def gatherOne (p steps perPage : Nat) (r : State × List Slotted) (x : Nat × List Byte) : State × List Slotted :=
  let (s, l) := r
  let (i, e) := x
  if steps ≤ sesStep e then (sesFail s p i Status.badState Detail.sesStep, l)
  else if sesPages e * perPage ≤ sesPos e then
    (sesNote (sesWrite s p i (patch (sesPut e sesWait (sesDeadline e)) 60 (natLe 1 1))) p Status.noResource i, l)
  else match sesToken s p e (sesPos e) with
    | (s, .data bs) => (s, l ++ [{ index := i, entry := e, token := leNat bs, keep := decide (sesPos e + 1 = sesAvail e) }])
    | (s, .waits) => (s, l)
    | (s, .fault st d) => (sesFail s p i st d, l)

/-- Every selected session in turn. -/
def gatherAll (s : State) (p : Nat) (l : List (Nat × List Byte)) : State × List Slotted :=
  l.foldl (gatherOne p (stepCount (imageOf s p)) (s.part p).ses.perPage) (s, [])

/-- The WCET_TICKS of the epochs of a range of bell entries, in ticks. -/
def rangeTicks (rd : Nat → Byte) (first last : Nat) : Nat :=
  (List.range (last + 1 - first)).foldl (fun x j => x + (wcetOf rd (bellAt rd (first + j)).epoch).1) 0

/-- Whether a step has a fallback variant. -/
def hasFallback (rd : Nat → Byte) (n : Nat) : Bool :=
  decide (16 * n + 16 ≤ (sectionOf rd 10 0).bytes) && decide ((stepRange rd 10 n).thinFirst ≠ 0xFFFF)

/-- The variant that a batch of `b` sessions runs (R112): 0 THIN, 1 WIDE, 2 and 3 of the fallback. -/
def variantOf (rd : Nat → Byte) (n b : Nat) (fallback : Bool) : Nat :=
  let x := stepRange rd (if fallback then 10 else 9) n
  2 * b2n fallback + (if b ≤ x.threshold then 0 else 1)

/-- The bell entries of a variant of a step. -/
def variantRange (rd : Nat → Byte) (n v : Nat) : Nat × Nat :=
  let x := stepRange rd (if 2 ≤ v then 10 else 9) n
  if v % 2 = 0 then (x.thinFirst, x.thinLast) else (x.wideFirst, x.wideLast)

/-- The projected duration of a step's variant, in ticks of 3.3 GHz (R364). -/
def projected (s : State) (p n v : Nat) : Nat :=
  let rd := imageOf s p
  let ds := ((s.part p).ses.durations.filter (fun d => d.1 = n && d.2.1 = v)).take 8
  if ds.length < 8 then
    (if (sectionOf rd 8 0).bytes = 0 then 0 else rangeTicks rd (variantRange rd n v).1 (variantRange rd n v).2)
  else ds.foldl (fun x d => Nat.max x d.2.2) 0

/-- Whether a session would be late at the projected duration. -/
def wouldMiss (s : State) (dur : Nat) (e : List Byte) : Bool :=
  !sesNoFallback e && decide (3300 * (sesDue e + sesDeadline e) < 3300 * sesClock s + dur)

/-- A gathered batch: its sessions, whether it runs in the fallback, what remains of a primary batch (R364), the WCET round
that it belongs to and whether it opens that round (R362). -/
structure Gathered where
  batch : List Slotted
  fallback : Bool := false
  remainder : List Nat := []
  round : List Nat := []
  opened : Bool := false
  deriving DecidableEq, Repr

/-- A batch of a WCET round (R362): the round keeps its sessions until their step begins. -/
def gatherWcet (s : State) (p : Nat) : State × Gathered :=
  let left := (s.part p).ses.round
  let (s, l) := if left.isEmpty then
      (let (s, l) := readySessions s p
       (s, sortBy (fun x => sesStep x.2) l))
    else stillReady s p left
  let (s, g) := gatherAll s p (firstBatch l)
  (s, { batch := g, round := l.map (fun x => x.1), opened := left.isEmpty })

/-- A batch by deadline, in DEADLINE mode (R364). -/
def gatherDeadline (s : State) (p : Nat) : State × Gathered :=
  let rd := imageOf s p
  if !(s.part p).ses.remainder.isEmpty then
    let (s, l) := stillReady s p (s.part p).ses.remainder
    let (s, g) := gatherAll s p l
    (s, { batch := g })
  else
    let (s, l) := readySessions s p
    let (s, g) := gatherAll s p (firstBatch (sortBy (fun x => sesDue x.2 + sesDeadline x.2) l))
    match g with
    | [] => (s, { batch := [] })
    | x :: _ =>
      let n := sesStep x.entry
      let dur := projected s p n (variantOf rd n g.length false)
      let late := if hasFallback rd n then g.filter (fun y => wouldMiss s dur y.entry) else []
      if late.isEmpty then (s, { batch := g })
      else (s, { batch := late, fallback := true, remainder := (g.filter (fun y => !late.contains y)).map (fun y => y.index) })

/-- The next batch of a partition by its session mode. -/
def gather (s : State) (p : Nat) : State × Gathered :=
  if (s.part p).record.session = 1 then gatherWcet s p else gatherDeadline s p

/-- What a gathering leaves for later batches. -/
def keepGathered (s : State) (p : Nat) (g : Gathered) : State :=
  s.modPart p (fun q => { q with ses := { q.ses with left := g.remainder, round := g.round, opened := q.ses.opened || g.opened } })

/-- A step with its batch begins: its remainder comes into force (R364), it leaves the round, and a round that it opens is
not excused yet (R362, R363). -/
def takeBatch (z : SesPart) (n v : Nat) (batch : List (Nat × Bool)) : SesPart :=
  { z with
    batch, stepping := true, stepNo := n, variant := v, fallback := decide (2 ≤ v), startTime := none
    stepCount := z.stepCount + 1, remainder := z.left, left := [], round := z.round.filter (fun i => !(batch.map (fun x => x.1)).contains i)
    excused := z.excused && !z.opened, opened := false }

/-! ## The step record (Table SES-6) -/

/-- The record of a step. -/
def recordBytes (count step variant : Nat) (l : List Slotted) : List Byte :=
  padTo 64 (natLe 4 count ++ natLe 2 l.length ++ natLe 1 step ++ natLe 1 variant) ++
    l.flatMap (fun x => padTo 32 (natLe 4 x.index ++ natLe 4 (sesPos x.entry) ++ natLe 4 x.token ++ natLe 1 (b2n x.keep) ++
      natLe 3 0 ++ natLe 8 (sesKv x.entry) ++ natLe 2 (sesPages x.entry)))

/-- A record written at its address, 64 bytes at a time; the first failure ends it. -/
def writeRecord (s : State) (p : Nat) (bs : List Byte) : State × Option (Nat × Nat) :=
  (List.range ((bs.length + 63) / 64)).foldl (fun r j => match r with
    | (s, some e) => (s, some e)
    | (s, none) => queueWrite s p ((s.part p).ses.record + 64 * j) ((bs.drop (64 * j)).take 64)) (s, none)

/-- The batch is marked RUNNING. -/
def markRunning (s : State) (p : Nat) (is : List Nat) : State :=
  is.foldl (fun s i => match sesUse s p i with
    | (s, none) => s
    | (s, some e) => if sesState e = sesReady then sesWrite s p i (sesPut e sesRunning (sesDeadline e)) else s) s

/-! ## The end of a step -/

/-- Bytes of another device's memory, line by line. -/
def readRemotes (s : State) (p sys n : Nat) : State × ReadResult :=
  (List.range ((n + 1023) / 1024)).foldl (fun r j => match r with
    | (s, .data bs) => match readRemote s p (lineOfSys s (sys + 1024 * j)) (sys % 1024) (Nat.min 1024 (n - 1024 * j)) with
      | (s, .data more) => (s, .data (bs ++ more))
      | x => x
    | x => x) (s, .data [])

/-- The committed results of a batch of `n` slots (Table SES-7). -/
def readResults (s : State) (p n : Nat) : State × ReadResult :=
  let va := (s.part p).ses.result
  match translate s p va false with
  | .error d => (recordFault s p va (d % 256) 6 false, .fault Status.badAddress d)
  | .ok t => if (localPhys s t).isNone then readRemotes s p t.sys (16 * n) else readSys s p t.sys (16 * n)

/-- The entry of a session after its step (R361): token kept or not, POS, lateness, DUE and state. -/
def stepUpdate (e : List Byte) (clock perPage : Nat) (keep ends fallback : Bool) : List Byte × Bool :=
  let avail := if keep then sesAvail e + 1 else sesAvail e
  let pos := sesPos e + 1
  let late := decide (sesDue e + sesDeadline e < clock)
  let state := if ends || decide (sesLimit e ≤ avail) then sesDone
    else if sesPages e * perPage ≤ pos then sesWait else sesReady
  let e := patch (patch e 16 (natLe 4 pos)) 20 (natLe 4 avail)
  let e := patch e 48 (natLe 8 clock ++ natLe 2 (if late then satInc (field e 56 2) 65535 else field e 56 2) ++
    natLe 2 (if fallback then satInc (field e 58 2) 65535 else field e 58 2) ++ natLe 1 (if state = sesWait then 1 else 0))
  (sesPut e state (sesDeadline e), late)

/-- One session of the batch at the step's end. -/
def finishSession (s : State) (p : Nat) (results : ReadResult) (slot i : Nat) (keep : Bool) : State :=
  if s.outstanding.any (closeDue p i) then completeAll (sesClear s p i) (closeDue p i) Status.ok 0
  else match sesUse s p i with
  | (s, none) => s
  | (s, some e) =>
    if sesState e ≠ sesRunning then s
    else match results with
      | .waits => s
      | .fault st d => sesFail s p i st d
      | .data all =>
        let r := all.drop (16 * slot)
        let e := withAppend s p i e
        let (s, bad) := if keep then queueWrite s p ((sesBuf e + 4 * (sesPos e + 1)) % 2 ^ 48) (r.take 4) else (s, none)
        match bad with
        | some x => sesFail s p i x.1 x.2
        | none =>
          let fb := (s.part p).ses.fallback
          let (e', late) := stepUpdate e (sesClock s) (s.part p).ses.perPage keep (bit (field r 4 1) 0) fb
          let s := s.modPart p (fun q => { q with ses := { q.ses with
            misses := if late then satInc q.ses.misses (2 ^ 24 - 1) else q.ses.misses
            excusedMisses := if late && q.ses.excused && decide (q.record.session = 1) then satInc q.ses.excusedMisses 65535 else q.ses.excusedMisses
            fallbacks := if fb then satInc q.ses.fallbacks (2 ^ 24 - 1) else q.ses.fallbacks } })
          let s := sesWrite s p i e'
          if sesState e' = sesDone && sesEvent e' then sesNote s p Status.ok i
          else if sesState e' = sesWait then sesNote s p Status.noResource i else s

/-- Every session of the batch, its duration, and what the step's end leaves (R361, R364). -/
def finishBatch (s : State) (p : Nat) (results : ReadResult) : State :=
  let b := (s.part p).ses.batch
  let s := ((List.range b.length).zip b).foldl (fun s x => finishSession s p results x.1 x.2.1 x.2.2) s
  s.modPart p (fun q =>
    let z := q.ses
    let d := (z.stepNo, z.variant, s.devTime - z.startTime.getD s.devTime)
    let same := (z.durations.filter (fun x => x.1 = d.1 && x.2.1 = d.2.1)).take 7
    let rest := z.durations.filter (fun x => !(x.1 = d.1 && x.2.1 = d.2.1))
    { q with ses := { z with
      batch := [], stepping := false, fallback := false, appends := [], durations := d :: (same ++ rest)
      stepsLeft := z.stepsLeft.map (fun n => n - 1) } })

/-- The SERVE entry ends: its signal is written (R360). -/
def endServe (s : State) (p : Nat) : State :=
  let z := (s.part p).ses
  let s := s.modPart p (fun q => { q with ses := { q.ses with serving := false, follower := false, round := [], remainder := [], left := [] } })
  match signal s p z.signal z.signalValue with
  | (s, some e) => entryFail s p 3 1 e.1 e.2
  | (s, none) => entryDone s p 3 1

/-- Whether a SERVE entry ends at this step end: after STEPS steps, or a halt once the primary remainder has run. -/
def serveEnds (s : State) (p : Nat) : Bool :=
  let z := (s.part p).ses
  z.remainder.isEmpty && (decide (z.stepsLeft = some 0) || haltDue s p 3)

/-! ## Admission (R363) -/

/-- W in ticks of 3.3 GHz: the largest WCET sum of a variant range of a step. -/
def wcetW (s : State) (p : Nat) : Nat :=
  let rd := imageOf s p
  (List.range (stepCount rd)).foldl (fun w n => [0, 1].foldl (fun w v =>
    Nat.max w (rangeTicks rd (variantRange rd n v).1 (variantRange rd n v).2)) w) 0

/-- Every entry of the partition's range as the engine uses it (R314). -/
def useSessions (s : State) (p : Nat) : State :=
  (List.range (s.part p).record.sesCount).foldl (fun s i => (sesUse s p i).1) s

/-- STEP and deadline of every open session, with what an APPEND that waits for a step's end sets. -/
def openSessions (s : State) (p : Nat) : List (Nat × Nat × Nat) :=
  (List.range (s.part p).record.sesCount).filterMap (fun i =>
    let e := withAppend s p i (sesRead s p i)
    if sesState e = 0 then none else some (i, sesStep e, sesDeadline e))

/-- Whether every session of a list meets its deadline bound, DEADLINE_US at least 2R (R363), with R in ticks. -/
def admits (s : State) (p : Nat) (l : List (Nat × Nat × Nat)) : Bool :=
  let w := wcetW s p
  let r := ((l.map (fun x => x.2.1)).eraseDups).foldl (fun r n =>
    r + ((l.filter (fun x => x.2.1 = n)).length + 255) / 256 * w) 0
  l.all (fun x => decide (2 * r ≤ 3300 * x.2.2))

/-! ## Linked jobs (R365) -/

/-- Whether this device is the root of a partition's linked job. -/
def isRoot (s : State) (p : Nat) : Bool := (s.part p).zlk.root = ownNumber s

/-- The root gathers the next step in a STEP_END epoch and sends its record to every member, itself included, as data of
the unit. The address of the members is the root's own physical RECORD address (DEDUCED, log entry 43). -/
def sendRecord (s : State) (p : Nat) : State :=
  let (s, g) := gather s p
  let rd := imageOf s p
  let n := match g.batch with | [] => 0 | x :: _ => sesStep x.entry
  let v := if g.batch.isEmpty then 0 else variantOf rd n g.batch.length g.fallback
  let bs := recordBytes ((s.part p).ses.stepCount % 2 ^ 32) n v g.batch
  let s := keepGathered s p g
  match translate s p (s.part p).ses.record true with
  | .error d => contained (recordFault s p (s.part p).ses.record (d % 256) 6 true) p Status.badAddress d none
  | .ok t =>
    let a := t.sys % 2 ^ 44
    (((s.part p).zlk.members.map (fun m => m.1)).eraseDups).foldl (fun s dev =>
      if dev = ownNumber s then unitWrite s p a bs else sendVector s p dev itWrite a 0 bs) s

/-- The next step of a linked job as the record names it: the range to run and, on the root, its batch. -/
def readRecord (s : State) (p : Nat) : Nat × Nat × List (Nat × Bool) :=
  match translate s p (s.part p).ses.record false with
  | .error _ => (0, 0, [])
  | .ok t =>
    let a := t.sys % 2 ^ 44
    let h := readCommitted s a 64
    (field h 6 1, field h 7 1, (List.range (field h 4 2)).map (fun i =>
      let x := readCommitted s (a + 64 + 32 * i) 32
      (field x 0 4, bit (field x 12 1) 0)))

end Sys2Proof.Machine
end

