-- ==== Sys2Proof/Machine/Plan.lean ====
section
/-! DEFINITION. Plans and jobs: PLAN_LOAD, PLAN_UNLOAD and PLAN_RUN (R164 to R168), JOB_START and JOB_END (R163, R170,
R334), the start of an epoch (R147, R148, R160, R550) and the paging of parts. -/

namespace Sys2Proof.Machine

/-! ## PLAN_LOAD -/

/-- The physical 64 KiB page behind a page of the image, in the own memory. -/
def imagePage (s : State) (p va : Nat) : Except Nat Nat :=
  match translate s p va false with
  | .error d => .error d
  | .ok t => match localPhys s t with
    | none => .error Detail.ptnPteRange
    | some a => match regionOf a with
      | .lsm => .ok (a / 65536)
      | _ => .error Detail.ptnPteRange

/-- The physical pages of an image of `n` pages, or the first address that fails. -/
def imagePages (s : State) (p va n : Nat) : Except (Nat × Nat) (List Nat) :=
  (List.range n).foldl (fun r i => match r with
    | .error e => .error e
    | .ok l => match imagePage s p (va + 65536 * i) with
      | .error d => .error (va + 65536 * i, d)
      | .ok g => .ok (l ++ [g])) (.ok [])

/-- Whether an image's place and length break R141. -/
def placeBad (va n : Nat) : Bool :=
  decide (va % 65536 ≠ 0) || decide (n = 0) || decide (n % 65536 ≠ 0) || decide (2 ^ 34 < n) || decide (2 ^ 48 < va + n)

/-- The weight and tag ranges that the FETCHes of an image read from memory (R281): virtual address and length. The tags of a
FETCH start at its INDEX (R92). -/
def fetchRanges (rd : Nat → Byte) : List (Nat × Nat) :=
  (((sectionsOf rd).filter (fun x => x.type = 3)).flatMap (fun x => [0, 1].flatMap (fun k =>
    ((programOf rd x.index k).filter (fun w => opCode w = opFetch && fetchSource w = 0)).flatMap (fun w =>
      (fetchAddr w, 65536 * fetchBlocks w) :: (if fetchSlot w = 0xF then [] else [(fetchTags w + 16 * opQ w 2, 16 * fetchBlocks w)]))))).eraseDups

/-- The result block of a PLAN_LOAD: status, detail and plan hash. -/
def loadBlock (status detail hash : Nat) : List Byte :=
  natLe 1 status ++ natLe 3 detail ++ natLe 28 0 ++ natLe 32 hash

/-- The result block of a PLAN_LOAD that does not load says why, where it can be written (log entry 75). -/
def reportLoad (s : State) (p res status detail : Nat) : State := (queueWrite s p res (loadBlock status detail 0)).1

/-- A refused PLAN_LOAD: the result block says so, and the entry fails. -/
def refuseLoad (s : State) (p res status detail : Nat) : State := entryFail (reportLoad s p res status detail) p 0 1 status detail

/-- A refused image. -/
def refuseImage (s : State) (p res detail : Nat) : State := refuseLoad s p res Status.checkFailed detail

/-- Phase entries are cleared (R462). -/
def clearPhases (s : State) (p : Nat) : State := s.modPart p (fun q => { q with pwr := { q.pwr with phases := [] } })

/-- The parts of a descriptor are paged into every stall of the partition. -/
def pageAll (s : State) (p desc : Nat) : State :=
  let rd := imageOf s p
  (stallsOf s p).foldl (fun s i => s.modStall i (fun x => { x with
    parts := (partAt s rd desc i).toList, repage := false, badParts := [] })) s

/-- The bytes of a held image. -/
def heldBytes (s : State) (p n : Nat) : List Byte := (List.range n).map (imageOf s p)

/-- An image that has been read: validated, and held with its hash, or refused. -/
def holdImage (s : State) (p va n res : Nat) (pages : List Nat) : State :=
  let s' := s.modPart p (fun q => { q with plan := some { va := va, pages := pages } })
  let rd := imageOf s' p
  match planRefusal s' p rd n with
  | some d => refuseImage s p res d
  | none =>
    let h := leNat (sha256 (heldBytes s' p n))
    let s'' := (queueWrite s p res (loadBlock Status.ok 0 h)).1
    let held : HeldPlan := { va := va, pages := pages, hash := BitVec.ofNat 256 h, reloadable := fetchRanges rd }
    let s'' := clearPhases (s''.modPart p (fun q => { q with plan := some held })) p
    entryDone (pageAll s'' p (bellAt rd 0).epoch) p 0 1

/-- What a PLAN_LOAD or PLAN_UNLOAD does first: keys and the evidence key pair go (R437, R443). -/
def startPlanEntry (s : State) (p : Nat) : State := dropEvidence (purgeKeys s p 0xFF) p

/-- PLAN_LOAD once accepted. -/
def loadImage (s : State) (p va n res : Nat) : State :=
  let s := startPlanEntry s p
  match translate s p res true with
  | .error d => failAddress s p 0 1 res true (Status.badAddress, d)
  | .ok t => match localPhys s t with
    | none => failAddress s p 0 1 res true (Status.badAddress, Detail.ptnPteRange)
    | some a =>
      if inHeldImage s a then entryFail s p 0 1 Status.badAddress Detail.planHeld
      else if placeBad va n then refuseImage s p res Detail.plnHeader
      else match imagePages s p va (n / 65536) with
        | .error e => failAddress (reportLoad s p res Status.badAddress e.2) p 0 1 e.1 false (Status.badAddress, e.2)
        | .ok pages =>
          if (a / 65536) ∈ pages then entryFail s p 0 1 Status.badAddress Detail.planHeld
          else holdImage s p va n res pages

/-- PLAN_LOAD (R164 to R167, R548). -/
def execPlanLoad (p : Fin 64) (s : State) : Host.Outcome State Fault Refusal :=
  .next (runEntry s p 0 1 false (fun e s =>
    if !(isVa (e.get 8 8) && isVa (e.get 24 8) && decide (e.get 24 8 % 64 = 0) && e.zero 32 32) then refuseField s p 0
    else if (s.part p).job.running || (s.part p).plan.isSome then refuseLoad s p (e.get 24 8) Status.badState Detail.plnLoaded
    else loadImage s p (e.get 8 8) (e.get 16 8) (e.get 24 8)))

/-- PLAN_UNLOAD (R167, R437, R443). -/
def execPlanUnload (p : Fin 64) (s : State) : Host.Outcome State Fault Refusal :=
  .next (runEntry s p 0 2 false (fun e s =>
    if !e.zero 8 56 then refuseField s p 0
    else if (s.part p).job.running then entryFail s p 0 1 Status.badState Detail.plnLoaded
    else
      let s := clearPhases (startPlanEntry s p) p
      let s := (stallsOf s p).foldl (fun s i => s.modStall i (fun x => { x with parts := [] })) s
      entryDone (s.modPart p (fun q => { q with plan := none, job := { q.job with faulted := false } })) p 0 1))

/-! ## The start of an epoch -/

/-- Whether the parts of a descriptor are resident in every stall (R148). -/
def resident (s : State) (p desc : Nat) : Bool :=
  let rd := imageOf s p
  (stallsOf s p).all (fun i => match partAt s rd desc i with
    | none => true
    | some q => decide (q ∈ (s.stall i).parts) && !(s.stall i).repage)

/-- The bell entry that follows in the running range, if one does. -/
def nextEntry (s : State) (p : Nat) : Option Nat :=
  match (s.part p).run with
  | none => none
  | some r =>
    if (s.part p).epoch.entry < r.last then some ((s.part p).epoch.entry + 1)
    else if 1 < r.repeatLeft then some r.first else none

/-- Schedule memory keeps the parts of the bell entry that runs next and of the one after it; others make room (R147). -/
def keepParts (s : State) (p : Nat) : State :=
  let rd := imageOf s p
  let bs := (s.part p).epoch.entry :: (nextEntry s p).toList
  (stallsOf s p).foldl (fun s i => s.modStall i (fun x => { x with
    parts := x.parts.filter (fun q => bs.any (fun b => partAt s rd (bellAt rd b).epoch i = some q)) })) s

/-- Whether a part fits into the free space of a stall's schedule memory (R147, R148). -/
def partFits (s : State) (rd : Nat → Byte) (i q : Nat) : Bool :=
  decide (((q :: (s.stall i).parts.filter (fun x => x ≠ q)).foldl (fun n x => n + (sectionOf rd 3 x).bytes) 0) ≤ 1048576)

/-- What fails the key check of a descriptor (R160). -/
def keyDetail (s : State) (p desc : Nat) : Option Nat :=
  let rd := imageOf s p
  let slots := (s.stall ((stallsOf s p).headD 0)).feederMxe.slots
  (((setBits (epochKeys rd desc) 8).filterMap (fun k => match tget? slots k with
    | none => some Detail.keySlotEmpty
    | some x => if keyRef rd k = some x.keyId.toNat then none else some Detail.plnKeyId)).head?)

/-- Epoch keys, engines, routers and counters of a new epoch's stalls. -/
def freshStall (mask : Nat) (parts : List Nat) (x : Stall) : Stall :=
  let keys := fun (f : Feeder) => { f with epochKeys := f.slots.filter (fun e => bit mask e.1) }
  { x with
    feederMxe := keys x.feederMxe, feederMvu := keys x.feederMvu, gate := if x.fenced then .off else .active
    router := { x.router with hist := [], localIn := [] }
    bell := {}, error := none, stageReq := false, stageWire := []
    parts := x.parts.filter (fun q => q ∈ parts) }

/-- The elastic buffers of the partition's modules are empty: no flit crosses a bell (R134). -/
def emptyModules (s : State) (p : Nat) : State :=
  let r := (s.part p).record
  { s with crossings := s.crossings.map (fun c =>
    if bit (recordModules r (c.1 / 32)) (c.1 % 32 / 2) then (c.1, { c.2 with flits := [] }) else c) }

/-- Crossings of the partition's modules and its link ports begin an epoch empty. -/
def emptyCrossings (s : State) (p : Nat) : State :=
  let s := emptyModules s p
  (setBits (s.part p).record.zlPorts 12).foldl (fun s j => s.modPort j (fun x => { x with
    sendFlits := [], rxFlits := [], gap := false, delivered := 0, credited := 0, creditSent := 0, rxLast := none })) s

/-- Units of other devices whose entries at the partition's homes are not freed when a unit begins (R311). -/
def ledgerPartners (s : State) (p : Nat) : List (Nat × Nat × Nat) :=
  if isLinked s p then
    (((s.part p).cache.sliceList.flatMap (fun h => (s.stall h).ledger)).filterMap (fun e =>
      if e.srcDevice = ownNumber s then none else some (e.srcDevice, e.srcPartition, e.unit))).eraseDups
  else []

/-- Whether the epoch that begins is a STEP_END epoch of the root of a linked job that serves (R365). -/
def recordDue (s : State) (p : Nat) : Bool :=
  isLinked s p && isRoot s p && (s.part p).ses.serving && (bellAt (imageOf s p) (s.part p).epoch.entry).stepEnd &&
    ((s.part p).run.map (fun r => r.step)).getD false

/-- Epoch tick 0 of a bell entry. -/
def beginEpoch (s : State) (p : Nat) : State :=
  let rd := imageOf s p
  let desc := (bellAt rd (s.part p).epoch.entry).epoch
  let next := ((nextEntry s p).map (fun b => (bellAt rd b).epoch)).toList
  let s := emptyCrossings s p
  let s := (stallsOf s p).foldl (fun s i => s.modStall i
    (freshStall (epochKeys rd desc) ((desc :: next).flatMap (fun d => (partAt s rd d i).toList)))) s
  let s := (domainsOf s p).foldl (fun s d => s.modDom p d (fun x => { x with
    epochTick := 0, mask := 0, cycles := 0, bellTicks := 0, bellTick := 0, linkTicks := 0, stopped := false, held := false
    waits := false })) s
  let single := epochSingle s p rd desc
  let partners := ledgerPartners s p
  let s := s.modPart p (fun q => { q with
    epoch := { q.epoch with running := true, inBell := false, stage := 0, nonrepl := single, error := none, final := false }
    pwr := { q.pwr with epoch := freshSpans s p }
    zlk := { q.zlk with partners := partners, applied := [], itemSeq := [] }
    ses := { q.ses with startTime := if q.ses.stepping then some (q.ses.startTime.getD s.devTime) else q.ses.startTime } })
  if recordDue s p then sendRecord s p else s

/-- The next epoch's keys are checked and it starts, or the job ends (R160). -/
def checkedEpoch (s : State) (p : Nat) : State :=
  match keyDetail s p (bellAt (imageOf s p) (s.part p).epoch.entry).epoch with
  | some d => contained (zeroUnitRegs s p) p Status.keyInvalid d none
  | none => beginEpoch s p

/-- The queue that a running range belongs to. -/
def runQueue (r : Run) : Nat := if r.step then 3 else 0

/-- Whether a range that is in progress may run its next epoch now. -/
def mayRun (s : State) (p : Nat) (r : Run) : Bool :=
  let q := s.part p
  q.job.running && !q.job.awaitStart && (q.state == .running || q.state == .preempting) && !q.halted && !q.refill.pending && !q.epoch.running &&
    !q.kernel.running && !(s.queue p (runQueue r)).halted

/-- The range in progress goes on with the bell entry it stands at, once its parts are here. -/
def tryStart (s : State) (p : Nat) : State :=
  match (s.part p).run with
  | none => s
  | some r =>
    if mayRun s p r && resident s p (bellAt (imageOf s p) (s.part p).epoch.entry).epoch then checkedEpoch s p else s

/-- A range begins: it is in progress, pending keys take effect (R550), and its first epoch starts once paged. -/
def startRun (s : State) (p : Nat) (r : Run) : State :=
  let s := s.modPart p (fun q => { q with run := some r, epoch := { entry := r.first } })
  tryStart (applyKeys (keepParts s p) p) p

/-- Whether a kernel, a PLAN_RUN or a session step of the partition is in progress (R202). -/
def unitBusy (s : State) (p : Nat) : Bool :=
  (s.part p).kernel.running || (s.part p).run.isSome || (s.part p).ses.stepping

/-- Whether a SERVE entry stands at the head of the SESSION queue and has not begun. -/
def serveReady (s : State) (p : Nat) : Bool :=
  partRuns s p && !(s.queue p 3).halted && !(s.queue p 3).inProgress && (s.part p).job.running &&
    (match headOf s p 3 with | .entry e => e.op = 1 | _ => false)

/-- Whether PLAN and LAUNCH entries wait for a SERVE entry: in WCET mode one is at the head of its queue (R362). -/
def serveFirst (s : State) (p : Nat) : Bool :=
  decide ((s.part p).record.session = 1) && ((s.part p).ses.serving || serveReady s p)

/-- Whether a PLAN_RUN's fields are in range. -/
def planRunOk (e : Entry) : Bool :=
  e.zero 52 12 && decide (e.get 12 4 ≠ 0) && isVa (e.get 16 8) && decide (e.get 16 8 % 8 = 0) && isVa (e.get 32 8) &&
    decide (e.get 32 8 % 8 = 0)

/-- Whether a PLAN_RUN whose wait is met stands at the head of the PLAN queue and could start but for what is in progress
(R202). -/
def planReady (s : State) (p : Nat) : Bool :=
  partRuns s p && !(s.queue p 0).halted && !(s.queue p 0).inProgress && (s.part p).job.running && !serveFirst s p &&
    !(s.part p).job.awaitStart && (s.part p).state == .running &&
    (match headOf s p 0 with
      | .entry e => e.op = 3 && planRunOk e && decide (e.get 8 2 ≤ e.get 10 2) && decide (e.get 10 2 < bellCount (imageOf s p)) &&
          (match waitMet s p (e.get 16 8) (e.get 24 8) with | .ok met => met | .error _ => false)
      | _ => false)

/-- PLAN_RUN (R168, R202, R550). -/
def execPlanRun (p : Fin 64) (s : State) : Host.Outcome State Fault Refusal :=
  .next (if (s.queue p 0).inProgress then tryStart s p
    else runEntry s p 0 3 true (fun e s =>
      if !planRunOk e then refuseField s p 0
      else if e.get 10 2 < e.get 8 2 || bellCount (imageOf s p) ≤ e.get 10 2 then
        entryFail s p 0 1 Status.badState Detail.plnBellRange
      else match waitMet s p (e.get 16 8) (e.get 24 8) with
        | .error x => failAddress s p 0 1 (e.get 16 8) false x
        | .ok met =>
          if !met then beginWait s p 0
          else if unitBusy s p || serveFirst s p || (s.part p).job.awaitStart || (s.part p).state != .running then s
          else startRun (s.modQueue p 0 (fun q => { q with inProgress := true })) p
            { first := e.get 8 2, last := e.get 10 2, repeatLeft := e.get 12 4, signal := e.get 32 8, signalValue := e.get 40 8 }))

/-- PART_PAGED (R148, R296): the part that a stall needs next is in its schedule memory. -/
def execPartPaged (p : Fin 64) (stall : Fin 64) (s : State) : Host.Outcome State Fault Refusal :=
  .next (
    let rd := imageOf s p
    let later := (s.part p).epoch.running && (s.part p).epoch.stage ≠ 4
    let want := if later && !(s.stall stall).repage then nextEntry s p else (s.part p).run.map (fun _ => (s.part p).epoch.entry)
    if !bit (s.part p).record.stalls stall || (s.part p).plan.isNone then s
    else match want with
      | none => s
      | some b => match partAt s rd (bellAt rd b).epoch stall with
        | none => s
        | some q =>
          if !partFits s rd stall q then s
          else tryStart (s.modStall stall (fun x => { x with
            parts := (q :: x.parts).eraseDups, repage := false, badParts := x.badParts.filter (fun y => y ≠ q) })) p)

/-! ## Jobs -/

/-- A symbol goes by the first port of the route to its device. -/
def sendRouted (s : State) (dst : Nat) (v : W64) : State :=
  match (routePorts s dst).head? with
  | none => s
  | some j => sendSymbol s j v

/-- START is scheduled for a member `h` hops from the root (R334): epoch tick 0 comes 462 · (D − h) ticks later. -/
def scheduleStart (s : State) (p dia h : Nat) : State :=
  s.modPart p (fun q => { q with zlk := { q.zlk with startDelay := 462 * (dia - h) + 1 } })

/-- The job group that a linked image lists (R333). -/
def planMembers (rd : Nat → Byte) : List (Nat × Nat) :=
  match (linkPorts rd).head? with | none => [] | some j => memberList rd (linkSection rd j)

/-- The job group of a partition: of its linked job, or of the linked plan that it holds. -/
def groupMembers (s : State) (p : Nat) : List (Nat × Nat) :=
  if !(s.part p).zlk.members.isEmpty then (s.part p).zlk.members
  else if (s.part p).plan.isSome && planLinked (imageOf s p) then planMembers (imageOf s p) else []

/-- The root of a partition's job group: its first member (R333). -/
def groupRoot (s : State) (p : Nat) : Nat := ((groupMembers s p).headD (0, 0)).1

/-- The root of a linked job has JOIN from a member; with all of them it floods START (R334). -/
def joinMember (s : State) (p dev member : Nat) : State :=
  let s := s.modPart p (fun q => { q with zlk := { q.zlk with joined := ((dev, member) :: q.zlk.joined).eraseDups } })
  let z := (s.part p).zlk
  if (s.part p).job.awaitStart && z.startDelay = 0 && z.members.all (fun m => m ∈ z.joined) then
    let d := s.links.diameter
    let s := { s with links := { s.links with linkedStarts := s.links.linkedStarts + 1 } }
    let v := BitVec.ofNat 64 (pack [(0, 8, 0x08), (8, 12, ownNumber s), (20, 12, d), (32, 20, s.links.linkedStarts)])
    (scheduleStart (flood s v none) p d 0).modPart p (fun q => { q with zlk := { q.zlk with joined := [] } })
  else s

/-- A linked job begins by JOIN to the root, which may hold JOIN of others already (R334). -/
def joinGroup (s : State) (p : Nat) : State :=
  let members := planMembers (imageOf s p)
  let root := (members.headD (0, 0))
  let early := s.links.joins.filter (fun m => decide (m ∈ members))
  let s := { s with links := { s.links with joins := s.links.joins.filter (fun m => !decide (m ∈ members)) } }
  let s := s.modPart p (fun q => { q with
    job := { q.job with awaitStart := true }
    zlk := { q.zlk with root := root.1, members := members, joined := (early ++ q.zlk.joined).eraseDups } })
  if root.1 = ownNumber s then joinMember s p (ownNumber s) p
  else sendRouted s root.1 (BitVec.ofNat 64 (pack [(0, 8, 0x07), (8, 12, ownNumber s), (20, 6, p)]))

/-- What JOB_START clears: counters of the job, flips and the highest marks of its units (R170), and every agent's cached
translations (R413). -/
def clearJob (s : State) (p : Nat) : State :=
  let s := (stallsOf s p).foldl (fun s i => s.modStall i (fun x => { x with
    mxe := { x.mxe with passes := 0, fails := 0 }, mvu := { x.mvu with passes := 0, fails := 0 }
    feederMxe := { x.feederMxe with tagFails := 0, packErrors := 0 }, feederMvu := { x.feederMvu with tagFails := 0, packErrors := 0 }
    router := { x.router with addEmpty := false, parityErrs := 0 }, gate := if x.fenced then .off else .active })) s
  let r := (s.part p).record
  let s := { s with
    crossings := s.crossings.map (fun (c : Nat × Crossing) => if bit (recordModules r (c.1 / 32)) (c.1 % 32 / 2) then (c.1, {}) else c)
    domains := s.domains.filter (fun d => d.1 / 4 ≠ p) }
  s.modPart p (fun q => { q with
    job := { running := true }, state := .running, epoch := {}, run := none, kernel := {}, cached := {}
    queues := q.queues.map (fun (x : Nat × Queue) => (x.1, { x.2 with completed := 0 }))
    chk := { corrected := 0, stageBells := 0, ledgerMax := 0, pending := false }
    ses := { q.ses with misses := 0, excusedMisses := 0, fallbacks := 0, durations := [] }
    zlk := { q.zlk with split := false, itemSeq := [] }
    refill := { q.refill with refills := 0, failed := [], waitsFor := none, pending := false }
    pwr := { q.pwr with maskShare := 0, extraShare := 0, pendingShare := false, bubbles := 0, extra := 0, stretched := 0, energy := 0, capApplied := true }
    tally := { q.tally with tally := [], lastCause := 0, events := 0, recTicks := 0, epochEvents := [] } })

/-- Why a JOB_START is refused, if it is (R163, R397). The timing mode of the group is on other devices: whether it
differs is a free value (log entry 42). -/
def jobRefusal (s : State) (p : Nat) (differs : Bool) : Option (Nat × Nat) :=
  let q := s.part p
  let rd := imageOf s p
  let m := planModes rd
  let off := fun (x y : Nat) => decide (x ≠ 0) && decide (x ≠ y)
  firstFail
    [(q.job.running, Status.badState, Detail.hstJobRunning),
     (q.plan.isNone, Status.badState, Detail.plnNotLoaded),
     (off m.1 q.record.timing || off m.2.1 q.record.check || off m.2.2 q.record.session, Status.badState, Detail.plnMode),
     (planLinked rd && differs, Status.badState, Detail.modeGroupMismatch),
     (decide (planSignature rd ≠ q.signature.toNat), Status.badState, Detail.plnPlacement)]

/-- JOB_START (R163, R170, R334, R397). -/
def execJobStart (src : PktSrc) (s : State) : Host.Outcome State Fault Refusal :=
  .next (runVoted s src (fun k => k.op = 0x0013) (fun k s =>
    let (n, s') := s.draw
    match jobRefusal s k.part ((Config.freeValue n).getLsbD 0) with
    | some (st, d) => .say (if planLinked (imageOf s k.part) then s' else s) st d
    | none =>
      if planLinked (imageOf s k.part) then .ok (joinGroup (clearJob s' k.part) k.part)
      else .ok (clearJob s k.part)))

/-- JOB_END (R163, R170, R397, R418): at once where no unit is in progress or the job is pre-empted or waits for START,
else at the next pre-emption point. -/
def execJobEnd (src : PktSrc) (s : State) : Host.Outcome State Fault Refusal :=
  .next (runVoted s src (fun k => k.op = 0x0014) (fun k s =>
    let q := s.part k.part
    if !q.job.running then .say s Status.badState Detail.hstNoJob
    else if (unitRuns s k.part || q.refill.pending) && q.state != .preempted then
      .wait (s.modPart k.part (fun q => { q with job := { q.job with endPending := true } })) .jobEnd
    else .ok (jobEnds s k.part)))

end Sys2Proof.Machine
end

