-- ==== Sys2Proof/Machine/Held.lean ====
section
/-! DEFINITION. Items held for another device's commit (R260, R261, R309, R310): how a commit token applies them and frees
ledger entries. -/

namespace Sys2Proof.Machine

/-- Bytes written at the partition's homes as one commit does: visible at once to every agent. -/
def committedPut (p : Nat) (s : State) (a : Nat) (bs : List Byte) : State :=
  match regionOf a with
  | .spad i o => spadPut s i o bs
  | _ => (lineCells a bs).foldl (fun s x => homeWrite s p x.1 x.2) s

/-- One held item is applied: a WRITE or RESULT its data, a TOKEN its data and tag, a COUNT its count (R346, R347). -/
def applyItem (s : State) (p : Nat) (h : HeldItem) : State :=
  let rd := imageOf s p
  let a := h.item.address.toNat
  if h.kind = itToken then applyToken (committedPut p) s rd a h.item.operand.toNat h.item.data
  else if h.kind = itCount then applyCount (committedPut p) s rd a (field h.item.data 0 4)
  else committedPut p s a h.item.data

/-- Insertion of a held item by SEQ. -/
def insertSeq (x : HeldItem) : List HeldItem → List HeldItem
  | [] => [x]
  | y :: r => if x.item.seq.toNat < y.item.seq.toNat then x :: y :: r else y :: insertSeq x r

/-- Whether a held item is of a unit. -/
def heldOf (dev part unit : Nat) (h : HeldItem) : Bool :=
  decide (h.item.srcDevice.toNat = dev) && decide (h.item.srcPartition.val = part) && decide (h.item.unit.toNat = unit)

/-- A commit token acts (R310): the items of its attempt are applied in order, the unit's others dropped, and its ledger
entries freed where HOME_DONE is set (R306). The token names no KIND, so entries of either are freed (log entry 44). -/
def applyCommit (s : State) (p : Nat) (t : Nat × Nat × Nat × Nat) : State :=
  let (dev, part, unit, attempt) := t
  let mine := (s.part p).zlk.held.filter (heldOf dev part unit)
  let due := (mine.filter (fun h => decide (h.item.attempt.val = attempt))).foldl (fun l h => insertSeq h l) []
  let s := due.foldl (fun s h => applyItem s p h) s
  let s := s.modPart p (fun q => { q with zlk := { q.zlk with
    held := q.zlk.held.filter (fun h => !heldOf dev part unit h), commits := q.zlk.commits.filter (fun c => c ≠ t)
    acted := if t ∈ q.zlk.acted then q.zlk.acted else t :: q.zlk.acted } })
  let mine := fun (e : LedgerEntry) => issuedBy dev part unit false e || issuedBy dev part unit true e
  freeLedger (settleLoose s p mine) p (fun e => mine e && e.homeDone)

/-- The bell entry that a partition's running range or the PLAN_RUN at the head of its queue runs next. -/
def entryDue (s : State) (p : Nat) : Option Nat :=
  if (s.part p).run.isSome || (s.part p).epoch.running then some (s.part p).epoch.entry
  else match headOf s p 0 with
    | .entry e => if e.op = 3 then some (e.get 8 2) else none
    | _ => none

/-- Whether a token is taken for a LINKED epoch that the partition has not committed yet (R261): it carries the UNIT of the
partition's next epoch, no item of its unit is a kernel's, and that epoch is LINKED, or not known while the plan has a LINKED
one (log entry 173). -/
def ofLinkedEpoch (s : State) (p : Nat) (t : Nat × Nat × Nat × Nat) : Bool :=
  let rd := imageOf s p
  let linked := fun b => bit (epochFlags rd (bellAt rd b).epoch) 0
  isLinked s p && (s.part p).job.running && decide (t.2.2.1 = (s.part p).job.commits % 2 ^ 31) &&
    !((s.part p).zlk.held.any (fun h => heldOf t.1 t.2.1 t.2.2.1 h && h.item.kernel)) &&
    match entryDue s p with
    | some b => linked b
    | none => (List.range (bellCount rd)).any linked

/-- Every token that waited acts, in order of arrival: at the partition's commit, but for those of a LINKED epoch to come
(R261). -/
def applyCommits (s : State) (p : Nat) : State :=
  ((s.part p).zlk.commits.filter (fun t => !ofLinkedEpoch s p t)).foldl (fun s t => applyCommit s p t) s

/-- Reads from outside that waited for a commit are answered once it is over (R249). -/
def resumeReads (s : State) (p : Nat) : State :=
  if readsWait s p then s else pumpCopies (dpResume (answerLate (serveAll s p) p) p) p

/-- What follows a commit of the partition besides its lines: waiting readers, logs, copies and discards go on (R230, R399,
R425). -/
def afterCommit (s : State) (p : Nat) : State :=
  let s := s.modPart p (fun q => { q with chk := { q.chk with pending := false }, zlk := { q.zlk with partners := [] } })
  let s := s.modFn (p + 1) (fun f => { f with readAhead := [] })
  let s := (applyCommits s p).modPart p (fun q => { q with cached := {} })
  resumeReads (runDiscards (settleLogs (serveAll s p) p) p) p

end Sys2Proof.Machine
end

