-- ==== Sys2Proof/Machine/Bell.lean ====
section
/-! DEFINITION. Bells (R155 to R161): the verdict, the commit of an epoch, its exchange of votes and tokens across devices
(R311, R341, R342, R350), replay (R296 to R298), refill wait (R282, R283), what takes effect at a bell, and stage bells
(R300). -/

namespace Sys2Proof.Machine

/-! ## Bell ticks -/

/-- Cycles of a domain in which `l` ticks are taken at mask share `k` and extra rate `x`: the mask counter, the extra
counter, mask bubbles and extra bubbles after them (R456, R461). -/
def bellRun (x k : Nat) : Nat → Nat → Nat → Nat → Nat → Nat → Nat × Nat × Nat × Nat
  | 0, _, c, e, b, n => (c, e, b, n)
  | _ + 1, 0, c, e, b, n => (c, e, b, n)
  | f + 1, l + 1, c, e, b, n =>
    if isBubble x e then bellRun x k f (l + 1) c (e + 1) b (n + 1)
    else if isBubble k c then bellRun x k f (l + 1) (c + 1) (e + 1) (b + 1) n
    else bellRun x k f l (c + 1) (e + 1) b n

/-- A domain takes the ticks of a bell, with the bubbles that fall among them. -/
def domainBell (s : State) (p n d : Nat) : State :=
  let x := extraRate s p
  let dm := s.dom p d
  let (c, e, b, m) := bellRun x (maskShareOf s p d) (16 * n) n dm.mask dm.extra 0 0
  let s' := s.modDom p d (fun y => { y with
    ticks := (y.ticks + n) % 2 ^ 64, mask := c, extra := if x = 0 then 0 else e, withheld := (y.withheld + b + m) % 2 ^ 64
    cycles := y.cycles + n + b + m })
  let s' := syncTicks (btdAdd s' p 2 (b + m)) p d dm.ticks (dm.ticks + n)
  let s' := s'.modPart p (fun q => { q with pwr := { q.pwr with bubbles := q.pwr.bubbles + b, extra := q.pwr.extra + m } })
  let s' := if drooping s' d then stretchTicks s' p d (n + b + m) else closeStretch s' p d
  recoveryEvent s' p 2 dm.epochTick m

/-- Every domain of a partition takes the ticks of a bell that it has not taken yet, with what is left of its link allowance
(R342); its crossings empty as it does (R134). -/
def takeBellTicks (s : State) (p : Nat) : State :=
  emptyModules ((domainsOf s p).foldl (fun s d =>
    domainBell s p (256 - (s.dom p d).bellTick + (linkAllowance s p - (s.dom p d).linkTicks)) d) s) p

/-! ## Records of a bell -/

/-- Verdict codes of a BELL trace record (DESIGN CHOICE, log entry 45). -/
def verdictCode (replay : Bool) : Nat := b2n replay

/-- The events of the epoch are summed and traced (R516). -/
def sumEvents (s : State) (p : Nat) : State :=
  let s := (domainsOf s p).foldl (fun s d => closeStretch (closeLost s p d) p d) s
  let ev := (s.part p).tally.epochEvents
  let s := ev.reverse.foldl (fun s e => trace s trRecovery (some p) 0xFF e.1 (tickFor s p) (natLe 8 e.2.1 ++ natLe 8 e.2.2)) s
  s.modPart p (fun q => { q with tally := { q.tally with
    lastCause := match ev with | [] => q.tally.lastCause | e :: _ => e.1
    events := q.tally.events + ev.length, recTicks := q.tally.recTicks + ev.foldl (fun x e => x + e.2.2) 0, epochEvents := [] } })

/-- The BELL record of a trace: bell count and wait ticks. -/
def traceBell (s : State) (p : Nat) (replay : Bool) : State :=
  let w := (domainsOf s p).foldl (fun x d => Nat.max x (s.dom p d).bellTicks) 0
  trace s trBell (some p) 0xFF (verdictCode replay) (tickFor s p) (natLe 8 (s.part p).job.bells ++ natLe 8 w)

/-- An epoch longer than its WCET_TICKS is noted (R161), and a WCET round it belongs to is excused (R363). -/
def checkWcet (s : State) (p : Nat) : State :=
  let rd := imageOf s p
  let w := wcetOf rd (runningDesc s p)
  let late := decide ((sectionOf rd 8 0).bytes ≠ 0) && (domainsOf s p).any (fun d => decide (w.1 < (s.dom p d).cycles))
  let share := (domainsOf s p).any (fun d => decide (w.2.1 < maskShareOf s p d)) || decide (extraRate s p ≠ 0)
  s.modPart p (fun q => { q with
    job := { q.job with wcetOver := q.job.wcetOver || late }, ses := { q.ses with excused := q.ses.excused || late || share } })

/-- A bell has been counted (R170). -/
def countBell (s : State) (p : Nat) : State := s.modPart p (fun q => { q with job := { q.job with bells := q.job.bells + 1 } })

/-! ## The commit -/

/-- The commit of an epoch is final (R158, R170, R311): lines, flips, counts, held items, and what waited for it. -/
def finalCommit (s : State) (p : Nat) : State :=
  let carry := epochCarry (imageOf s p) (runningDesc s p)
  let s := commitLines s p
  let s := s.modPart p (fun q => { q with
    job := { q.job with flip := Nat.xor q.job.flip carry, commits := q.job.commits + 1 }
    epoch := { q.epoch with replays := 0, attempt := 0, refills := 0, wide := false, error := none, final := true }
    zlk := { q.zlk with lastFinal := q.job.bells, votes := [] } })
  afterCommit s p

/-- A bell goes to its next stage. -/
def setStage (s : State) (p n : Nat) : State := s.modPart p (fun q => { q with epoch := { q.epoch with stage := n, inBell := true } })

/-- The unit symbol of the running epoch. -/
def epochSymbol (s : State) (p type : Nat) : W64 :=
  let (_, u, t) := unitOf s p
  unitSymbol type (ownNumber s) p u t

/-- COMMIT is flooded for the unit in progress, and what it names is kept (R310). -/
def sendCommit (s : State) (p : Nat) : State :=
  (flood s (epochSymbol s p 0x09) none).modPart p (fun q => { q with zlk := { q.zlk with sent := some (unitOf s p) } })

/-! ## Failures of links as they show at a bell (R350) -/

/-- Whether a STREAM of the plan uses a port. -/
def streamUses (rd : Nat → Byte) (j : Nat) : Bool :=
  (linkPorts rd).any (fun k => (linkOps rd k).any (fun w => opCode w = opLinkStream &&
    ((decide (k = j) && !linkHub w) || (linkSources w).any (fun n => n = j))))

/-- A job that stops with SPLIT, or LINK_DOWN, at its bell. A SPLIT sends no ABANDON: neither half goes on. -/
def splitJob (s : State) (p : Nat) : State :=
  let s := discardUnit (logContained s p Detail.zlkSplit none) p
  let s := stopJob (partEvent s p srcFault Status.split Detail.zlkSplit) p Detail.zlkSplit
  s.modPart p (fun q => { q with job := { q.job with faulted := true }, zlk := { q.zlk with split := true } })

/-- What a lost port does to a job at its bell; none where the job runs on. -/
def linkLoss (s : State) (p : Nat) : Option State :=
  let z := (s.part p).zlk
  match z.lostPort with
  | none => none
  | some j =>
    if z.reachOpen || z.members.isEmpty then none
    else if z.members.any (fun m => m.1 ≠ ownNumber s && !decide (m.1 ∈ z.reach)) then some (splitJob s p)
    else if streamUses (imageOf s p) j then some (endJob s p Status.linkDown Detail.zlkPortDown none)
    else none

/-! ## What takes effect at a bell -/

/-- Whether a stream module granted to the partition is out of service (R24). -/
def moduleFailed (s : State) (p : Nat) : Bool :=
  (List.range 6).any (fun e => decide (Nat.land (recordModules (s.part p).record e) (tget s.edges e).failed ≠ 0))

/-- A pending fence or failed module ends the job (R24, R131). -/
def fenceSwitch (s : State) (p : Nat) : State :=
  if (s.part p).job.fencePending then contained s p Status.partitionFault Detail.stallFenced none
  else if moduleFailed s p then contained s p Status.partitionFault Detail.none none
  else s

/-- MASK of a member is flooded, and the share of the bell two before is taken (R337). -/
def groupMask (s : State) (p k : Nat) : State :=
  let n := (s.part p).job.bells % 2 ^ 23
  let s := flood s (BitVec.ofNat 64 (pack [(0, 8, 0x0E), (8, 12, ownNumber s), (20, 6, p), (26, 8, k), (34, 23, n)])) none
  let near := fun (x : Nat) => decide ((n + 2 ^ 23 - x) % 2 ^ 23 ≤ 2)
  s.modPart p (fun q =>
    let ms := (ownNumber s, p, n, k) :: q.zlk.masks.filter (fun m => near m.2.2.1 || decide (n < m.2.2.1))
    { q with
      zlk := { q.zlk with masks := ms }
      pwr := { q.pwr with maskShare := (ms.filter (fun m => (m.2.2.1 + 2) % 2 ^ 23 = n)).foldl (fun x m => Nat.max x m.2.2.2) 0 } })

/-- Glides, the early exchange and the mask share for an epoch of a phase (R460, R462, R463). -/
def preparePower (s : State) (p phase : Nat) : State :=
  let s := earlyExchange (startGlides s p) p phase
  if !isLockstep s p then s
  else
    let k := wantedMask s p phase
    let s := s.modPart p (fun q => { q with pwr := { q.pwr with pendingShare := false, extraShare := 0, capApplied := true } })
    if isLinked s p then groupMask s p k else s.modPart p (fun q => { q with pwr := { q.pwr with maskShare := k } })

/-- Engine state is emptied, the counts of failed checks cleared, and the router's other bank made active (R74, R101,
R122). -/
def switchBank (s : State) (p : Nat) (toggle : Bool) : State :=
  (stallsOf s p).foldl (fun s i => s.modStall i (fun x => { x with
      mxe := { x.mxe with fails := 0 }, mvu := { x.mvu with fails := 0 }
      router := { x.router with bank := x.router.bank != toggle } }))
    (emptyEngines s p)

/-! ## The end of a bell -/

/-- The next parts are confirmed and the next epoch starts; a missing part is a bell wait of cause PAGE (R148). -/
def pageStage (s : State) (p : Nat) : State :=
  if resident s p (runningDesc s p) then
    tryStart (s.modPart p (fun q => { q with epoch := { q.epoch with running := false, inBell := false, stage := 0 } })) p
  else s

/-- The range moves to a bell entry. -/
def moveTo (s : State) (p b : Nat) : State :=
  s.modPart p (fun q => { q with
    run := q.run.map (fun r => if b = r.first && decide (q.epoch.entry = r.last) then { r with repeatLeft := r.repeatLeft - 1 } else r)
    epoch := { q.epoch with entry := b } })

/-- No epoch of the partition is in progress. -/
def restEpoch (s : State) (p : Nat) : State :=
  s.modPart p (fun q => { q with epoch := { q.epoch with running := false, inBell := false, stage := 0, nonrepl := false, final := false } })

/-- The next step of a linked job starts at this very bell, as the record names it (R365). -/
def linkedStep (s : State) (p : Nat) : State :=
  let rd := imageOf s p
  let (n, v, slots) := readRecord s p
  let r := variantRange rd n v
  let (s, l) := if isRoot s p then stillReady s p (slots.map (fun x => x.1)) else (s, [])
  let mine := slots.filter (fun x => l.any (fun y => y.1 = x.1))
  let s := markRunning s p (mine.map (fun x => x.1))
  s.modPart p (fun q => { q with
    run := some { first := r.1, last := r.2, repeatLeft := 1, step := true }
    epoch := { q.epoch with entry := r.1 }
    ses := takeBatch q.ses n v mine })

/-- A step whose last epoch has committed (R361): sessions are updated, and SERVE ends, or the next linked step begins. -/
def endStep (s : State) (p : Nat) (results : ReadResult) : State :=
  let s := finishBatch s p results
  let s := s.modPart p (fun q => { q with run := none })
  if serveEnds s p then endServe s p
  else if isLinked s p then linkedStep s p else s

/-- A PLAN_RUN whose last epoch has committed (R168): SIGNAL is written and the entry ends. -/
def endRun (s : State) (p : Nat) (r : Run) : State :=
  let s := s.modPart p (fun q => { q with run := none })
  match signal s p r.signal r.signalValue with
  | (s, some e) => entryFail s p 0 1 e.1 e.2
  | (s, none) => entryDone s p 0 1

/-- The range in progress after a commit: it moves on, or ends. -/
def advanceRun (s : State) (p : Nat) (results : ReadResult) : State :=
  match (s.part p).run with
  | none => s
  | some r =>
    match nextEntry s p with
    | some b => moveTo s p b
    | none => if r.step then endStep s p results else endRun s p r

/-- Whether a lease must let a fallback batch and its primary remainder end first (Table PTN-7). -/
def stepHolds (s : State) (p : Nat) : Bool :=
  ((s.part p).run.map (fun r => r.step)).getD false && ((s.part p).ses.fallback || !(s.part p).ses.remainder.isEmpty)

/-- Pending ends, leases and halts at a COMMIT bell, where its entry allows it (R170). -/
def bellPoint (s : State) (p : Nat) (ok : Bool) : State :=
  if !ok then s
  else if (s.part p).state == .preempting && !(s.part p).job.endPending && stepHolds s p then haltAtPoint s p
  else pointReached s p

/-- What follows in bell ticks 192 and later: the next epoch, or rest. -/
def nextEpoch (s : State) (p : Nat) : State :=
  let s := switchBank s p true
  match (s.part p).run with
  | none => restEpoch s p
  | some r =>
    if (s.part p).state == .preempted || (s.queue p (runQueue r)).halted then restEpoch s p
    else pageStage (setStage (preparePower (keepParts s p) p (bellAt (imageOf s p) (s.part p).epoch.entry).phase) p 4) p

/-- The results of a step that ends at this bell, read from the committed view (R361). -/
def stepResults (s : State) (p : Nat) : State × ReadResult :=
  let n := (s.part p).ses.batch.length
  if ((s.part p).run.map (fun r => r.step)).getD false && (nextEntry s p).isNone && decide (n ≠ 0) then readResults s p n
  else (s, .data [])

/-- What follows once the results of an ending step are here. -/
def settleWith (s : State) (p : Nat) (results : ReadResult) : State :=
  match results with
  | .waits => s
  | _ =>
    let e := bellAt (imageOf s p) (s.part p).epoch.entry
    let s := traceBell (checkWcet (takeBellTicks s p) p) p false
    let s := sumEvents s p
    let s := (stallsOf s p).foldl (fun s i => s.modStall i (fun x => { x with
      mxe := { x.mxe with fails := 0 }, mvu := { x.mvu with fails := 0 } })) s
    let s := fenceSwitch (applyBoost (applyKeys s p) p) p
    if !(s.part p).job.running then s
    else
      let last := (nextEntry s p).isNone
      let s := advanceRun s p results
      let s := if (s.part p).job.running then bellPoint s p (!e.noPreempt || last) else s
      if (s.part p).job.running then nextEpoch s p else s

/-- A COMMIT bell once its commit is final and the host has every line (R158, R230). -/
def settleStage (s : State) (p : Nat) : State :=
  if s.hostCommit.any (fun h => h.1 = p) then s
  else
    let (s, results) := stepResults s p
    settleWith s p results

/-! ## Replay -/

/-- Refill wait begins before the replay (R282). -/
def beginRefill (s : State) (p : Nat) (page : BitVec 48) : State :=
  let s := s.modPart p (fun q => { q with
    refill := { q.refill with pending := true, page := page, since := s.devTime, timer := q.timers, waitsFor := none, refills := satInc q.refill.refills 255 }
    epoch := { q.epoch with refills := q.epoch.refills + 1 } })
  partEvent (restEpoch s p) p srcRefill Status.refillRequest Detail.lsmRefill

/-- A REPLAY bell (R296, R298): staged lines go, the ledger stays, and the same entry follows; a fourth attempt ends the
job, and so does an epoch that is non-replayable (R301); a member of a linked group with no error of its own ends with the
group's (R318, log entry 169). -/
def replayBell (s : State) (p : Nat) : State :=
  let q := s.part p
  let detail := q.epoch.error.getD Detail.none
  if q.epoch.nonrepl then contained s p Status.partitionFault (q.epoch.error.getD Detail.chkGroupFault) none
  else if q.refill.waitsFor.isNone && decide (3 ≤ q.epoch.attempt) && q.epoch.error.isNone && epochLinked s p then
    endJob s p Status.partitionFault Detail.chkGroupFault none
  else if q.refill.waitsFor.isNone && decide (3 ≤ q.epoch.attempt) then endJob s p Status.replayExhausted detail none
  else
    let lost := runningLen s p + 256
    let s := countBell (discardChecked s p) p
    if !(s.part p).job.running then s else
    let s := s.modPart p (fun q => { q with
      chk := { q.chk with pending := false }
      zlk := { q.zlk with votes := [] }
      epoch := { q.epoch with
        replays := q.epoch.replays + 1, attempt := if q.refill.waitsFor.isNone then q.epoch.attempt + 1 else q.epoch.attempt }
      ses := { q.ses with excused := true } })
    let s := runDiscards (settleLogs (serveAll s p) p) p
    let s := traceBell (takeBellTicks s p) p true
    let s := (domainsOf s p).foldl (fun s d => closeStretch (closeLost s p d) p d) s
    let s := recoveryEvent s p 0xC 0 lost
    let s := fenceSwitch (applyBoost s p) p
    if !(s.part p).job.running then s
    else
      let s := preparePower (switchBank s p false) p (bellAt (imageOf s p) (s.part p).epoch.entry).phase
      match (s.part p).refill.waitsFor with
      | some page => beginRefill s p page
      | none => pageStage (setStage s p 4) p

/-! ## Stages of a bell -/

/-- The bell waits for APPLIED of every member (R341). -/
def appliedStage (s : State) (p : Nat) : State :=
  if (s.part p).zlk.members.all (fun m => m ∈ (s.part p).zlk.applied) then settleStage (setStage s p 3) p else s

/-- The commit becomes final, and a LINKED epoch floods APPLIED (R341). -/
def makeFinal (s : State) (p : Nat) (linked : Bool) : State :=
  let v := epochSymbol s p 0x0B
  let s := finalCommit (countBell s p) p
  if linked then
    let s := (flood s v none).modPart p (fun q => { q with zlk := { q.zlk with
      applied := ((ownNumber s, p) :: q.zlk.applied).eraseDups } })
    appliedStage (setStage s p 2) p
  else settleStage (setStage s p 3) p

/-- The bell waits for the votes of a LINKED epoch, or the tokens of the unit's partners (R311, R341). -/
def voteStage (s : State) (p : Nat) : State :=
  let z := (s.part p).zlk
  if epochLinked s p then
    if z.members.all (fun m => z.votes.any (fun v => v.1 = m.1 && v.2.1 = m.2)) then
      (if z.votes.any (fun v => !v.2.2) then replayBell s p else makeFinal s p true)
    else s
  else if (s.part p).epoch.error.isSome then replayBell s p
  else if z.partners.all (fun u => z.commits.any (fun c => c.1 = u.1 && c.2.1 = u.2.1 && c.2.2.1 = u.2.2)) then
    makeFinal s p false
  else s

/-- Whether any bell flit of the partition carries ERROR (R157). -/
def errorFlooded (s : State) (p : Nat) : Bool := (stallsOf s p).any (fun i => (s.stall i).bell.error)

/-- Bell tick 0: the verdict, and the commit becomes pending (R157, R310, R341). An error that came too late for the
flooding is a contained fault (R171). -/
def beginBell (s : State) (p : Nat) : State :=
  let replay := errorFlooded s p
  let late := if replay then none else (s.part p).epoch.error
  match late with
  | some d => contained s p Status.partitionFault d none
  | none =>
  let s := learnPhase s p (bellAt (imageOf s p) (s.part p).epoch.entry).phase
  let s := if replay then s else sendStaged s p
  if epochLinked s p then
    let s := if replay then flood s (epochSymbol s p 0x0A) none else sendCommit s p
    let (_, u, t) := unitOf s p
    let s := s.modPart p (fun q => { q with
      chk := { q.chk with pending := !replay }
      zlk := { q.zlk with
        voteSince := s.devTime
        votes := (ownNumber s, p, !replay) :: q.zlk.votes.filter (fun v => !(v.1 = ownNumber s && v.2.1 = p))
        commits := q.zlk.commits.filter (fun c => !(c.1 = ownNumber s && c.2.1 = p && c.2.2.1 = u && c.2.2.2 = t)) } })
    voteStage (setStage s p 1) p
  else if replay then replayBell s p
  else
    let s := if isLinked s p then sendCommit s p else s
    voteStage (setStage (s.modPart p (fun q => { q with chk := { q.chk with pending := !q.zlk.partners.isEmpty } })) p 1) p

/-- Whether no crossing of the partition holds a flit of a sender ahead of its receiver (R134). -/
def crossingsEven (s : State) (p : Nat) : Bool :=
  (List.range 4).all (fun d => (sendsOn s p d).all (fun m => decide (undelivered s p m.1 m.2.1 m.2.2 ≤ 6)))

/-- Whether every domain has come to epoch tick L with every stall holding READY for every stall (R157), the elastic
buffers hold no more than what is in flight (R134), and no stage request stands. -/
def bellReady (s : State) (p : Nat) : Bool :=
  (domainsOf s p).all (fun d => decide (runningLen s p ≤ (s.dom p d).epochTick) && domainReady s p d) &&
    crossingsEven s p && !stageRequested s p

/-- Whether a partition's bells proceed. -/
def bellRuns (s : State) (p : Nat) : Bool :=
  let q := s.part p
  q.present && q.job.running && !q.job.awaitStart && q.epoch.running && !q.halted && q.state != .preempted &&
    q.state != .resetting && clocksRun s

/-- BELL (R155 to R161, R296, R341): the bell of a partition's epoch goes on as far as it can. -/
def execBell (p : Fin 64) (s : State) : Host.Outcome State Fault Refusal :=
  .next (
    if !bellRuns s p then s
    else
      let n := (s.part p).epoch.stage
      match if n ≤ 1 && (decide (n = 1) || bellReady s p) then linkLoss s p else none with
      | some s' => s'
      | none =>
        if n = 0 then (if bellReady s p then beginBell s p else s)
        else if n = 1 then voteStage s p
        else if n = 2 then appliedStage s p
        else if n = 3 then settleStage s p
        else pageStage s p)

/-- STAGE_BELL (R300): every domain has stopped; the epoch restarts in wide staging after 256 ticks. -/
def execStageBell (p : Fin 64) (s : State) : Host.Outcome State Fault Refusal :=
  .next (
    if !bellRuns s p || !stageRequested s p || !(domainsOf s p).all (fun d => (s.dom p d).stopped) then s
    else
      let s := runDiscards (serveAll (countBell (discardChecked s p) p) p) p
      if !(s.part p).job.running then s else
      let s := s.modPart p (fun q => { q with
        chk := { q.chk with stageBells := satInc q.chk.stageBells 255 }
        refill := { q.refill with waitsFor := none }
        epoch := { q.epoch with wide := true, running := false, inBell := false, stage := 0 }
        ses := { q.ses with excused := true } })
      let s := (domainsOf s p).foldl (fun s d => closeStretch (closeLost s p d) p d) s
      let s := recoveryEvent (takeBellTicks s p) p 0xD 0 256
      tryStart (switchBank s p false) p)

end Sys2Proof.Machine
end

