-- ==== Sys2Proof/Machine/Sessions.lean ====
section
/-! DEFINITION. Session commands (R355 to R359, R363), the SERVE entry and the steps it runs (R360 to R365), QUEUE_RESUME
(R391) and leases (R416 to R419). -/

namespace Sys2Proof.Machine

/-! ## Commands -/

/-- Whether an index names no entry of the partition's range (R355). -/
def outOfRange (s : State) (p i : Nat) : Bool := decide ((s.part p).record.sesCount ≤ i)

/-- Whether a SESSION_OPEN's parameters are in range (Table SES-4, R546). -/
def openOk (k : Packet) : Bool :=
  isVa (k.param64 1) && decide (k.param64 1 % 4 = 0) && isVa (k.param64 3) && decide (k.param64 3 % 8 = 0) &&
    decide (k.param 5 / 2 ^ 24 < 4) && decide (k.param 6 ≠ 0) && decide (k.param 6 < 2 ^ 24)

/-- The entry that a SESSION_OPEN writes. -/
def openEntry (k : Packet) : List Byte :=
  natLe 8 (k.param64 1) ++ natLe 8 (k.param64 3) ++ natLe 8 0 ++ natLe 4 (k.param 7) ++ natLe 2 (k.param 5) ++
    natLe 1 (k.param 5 / 2 ^ 16) ++ natLe 1 (k.param 5 / 2 ^ 24) ++ sesCopy sesIdle (k.param 6) ++ sesCopy sesIdle (k.param 6) ++
    List.replicate 16 0

/-- SESSION_OPEN (R357, R358, R363). -/
def execSessionOpen (src : PktSrc) (s : State) : Host.Outcome State Fault Refusal :=
  .next (runVoted s src (fun k => k.op = 0x0030) (fun k s =>
    let p := k.part
    let i := k.param 0
    if !openOk k then .param s
    else if outOfRange s p i then .say s Status.badAddress Detail.sesRange
    else match sesUse s p i with
      | (s, none) => .say s Status.badState Detail.sesInUse
      | (s, some e) =>
        if sesState e ≠ 0 then .say s Status.badState Detail.sesInUse
        else
        let s := useSessions s p
        if decide ((s.part p).record.session = 1) &&
            !admits s p ((i, bits (k.param 5) 23 16, k.param 6) :: openSessions s p) then
          .say s Status.noResource Detail.sesAdmit
        else .ok (sesWrite s p i (openEntry k))))

/-- Whether a SESSION_APPEND's parameters are in range. -/
def appendOk (k : Packet) : Bool := decide (k.param 3 < 2 ^ 16) && decide (k.param 4 < 2 ^ 24)

/-- Whether R359 refuses an APPEND of an entry as it will stand. -/
def appendBad (e : List Byte) (avail limit pages : Nat) : Bool :=
  let st := sesState e
  decide (avail < sesAvail e) || decide (limit < sesLimit e) || decide (pages < sesPages e) || decide (limit < avail) ||
    (decide (st = sesReady ∨ st = sesRunning) && decide (avail ≠ sesAvail e)) ||
    (decide (st = sesIdle) && decide (sesPos e = avail))

/-- SESSION_APPEND of an entry that R359 allows. -/
def appendTo (s : State) (k : Packet) (i : Nat) (e : List Byte) : Body :=
  let p := k.part
  let st := sesState e
  let held := sesDeadline (withAppend s p i e)
  let dl := if k.param 4 = 0 then held else k.param 4
  let lowers := decide (dl < held)
  let now := openSessions s p
  let after := now.map (fun x => if x.1 = i then (x.1, x.2.1, dl) else x)
  let e' := patch (patch e 20 (natLe 4 (k.param 1) ++ natLe 4 (k.param 2))) 28 (natLe 2 (k.param 3))
  if decide ((s.part p).record.session = 1) && lowers && !admits s p after then .say s Status.noResource Detail.sesAdmit
  else if st = sesReady then .ok (sesWrite s p i (sesPut e' sesReady dl))
  else if st = sesRunning then
    .ok (s.modPart p (fun q => { q with ses := { q.ses with
      appends := (i, k.param 2, k.param 3, dl) :: q.ses.appends.filter (fun a => a.1 ≠ i) } }))
  else if sesPos e < k.param 1 && k.param 1 < k.param 2 && sesPos e < k.param 3 * Nat.max 1 (s.part p).ses.perPage then
    .ok (sesWrite s p i (patch (sesPut e' sesReady dl) 48 (natLe 8 (sesClock s) ++ (e'.drop 56).take 4 ++ natLe 1 0)))
  else .say s Status.badState Detail.sesState

/-- SESSION_APPEND (R357, R359, R363). -/
def execSessionAppend (src : PktSrc) (s : State) : Host.Outcome State Fault Refusal :=
  .next (runVoted s src (fun k => k.op = 0x0031) (fun k s =>
    let p := k.part
    let i := k.param 0
    if !appendOk k then .param s
    else if outOfRange s p i then .say s Status.badAddress Detail.sesRange
    else match sesUse s p i with
      | (s, none) => .say s Status.badState Detail.sesState
      | (s, some e) =>
        let e1 := withAppend s p i e
        if sesState e = 0 || sesState e = sesFailed then .say s Status.badState Detail.sesState
        else if appendBad e1 (k.param 1) (k.param 2) (k.param 3) then .say s Status.badState Detail.sesAppendField
        else appendTo (useSessions s p) k i e))

/-- SESSION_CLOSE (R357). -/
def execSessionClose (src : PktSrc) (s : State) : Host.Outcome State Fault Refusal :=
  .next (runVoted s src (fun k => k.op = 0x0032) (fun k s =>
    let p := k.part
    let i := k.param 0
    if outOfRange s p i then .say s Status.badAddress Detail.sesRange
    else match sesUse s p i with
      | (s, none) => .ok (sesClear s p i)
      | (s, some e) =>
        if sesState e = 0 then .say s Status.badState Detail.sesState
        else if sesState e = sesRunning then .wait s (.sessionClose i)
        else .ok (sesClear s p i)))

/-- SESSION_QUERY (R358): the entry, with COPY_B replaced by the session clock. -/
def execSessionQuery (src : PktSrc) (s : State) : Host.Outcome State Fault Refusal :=
  .next (runVoted s src (fun k => k.op = 0x0033) (fun k s =>
    let p := k.part
    let i := k.param 0
    if !outOk k (k.param64 1) then .param s
    else if outOfRange s p i then .say s Status.badAddress Detail.sesRange
    else
      let s := (sesUse s p i).1
      let e := sesRead s p i
      .reply s Status.ok (sesState e) (k.param64 1) (patch e 40 (natLe 8 (sesClock s)))))

/-! ## SERVE and its steps -/

/-- Whether a SERVE entry's fields are in range (Table SES-5). -/
def serveOk (e : Entry) : Bool :=
  isVa (e.get 8 8) && decide (e.get 8 8 % 65536 = 0) && isVa (e.get 16 8) && decide (e.get 16 8 % 4096 = 0) &&
    decide (e.get 24 4 ≠ 0) && decide (e.get 24 4 ≤ 65536) && isVa (e.get 32 8) && decide (e.get 32 8 % 8 = 0) && e.zero 48 16

/-- Whether the held plan can serve sessions in the partition's session mode (R360, R363). -/
def servePlan (s : State) (p : Nat) : Bool :=
  let rd := imageOf s p
  (s.part p).plan.isSome && bit (planFlags rd) 0 &&
    (decide ((s.part p).record.session ≠ 1) || decide ((sectionOf rd 8 0).bytes ≠ 0))

/-- SERVE (R360): the engine serves under the entry at the head; on a member of a linked job that is not its root it
follows. -/
def execServe (p : Fin 64) (s : State) : Host.Outcome State Fault Refusal :=
  .next (if (s.queue p 3).inProgress then s
    else runEntry s p 3 1 true (fun e s =>
      if !serveOk e then refuseField s p 3
      else if !servePlan s p then entryFail s p 3 1 Status.badState Detail.sesNoPlan
      else (s.modQueue p 3 (fun q => { q with inProgress := true })).modPart p (fun q => { q with ses := { q.ses with
        serving := true, record := e.get 8 8, result := e.get 16 8, perPage := e.get 24 4
        stepsLeft := if e.get 28 4 = 0 then none else some (e.get 28 4)
        signal := e.get 32 8, signalValue := e.get 40 8, stepCount := 0, round := [], remainder := [], left := [], opened := false
        follower := isLinked s p && !isRoot s p } })))

/-- Whether the session engine may start a step (R169, R202, R360): a PLAN_RUN that is ready goes first. -/
def mayStep (s : State) (p : Nat) : Bool :=
  let q := s.part p
  !planReady s p && partRuns s p && q.job.running && !q.job.awaitStart && q.ses.serving && !q.ses.stepping && !unitBusy s p &&
    !q.refill.pending && !(s.queue p 3).halted && (q.state == .running || (q.state == .preempting && !q.ses.remainder.isEmpty)) && q.plan.isSome

/-- A step of a batch begins: its record has been written. -/
def startStep (s : State) (p n v : Nat) (batch : List (Nat × Bool)) : State :=
  let r := variantRange (imageOf s p) n v
  let s := markRunning s p (batch.map (fun x => x.1))
  let s := s.modPart p (fun q => { q with ses := takeBatch q.ses n v batch })
  startRun s p { first := r.1, last := r.2, repeatLeft := 1, step := true }

/-- No session is left of what a halt or a lease waited for: both act now. -/
def noBatch (s : State) (p : Nat) : State :=
  let s := s.modPart p (fun q => { q with ses := { q.ses with remainder := q.ses.left, left := [] } })
  let s := if haltDue s p 3 && (s.part p).ses.remainder.isEmpty then endServe s p else s
  if (s.part p).state == .preempting && (s.part p).ses.remainder.isEmpty then pointReached s p else s

/-- A record that could not be written fails the SERVE entry (R548). -/
def serveFails (s : State) (p : Nat) (e : Nat × Nat) : State :=
  entryFail (s.modPart p (fun q => { q with ses := { q.ses with serving := false, remainder := [], left := [], round := [] } })) p 3 1 e.1 e.2

/-- A gathered batch: its record is written and its step starts; with no session left there is none. -/
def runGathered (s : State) (p : Nat) (g : Gathered) : State :=
  let s := keepGathered s p g
  match g.batch with
  | [] => noBatch s p
  | x :: _ =>
    let n := sesStep x.entry
    let v := variantOf (imageOf s p) n g.batch.length g.fallback
    match writeRecord s p (recordBytes ((s.part p).ses.stepCount % 2 ^ 32) n v g.batch) with
    | (s, some e) => serveFails s p e
    | (s, none) => startStep s p n v (g.batch.map (fun y => (y.index, y.keep)))

/-- The first step of a member of a linked job (R365): THIN of step 0, with the record of an empty batch. -/
def firstStep (s : State) (p : Nat) : State :=
  match writeRecord s p (recordBytes ((s.part p).ses.stepCount % 2 ^ 32) 0 0 []) with
  | (s, some e) => serveFails s p e
  | (s, none) => startStep s p 0 0 []

/-- SESSION_STEP (R361 to R365): a batch is gathered and its step begins. The first step of a linked job runs THIN of step
0 with no session. -/
def execSessionStep (p : Fin 64) (s : State) : Host.Outcome State Fault Refusal :=
  .next (if !mayStep s p then s
    else if isLinked s p then firstStep s p
    else
      let (s, g) := gather s p
      runGathered s p g)

/-! ## QUEUE_RESUME -/

/-- A halted queue goes on at a reading of its partition's timer: past its failed entry, or where it stopped, a wait of its
head starting afresh (R391). -/
def resumeQueue (now : Nat) (q : Queue) : Queue :=
  if !q.halted then q
  else
    let q' := if q.failed then advance q (Nat.max 1 q.failUnits) else q
    { q' with halted := false, failed := false, failUnits := 0, byLease := false, waitFrom := q'.waitFrom.map (fun _ => now) }

/-- QUEUE_HALT with ACTION RESUME (R391). -/
def execQueueResume (src : PktSrc) (s : State) : Host.Outcome State Fault Refusal :=
  .next (runVoted s src (fun k => k.op = 0x0011 && k.param 1 = 1) (fun k s =>
    if haltParams k then
      .ok (tryStart ((setBits (k.param 0) 5).foldl (fun s i => s.modQueue k.part i (resumeQueue (s.part k.part).timers)) s) k.part)
    else .param s))

/-! ## Leases -/

/-- A PREEMPTED job resumes (R418): its queues go on, a wait of a queue's head starting afresh as at RESUME, and the epoch
sequence goes on with the next entry. -/
def resumeJob (s : State) (p : Nat) : State :=
  let s := s.modPart p (fun q => { q with
    state := .running
    queues := q.queues.map (fun (x : Nat × Queue) => (x.1, if x.2.byLease then { x.2 with
      halted := false, byLease := false, waitFrom := x.2.waitFrom.map (fun _ => q.timers) } else x.2)) })
  let s := (stallsOf s p).foldl (fun s i => s.modStall i (fun x => { x with gate := if x.fenced then .off else .active })) s
  let s := partEvent s p srcQueue Status.ok Detail.ptnResumed
  if (s.part p).job.companionDown then contained s p Status.partitionFault Detail.pkgCompanionDown none
  else pumpCopies (tryStart s p) p

/-- PARTITION_SET_LEASE (R416, R418, Table PTN-10). -/
def execPartitionSetLease (src : PktSrc) (s : State) : Host.Outcome State Fault Refusal :=
  .next (runVoted s src (fun k => k.op = 0x0043) (fun k s =>
    let p := k.part
    let lease := k.param64 0
    let grace := k.param 2
    if 2 ^ 40 ≤ lease || 1000000 < grace then .param s
    else if (s.part p).record.zlPorts ≠ 0 then .say s Status.badState Detail.ptnLeaseLinked
    else if bit s.shared.wakeOwned p then .say s Status.busy Detail.ptnTimerBusy
    else
      let s := s.modPart p (fun q => { q with
        lease := { set := decide (lease ≠ 0), remain := lease, grace := if lease = 0 then 0 else if grace = 0 then 5000 else grace, graceLeft := 0 }
        state := if q.state == .preempting then .running else q.state })
      .ok (if (s.part p).state == .preempted then resumeJob s p else s)))

/-- LEASE_EXPIRY (R417, R418, R419): a lease that has run out of a job that runs begins its grace; with no unit in progress
the pre-emption point is now. -/
def execLeaseExpiry (p : Fin 64) (s : State) : Host.Outcome State Fault Refusal :=
  .next (
    let q := s.part p
    if !(q.lease.set && decide (q.lease.remain = 0) && q.job.running && q.state == .running) then s
    else
      let s := s.modPart p (fun q => { q with state := .preempting, lease := { q.lease with graceLeft := q.lease.grace } })
      if unitRuns s p || !(s.part p).ses.remainder.isEmpty || q.halted then s else preempt s p)

/-- GRACE_EXPIRY (R419): the grace has passed before the pre-emption point, and the partition is reset. -/
def execGraceExpiry (p : Fin 64) (s : State) : Host.Outcome State Fault Refusal :=
  .next (
    let q := s.part p
    if !(q.state == .preempting && decide (q.lease.graceLeft = 0)) then s
    else resetPart (partEvent (logContained s p Detail.ptnLeaseReset none) p srcFault Status.leaseExpired Detail.ptnLeaseReset) p)

end Sys2Proof.Machine
end

