-- ==== Sys2Proof/Machine/Kernel.lean ====
section
/-! DEFINITION. Kernels as commit units: LAUNCH (R200 to R203), where groups start (R176, R177), the launch commit (R204,
R311), its replay (R205, R297, R298), and the watchdog (R208). -/

namespace Sys2Proof.Machine

/-! ## Where groups run -/

/-- The cores of a kernel by rank: stall, then core (R177). -/
def kernelCores (k : Kernel) : List (Nat × Nat) :=
  (setBits k.stalls 64).flatMap (fun i => (setBits k.cores 12).map (fun c => (i, c)))

/-- Lanes of a group whose thread index is below the thread count. -/
def groupLanes (k : Kernel) (g : Nat) : Nat := if g + 1 = k.groups then 2 ^ k.threadsLast - 1 else 2 ^ 32 - 1

/-- The start state of group `g` on a core (R176). -/
def startGroup (p : Nat) (k : Kernel) (g stall core : Nat) : Group :=
  let m := groupLanes k g
  { live := true, part := p, index := g, pc := k.code
    v := (List.range 32).map (fun l => (l, BitVec.ofNat 32 (32 * g + l)))
    u := [(0, BitVec.ofNat 64 k.args), (1, BitVec.ofNat 64 g), (2, BitVec.ofNat 64 stall), (3, BitVec.ofNat 64 core)]
    preds := [(0, BitVec.ofNat 32 m)], active := BitVec.ofNat 32 m, exited := ~~~ BitVec.ofNat 32 m }

/-- Every group of the first round starts, with empty barriers (R177). -/
def startGroups (s : State) (p : Nat) : State :=
  let k := (s.part p).kernel
  let cs := kernelCores k
  let n := Nat.min k.groups (k.slots * cs.length)
  let place := fun (g : Nat) => (cs.getD (g % cs.length) (0, 0), g / cs.length)
  let gs := (List.range n).map (fun g => let c := place g
    (groupKey c.1.1 c.1.2 c.2, startGroup p k g c.1.1 c.1.2))
  let s := { s with groups := gs ++ s.groups.filter (fun (e : Nat × Group) => !(gs.any (fun x => x.1 = e.1))) }
  let s := (setBits k.stalls 64).foldl (fun s i => s.modStall i (fun x => { x with
    gate := .active, cores := x.cores.map (fun (c : Nat × Core) => (c.1, { c.2 with barriers := [], asked := [] })) })) s
  s.modPart p (fun q => { q with
    kernel := { q.kernel with nextGroup := n, groupsDone := 0 }, zlk := { q.zlk with itemSeq := [] } })

/-- A slot is free: the next group of the kernel, if one is left, starts in it (R177, R181), with GSTAT.NONREPL set where the
kernel can no longer be replayed: R207's "every group" before R176's zero (DESIGN CHOICE, log entry 164). -/
def endGroup (s : State) (g : GroupRef) : State :=
  let x := s.group g
  let p := x.part
  let k := (s.part p).kernel
  let key := groupKey g.stall g.core g.slot
  let s := s.modPart p (fun q => { q with kernel := { q.kernel with
    groupsDone := q.kernel.groupsDone + 1, mmaDiv := q.kernel.mmaDiv || x.gstat.getLsbD gstatDiv } })
  if k.nextGroup < k.groups then
    (s.modGroup g (fun _ => { startGroup p k k.nextGroup g.stall g.core with
      gstat := if k.nonrepl then BitVec.ofNat 64 (2 ^ gstatNonrepl) else 0 })).modPart p (fun q => { q with kernel := { q.kernel with
        nextGroup := q.kernel.nextGroup + 1 } })
  else { s with groups := tdel s.groups key }

/-! ## LAUNCH -/

/-- Whether a LAUNCH entry's fields are in range (Table TGC-10). -/
def launchOk (e : Entry) : Bool :=
  isVa (e.get 8 8) && decide (e.get 8 8 % 8 = 0) && isVa (e.get 16 8) && decide (e.get 24 4 ≠ 0) && decide (e.get 24 4 ≤ 2 ^ 24) &&
    decide (e.get 28 1 ≠ 0) && decide (e.get 28 1 ≤ 32) && decide (e.get 29 1 ≠ 0) && decide (e.get 29 1 ≤ 64) &&
    decide (e.get 30 2 ≠ 0) && decide (e.get 30 2 < 2 ^ 12) && e.zero 44 4 && isVa (e.get 48 8) && decide (e.get 48 8 % 64 = 0) &&
    e.zero 56 8 && isVa (e.get 64 8) && decide (e.get 64 8 % 8 = 0) && isVa (e.get 80 8) && decide (e.get 80 8 % 8 = 0) && e.zero 100 28

/-- Whether STALLS is empty, or names a stall that is not granted or is fenced (R201). -/
def launchStallsBad (s : State) (p m : Nat) : Bool :=
  decide (m = 0) || (setBits m 64).any (fun i => !bit (s.part p).record.stalls i || isFenced s i)

/-- The kernel of an entry. -/
def kernelOf (e : Entry) : Kernel :=
  { running := true, code := e.get 8 8, args := e.get 16 8, groups := e.get 24 4, threadsLast := e.get 28 1, slots := e.get 29 1
    cores := e.get 30 2, stalls := e.get 32 8, limit := e.get 40 4, result := e.get 48 8, signal := e.get 80 8, signalValue := e.get 88 8 }

/-- A kernel starts: instruction caches are empty (R203), and the units whose entries it must wait for are noted (R311). -/
def startKernel (s : State) (p : Nat) (k : Kernel) : State :=
  let partners := ledgerPartners s p
  let s := (setBits k.stalls 64).foldl (fun s i => s.modStall i (fun x => { x with
    cores := x.cores.map (fun (c : Nat × Core) => (c.1, { c.2 with icache := [] })) })) s
  let s := s.modPart p (fun q => { q with kernel := { k with timer := q.timers }, zlk := { q.zlk with partners := partners, itemSeq := [] } })
  startGroups s p

/-- Whether an entry or a step that starts before a kernel stands ready: PLAN, then SESSION (R202). -/
def unitReady (s : State) (p : Nat) : Bool :=
  planReady s p || serveReady s p || (mayStep s p && (isLinked s p || !(gather s p).2.batch.isEmpty))

/-- LAUNCH (R200 to R203). -/
def execLaunch (p : Fin 64) (s : State) : Host.Outcome State Fault Refusal :=
  .next (if (s.queue p 1).inProgress then s
    else runEntry s p 1 0x10 true (fun e s =>
      if !launchOk e then refuseField s p 1
      else if launchStallsBad s p (e.get 32 8) then entryFail s p 1 2 Status.badState Detail.tgcStalls
      else match waitMet s p (e.get 64 8) (e.get 72 8) with
        | .error x => failAddress s p 1 2 (e.get 64 8) false x
        | .ok met =>
          if !met then beginWait s p 1
          else if unitBusy s p || serveFirst s p || unitReady s p || (s.part p).job.awaitStart || (s.part p).state != .running then s
          else startKernel (s.modQueue p 1 (fun q => { q with inProgress := true })) p (kernelOf e)))

/-! ## The launch commit -/

/-- RESULT and SIGNAL of a kernel that has committed (R204, R548): the entry ends, or fails for an address. -/
def endKernel (s : State) (p : Nat) : State :=
  let k := (s.part p).kernel
  let s := timeKernel s p
  let block := resultBlock s p Status.ok 0
  let s := s.modPart p (fun q => { q with kernel := {} })
  match queueWrite s p k.result block with
  | (s, some e) => entryFail s p 1 2 e.1 e.2
  | (s, none) => match signal s p k.signal k.signalValue with
    | (s, some e) => entryFail s p 1 2 e.1 e.2
    | (s, none) => entryDone s p 1 2

/-- After a commit of a kernel what waits for a bell takes effect too (R204). -/
def kernelPoint (s : State) (p : Nat) : State :=
  let s := applyBoost (applyKeys s p) p
  if (s.part p).job.fencePending then contained s p Status.partitionFault Detail.stallFenced none
  else pointReached s p

/-- The commit of a kernel is final; RESULT follows once the host has every line. -/
def finalKernel (s : State) (p : Nat) : State :=
  let s := commitLines s p
  let s := s.modPart p (fun q => { q with
    job := { q.job with launches := q.job.launches + 1 }, kernel := { q.kernel with stage := 2 } })
  afterCommit s p

/-- A launch commit goes on as far as it can. -/
def commitStage (s : State) (p : Nat) : State :=
  let z := (s.part p).zlk
  let s := if (s.part p).kernel.stage = 1 &&
      z.partners.all (fun u => z.commits.any (fun c => c.1 = u.1 && c.2.1 = u.2.1 && c.2.2.1 = u.2.2)) then finalKernel s p else s
  if (s.part p).kernel.stage = 2 && !s.hostCommit.any (fun h => h.1 = p) then kernelPoint (endKernel s p) p else s

/-- A kernel restarts from its start state (R205, R297). -/
def restartKernel (s : State) (p : Nat) : State :=
  let s := s.modPart p (fun q => { q with kernel := { q.kernel with error := none, mmaDiv := false, stage := 0 } })
  startGroups s p

/-- A kernel in which an error was detected replays once its last group has ended, waits for a refill, or after its fourth
attempt fails with the job (R205, R282, R298). One that has become non-replayable since ends the job (R301). -/
def replayKernel (s : State) (p : Nat) : State :=
  let q := s.part p
  let detail := q.kernel.error.getD Detail.none
  if q.kernel.nonrepl then contained s p Status.partitionFault detail none
  else match q.refill.waitsFor with
  | some page =>
    let s := runDiscards (serveAll (discardChecked s p) p) p
    if !(s.part p).job.running then s else
    let s := s.modPart p (fun q => { q with
      refill := { q.refill with pending := true, page := page, since := s.devTime, timer := q.timers, waitsFor := none, refills := satInc q.refill.refills 255 }
      kernel := { q.kernel with refills := q.kernel.refills + 1 } })
    partEvent s p srcRefill Status.refillRequest Detail.lsmRefill
  | none =>
    if 3 ≤ q.kernel.replays then
      let s := timeKernel s p
      let s := (queueWrite (discardUnit s p) p q.kernel.result (resultBlock s p Status.replayExhausted detail)).1
      let s := entryFail s p 1 2 Status.replayExhausted detail
      let s := s.modQueue p 1 (fun q => { advance q 2 with failUnits := 0 })
      endJob s p Status.replayExhausted detail none
    else
      let s := runDiscards (serveAll (discardChecked s p) p) p
      if !(s.part p).job.running then s else
      restartKernel (s.modPart p (fun q => { q with kernel := { q.kernel with replays := q.kernel.replays + 1 } })) p

/-- Whether the last group of a kernel has ended. -/
def kernelOver (s : State) (p : Nat) : Bool := (s.part p).kernel.running && (groupsOf s p).isEmpty

/-- LAUNCH_COMMIT (R204, R205, R311): the last group has ended, and the kernel commits or replays. -/
def execLaunchCommit (p : Fin 64) (s : State) : Host.Outcome State Fault Refusal :=
  .next (
    let q := s.part p
    if !(kernelOver s p && q.job.running && !q.halted && !q.refill.pending && q.state != .resetting && clocksRun s) then s
    else if q.kernel.stage ≠ 0 then commitStage s p
    else if q.kernel.error.isSome then replayKernel s p
    else
      let s := sendStaged s p
      let s := if isLinked s p then sendCommit s p else s
      commitStage (s.modPart p (fun q => { q with
        chk := { q.chk with pending := !q.zlk.partners.isEmpty }, kernel := { q.kernel with stage := 1 } })) p)

/-- WATCHDOG_EXPIRY (R208): a kernel with a LIMIT still has groups when it passes. -/
def execWatchdogExpiry (p : Fin 64) (s : State) : Host.Outcome State Fault Refusal :=
  .next (if (s.part p).kernel.running && decide ((s.part p).kernel.limit ≠ 0) && !(groupsOf s p).isEmpty &&
      decide ((s.part p).kernel.timer + 3300 * (s.part p).kernel.limit ≤ (s.part p).timers) then
    kernelFault s p Status.timeout Detail.tgcWatchdog else s)

/-- REFILL_DONE (R282, R284): the wait ends and the replay begins; a recovery event of cause REFILL. -/
def execRefillDone (p : Fin 64) (s : State) : Host.Outcome State Fault Refusal :=
  .next (if !(s.part p).refill.pending then s
    else
      let n := s.devTime - (s.part p).refill.since
      let s := s.modPart p (fun q => { q with refill := { q.refill with pending := false } })
      let s := recoveryEvent s p 0xF 0 n
      if (s.part p).kernel.running then restartKernel s p else tryStart s p)

end Sys2Proof.Machine
end

