-- ==== Sys2Proof/Machine/Cores.lean ====
section
/-! DEFINITION. Thread-group cores: fetch, which words are legal (R182), divergence and reconvergence (R180, R181), the
vector and uniform classes, FENCE, barriers (R195, R196) and group-matrix instructions (R197 to R199). An instruction's
event names its group and the word fetched; it acts only where the group may issue and the word is one its instruction
cache may supply. -/

namespace Sys2Proof.Machine

/-! ## Fields of a word -/

/-- OP. -/
def wOp (w : W64) : Nat := bits w.toNat 7 0
/-- D. -/
def wD (w : W64) : Nat := bits w.toNat 19 14
/-- Whether the guard is enabled (GEN). -/
def wGuarded (w : W64) : Bool := bit w.toNat 11
/-- A field read as a signed number of its width. -/
def wSigned (w : W64) (msb lsb : Nat) : Int := sInt (msb + 1 - lsb) (bits w.toNat msb lsb)
/-- off of a control instruction, in words. -/
def wOff (w : W64) : Int := wSigned w 63 42
/-- A of a control or GMMA instruction. -/
def wA (w : W64) : Nat := bits w.toNat 25 20

/-! ## Legal words (R182) -/

/-- The classes of Table TGC-5, one for each row of the instruction set. -/
inductive OpClass where
  | control (op : Nat) | vectorInt | vectorFloat | convert | compare | uniform | sreg | clrf
  | memory (op : Nat) | atomic (op : Nat) | fence | bar | gmma | reserved
  deriving DecidableEq, Repr

/-- The class of an OP (Tables TGC-3, TGC-5 to TGC-7). -/
def classOfOp (op : Nat) : OpClass :=
  if op ≤ 0x07 then .control op
  else if op ≤ 0x0F then .reserved
  else if op ≤ 0x3F then .vectorInt
  else if op ≤ 0x6F then .vectorFloat
  else if op ≤ 0x7F then .convert
  else if op ≤ 0x8F then .compare
  else if op ≤ 0x9D then .uniform
  else if op = 0x9E then .sreg
  else if op = 0x9F then .clrf
  else if op ≤ 0xA3 then .memory (op - 0xA0)
  else if op ≤ 0xAF then .reserved
  else if op ≤ 0xB7 then .atomic (op - 0xB0)
  else if op ≤ 0xBF then .reserved
  else if op = 0xC0 then .fence
  else if op = 0xC1 then .bar
  else if op = 0xC8 then .gmma
  else .reserved

/-- The class of a word. -/
def wClass (w : W64) : OpClass := classOfOp (wOp w)

/-- Whether a word's guard field is as its class allows: enabled on BRD, BRK and EXIT, and elsewhere only on vector,
memory, atomic and GMMA instructions (R180, R182). Conversions and compares count as vector instructions, and lane moves do
not (DESIGN CHOICE, log entry 163). -/
def guardOk (w : W64) : Bool :=
  match wClass w with
  | .control op => if 4 ≤ op && op ≠ 6 then wGuarded w else !wGuarded w
  | .uniform => !wGuarded w
  | .sreg => !wGuarded w
  | .clrf => !wGuarded w
  | .fence => !wGuarded w
  | .bar => !wGuarded w
  | _ => true

/-- SIZE of a memory instruction. -/
def wSize (w : W64) : Nat := bits w.toNat 34 32

/-- Whether a memory word's fields are legal (Table TGC-6, R183). -/
def memoryOk (w : W64) : Bool :=
  let op := wOp w - 0xA0
  let order := bits w.toNat 40 39
  decide (wSize w ≤ 4) && decide (bits w.toNat 38 36 ≤ 5) && decide (bits w.toNat 42 41 ≤ 1) &&
    (order = 0 || (order = 1 && op = 0) || (order = 2 && op = 1)) &&
    (decide (2 ≤ op) || decide (wD w % (if wSize w = 4 then 4 else if wSize w = 3 then 2 else 1) = 0))

/-- TYPE of an atomic. -/
def wType (w : W64) : Nat := bits w.toNat 40 38

/-- Whether an atomic word's fields are legal (Table TGC-7, R190). -/
def atomicOk (w : W64) : Bool :=
  let op := wOp w - 0xB0
  decide (wType w ≤ 4) && decide (bits w.toNat 43 41 ≤ 5) && (wType w ≠ 4 || !(decide (3 ≤ op) && decide (op ≤ 5)))

/-- Whether a GMMA word's fields are legal (Table TGC-9, R197). An odd C or D makes it illegal, and HIA and HIB of BF16
operands are ignored (DESIGN CHOICE, log entry 162). -/
def gmmaOk (w : W64) : Bool :=
  let fa := bits w.toNat 41 38
  let fb := bits w.toNat 45 42
  decide (wD w % 2 = 0) && decide (bits w.toNat 37 32 % 2 = 0) && decide (bits w.toNat 63 48 = 0) &&
    ((fa = 1 && fb = 1) || ((fa = 3 || fa = 4) && (fb = 3 || fb = 4)))

/-- Which conversion a word of OP 0x70 to 0x7F is (Table TGC-5, log entry 50). -/
def convOp (w : W64) : Config.ConvOp :=
  if wOp w = 0x70 + Config.transcendentalOp.val then .transcendental else Config.convOp w

/-- Whether a conversion word's format codes are defined (R36). -/
def convertOk (w : W64) : Bool :=
  match convOp w with
  | .convert src dst _ => decide (src.val < 0xE) && decide (dst.val < 0xE)
  | .transcendental => true

/-- Whether a word is a legal instruction (R182). -/
def wordLegal (w : W64) : Bool :=
  !bit w.toNat 13 && guardOk w && match wClass w with
    | .reserved => false
    | .memory _ => memoryOk w
    | .atomic _ => atomicOk w
    | .gmma => gmmaOk w
    | .convert => convertOk w
    | .fence => decide (bits w.toNat 38 36 ≤ 5) && decide (bits w.toNat 40 39 ≠ 0)
    | _ => true

/-! ## Registers of a group -/

/-- A vector register in a lane; register numbers wrap at the file's end (log entry 51). -/
def vGet (x : Group) (r l : Nat) : W32 := tget x.v (32 * (r % 64) + l)
/-- A uniform register. -/
def uGet (x : Group) (r : Nat) : W64 := tget x.u (r % 32)
/-- A predicate. -/
def pGet (x : Group) (r : Nat) : W32 := tget x.preds (r % 8)
/-- A vector register's lane written. -/
def vSet (x : Group) (r l : Nat) (v : W32) : Group :=
  { x with v := tset x.v (32 * (r % 64) + l) v, odd := x.odd.filter (fun k => k ≠ 32 * (r % 64) + l) }
/-- A uniform register written. -/
def uSet (x : Group) (r : Nat) (v : W64) : Group :=
  { x with u := tset x.u (r % 32) v, odd := x.odd.filter (fun k => k ≠ 2048 + r % 32) }

/-- The register files as lists: vector registers by 32 · register + lane, uniform registers, predicates. -/
def vFile (x : Group) : List W32 := (List.range 2048).map (fun i => tget x.v i)
/-- Uniform registers in order. -/
def uFile (x : Group) : List W64 := (List.range 32).map (fun i => tget x.u i)
/-- Predicates in order. -/
def pFile (x : Group) : List W32 := (List.range 8).map (fun i => tget x.preds i)

/-- The lanes for which a word's guard holds (Table TGC-4). -/
def guardMask (x : Group) (w : W64) : W32 :=
  let q := pGet x (bits w.toNat 10 8)
  if wGuarded w then (if bit w.toNat 12 then ~~~ q else q) else ~~~ (0 : W32)

/-- The lanes an instruction acts on (R175). -/
def actsOn (x : Group) (w : W64) : W32 := x.active &&& guardMask x w
/-- The same as a list, ascending. -/
def lanesOf (x : Group) (w : W64) : List Nat := setBits (actsOn x w).toNat 32

/-- A byte address moved by words. -/
def pcBy (pc : Nat) (off : Int) : Nat := (((pc : Int) + 8 * off) % 2 ^ 48).toNat
/-- The group at the next instruction, with nothing asked or answered. -/
def nextPc (x : Group) : Group := { x with pc := pcBy x.pc 1, asked := [], replies := [] }

/-! ## Issue and fetch -/

/-- Whether a group may issue: its kernel runs and has not begun its commit, and nothing holds the partition (R416,
R419, R210, R282). -/
def mayIssue (s : State) (g : GroupRef) : Bool :=
  let x := s.group g
  let q := s.part x.part
  x.live && !x.waiting && q.kernel.running && decide (q.kernel.stage = 0) && !q.halted && !q.refill.pending &&
    (q.state == .running || q.state == .preempting) && clocksRun s

/-- The word at a byte address of an instruction-cache line. -/
def icWord (ws : List W64) (pc : Nat) : Option W64 := ws[pc % 1024 / 8]?

/-- The word a core's instruction cache holds for an address. -/
def icLook (s : State) (g : GroupRef) (pc : Nat) : Option W64 :=
  match (tget (s.stall g.stall).cores g.core).icache.find? (fun e => e.1 = pc / 1024) with
  | none => none
  | some e => icWord e.2 pc

/-- A line enters the instruction cache, 64 lines (Table TGC-1). -/
def icFill (s : State) (g : GroupRef) (line : Nat) (ws : List W64) : State :=
  s.modStall g.stall (fun x => { x with cores := tmod x.cores g.core (fun c => { c with
    icache := ((line, ws) :: c.icache.filter (fun e => e.1 ≠ line)).take 64 }) })

/-- The words of a byte string. -/
def wordsOf (bs : List Byte) : List W64 := (List.range (bs.length / 8)).map (fun i => BitVec.ofNat 64 (field bs (8 * i) 8))

/-- What stands between a core and a line: an answer that it must wait for, or a fault. -/
inductive LineReady where
  | ready | waits | fault (status detail : Nat)
  deriving DecidableEq, Repr

/-- A line that the slice cannot supply is read whole from memory first (R268). -/
def fetchLine (s : State) (p a : Nat) (reader : BurstReader) : State × LineReady :=
  let s := lookUp s p a
  if !readsMemory s p a false || stillOut s p a wholeLine true = 0 then (s, .ready) else (askMemory s p a wholeLine reader, .waits)

/-- The home counts an instruction-cache fill (Table UCC-4). -/
def countFetch (s : State) (p : Nat) (l : L1Id) (t : Trans) : State :=
  let a := lineOfSys s t.sys
  if isRemoteLine a || isLsmLine a
    then spendRead (access s p a (.core l) (if t.kv then clsKv else clsCoreInstr) .fetch) p a else s

/-- A line of instructions as its home supplies it (R174, R268). -/
def readCode (s : State) (p sys : Nat) : State × ReadResult :=
  let a := lineOfSys s sys
  if isLsmLine a && (homeOf s p a).isSome then
    match fetchLine s p a (.insider (Fin.ofNat 64 p)) with
    | (s, .waits) => (s, .waits)
    | (s, _) => readSys s p (sys / 1024 * 1024) 1024
  else readSys s p (sys / 1024 * 1024) 1024

/-- A fetch from a line of the instruction cache whose parity is wrong drops it (Table TGC-12). -/
def checkIcache (s : State) (g : GroupRef) (pc : Nat) : State :=
  if decide (pc / 1024 ∈ (tget (s.stall g.stall).cores g.core).icacheOdd) then icacheError s (s.group g).part g.stall g.core (pc / 1024)
  else s

/-- Whether word `w` is fetched for a group: the instruction cache holds it, or its line is filled now and holds it. The
second is true where the instruction goes on. A fetch that fails translation ends the kernel. -/
def fetchWord (s : State) (g : GroupRef) (w : W64) : State × Bool :=
  let x := s.group g
  let s := checkIcache s g x.pc
  if icLook s g x.pc = some w then (s, true)
  else match translate s x.part x.pc false with
    | .error d => (kernelFault (recordFault s x.part x.pc (d % 256) 0 false) x.part Status.badAddress Detail.tgcTranslation, false)
    | .ok t => match readCode s x.part t.sys with
      | (s', .waits) => (s', false)
      | (s', .fault st d) => (kernelFault s' x.part st d, false)
      | (s', .data bs) =>
        let ws := wordsOf bs
        if icWord ws x.pc = some w then
          (icFill (countFetch s' x.part { stall := g.stall, core := g.core } t) g (x.pc / 1024) ws, true)
        else (s, false)

/-- An illegal instruction ends the kernel (R182). -/
def illegal (s : State) (g : GroupRef) : State := kernelFault s (s.group g).part Status.partitionFault Detail.tgcIllegal

/-- The registers that a word reads: its guard, and its operands by class (Tables TGC-3, TGC-5 to TGC-9). -/
def wordReads (w : W64) : List Config.Source :=
  let n := w.toNat
  let pair := fun (r k : Nat) => (List.range k).map (fun i => Config.Source.vector (r + i))
  let address := .uniform (bits n 24 20) :: (if bit n 25 then [] else [.vector (bits n 31 26)])
  (if wGuarded w then [.predicate (bits n 10 8)] else []) ++ match wClass w with
    | .control 2 => [.uniform (wA w)]
    | .vectorInt => Config.operands w
    | .vectorFloat => Config.operands w
    | .convert => Config.operands w
    | .compare => Config.operands w
    | .uniform => Config.operands w
    | .memory op => address ++ (if op = 1 then pair (wD w) ((2 ^ wSize w + 3) / 4) else [])
    | .atomic op => address ++ pair (bits n 37 32) (if wType w = 2 || wType w = 3 then (if op = 7 then 4 else 2) else if op = 7 then 2 else 1)
    | .gmma => [.vector (wA w), .vector (bits n 31 26)] ++ pair (bits n 37 32) 2
    | _ => []

/-- Whether the parity of a register is wrong. -/
def sourceOdd (x : Group) : Config.Source → Bool
  | .vector r => x.odd.any (fun k => decide (k < 2048) && k / 32 = r % 64)
  | .uniform r => x.odd.any (fun k => k = 2048 + r % 32)
  | .predicate r => x.odd.any (fun k => k = 2080 + r % 8)

/-- Whether an instruction reads a register whose parity is wrong. -/
def operandsOdd (x : Group) (w : W64) : Bool := !x.odd.isEmpty && (wordReads w).any (sourceOdd x)

/-- A word fetched is issued: an operand whose parity is wrong is found now (R293), and the instruction goes on where its group
still may. -/
def issued (s : State) (g : GroupRef) (w : W64) (act : State → State) : State :=
  if operandsOdd (s.group g) w then
    let t := registerError (s.modGroup g (fun x => { x with odd := [] })) (s.group g).part g.stall g.core
    if mayIssue t g then act t else t
  else act s

/-- An instruction of a class at a group: it acts where the group may issue, also after its fetch, the word is legal and of
the class, and it is the word fetched. -/
def issue (g : GroupRef) (w : W64) (c : OpClass) (act : State → State) (s : State) : Host.Outcome State Fault Refusal :=
  .next (if mayIssue s g && wordLegal w && decide (wClass w = c) then
    match fetchWord s g w with
    | (s, true) => if mayIssue s g then issued s g w act else s
    | (s, false) => s
  else s)

/-- An instruction that changes only its group, which then goes on; one whose kernel an error has ended is no more. -/
def stepGroup (s : State) (g : GroupRef) (f : Group → Group) : State :=
  if (s.group g).live then s.modGroup g (fun x => nextPc (f x)) else s

/-! ## Control (R180, R181) -/

/-- The stack after `resume`: where the group goes on, its lanes and what is left; none where the group ends. -/
def resumeAt (exited : W32) : List (Bool × Nat × W32) → Option (Nat × W32 × List (Bool × Nat × W32))
  | [] => none
  | (path, pc, m) :: r =>
    let a := m &&& ~~~ exited
    if a = 0 then resumeAt exited r else some (if path then pc else pcBy pc 1, a, r)

/-- `resume`: the group goes on at the top of its stack, or ends and frees its slot. -/
def resume (s : State) (g : GroupRef) : State :=
  let x := s.group g
  match resumeAt x.exited x.stack with
  | none => endGroup s g
  | some (pc, a, r) => s.modGroup g (fun x => { x with pc := pc, active := a, stack := r, asked := [], replies := [] })

/-- A push, or the fault of a full stack. -/
def pushThen (s : State) (g : GroupRef) (e : Bool × Nat × W32) (f : Group → Group) : State :=
  let x := s.group g
  if 32 ≤ x.stack.length then kernelFault s x.part Status.partitionFault Detail.tgcStackOverflow
  else s.modGroup g (fun x => f { x with stack := e :: x.stack })

/-- NOP. -/
def execCtlNop (g : GroupRef) (w : W64) (s : State) : Host.Outcome State Fault Refusal :=
  issue g w (.control 0) (fun s => stepGroup s g id) s

/-- BRA. -/
def execBra (g : GroupRef) (w : W64) (s : State) : Host.Outcome State Fault Refusal :=
  issue g w (.control 1) (fun s => s.modGroup g (fun x => { x with pc := pcBy x.pc (wOff w) })) s

/-- BRU. -/
def execBru (g : GroupRef) (w : W64) (s : State) : Host.Outcome State Fault Refusal :=
  issue g w (.control 2) (fun s =>
    s.modGroup g (fun x => { x with pc := pcBy x.pc (if uGet x (wA w) = 0 then 1 else wOff w) })) s

/-- JSET. -/
def execJset (g : GroupRef) (w : W64) (s : State) : Host.Outcome State Fault Refusal :=
  issue g w (.control 3) (fun s =>
    let x := s.group g
    pushThen s g (false, pcBy x.pc (wOff w), x.active) nextPc) s

/-- BRD: lanes that do not branch run first. -/
def execBrd (g : GroupRef) (w : W64) (s : State) : Host.Outcome State Fault Refusal :=
  issue g w (.control 4) (fun s =>
    let x := s.group g
    let t := actsOn x w
    let f := x.active &&& ~~~ guardMask x w
    if t = 0 then stepGroup s g id
    else if f = 0 then s.modGroup g (fun x => { x with pc := pcBy x.pc (wOff w) })
    else pushThen s g (true, pcBy x.pc (wOff w), t) (fun x => nextPc { x with active := f })) s

/-- Lanes leave: the rest goes on, or the group resumes. -/
def leave (s : State) (g : GroupRef) : State :=
  if (s.group g).active = 0 then resume s g else stepGroup s g id

/-- BRK. -/
def execBrk (g : GroupRef) (w : W64) (s : State) : Host.Outcome State Fault Refusal :=
  issue g w (.control 5) (fun s =>
    leave (s.modGroup g (fun x => { x with active := x.active &&& ~~~ guardMask x w })) g) s

/-- JOIN; with an empty stack it is an illegal instruction. -/
def execJoin (g : GroupRef) (w : W64) (s : State) : Host.Outcome State Fault Refusal :=
  issue g w (.control 6) (fun s => if (s.group g).stack.isEmpty then illegal s g else resume s g) s

/-- EXIT. -/
def execExit (g : GroupRef) (w : W64) (s : State) : Host.Outcome State Fault Refusal :=
  issue g w (.control 7) (fun s =>
    leave (s.modGroup g (fun x =>
      { x with exited := x.exited ||| actsOn x w, active := x.active &&& ~~~ guardMask x w })) g) s

/-! ## Vector and uniform classes -/

/-- The operands of a word in a lane. -/
def laneOperands (x : Group) (w : W64) (l : Nat) : List W64 :=
  (Config.operands w).map (fun o => match o with
    | .vector r => BitVec.ofNat 64 (vGet x r l).toNat
    | .uniform r => uGet x r
    | .predicate r => BitVec.ofNat 64 (b2n ((pGet x r).getLsbD l)))

/-- Operand `i` of a list. -/
def operandAt (xs : List W64) (i : Nat) : Nat := (xs.getD i 0).toNat

/-- The result of a floating-point instruction: exact, then rounded once to binary32, with its NaN canonical (R42, R44,
R55). -/
def floatResult (w : W64) (xs : List W64) : Nat :=
  let v := fun (i : Nat) => of32 (operandAt xs i)
  to32 (match Config.floatOp w with
    | .add => flAdd (v 0) (v 1)
    | .sub => flAdd (v 0) (flNeg (v 1))
    | .mul => flMul (v 0) (v 1)
    | .fma => flAdd (flMul (v 0) (v 1)) (v 2)
    | .other => Config.exactResult w xs)

/-- The result of a conversion in lane `l`, or of a transcendental instruction (R42 to R46, R55). The lanes that an
instruction acts on hold the block of an MX target (log entry 50). -/
def convertResult (w : W64) (x : Group) (l : Nat) : W32 :=
  let xs := laneOperands x w l
  match convOp w with
  | .transcendental => BitVec.ofNat 32 (to32 (Config.exactResult w xs))
  | .convert src dst shift =>
    let value := fun (ys : List W64) => codeValue src (operandAt ys 0) (operandAt ys 1)
    if isIntFmt dst then
      if !isIntFmt src then Config.vectorResult w xs
      else
        let n := (elemInt src (operandAt xs 0) % 2 ^ 32).toNat
        BitVec.ofNat 32 (if dst.val = 0xC then n else convInt (elemBits dst) shift n)
    else if isMx dst then
      let b := mxBlock dst ((List.range 32).map (fun k =>
        if decide (k ∈ lanesOf x w) then value (laneOperands x w k) else .zero))
      Config.mxWord w b.1 (b.2.getD l 0)
    else BitVec.ofNat 32 (flToCode dst (value xs))

/-- A vector register written in every lane the instruction acts on. -/
def vectorWrite (w : W64) (result : Nat → W32) (x : Group) : Group :=
  (lanesOf x w).foldl (fun y l => vSet y (wD w) l (result l)) x

/-- A vector integer instruction: its OPs are not given, so its result is a free function of its operands (log entry 50). -/
def execVectorInteger (g : GroupRef) (w : W64) (s : State) : Host.Outcome State Fault Refusal :=
  issue g w .vectorInt (fun s => stepGroup s g (fun x =>
    vectorWrite w (fun l => Config.vectorResult w (laneOperands x w l)) x)) s

/-- A vector floating-point instruction (R55). -/
def execVectorFloat (g : GroupRef) (w : W64) (s : State) : Host.Outcome State Fault Refusal :=
  issue g w .vectorFloat (fun s => stepGroup s g (fun x =>
    vectorWrite w (fun l => BitVec.ofNat 32 (floatResult w (laneOperands x w l))) x)) s

/-- A conversion or transcendental instruction (R42 to R46, R55). -/
def execConversion (g : GroupRef) (w : W64) (s : State) : Host.Outcome State Fault Refusal :=
  issue g w .convert (fun s => stepGroup s g (fun x => vectorWrite w (convertResult w x) x)) s

/-- A predicate with the bits of the lanes acted on replaced. -/
def compareWrite (w : W64) (x : Group) : Group :=
  let m := actsOn x w
  let r := BitVec.ofNat 32 (ofBits ((lanesOf x w).filter (fun l => Config.compareResult w (laneOperands x w l))))
  { x with preds := tset x.preds (wD w % 8) ((pGet x (wD w) &&& ~~~ m) ||| r) }

/-- A compare or predicate instruction: it writes a predicate (Table TGC-5). -/
def execCompare (g : GroupRef) (w : W64) (s : State) : Host.Outcome State Fault Refusal :=
  issue g w .compare (fun s => stepGroup s g (compareWrite w)) s

/-- A uniform register written, or a vector register by a lane move. -/
def uniformWrite (w : W64) (x : Group) : Group :=
  if Config.laneMove w then vectorWrite w (Config.laneResult w (vFile x) (uFile x) (pFile x)) x else uSet x (wD w) (Config.uniformResult w (vFile x) (uFile x) (pFile x))

/-- A uniform integer instruction or a lane move. -/
def execUniformInteger (g : GroupRef) (w : W64) (s : State) : Host.Outcome State Fault Refusal :=
  issue g w .uniform (fun s => stepGroup s g (uniformWrite w)) s

/-- SREG copies GSTAT. -/
def execSreg (g : GroupRef) (w : W64) (s : State) : Host.Outcome State Fault Refusal :=
  issue g w .sreg (fun s => stepGroup s g (fun x => uSet x (wD w) x.gstat)) s

/-- GSTAT with MMA_DIV at a value. -/
def setDiv (x : Group) (b : Bool) : Group :=
  { x with gstat := BitVec.ofNat 64 ((if b then setBit else clearBit) x.gstat.toNat gstatDiv) }

/-- CLRF clears GSTAT.MMA_DIV. -/
def execClrf (g : GroupRef) (w : W64) (s : State) : Host.Outcome State Fault Refusal :=
  issue g w .clrf (fun s => stepGroup s g (fun x => setDiv x false)) s

/-! ## FENCE and BAR -/

/-- A group's store leaves for a target that is to acknowledge it (R194). -/
def noteStore (s : State) (g : GroupRef) (target address : Nat) : State :=
  let x := s.group g
  s.modPart x.part (fun q => { q with stores := q.stores ++
    [{ group := groupKey g.stall g.core g.slot, index := x.index, target := target, address := address }] })

/-- Whether a release waits (Table TGC-8): every access takes place as its instruction does, but for a store that bypasses
the L1, which is performed when the companion site or the host acknowledges it. GROUP scope waits for nothing. -/
def releaseWaits (s : State) (g : GroupRef) (scope order : Nat) : Bool :=
  let x := s.group g
  decide (2 ≤ order) && scope ≠ 0 &&
    (s.part x.part).stores.any (fun e => e.group = groupKey g.stall g.core g.slot && e.index = x.index)

/-- FENCE (R194, R195). -/
def execFence (g : GroupRef) (w : W64) (s : State) : Host.Outcome State Fault Refusal :=
  issue g w .fence (fun s =>
    if releaseWaits s g (bits w.toNat 38 36) (bits w.toNat 40 39) then s else stepGroup s g id) s

/-- Groups of a core that leave a barrier. -/
def leaveBarrier (s : State) (g : GroupRef) (slots : List Nat) : State :=
  { s with groups := s.groups.map (fun (e : Nat × Group) =>
      if slots.any (fun k => e.1 = groupKey g.stall g.core k) then (e.1, nextPc { e.2 with waiting := false }) else e) }

/-- A barrier of a core set. -/
def setBarrier (s : State) (g : GroupRef) (b : Nat) (v : Nat × List Nat) : State :=
  s.modStall g.stall (fun x => { x with cores := tmod x.cores g.core (fun c => { c with barriers := tset c.barriers b v }) })

/-- BAR (R196): a count that differs from that of the groups already waiting ends the kernel. -/
def execBar (g : GroupRef) (w : W64) (s : State) : Host.Outcome State Fault Refusal :=
  issue g w .bar (fun s =>
    let b := bits w.toNat 23 20
    let n := bits w.toNat 29 24 + 1
    let old := tget (tget (s.stall g.stall).cores g.core).barriers b
    let slots := old.2 ++ [g.slot.val]
    if releaseWaits s g 1 3 then s
    else if !old.2.isEmpty && (old.1 ≠ n || decide (n < slots.length)) then
      kernelFault s (s.group g).part Status.partitionFault Detail.tgcBarrier
    else if slots.length = n then leaveBarrier (setBarrier s g b (0, [])) g slots
    else (setBarrier s g b (n, slots)).modGroup g (fun x => { x with waiting := true })) s

/-! ## GMMA (R197 to R199) -/

/-- An operand element of a GMMA: zero where its lane is absent. -/
def gmmaElem (x : Group) (m : Nat) (fmt r : Nat) (hi : Bool) (lane h : Nat) : Fl :=
  if !bit m lane then .zero
  else
    let v := (vGet x r lane).toNat
    if fmt = 1 then flDecode fmtBf16 (bits v (16 * h + 15) (16 * h))
    else let k := h + 2 * b2n hi; flDecode (elemFmt fmt) (bits v (8 * k + 7) (8 * k))

/-- D[i][j] of a GMMA over the lanes present. -/
def gmmaOut (x : Group) (w : W64) (m i j : Nat) : Nat :=
  let n := w.toNat
  let a := fun (k : Nat) => gmmaElem x m (bits n 41 38) (wA w) (bit n 46) (4 * i + k / 2) (k % 2)
  let b := fun (k : Nat) => gmmaElem x m (bits n 45 42) (bits n 31 26) (bit n 47) (4 * j + k / 2) (k % 2)
  let c := (vGet x (bits n 37 32 + j / 4) (4 * i + j % 4)).toNat
  chainAdd c (groupSum ((List.range 8).map (fun k => flMul (a k) (b k))) 0)

/-- A group after a GMMA: every D element of a lane present is written, and an absent lane sets MMA_DIV. -/
def gmmaWrite (w : W64) (x : Group) : Group :=
  let m := (actsOn x w).toNat
  let y := ((List.range 8).flatMap (fun i => (List.range 8).map (fun j => (i, j)))).foldl (fun y ij =>
    let l := 4 * ij.1 + ij.2 % 4
    if bit m l then vSet y (wD w + ij.2 / 4) l (BitVec.ofNat 32 (gmmaOut x w m ij.1 ij.2)) else y) x
  if m = 2 ^ 32 - 1 then y else setDiv y true

/-- GMMA. -/
def execGmma (g : GroupRef) (w : W64) (s : State) : Host.Outcome State Fault Refusal :=
  issue g w .gmma (fun s => stepGroup s g (gmmaWrite w)) s

/-! ## Illegal words -/

/-- ILLEGAL_INSTRUCTION (R182): an illegal word that is fetched ends the kernel with TGC_ILLEGAL. -/
def execIllegalInstruction (g : GroupRef) (w : W64) (s : State) : Host.Outcome State Fault Refusal :=
  .next (if mayIssue s g && !wordLegal w then
    match fetchWord s g w with
    | (s, true) => if mayIssue s g then illegal s g else s
    | (s, false) => s
  else s)

end Sys2Proof.Machine
end

