-- ==== Sys2Proof/Machine/CoreMemory.lean ====
section
/-! DEFINITION. Memory and atomic instructions of the cores (R183 to R194, R206, R207). An instruction acts once every
line it needs can be had: until then its event asks for what is missing and leaves the group where it stands. -/

namespace Sys2Proof.Machine

/-! ## Addresses (R183, R184) -/

/-- One lane's access: its lane, its translation and its length in bytes. -/
structure LaneAccess where
  lane : Nat
  va : Nat
  trans : Trans
  bytes : Nat
  deriving DecidableEq, Repr

/-- The address of a lane from UBASE, VOFF and a signed offset (R183). -/
def laneVa (x : Group) (w : W64) (imm : Int) (l : Nat) : Nat :=
  let v : Int := if bit w.toNat 25 then 0 else ((vGet x (bits w.toNat 31 26) l).toNat : Int)
  ((((uGet x (bits w.toNat 24 20)).toNat : Int) + v + imm) % 2 ^ 48).toNat

/-- The L1 of a group's core. -/
def l1OfGroup (g : GroupRef) : L1Id := { stall := g.stall, core := g.core }

/-- Whether a place is in stacked memory, local or remote (R188). -/
def inMemory (s : State) (sys : Nat) : Bool := let a := lineOfSys s sys; isRemoteLine a || isLsmLine a

/-- The lanes' accesses in ascending order, or the state after the fault of the first lane that has one: a misaligned
address, one that fails translation (R184), or, of an instruction that acts on memory alone, one outside it (R189, R190). -/
def laneAccesses (s : State) (p : Nat) (n align misDetail : Nat) (write memory : Bool) :
    List (Nat × Nat) → Except State (List LaneAccess)
  | [] => .ok []
  | (l, va) :: r =>
    if va % align ≠ 0 then .error (kernelFault s p Status.partitionFault misDetail)
    else match translate s p va write with
      | .error d => .error (kernelFault (recordFault s p va (d % 256) 0 write) p Status.badAddress Detail.tgcTranslation)
      | .ok t =>
        if memory && !inMemory s t.sys then .error (kernelFault s p Status.badAddress Detail.tgcAtomicRange)
        else match laneAccesses s p n align misDetail write memory r with
        | .error s => .error s
        | .ok as => .ok ({ lane := l, va := va, trans := t, bytes := n } :: as)

/-- The line of an access. -/
def accessLine (s : State) (x : LaneAccess) : Nat := lineOfSys s x.trans.sys
/-- Whether an access is to stacked memory, local or remote (R188). -/
def toMemory (s : State) (x : LaneAccess) : Bool := inMemory s x.trans.sys
/-- The lines of memory that the accesses touch, by the lowest lane that touches each (R185). -/
def accessLines (s : State) (as : List LaneAccess) : List Nat := ((as.filter (toMemory s)).map (accessLine s)).eraseDups

/-- The tally class of a line's accesses (Table UCC-4). -/
def coreClass (s : State) (as : List LaneAccess) (a : Nat) : Nat :=
  if as.any (fun x => accessLine s x = a && x.trans.kv) then clsKv else clsCoreData

/-! ## Lines into the L1 -/

/-- Readies a line for one request of an L1 (R218, R229, R233, R268): a remote copy is fetched first, a line with a
transaction in progress is waited for, a line the host holds is claimed by a request of its own, and one that the slice
lacks is read from memory. -/
def prepLine (s : State) (p : Nat) (l : L1Id) (a : Nat) (write : Bool) : State × LineReady :=
  let x := (s.l1Line l a).state
  if x != .i && (s.l1Line l a).bad then (l1Error s p l a, .waits)
  else if x == .m || x == .e || (!write && x == .s) then (s, .ready)
  else if (homeOf s p a).isNone then (s, .fault Status.partitionFault Detail.uccNoHome)
  else if isRemoteLine a && !hasRoute s p (lineDevice a) then (s, .fault Status.badAddress Detail.zlkNoRoute)
  else if isRemoteLine a && (s.line p a).base.isEmpty then (askRemote s p a, .waits)
  else if !lineQuiet s p a then (s, .waits)
  else if write && (s.line p a).host then (arrive s p a (if x == .s then .upg l else .rdU l), .waits)
  else if x == .i then fetchLine s p a (.insider (Fin.ofNat 64 p))
  else (s, .ready)

/-- Readies every line; the first fault counts. -/
def prepLines (s : State) (p : Nat) (l : L1Id) (write : Bool) (as : List Nat) : State × LineReady :=
  as.foldl (fun r a => match r.2 with
    | .fault _ _ => r
    | k => match prepLine r.1 p l a write with
      | (s, .ready) => (s, k)
      | y => y) (s, .ready)

/-- A line enters the least recently used position (CACHE = STREAM, R188). -/
def l1Last (s : State) (l : L1Id) (a : Nat) : State :=
  { s with l1s := tmod s.l1s (l1Key l) (fun t => tdel t a ++ [(a, tget t a)]) }

/-- A line that the L1 lacks is read from its home for S, or for E where nobody else holds it (R218). -/
def loadLine (s : State) (p : Nat) (l : L1Id) (cls : Nat) (stream : Bool) (a : Nat) : State :=
  if (s.l1Line l a).state == .i then
    let s := access s p a (.core l) cls .slice
    let s := downOwner (deadRead s p a (.core l)) p a
    let n := s.line p a
    let e := n.filter.all (fun f => f.l1 = l) && !n.host && n.state != .discardStaged && !isRemoteLine a
    let s := l1Put (enter s p a l e) p l a (if e then .e else .s)
    if stream then l1Last s l a else s
  else s.modL1 l a id

/-- A line that takes a core's bytes (R207, R218, R225, R227): the L1 owns it, it is staged, and under STRICT a full
staging ends the kernel. The second is false where the kernel has ended. -/
def storeLine (s : State) (p : Nat) (l : L1Id) (cls : Nat) (stream : Bool) (a : Nat) (cells : List Host.Cell) : State × Bool :=
  let st := (s.l1Line l a).state
  let own := st == .m || st == .e
  let s := if own then s
    else dropL1s (access s p a (.core l) cls (if st == .s then .fetch else .slice)) p a true (fun m => m = l)
  let free := isStagedLine (s.line p a) && (s.line p a).state == .staged || (st == .m && (s.part p).kernel.nonrepl)
  let home := fun (s : State) =>
    (s.modLine p a (fun n => { n with data := olay n.data (s.l1Line l a).data })).modL1 l a (fun x => { x with data := [] })
  match if free then StageResult.staged else stageCheck s p a with
  | .full => (kernelFault s p Status.partitionFault Detail.tgcStagingFull, false)
  | r =>
    let s := if free then s else if r == .staged then markStaged (home s) p a else markNonrepl s p
    let s := if own then unDead s p a
      else let s := l1Put (enter (unDead s p a) p a l true) p l a .m
           if stream then l1Last s l a else s
    let s := if isStagedLine (s.line p a) then s else noteTables s p a cells
    (s.modL1 l a (fun x => { x with state := .m, data := olay x.data cells }), true)

/-! ## LD -/

/-- A register's bytes from an access (R183): sign-extended for a SIGNED access of 1 or 2 bytes. -/
def loadValue (w : W64) (bs : List Byte) (k : Nat) : W32 :=
  let v := field bs (4 * k) 4
  let n := 8 * bs.length
  if bit w.toNat 35 && decide (wSize w ≤ 1) && bit v (n - 1) then BitVec.ofNat 32 (v + (2 ^ 32 - 2 ^ n)) else BitVec.ofNat 32 v

/-- A group with a lane's loaded bytes in D and the registers after it. -/
def loadInto (w : W64) (x : Group) (l : Nat) (bs : List Byte) : Group :=
  (List.range ((bs.length + 3) / 4)).foldl (fun x k => vSet x (wD w + k) l (loadValue w bs k)) x

/-- What every access reads in one state. -/
def readAll (s : State) (p : Nat) (as : List LaneAccess) : List (LaneAccess × State × ReadResult) :=
  as.map (fun x => (x, readSys s p x.trans.sys x.bytes))

/-- The first fault of a list of reads. -/
def readFault (rs : List (LaneAccess × State × ReadResult)) : Option (Nat × Nat) :=
  rs.findSome? (fun r => match r.2.2 with | .fault st d => some (st, d) | _ => none)

/-- Asks for what the reads still wait for. -/
def askReads (s : State) (p : Nat) (as : List LaneAccess) : State :=
  as.foldl (fun s x => match readSys s p x.trans.sys x.bytes with
    | (s', .waits) => s'
    | _ => s) s

/-- Host cachelines and companion cachelines that the reads took are taken off once. -/
def takeReads (s : State) (rs : List (LaneAccess × State × ReadResult)) : State :=
  { s with
    hostFetch := s.hostFetch.filter (fun h => rs.all (fun r => decide (h ∈ r.2.1.hostFetch)))
    sites := s.sites.map (fun (e : Nat × Site) =>
      (e.1, { e.2 with data := e.2.data.filter (fun d => rs.all (fun r => decide (d ∈ (r.2.1.site e.1).data))) })) }

/-- Accesses to the host window are counted at the lines' homes (Table UCC-4). -/
def countHost (s : State) (p : Nat) (as : List LaneAccess) : State :=
  (((as.filter (fun x => isHostLine (accessLine s x) && decide (linePhys (accessLine s x) < compBase))).map (accessLine s)).eraseDups).foldl
    (fun s a => let s' := tallyAdd s p clsHostIo 0
                if (s.line p a).state == .staged then tallyAdd s' p clsHostIo 1 else s') s

/-- The scratchpad bytes that the accesses read are checked (Table CHK-2). -/
def checkSpads (s : State) (p : Nat) (as : List LaneAccess) : State :=
  (as.filter (fun x => x.trans.sys / 2 ^ 44 = ownNumber s)).foldl (fun s x => checkSpadAt s p (x.trans.sys % 2 ^ 44) x.bytes) s

/-- The loads of one instruction once its accesses are known. -/
def loadAll (s : State) (g : GroupRef) (w : W64) (as : List LaneAccess) : State :=
  let p := (s.group g).part
  let l := l1OfGroup g
  match prepLines (checkSpads s p as) p l false (accessLines s as) with
  | (s, .fault st d) => kernelFault s p st d
  | (s, k) =>
    if !mayIssue s g then s else
    let rs := readAll s p as
    match readFault rs with
    | some (st, d) => kernelFault s p st d
    | none =>
      if k == .waits || rs.any (fun r => r.2.2 == .waits) then askReads s p as
      else
        let s := countHost (takeReads s rs) p as
        let s := (accessLines s as).foldl (fun s a => loadLine s p l (coreClass s as a) (bits w.toNat 42 41 = 1) a) s
        stepGroup s g (fun x => rs.foldl (fun x r => match r.2.2 with
          | .data bs => loadInto w x r.1.lane bs
          | _ => x) x)

/-- The lanes and addresses of a memory instruction. -/
def memoryVas (x : Group) (w : W64) : List (Nat × Nat) := (lanesOf x w).map (fun l => (l, laneVa x w (wSigned w 63 43) l))

/-- LD (R183 to R188). -/
def execLd (g : GroupRef) (w : W64) (s : State) : Host.Outcome State Fault Refusal :=
  issue g w (.memory 0) (fun s =>
    let x := s.group g
    let n := 2 ^ wSize w
    match laneAccesses s x.part n n Detail.tgcMisaligned false false (memoryVas x w) with
    | .error s => s
    | .ok as => loadAll s g w as) s

/-! ## ST -/

/-- The bytes a lane stores, from D on. -/
def storeBytes (x : Group) (w : W64) (l : Nat) : List Byte :=
  let n := 2 ^ wSize w
  ((List.range ((n + 3) / 4)).flatMap (fun k => natLe 4 (vGet x (wD w + k) l).toNat)).take n

/-- The bytes stored to a line, later lanes last (R186). -/
def lineStores (s : State) (x : Group) (w : W64) (as : List LaneAccess) (a : Nat) : List Host.Cell :=
  (as.filter (fun y => accessLine s y = a)).flatMap (fun y => cellsAt (y.trans.sys % 1024) (storeBytes x w y.lane))

/-- A line of the host window written by a group (R230): staged, or sent at once where STANDARD finds staging full, and then
performed when the host has taken it (R194). -/
def storeHost (s : State) (p : Nat) (g : GroupRef) (a : Nat) (cells : List Host.Cell) : State × Bool :=
  match stageCheck s p a with
  | .full => (kernelFault s p Status.partitionFault Detail.tgcStagingFull, false)
  | .staged => (writeUnit s p a cells, true)
  | .through =>
    let old := s.hostCommit.length
    let s := sendHost ((markNonrepl s p).modLine p a (fun n => { n with data := olay [] cells })) p a
    let s := (s.hostCommit.drop old).foldl (fun s h => noteStore s g 2 h.2) s
    (s.modLine p a (fun n => { n with data := [] }), true)

/-- A line's stores that bypass the L1, as one access (R185): to a scratchpad at once, or to a companion site, which
acknowledges them. -/
def storeDirect (s : State) (p : Nat) (g : GroupRef) (a : Nat) (cells : List Host.Cell) : State :=
  match regionOf (linePhys a) with
  | .spad i o => cells.foldl (fun s c => spadPut s i (o + c.1) [c.2]) s
  | .companion i o => noteStore ((s.modSite i (fun x => { x with pending := x.pending ++ [(p, o, true)] })).emit
      (.companionStore i (compBase + i * compBytes + o) (olay [] cells))) g i o
  | _ => s

/-- The lines that an instruction stores to, in order, each by its own way; it stops where the kernel has ended. -/
def storeLines (s : State) (p : Nat) (g : GroupRef) (x : Group) (w : W64) (as : List LaneAccess) : List Nat → State × Bool
  | [] => (s, true)
  | a :: r =>
    let cells := lineStores s x w as a
    let res :=
      if isRemoteLine a || isLsmLine a then
        storeLine s p (l1OfGroup g) (coreClass s as a) (bits w.toNat 42 41 = 1) a cells
      else if isHostLine a && decide (linePhys a < compBase) then storeHost s p g a cells
      else (storeDirect s p g a cells, true)
    match res with
    | (s, true) => storeLines s p g x w as r
    | (s, false) => (s, false)

/-- Why a store cannot take place where it points, if it cannot: no window entry (R375), the held image (R164), or a site
that is down (R540). -/
def storeBad (s : State) (p : Nat) (y : LaneAccess) : Option (Nat × Nat) :=
  let a := y.trans.sys % 2 ^ 44
  if y.trans.sys / 2 ^ 44 ≠ ownNumber s then none
  else match regionOf a with
    | .lsm => if inHeldImage s a then some (Status.badAddress, Detail.planHeld) else none
    | .host o => if (List.range y.bytes).any (fun i => (hwinLookup s p (o + i)).isNone) then some (Status.badAddress, Detail.hstHwinMiss) else none
    | .companion i _ => if (s.site i).state ≠ 1 then some (Status.badAddress, Detail.ptnPteRange) else none
    | _ => none

/-- The stores of one instruction once its accesses are known. -/
def storeAll (s : State) (g : GroupRef) (w : W64) (as : List LaneAccess) : State :=
  let x := s.group g
  match as.findSome? (storeBad s x.part) with
  | some (st, d) => kernelFault s x.part st d
  | none => match prepLines s x.part (l1OfGroup g) true (accessLines s as) with
    | (s, .fault st d) => kernelFault s x.part st d
    | (s, .waits) => s
    | (s, .ready) =>
      if !mayIssue s g then s else
      match storeLines (countHost s x.part as) x.part g x w as ((as.map (accessLine s)).eraseDups) with
      | (s, true) => stepGroup s g id
      | (s, false) => s

/-- ST (R183 to R188, R206, R207). -/
def execSt (g : GroupRef) (w : W64) (s : State) : Host.Outcome State Fault Refusal :=
  issue g w (.memory 1) (fun s =>
    let x := s.group g
    let n := 2 ^ wSize w
    if releaseWaits s g (bits w.toNat 38 36) (bits w.toNat 40 39) then s
    else match laneAccesses s x.part n n Detail.tgcMisaligned true false (memoryVas x w) with
      | .error s => s
      | .ok as => storeAll s g w as) s

/-! ## PREF and DISCARD (R189) -/

/-- The line requests of PREF and DISCARD, or the fault of the first lane off a line base or outside memory. -/
def lineAccesses (s : State) (g : GroupRef) (w : W64) : Except State (List LaneAccess) :=
  let x := s.group g
  laneAccesses s x.part 1024 1024 Detail.tgcMisaligned false true (memoryVas x w)

/-- PREF: each line that the L1 lacks is asked for. -/
def execPref (g : GroupRef) (w : W64) (s : State) : Host.Outcome State Fault Refusal :=
  issue g w (.memory 2) (fun s => match lineAccesses s g w with
    | .error s => s
    | .ok as =>
      let l := l1OfGroup g
      stepGroup ((accessLines s as).foldl (fun s a =>
        if (s.l1Line l a).state == .i then arrive s (s.group g).part a (.rdS l) else s) s) g id) s

/-- A discard of one line performed at its home (R231). -/
def discardNow (s : State) (p : Nat) (l : L1Id) (a : Nat) : State :=
  let s := access s p a (.core l) clsCoreData .none
  finishDisc (dropL1s s p a false (fun _ => false)) p a

/-- Whether a line is free for a discard; one that the host holds is claimed by the DISC itself. -/
def prepDiscard (s : State) (g : GroupRef) (a : Nat) : State × LineReady :=
  let x := s.group g
  if (homeOf s x.part a).isNone then (s, .fault Status.partitionFault Detail.uccNoHome)
  else if !lineQuiet s x.part a then (s, .waits)
  else if decide (a ∈ x.asked) || !(s.line x.part a).host then (s, .ready)
  else ((arrive s x.part a (.disc (.core (l1OfGroup g)))).modGroup g (fun x => { x with asked := a :: x.asked }), .waits)

/-- DISCARD: each line is dropped as DISC gives. -/
def execDiscard (g : GroupRef) (w : W64) (s : State) : Host.Outcome State Fault Refusal :=
  issue g w (.memory 3) (fun s => match lineAccesses s g w with
    | .error s => s
    | .ok as =>
      let p := (s.group g).part
      let lines := accessLines s as
      match lines.foldl (fun r a => match r.2 with
        | .fault _ _ => r
        | k => match prepDiscard r.1 g a with
          | (s, .ready) => (s, k)
          | y => y) (s, LineReady.ready) with
      | (s, .fault st d) => kernelFault s p st d
      | (s, .waits) => s
      | (s, .ready) =>
        let asked := (s.group g).asked
        stepGroup ((lines.filter (fun a => !decide (a ∈ asked))).foldl (fun s a => discardNow s p (l1OfGroup g) a) s) g id) s

/-! ## Atomics (R190 to R193) -/

/-- The type of an atomic word. -/
def atomTypeOf (n : Nat) : AtomType := match n with | 0 => .u32 | 1 => .s32 | 2 => .u64 | 3 => .s64 | _ => .f32

/-- S of an atomic word. -/
def wS (w : W64) : Nat := bits w.toNat 37 32

/-- A register pair as a 64-bit value, or one register. -/
def operandOf (x : Group) (r l n : Nat) : W64 :=
  BitVec.ofNat 64 ((vGet x r l).toNat + (if n = 8 then 2 ^ 32 * (vGet x (r + 1) l).toNat else 0))

/-- One lane of an atomic request (Table TGC-7): CAS compares with S and stores what follows it. -/
def atomLaneOf (x : Group) (w : W64) (op : AtomOp) (n : Nat) (y : LaneAccess) : AtomLane :=
  { lane := Fin.ofNat 32 y.lane, offset := Fin.ofNat 1024 (y.trans.sys % 1024)
    operand := operandOf x (if op == .cas then wS w + n / 4 else wS w) y.lane n, compare := operandOf x (wS w) y.lane n }

/-- The request of one line, its sequence number made of the group index and the request's ordinal (R191, R193). -/
def atomRequestOf (s : State) (g : GroupRef) (w : W64) (op : AtomOp) (as : List LaneAccess) (a k : Nat) : AtomRequest :=
  let x := s.group g
  let t := atomTypeOf (wType w)
  { home := Fin.ofNat 64 ((homeOf s x.part a).getD 0), line := BitVec.ofNat 47 a, op := op, type := t
    lanes := (as.filter (fun y => accessLine s y = a)).map (atomLaneOf x w op (atomBits t / 8))
    agent := .core (l1OfGroup g), srcDevice := BitVec.ofNat 12 (ownNumber s), srcPartition := Fin.ofNat 64 x.part
    unit := BitVec.ofNat 31 (unitOf s x.part).2.1, kernel := true
    seq := BitVec.ofNat 64 (x.index + 2 ^ 24 * (x.ordinal + k)) }

/-- The OPERAND field of an atomic item: opcode, type and order in the places of Table TGC-7 (Table ZLK-4). -/
def atomOperand (w : W64) : W64 :=
  BitVec.ofNat 64 (pack [(0, 8, wOp w), (38, 3, wType w), (44, 2, bits w.toNat 45 44)])

/-- The item of one line's request to another device (R328). -/
def atomItem (s : State) (w : W64) (r : AtomRequest) (a : Nat) : Item :=
  { srcDevice := r.srcDevice, dstDevice := BitVec.ofNat 12 (lineDevice a), srcPartition := r.srcPartition
    attempt := Fin.ofNat 4 (unitOf s r.srcPartition).2.2, kernel := r.kernel, unit := r.unit, seq := r.seq
    address := BitVec.ofNat 44 (linePhys a), operand := atomOperand w
    byteCount := 0, lanes := r.lanes, data := [] }

/-- The answer to one line's request, if it is here. -/
def replyOf (x : Group) (a : Nat) : Option (List Host.Cell) := (x.replies.find? (fun r => r.1 = a)).map (fun r => r.2)

/-- A group that notes an answer. -/
def noteReply (s : State) (g : GroupRef) (a : Nat) (cells : List Host.Cell) : State :=
  s.modGroup g (fun x => { x with asked := a :: x.asked, replies := x.replies ++ [(a, cells)] })

/-- A core's request that goes to a home to wait there: its slot and line are noted. -/
def noteAsked (s : State) (g : GroupRef) (a : Nat) : State :=
  (s.modGroup g (fun x => { x with asked := a :: x.asked })).modStall g.stall (fun x => { x with
    cores := tmod x.cores g.core (fun c => { c with asked := c.asked ++ [(g.slot.val, a)] }) })

/-- One line's request leaves: to another device as an item, to a free home at once, or to a home where it waits. The
second is false where the kernel or the job has ended. -/
def atomSend (s : State) (g : GroupRef) (w : W64) (r : AtomRequest) (a : Nat) : State × Bool :=
  let p := (s.group g).part
  if decide (a ∈ (s.group g).asked) then (s, true)
  else if isRemoteLine a then
    if hasRoute s p (lineDevice a) then
      ((queueItem s 4 (atomItem s w r a)).modGroup g (fun x => { x with asked := a :: x.asked }), true)
    else (kernelFault s p Status.badAddress Detail.zlkNoRoute, false)
  else if (homeOf s p a).isNone then (kernelFault s p Status.partitionFault Detail.uccNoHome, false)
  else if lineQuiet s p a && !(s.line p a).host then
    match fetchLine s p a (.insider (Fin.ofNat 64 p)) with
    | (s, .ready) =>
      if !mayIssue s g then (s, false) else
      let s := dropL1s (access s p a r.agent clsCoreData .fetch) p a true (fun _ => false)
      match performAtom s p a r with
      | (s, none) => (s, false)
      | (s, some vs) => (noteReply (spendRead s p a) g a (atomCells vs), true)
    | (s, _) => (s, true)
  else (arrive (noteAsked s g a) p a (.atom r), true)

/-- Every line's request leaves in order (R185, R187). -/
def atomSends (g : GroupRef) (w : W64) (op : AtomOp) (as : List LaneAccess) : List Nat → Nat → State → State × Bool
  | [], _, s => (s, true)
  | a :: r, k, s => match atomSend s g w (atomRequestOf s g w op as a k) a with
    | (s, true) => atomSends g w op as r (k + 1) s
    | (s, false) => (s, false)

/-- A lane's old value written to D (Table TGC-7). -/
def atomInto (w : W64) (n : Nat) (x : Group) (l v : Nat) : Group :=
  let x := vSet x (wD w) l (BitVec.ofNat 32 v)
  if n = 8 then vSet x (wD w + 1) l (BitVec.ofNat 32 (v / 2 ^ 32)) else x

/-- The group after an atomic whose every line has answered. -/
def atomDone (s : State) (w : W64) (n : Nat) (as : List LaneAccess) (lines : Nat) (x : Group) : Group :=
  let y := if bit w.toNat 46 then x else as.foldl (fun y c => match replyOf x (accessLine s c) with
    | none => y
    | some cs => atomInto w n y c.lane (leNat ((List.range 8).map (fun i => (oget cs (8 * c.lane + i)).getD 0)))) x
  { y with ordinal := y.ordinal + lines }

/-- An atomic instruction (R190 to R194). -/
def coreAtomic (g : GroupRef) (w : W64) (op : AtomOp) (s : State) : State :=
  let x := s.group g
  let n := atomBits (atomTypeOf (wType w)) / 8
  if releaseWaits s g (bits w.toNat 43 41) (bits w.toNat 45 44) then s
  else match laneAccesses s x.part n n Detail.tgcMisaligned true true ((lanesOf x w).map (fun l => (l, laneVa x w (wSigned w 63 47) l))) with
    | .error s => s
    | .ok as =>
      match as.findSome? (storeBad s x.part) with
        | some (st, d) => kernelFault s x.part st d
        | none =>
          let lines := accessLines s as
          match atomSends g w op as lines 0 s with
          | (s, false) => s
          | (s, true) =>
            if lines.all (fun a => (replyOf (s.group g) a).isSome) then stepGroup s g (atomDone s w n as lines.length) else s

/-- ATOMIC_ADD (R192). -/
def execAtomicAdd (g : GroupRef) (w : W64) (s : State) : Host.Outcome State Fault Refusal :=
  issue g w (.atomic 0) (coreAtomic g w .add) s
/-- ATOMIC_MIN (R192). -/
def execAtomicMin (g : GroupRef) (w : W64) (s : State) : Host.Outcome State Fault Refusal :=
  issue g w (.atomic 1) (coreAtomic g w .min) s
/-- ATOMIC_MAX (R192). -/
def execAtomicMax (g : GroupRef) (w : W64) (s : State) : Host.Outcome State Fault Refusal :=
  issue g w (.atomic 2) (coreAtomic g w .max) s
/-- ATOMIC_AND (R192). -/
def execAtomicAnd (g : GroupRef) (w : W64) (s : State) : Host.Outcome State Fault Refusal :=
  issue g w (.atomic 3) (coreAtomic g w .and) s
/-- ATOMIC_OR (R192). -/
def execAtomicOr (g : GroupRef) (w : W64) (s : State) : Host.Outcome State Fault Refusal :=
  issue g w (.atomic 4) (coreAtomic g w .or) s
/-- ATOMIC_XOR (R192). -/
def execAtomicXor (g : GroupRef) (w : W64) (s : State) : Host.Outcome State Fault Refusal :=
  issue g w (.atomic 5) (coreAtomic g w .xor) s
/-- ATOMIC_EXCH (R192). -/
def execAtomicExch (g : GroupRef) (w : W64) (s : State) : Host.Outcome State Fault Refusal :=
  issue g w (.atomic 6) (coreAtomic g w .exch) s
/-- ATOMIC_CAS (R192). -/
def execAtomicCas (g : GroupRef) (w : W64) (s : State) : Host.Outcome State Fault Refusal :=
  issue g w (.atomic 7) (coreAtomic g w .cas) s

end Sys2Proof.Machine
end

