-- ==== Sys2Proof/Machine/LinkPorts.lean ====
section
/-! DEFINITION. Zuloilo ports (R321 to R327): training, frames sent and received, acknowledgement and loss, ports that
leave UP (R350), LINK_CONFIG, LINK_STATUS and the numbering of a group (R330 to R332). Symbols and items that a frame
carries arrive as commands of their own (log entry 61). -/

namespace Sys2Proof.Machine

/-- The partition that a port is granted to. -/
def portOwner (s : State) (j : Nat) : Option Nat := (partsOf s).find? (fun p => bit (s.part p).record.zlPorts j)

/-- A port failure is reported to the partition that holds the port, or to PF0 (log entry 62). -/
def portEvent (s : State) (j status detail : Nat) : State :=
  match portOwner s j with
  | some p => partEvent s p srcFault status detail
  | none => postEvent s 0 srcFault status detail s.devTime

/-- A symbol is queued at a port whatever its state. -/
def pushSymbol (s : State) (j : Nat) (v : W64) : State := s.modPort j (fun x => { x with sendSymbols := x.sendSymbols ++ [v] })

/-! ## Units whose frames are lost (R327, R343) -/

/-- Whether a unit of the own device is still in progress with its COMMIT not sent: unit number and partition match. -/
def unitOpen (s : State) (p unit : Nat) : Bool :=
  unitRuns s p && decide ((unitOf s p).2.1 = unit) && decide ((s.part p).epoch.stage = 0) && decide ((s.part p).kernel.stage = 0)

/-- The COMMIT of a partition's unit in progress. -/
def unitCommit (s : State) (p : Nat) : W64 :=
  let (_, u, t) := unitOf s p
  unitSymbol 0x09 (ownNumber s) p u t

/-- Whether a unit's commit is pending and its COMMIT still waits at every port that is UP (R343). -/
def commitWaits (s : State) (p unit : Nat) : Bool :=
  unitRuns s p && decide ((unitOf s p).2.1 = unit) && (decide ((s.part p).epoch.stage = 1) || decide ((s.part p).kernel.stage = 1)) &&
    !(upPorts s).isEmpty && (upPorts s).all (fun j => decide (unitCommit s p ∈ (s.port j).sendSymbols))

/-- A COMMIT that has not left is withdrawn and its unit replays (R343): a kernel at its next launch commit, an epoch at its
bell, with REPLAY to the members where it is LINKED. -/
def recallCommit (s : State) (p : Nat) : State :=
  let v := unitCommit s p
  let (k, u, t) := unitOf s p
  let s := (upPorts s).foldl (fun s j => s.modPort j (fun x => { x with sendSymbols := x.sendSymbols.erase v })) s
  let s := if unitNonrepl s p then contained s p Status.partitionFault Detail.zlkFrame none else markError s p Detail.zlkFrame none
  if !(s.part p).job.running then s
  else
    let s := s.modPart p (fun q => { q with chk := { q.chk with pending := false } })
    if k then s.modPart p (fun q => { q with kernel := { q.kernel with stage := 0 } })
    else if epochLinked s p then
      (flood s (unitSymbol 0x0A (ownNumber s) p u t) none).modPart p (fun q => { q with zlk := { q.zlk with
        votes := (ownNumber s, p, false) :: q.zlk.votes.filter (fun x => !(x.1 = ownNumber s && x.2.1 = p)) } })
    else s

/-- UNIT_ERROR at the device of the unit (R343): the unit is marked ERROR, or its COMMIT has left and the job ends. -/
def unitErrorAt (s : State) (p unit : Nat) : State :=
  if unitOpen s p unit then unitError s p Detail.zlkFrame none
  else if commitWaits s p unit then recallCommit s p
  else if (s.part p).job.running && isLinked s p then
    endJob (flood s (unitSymbol 0x0C (ownNumber s) p unit 0) none) p Status.partitionFault Detail.zlkLateLoss none
  else s

/-- UNIT_ERROR goes toward the device of a unit. -/
def sendUnitError (s : State) (u : Nat × Nat × Nat) : State :=
  if u.1 = ownNumber s then unitErrorAt s u.2.1 u.2.2
  else sendRouted s u.1 (BitVec.ofNat 64 (pack [(0, 8, 0x0D), (8, 12, u.1), (20, 6, u.2.1), (26, 31, u.2.2)]))

/-- A frame counts as lost at its sender. -/
def frameLost (s : State) (f : SentFrame) : State := f.units.eraseDups.foldl sendUnitError s

/-! ## A port that leaves UP (R332, R350) -/

/-- Route tables are computed anew. -/
def newRoutes (s : State) : State :=
  let n := s.fresh
  { s with fresh := n + 4096, links := { s.links with routeSeed := n } }

/-- Routes are computed anew, REACH is flooded, and the jobs of some partitions await the REACH of their members. -/
def openReach (s : State) (ps : List Nat) (j : Nat) : State :=
  let s := newRoutes s
  let n := (s.links.reachSeq + 1) % 2 ^ 16
  let s := { s with links := { s.links with reachSeq := n } }
  let s := flood s (BitVec.ofNat 64 (pack [(0, 8, 0x10), (8, 12, ownNumber s), (20, 16, s.links.groupId.toNat), (48, 16, n)])) none
  ps.foldl (fun s p => s.modPart p (fun q => { q with zlk := { q.zlk with reachOpen := true, reachSince := s.devTime, reach := [], lostPort := some j } })) s

/-- A port has left UP: the job groups on it are affected. -/
def portLeft (s : State) (j : Nat) : State :=
  openReach s ((partsOf s).filter (fun p => bit (s.part p).record.zlPorts j && isLinked s p && (s.part p).job.running)) j

/-- No offer of a walk is owed by a port (R29). -/
def State.dropOwed (s : State) (j : Nat) : State := { s with links := { s.links with owed := clearBit s.links.owed j } }

/-- A port with nothing sent or received: what it still had to bring is lost. -/
def quietPort (x : ZPort) (st : PortState) : ZPort :=
  { x with
    state := st, helloSeen := false, locked := 0, rxSeq := 0, txSeq := 0, sinceAck := 0, unacked := [], recentLost := []
    sendItems := [], sendSymbols := [], sendFlits := [], rxFlits := [], rxLast := none, itemSlots := 0, gap := true }

/-- The partitions whose job group, of a linked job or of a linked plan they hold, has a member. -/
def joinParts (s : State) (dev part : Nat) : List Nat := (partsOf s).filter (fun p => decide ((dev, part) ∈ groupMembers s p))

/-- A routed symbol that waits at a port which has left UP goes by another: UNIT_ERROR, or JOIN. Flooded symbols have the
other ports. -/
def resendSymbol (s : State) (v : W64) : State :=
  let n := v.toNat
  if n % 256 = 0x0D then sendRouted s (bits n 19 8) v
  else if n % 256 = 0x07 then match (joinParts s (bits n 19 8) (bits n 25 20)).head? with
    | none => s
    | some p => sendRouted s (groupRoot s p) v
  else s

/-- A port `x` has left UP: the frames it sent that are not acknowledged count as lost (R327), and the items and routed symbols
that wait at it go by the routes computed anew (R350). -/
def leaveUp (s : State) (j : Nat) (x : ZPort) : State :=
  x.sendSymbols.foldl resendSymbol (x.sendItems.foldl (fun s i => queueItem s i.type i.item) (portLeft (x.unacked.foldl frameLost s) j))

/-- A port becomes FAILED (R327). -/
def portFails (s : State) (j status detail : Nat) : State :=
  let x := s.port j
  let s := (s.modPort j (fun x => quietPort x .failed)).dropOwed j
  portEvent (if x.state == .up then leaveUp s j x else s) j status detail

/-- HELLO of a port. -/
def helloOf (s : State) (j : Nat) : W64 :=
  BitVec.ofNat 64 (pack [(0, 8, 0x04), (8, 12, ownNumber s), (20, 16, s.links.groupId.toNat), (36, 4, j)])

/-- A port begins training (R322). -/
def beginTraining (s : State) (j : Nat) (again : Bool) : State :=
  pushSymbol ((s.modPort j (fun x => { quietPort x .training with retraining := again, since := s.devTime })).dropOwed j) j (helloOf s j)

/-- A port that was UP retrains (R327). -/
def retrain (s : State) (j : Nat) : State :=
  let x := s.port j
  let s := beginTraining s j true
  let s := s.modPort j (fun y => { y with retrains := satInc y.retrains 255 })
  leaveUp s j x

/-! ## HELLO and ECHO (R322, R323) -/

/-- HELLO (R322, R323), once framing is locked: the far device and port are recorded and an ECHO goes back; another GROUP_ID fails the port. -/
def execHello (j : Fin 12) (device : BitVec 12) (group : W16) (port : Fin 12) (s : State) : Host.Outcome State Fault Refusal :=
  .next (if (s.port j).state != .training || (s.port j).locked ≠ 16 then s
    else if group ≠ s.links.groupId then portFails s j Status.linkDown Detail.zlkReach
    else
      let (n, s) := s.draw
      let s := s.modPort j (fun x => { x with farDevice := device.toNat, farPort := port, helloSeen := true })
      pushSymbol s j (BitVec.ofNat 64 (pack [(0, 8, 0x05), (24, 16, (Config.freeValue n).toNat)])))

/-- The delay that an ECHO shows, doubled [ns]. -/
def echoTwice (turnaround : W16) (roundTrip : Nat) : Nat := roundTrip - turnaround.toNat

/-- ECHO (R322, R323): step 5 is complete; the port is UP within 130 ns, and which lanes were turned is what the silicon
found. -/
def execEcho (j : Fin 12) (_number : W16) (turnaround : W16) (roundTrip : Nat) (s : State) : Host.Outcome State Fault Refusal :=
  .next (if (s.port j).state != .training || !(s.port j).helloSeen then s
    else if 260 < echoTwice turnaround roundTrip then portFails s j Status.linkDown Detail.zlkReach
    else
      let (n, s) := s.draw
      let v := (Config.freeValue n).toNat
      s.modPort j (fun x => { x with
        state := .up, retraining := false, lastGood := s.devTime, delay := echoTwice turnaround roundTrip / 2, reversed := bit v 8, polarity := v % 256 }))

/-- 500 ms in ticks of DEV_TIME. -/
def trainTicks : Nat := 1650000000

/-- TRAIN_TIMEOUT (R9, R322, R327): a port still training after 500 ms fails; a retraining that fails is a port down. -/
def execTrainTimeout (j : Fin 12) (s : State) : Host.Outcome State Fault Refusal :=
  .next (if (s.port j).state != .training || decide (s.devTime < (s.port j).since + trainTicks) then s
    else if (s.port j).retraining then portFails s j Status.linkDown Detail.zlkPortDown
    else portFails s j Status.timeout Detail.zlkTrainTimeout)

/-- PORT_SILENCE_TIMEOUT (R9, R327): no good frame for 1 µs. -/
def execPortSilenceTimeout (j : Fin 12) (s : State) : Host.Outcome State Fault Refusal :=
  .next (if (s.port j).state == .up && decide ((s.port j).lastGood + 3300 ≤ s.devTime) then
    portFails s j Status.linkDown Detail.zlkPortDown else s)

/-! ## Frames sent (R324, R325, R328) -/

/-- Bytes of an item after its header: its data, or the lanes of an atomic, 24 bytes each (log entry 63). -/
def itemBody (i : SendItem) : List Byte :=
  if i.item.lanes.isEmpty then i.item.data
  else i.item.lanes.flatMap (fun l => natLe 2 l.lane.val ++ natLe 6 l.offset.val ++ natLe 8 l.operand.toNat ++ natLe 8 l.compare.toNat)

/-- An item's header slot (Table ZLK-4). -/
def itemHeader (i : SendItem) : List Byte :=
  let x := i.item
  natLe 1 i.type ++ natLe 1 (((itemBody i).length + 63) / 64) ++ natLe 2 x.srcDevice.toNat ++ natLe 2 x.dstDevice.toNat ++
    natLe 1 (x.srcPartition.val + 64 * x.attempt.val) ++ natLe 1 (b2n x.kernel) ++ natLe 4 x.unit.toNat ++ natLe 8 x.seq.toNat ++
    natLe 8 x.address.toNat ++ natLe 8 x.operand.toNat ++ natLe 4 x.byteCount.toNat ++ natLe 24 0

/-- The slots of an item: its header and its body. -/
def itemSlotsOf (i : SendItem) : List (List Byte) :=
  let b := itemBody i
  itemHeader i :: (List.range ((b.length + 63) / 64)).map (fun k => padTo 64 (b.drop (64 * k)))

/-- The unit of an item. -/
def itemUnit (i : SendItem) : Nat × Nat × Nat := (i.item.srcDevice.toNat, i.item.srcPartition.val, i.item.unit.toNat)

/-- Up to `n` slots from waiting items of which `done` slots of the first have left: the slots, the units they belong to, and
what still waits. -/
def takeSlots : Nat → Nat → List SendItem → List (List Byte) × List (Nat × Nat × Nat) × Nat × List SendItem
  | _, done, [] => ([], [], done, [])
  | n, done, i :: r =>
    let all := (itemSlotsOf i).drop done
    if n = 0 then ([], [], done, i :: r)
    else if all.length ≤ n then
      let t := takeSlots (n - all.length) 0 r
      (all ++ t.1, itemUnit i :: t.2.1, t.2.2)
    else (all.take n, [itemUnit i], done + n, i :: r)

/-- Whether a symbol may leave: a COMMIT of an own unit waits until every frame with its items is acknowledged (R343). -/
def symbolFree (s : State) (v : W64) : Bool :=
  let n := v.toNat
  !(decide (n % 256 = 0x09) && decide (bits n 19 8 = ownNumber s) &&
    (List.range 12).any (fun j => let x := s.port j
      let u := (bits n 19 8, bits n 25 20, bits n 56 26)
      x.sendItems.any (fun i => itemUnit i = u) || x.unacked.any (fun f => decide (u ∈ f.units))))

/-- The CREDIT a port owes, if its stream buffer has delivered since the last. -/
def creditDue (x : ZPort) : Option W64 :=
  if x.creditSent < x.delivered then some (BitVec.ofNat 64 (pack [(0, 8, 0x03), (8, 32, x.delivered)])) else none

/-- The bytes a frame's CRC covers (Table ZLK-2). -/
def frameBytes (seq : Nat) (kinds : List (Fin 4)) (marks : List Byte) (c0 c1 : W64) (slots : List (List Byte)) : List Byte :=
  natLe 4 seq ++ natLe 7 (pack ((List.range 25).map (fun i => (2 * i, 2, (kinds.getD i 0).val)))) ++ natLe 1 0 ++
    padTo 25 marks ++ natLe 3 0 ++ natLe 8 c0.toNat ++ natLe 8 c1.toNat ++ natLe 4 0 ++
    (List.range 25).flatMap (fun i => padTo 64 (slots.getD i []))

/-- A stream flit as a slot. -/
def flitSlot (f : Option (BitVec 512)) : List Byte := natLe 64 ((f.map BitVec.toNat).getD 0)

/-- The next frame of a port, and the port once it is sent (R325): up to 24 stream flits in ascending sender tick, items in
the other slots, at most two symbols. A port in training sends symbols only. -/
def nextFrame (s : State) (j : Nat) : Frame × ZPort :=
  let x := s.port j
  let live := x.state == .up
  let flits := if live then x.sendFlits.take 24 else []
  let items := takeSlots (if live then 25 - flits.length else 0) x.itemSlots x.sendItems
  let ready := x.sendSymbols.filter (symbolFree s)
  let two := ready.take 2
  let credit := if live && decide (two.length < 2) then creditDue x else none
  let ctrl := two ++ credit.toList
  let kinds : List (Fin 4) := flits.map (fun _ => 1) ++ items.1.map (fun _ => 2)
  let kinds := kinds ++ List.replicate (25 - kinds.length) 0
  let marks := padTo 25 (flits.map (fun f => BitVec.ofNat 8 f.1))
  let slots := flits.map (fun f => flitSlot f.2) ++ items.1
  let slots := slots ++ List.replicate (25 - slots.length) (List.replicate 64 0)
  let c0 := ctrl.getD 0 0
  let c1 := ctrl.getD 1 0
  ({ seq := BitVec.ofNat 32 x.txSeq, kinds := kinds, marks := marks, ctrl0 := c0, ctrl1 := c1, slots := slots
     crc := BitVec.ofNat 32 (crc32c (frameBytes x.txSeq kinds marks c0 c1 slots)), corrected := 0, uncorrectable := false },
   { x with
     txSeq := (x.txSeq + 1) % 2 ^ 32, sendFlits := x.sendFlits.drop flits.length, sendItems := items.2.2.2
     itemSlots := items.2.2.1, sendSymbols := two.foldl (fun l v => l.erase v) x.sendSymbols
     creditSent := if credit.isSome then x.delivered else x.creditSent
     unacked := if live then x.unacked ++ [{ seq := x.txSeq, units := items.2.1.eraseDups, time := s.devTime }] else x.unacked })

/-- Whether links run: the device is awake (R486) and the port sends. -/
def portRuns (s : State) (j : Nat) : Bool :=
  ((s.port j).state == .up || (s.port j).state == .training) && !s.power.halted && !s.power.tripped

/-- FRAME_SEND (R325). -/
def execFrameSend (j : Fin 12) (s : State) : Host.Outcome State Fault Refusal :=
  .next (if !portRuns s j then s
    else let (f, x) := nextFrame s j
         (s.modPort j (fun _ => x)).emit (.frame j f))

/-! ## Frames received -/

/-- ACK of a port, after 16 frames. -/
def ackSymbol (seq : Nat) : W64 := BitVec.ofNat 64 (pack [(0, 8, 0x01), (8, 32, seq)])

/-- The sender ticks of port `j` that the running epoch's programs read, as ranges [from, to]. -/
def wantedTicks (s : State) (j : Nat) : List (Nat × Nat) :=
  match portOwner s j with
  | none => []
  | some p =>
    if (s.part p).epoch.running && epochLinked s p then
      let rd := imageOf s p
      (linkPorts rd).flatMap (fun k => ((linkOps rd k).filter (fun w => opCode w = opLinkStream && decide (j ∈ linkSources w))).map
        (fun w => (opTick w - 512, opTick w + linkCount w - 513)))
    else []

/-- The first tick at or after `lo`, up to `hi`, whose low 8 bits are a mark. -/
def markTick (mark lo hi : Nat) : Option Nat :=
  let t := lo + (mark + 256 - lo % 256) % 256
  if t ≤ hi then some t else none

/-- The sender tick of a flit by its mark: the earliest that a program reads after the last flit received. -/
def flitTick (s : State) (j mark : Nat) : Option Nat :=
  let lo := match (s.port j).rxLast with | none => 0 | some t => t + 1
  ((wantedTicks s j).filterMap (fun r => markTick mark (Nat.max lo r.1) r.2)).foldl (fun m t =>
    match m with | none => some t | some u => some (Nat.min u t)) none

/-- A stream flit enters the port's buffer; one that no operation reads is discarded (R335). -/
def flitArrives (s : State) (j : Nat) (mark : Byte) (bs : List Byte) : State :=
  match flitTick s j mark.toNat with
  | none => s
  | some t => s.modPort j (fun x => { x with rxFlits := x.rxFlits ++ [(t, BitVec.ofNat 512 (leNat bs))], rxLast := some t, gap := false })

/-- A frame is lost at its receiver (R327): LOST goes back, and the sixteenth within a millisecond retrains the port. Whether
it carried the stream flits that come next is its sender's to know: a free value (log entry 180). -/
def lostHere (s : State) (j seq : Nat) : State :=
  let near := s.devTime :: (s.port j).recentLost.filter (fun t => decide (s.devTime < t + 3300000))
  let (n, s) := s.draw
  let s := s.modPort j (fun x => { x with
    lostFrames := satInc x.lostFrames 65535, recentLost := near, gap := x.gap || (Config.freeValue n).getLsbD 0 })
  let s := sendSymbol s j (BitVec.ofNat 64 (pack [(0, 8, 0x02), (8, 32, seq)]))
  if 16 ≤ near.length then retrain s j else s

/-- Whether a symbol's TYPE is reserved (Table ZLK-3). -/
def reservedSymbol (v : W64) : Bool := decide (0x10 < v.toNat % 256)

/-- The stream flits of a good frame, in slot order. -/
def frameFlits (f : Frame) : List (Byte × List Byte) :=
  ((List.range 25).filter (fun i => f.kinds.getD i 0 = 1)).map (fun i => (f.marks.getD i 0, f.slots.getD i []))

/-- A frame received in training (R322): 16 consecutive good ones lock framing; the first gives the frame number that the next
is expected to follow. -/
def trainFrame (x : ZPort) (bad : Bool) (seq : Nat) : ZPort :=
  if x.locked = 16 then { x with rxSeq := ((if bad then x.rxSeq else seq) + 1) % 2 ^ 32 }
  else if bad || (x.locked ≠ 0 && x.rxSeq ≠ seq) then { x with locked := 0 }
  else { x with locked := Nat.min 16 (x.locked + 1), rxSeq := (seq + 1) % 2 ^ 32 }

/-- FRAME (R324, R326, R327, R335): the line code's corrections are counted; a lost frame's flits are missing; a good one
delivers its stream flits, and every sixteenth is acknowledged. -/
def execFrame (j : Fin 12) (frame : Frame) (s : State) : Host.Outcome State Fault Refusal :=
  .next (if (s.port j).state != .up && (s.port j).state != .training then s
    else
      let f := frame
      let s := s.modPort j (fun x => { x with fecCorr := Nat.min (x.fecCorr + f.corrected) (2 ^ 32 - 1) })
      let want := (s.port j).rxSeq
      let bad := f.uncorrectable || decide (f.crc.toNat ≠ crc32c (frameBytes f.seq.toNat f.kinds f.marks f.ctrl0 f.ctrl1 f.slots))
      if (s.port j).state == .training then s.modPort j (fun x => trainFrame x bad f.seq.toNat)
      else if bad then lostHere (s.modPort j (fun x => { x with rxSeq := (want + 1) % 2 ^ 32 })) j want
      else if f.seq.toNat ≠ want then
        lostHere (s.modPort j (fun x => { x with rxSeq := (f.seq.toNat + 1) % 2 ^ 32 })) j f.seq.toNat
      else
        let n := (s.port j).sinceAck + 1
        let s := s.modPort j (fun x => { x with
          rxSeq := (want + 1) % 2 ^ 32, sinceAck := if n = 16 then 0 else n, lastGood := s.devTime })
        let s := if n = 16 then sendSymbol s j (ackSymbol want) else s
        let bads := ([f.ctrl0, f.ctrl1].filter reservedSymbol).length
        let s := { s with links := { s.links with reservedSymbols := s.links.reservedSymbols + bads } }
        (frameFlits f).foldl (fun s x => flitArrives s j x.1 x.2) s)

/-! ## ACK, LOST, CREDIT -/

/-- LINK_ACK (R327): every frame up to SEQ is released. -/
def execLinkAck (j : Fin 12) (seq : W32) (s : State) : Host.Outcome State Fault Refusal :=
  .next (if (s.port j).unacked.any (fun f => f.seq = seq.toNat) then
    s.modPort j (fun x => { x with unacked := (x.unacked.dropWhile (fun f => f.seq ≠ seq.toNat)).drop 1 }) else s)

/-- LOST (R327): UNIT_ERROR goes toward the device of each unit whose items the frame carried. -/
def execLost (j : Fin 12) (seq : W32) (s : State) : Host.Outcome State Fault Refusal :=
  .next (match (s.port j).unacked.find? (fun f => f.seq = seq.toNat) with
    | none => s
    | some f => frameLost (s.modPort j (fun x => { x with unacked := x.unacked.erase f })) f)

/-- ACK_TIMEOUT (R327): the oldest frame has waited 10 µs. -/
def execAckTimeout (j : Fin 12) (s : State) : Host.Outcome State Fault Refusal :=
  .next (match (s.port j).unacked with
    | [] => s
    | f :: _ =>
      if f.time + 33000 ≤ s.devTime then frameLost (s.modPort j (fun x => { x with unacked := x.unacked.erase f })) f else s)

/-- CREDIT (R335): the count of delivered ticks, of which the low 32 bits arrive. -/
def execCredit (j : Fin 12) (count : W32) (s : State) : Host.Outcome State Fault Refusal :=
  .next (if (s.port j).state == .up then s.modPort j (fun x => { x with
    credited := x.credited + (count.toNat + 2 ^ 32 - x.credited % 2 ^ 32) % 2 ^ 32 }) else s)

/-! ## LINK_CONFIG and LINK_STATUS -/

/-- Whether a change of the enables or the group touches a granted port (R330). -/
def configBusy (s : State) (enable group : Nat) : Bool :=
  (List.range 12).any (fun j => (portOwner s j).isSome && (s.port j).enabled != bit enable j) ||
    (decide (group ≠ s.links.groupId.toNat) && (List.range 12).any (fun j => (portOwner s j).isSome))

/-- A port takes its enable: newly enabled it trains, disabled it stops at once. -/
def configPort (s : State) (enable j : Nat) : State :=
  let x := s.port j
  if x.enabled == bit enable j then s
  else if bit enable j then beginTraining (s.modPort j (fun x => { x with enabled := true })) j false
  else
    let s := (s.modPort j (fun x => { quietPort x .off with enabled := false })).dropOwed j
    if x.state == .up then leaveUp s j x else s

/-- LINK_CONFIG (R330). -/
def execLinkConfig (src : PktSrc) (s : State) : Host.Outcome State Fault Refusal :=
  .next (runVoted s src (fun k => k.op = 0x0090) (fun k s =>
    let e := k.param 0
    let g := k.param 1
    if 4096 ≤ e || 65536 ≤ g then .param s
    else if configBusy s e g then .say s Status.busy Detail.zlkPortBusy
    else .ok ((List.range 12).foldl (fun s j => configPort s e j) { s with links := { s.links with groupId := BitVec.ofNat 16 g } })))

/-- ZLK_DEVICE (R353). -/
def zlkDevice (s : State) : Nat :=
  pack [(0, 12, s.links.number), (12, 1, b2n s.links.enumerated), (16, 16, s.links.groupId.toNat), (32, 12, s.links.diameter)]

/-- STATE code of a port. -/
def portCode (x : PortState) : Nat := match x with | .off => 0 | .training => 1 | .up => 2 | .failed => 3

/-- ZLK_PORT[j]. -/
def zlkPort (s : State) (j : Nat) : Nat :=
  let x := s.port j
  let o := portOwner s j
  pack [(0, 2, portCode x.state), (2, 1, b2n o.isSome), (3, 6, o.getD 0), (9, 12, x.farDevice), (21, 4, x.farPort),
    (25, 1, b2n x.reversed), (26, 8, x.polarity), (34, 8, x.delay)]

/-- ZLK_PORT_ERR[j]. -/
def zlkPortErr (s : State) (j : Nat) : Nat :=
  let x := s.port j
  pack [(0, 32, x.fecCorr), (32, 16, x.lostFrames), (48, 8, x.retrains)]

/-- The link status block: ZLK_DEVICE, then the 12 ZLK_PORT, then the 12 ZLK_PORT_ERR (R353, R387). -/
def linkBlock (s : State) : List Byte :=
  padTo 256 (natLe 8 (zlkDevice s) ++ (List.range 12).flatMap (fun j => natLe 8 (zlkPort s j)) ++
    (List.range 12).flatMap (fun j => natLe 8 (zlkPortErr s j)))

/-- LINK_STATUS (R387). -/
def execLinkStatus (src : PktSrc) (s : State) : Host.Outcome State Fault Refusal :=
  .next (runVoted s src (fun k => k.op = 0x0091) (fun k s =>
    if outOk k (k.param64 0) then .reply s Status.ok 0 (k.param64 0) (linkBlock s) else .param s))

/-! ## Numbering (R331, R332; the exchange of ENUM symbols is read from the walk, log entry 64) -/

/-- ENUM. -/
def enumSymbol (offered next : Nat) : W64 := BitVec.ofNat 64 (pack [(0, 8, 0x06), (8, 12, offered), (20, 12, next)])

/-- The next port to visit at or after `k`. -/
def nextVisit (s : State) (e : Enumeration) (k : Nat) : Option Nat := (upPorts s).find? (fun j => decide (k ≤ j) && some j ≠ e.parent)

/-- The diameter of a group as its cabling makes it: free, and 0 for a device alone. -/
def settleRoutes (s : State) : State :=
  let s := newRoutes s
  let d := if (upPorts s).isEmpty then 0 else (Config.freeValue s.links.routeSeed).toNat / 2 ^ 24 % 4096
  { s with links := { s.links with enumerated := true, diameter := d, enumeration := none } }

/-- The walk at this device is over: the count is replied where it began (R331), else the number goes back to the parent. -/
def endVisit (s : State) (e : Enumeration) : State :=
  match e.parent with
  | some j => sendSymbol (settleRoutes s) j (enumSymbol (ownNumber s) e.next)
  | none =>
    let n := e.next - e.base
    if 4096 < e.base + n then
      completeAll { s with links := { s.links with number := e.before, enumeration := none } } (fun o => o.waits = some .enumerate)
        Status.noResource Detail.zlkEnumSize
    else completeAll (settleRoutes s) (fun o => o.waits = some .enumerate) Status.ok n

/-- The walk goes on from port `k`. -/
def visitFrom (s : State) (e : Enumeration) (k : Nat) : State :=
  match nextVisit s e k with
  | none => endVisit s e
  | some j =>
    sendSymbol { s with links := { s.links with enumeration := some { e with port := j } } } j (enumSymbol e.next (e.next + 1))

/-- Whether a job group runs on the device. -/
def groupRuns (s : State) : Bool := (partsOf s).any (fun p => isLinked s p)

/-- A walk that stands before the first port goes on from port 0. -/
def startWalk (s : State) : State :=
  match s.links.enumeration with
  | some e => if e.parent.isNone && e.port = 12 then visitFrom s e 0 else s
  | none => s

/-- CHAIN_ENUMERATE (R331). -/
def execChainEnumerate (src : PktSrc) (s : State) : Host.Outcome State Fault Refusal :=
  .next (startWalk (runVoted s src (fun k => k.op = 0x0092) (fun k s =>
    if 4096 ≤ k.param 0 then .param s
    else if groupRuns s || s.links.enumeration.isSome then .say s Status.busy Detail.zlkPortBusy
    else
      let b := k.param 0
      .wait { s with links := { s.links with
        number := b, owed := 0
        enumeration := some { parent := none, port := 12, next := b + 1, base := b, before := s.links.number } } } .enumerate)))

/-- A next free number, of which ENUM carries 12 bits, as it follows one already used: a walk past 4,095 is refused where it
began (R331). -/
def nextNumber (from' next : Nat) : Nat := from' + (next + 4096 - from' % 4096) % 4096

/-- The answer of the device behind the port being visited: where it took no number it had one already, and its own offer by
this port comes later, unless it has come. -/
def enumAnswer (s : State) (e : Enumeration) (j next : Nat) : State :=
  if next = e.next && !bit e.met j then { s with links := { s.links with owed := setBit s.links.owed j } } else s

/-- ENUM (R29, R331): an answer from the port being visited goes on with the walk; an offer of the walk in which the device has
its number is returned, and any other is taken, since an earlier walk's number has ended. -/
def execEnum (j : Fin 12) (offered : BitVec 12) (nextFree : BitVec 12) (s : State) : Host.Outcome State Fault Refusal :=
  .next (if (s.port j).state != .up then s
    else match s.links.enumeration with
      | some e =>
        if e.port = j.val then
          let next := nextNumber e.next nextFree.toNat
          visitFrom ((enumAnswer s e j next).modPort j (fun x => { x with farDevice := offered.toNat })) { e with next := next } (j + 1)
        else sendSymbol { s with links := { s.links with enumeration := some { e with met := setBit e.met j } } } j
          (enumSymbol (ownNumber s) offered.toNat)
      | none =>
        if bit s.links.owed j then sendSymbol (s.dropOwed j) j (enumSymbol (ownNumber s) offered.toNat)
        else
          let (n, s) := s.draw
          let s := s.modPort j (fun x => { x with farDevice := (Config.freeValue n).toNat % 4096 })
          let e : Enumeration := { parent := some j, port := 12, next := nextNumber offered.toNat nextFree.toNat, base := offered.toNat, before := s.links.number }
          visitFrom { s with links := { s.links with number := offered.toNat, owed := 0, enumeration := some e } } e 0)

end Sys2Proof.Machine
end

