-- ==== Sys2Proof/Machine/LinkItems.lean ====
section
/-! DEFINITION. Control symbols that are flooded or routed (R326, R334, R337, R341, R350), items of other devices as they
arrive (R328, R329, R309, R257, R261), and the timeouts of job groups (R342, R350). -/

namespace Sys2Proof.Machine

/-! ## Floods (R326) -/

/-- 1 ms in ticks of DEV_TIME: how long a flood key is remembered, and a vote awaited (R342). -/
def keyTicks : Nat := 3300000

/-- The first copy of a flooded symbol of another device is forwarded and acted on; later copies of its key within 1 ms are
discarded. -/
def floodIn (s : State) (j source key : Nat) (forward : State → State) (act : State → State) : State :=
  if (s.port j).state != .up || source = ownNumber s then s
  else
    let seen := s.links.seen.filter (fun k => decide (s.devTime < k.2 + keyTicks))
    if seen.any (fun k => k.1 = key) then { s with links := { s.links with seen := seen } }
    else act (forward { s with links := { s.links with seen := (key, s.devTime) :: seen } })

/-- A symbol goes on unchanged. -/
def onward (v : W64) (j : Nat) (s : State) : State := flood s v (some j)

/-- The partitions of this device that share a job group with a member. -/
def groupsWith (s : State) (dev part : Nat) : List Nat :=
  (partsOf s).filter (fun p => decide ((dev, part) ∈ (s.part p).zlk.members))

/-- A flooded unit symbol of a TYPE acts on each partition of the unit's group. -/
def unitFlood (s : State) (j type : Nat) (t : UnitToken) (act : State → Nat → State) : State :=
  let v := unitSymbol type t.device.toNat t.partition t.unit.toNat t.attempt
  floodIn s j t.device.toNat v.toNat (onward v j) (fun s =>
    (groupsWith s t.device.toNat t.partition).foldl act s)

/-- The token of a COMMIT as it is kept. -/
def tokenOf (t : UnitToken) : Nat × Nat × Nat × Nat := (t.device.toNat, t.partition.val, t.unit.toNat, t.attempt.val)

/-- A vote is noted where it is for the epoch that the partition is in: the epochs of one bell have one UNIT on every member
(R311, R341). -/
def noteVote (t : UnitToken) (commit : Bool) (q : Part) : List (Nat × Nat × Bool) :=
  if t.unit.toNat = q.job.commits % 2 ^ 31 then
    (t.device.toNat, t.partition.val, commit) :: q.zlk.votes.filter (fun v => !(v.1 = t.device.toNat && v.2.1 = t.partition.val))
  else q.zlk.votes

/-- A COMMIT token of a member (R261, R310, R341): a vote of the bell in progress; with no unit in progress it acts at once,
otherwise at the next commit, and one of a LINKED epoch at that epoch's bell. -/
def takeCommit (t : UnitToken) (s : State) (p : Nat) : State :=
  let s := s.modPart p (fun q => { q with zlk := { q.zlk with
    votes := noteVote t true q
    commits := if tokenOf t ∈ q.zlk.commits then q.zlk.commits else q.zlk.commits ++ [tokenOf t] } })
  if unitLive s p || ofLinkedEpoch s p (tokenOf t) then s else applyCommit s p (tokenOf t)

/-- COMMIT (R310, R326, R341). -/
def execCommit (j : Fin 12) (token : UnitToken) (s : State) : Host.Outcome State Fault Refusal :=
  .next (unitFlood s j 0x09 token (takeCommit token))

/-- REPLAY (R341): a vote that makes every member replay. -/
def execReplay (j : Fin 12) (token : UnitToken) (s : State) : Host.Outcome State Fault Refusal :=
  .next (unitFlood s j 0x0A token (fun s p => s.modPart p (fun q => { q with zlk := { q.zlk with
    votes := noteVote token false q } })))

/-- APPLIED (R341). -/
def execApplied (j : Fin 12) (token : UnitToken) (s : State) : Host.Outcome State Fault Refusal :=
  .next (unitFlood s j 0x0B token (fun s p => s.modPart p (fun q => { q with zlk := { q.zlk with
    applied := ((token.device.toNat, token.partition.val) :: q.zlk.applied).eraseDups } })))

/-- ABANDON of a member's unit (R312): its held items and ledger entries go, and the job ends. -/
def takeAbandon (t : UnitToken) (s : State) (p : Nat) : State :=
  let dev := t.device.toNat
  let u := t.unit.toNat
  let s := s.modPart p (fun q => { q with zlk := { q.zlk with
    held := q.zlk.held.filter (fun h => !heldOf dev t.partition.val u h)
    commits := q.zlk.commits.filter (fun c => !(c.1 = dev && c.2.1 = t.partition.val && c.2.2.1 = u)) } })
  let s := freeLedger s p (fun e => issuedBy dev t.partition.val u false e || issuedBy dev t.partition.val u true e)
  if (s.part p).job.running then endJob s p Status.partitionFault Detail.chkGroupFault none else s

/-- ABANDON (R312). -/
def execAbandon (j : Fin 12) (token : UnitToken) (s : State) : Host.Outcome State Fault Refusal :=
  .next (unitFlood s j 0x0C token (takeAbandon token))

/-- UNIT_ERROR (R343): routed on, or acted on at the device of the unit. -/
def execUnitError (j : Fin 12) (token : UnitToken) (s : State) : Host.Outcome State Fault Refusal :=
  .next (if (s.port j).state == .up then
    sendUnitError s (token.device.toNat, token.partition.val, token.unit.toNat) else s)

/-! ## The start of a linked job, and its ticks -/

/-- JOIN (R334): at the root the member is noted; elsewhere it goes on to the root of the member's group. One that no group
here names yet is kept. -/
def execJoinSymbol (j : Fin 12) (device : BitVec 12) (member : Fin 64) (s : State) : Host.Outcome State Fault Refusal :=
  .next (if (s.port j).state != .up then s
    else match (joinParts s device.toNat member).head? with
      | none => { s with links := { s.links with joins := ((device.toNat, member.val) :: s.links.joins).eraseDups } }
      | some p =>
        if groupRoot s p = ownNumber s then joinMember s p device.toNat member
        else sendRouted s (groupRoot s p) (BitVec.ofNat 64 (pack [(0, 8, 0x07), (8, 12, device.toNat), (20, 6, member)])))

/-- START (R334): a waiting member of the root's group begins 462 · (D − h) ticks later. -/
def execStart (j : Fin 12) (root : BitVec 12) (diameter : BitVec 12) (job : BitVec 20) (s : State) : Host.Outcome State Fault Refusal :=
  let v := BitVec.ofNat 64 (pack [(0, 8, 0x08), (8, 12, root.toNat), (20, 12, diameter.toNat), (32, 20, job.toNat)])
  let key := pack [(0, 8, 0x08), (8, 12, root.toNat), (32, 20, job.toNat)]
  .next (floodIn s j root.toNat key (onward v j) (fun s =>
    ((partsOf s).filter (fun p => (s.part p).job.awaitStart && (s.part p).zlk.root = root.toNat && (s.part p).zlk.startDelay = 0)).foldl
      (fun s p => scheduleStart s p diameter.toNat (hopsTo s root.toNat)) s))

/-- MASK (R337). -/
def execMask (j : Fin 12) (device : BitVec 12) (member : Fin 64) (share : Byte) (bells : BitVec 23) (s : State) :
    Host.Outcome State Fault Refusal :=
  let n := device.toNat
  let v := BitVec.ofNat 64 (pack [(0, 8, 0x0E), (8, 12, n), (20, 6, member), (26, 8, share.toNat), (34, 23, bells.toNat)])
  let key := pack [(0, 8, 0x0E), (8, 12, n), (20, 6, member), (34, 23, bells.toNat)]
  .next (floodIn s j n key (onward v j) (fun s => (groupsWith s n member).foldl (fun s p =>
    s.modPart p (fun q => { q with zlk := { q.zlk with masks := (n, member.val, bells.toNat, share.toNat) :: q.zlk.masks } })) s))

/-- TICK_SYNC goes on only to ports whose far device is a member of the root's group (R326). -/
def syncOnward (v : W64) (j root : Nat) (s : State) : State :=
  let near := ((partsOf s).filter (fun p => (s.part p).zlk.root = root && isLinked s p)).flatMap (fun p => (s.part p).zlk.members.map (fun m => m.1))
  ((List.range 12).filter (fun k => k ≠ j && decide ((s.port k).farDevice ∈ near))).foldl (fun s k => sendSymbol s k v) s

/-- TICK_SYNC (R337): what the member steers by is its own tick counter less the root's. -/
def execTickSync (j : Fin 12) (root : BitVec 12) (ticks : W32) (s : State) : Host.Outcome State Fault Refusal :=
  let v := BitVec.ofNat 64 (pack [(0, 8, 0x0F), (8, 12, root.toNat), (20, 32, ticks.toNat)])
  .next (floodIn s j root.toNat v.toNat (syncOnward v j root.toNat) (fun s =>
    match (partsOf s).find? (fun p => isLinked s p && (s.part p).zlk.root = root.toNat && isLockstep s p && (s.part p).job.running) with
    | none => s
    | some p => { s with links := { s.links with steering := sInt 32 (partTick s p + 2 ^ 32 - ticks.toNat) } }))

/-- The partitions whose linked job a REACH of another member makes wait for the others' too (R350). -/
def reachNew (s : State) (dev : Nat) : List Nat :=
  (partsOf s).filter (fun p => isLinked s p && (s.part p).job.running && !(s.part p).zlk.reachOpen &&
    (s.part p).zlk.members.any (fun m => m.1 = dev))

/-- REACH (R332, R350): a port of the group has left UP, so routes are computed anew; the device is reachable for every
member that awaits it; the copy sent on has travelled one hop more. A
member that did not yet await REACH floods its own, so that every member hears of every other. -/
def execReach (j : Fin 12) (device : BitVec 12) (group : W16) (hops : BitVec 12) (reachSeq : W16) (s : State) :
    Host.Outcome State Fault Refusal :=
  let n := device.toNat
  let v := BitVec.ofNat 64 (pack [(0, 8, 0x10), (8, 12, n), (20, 16, group.toNat), (36, 12, hops.toNat + 1), (48, 16, reachSeq.toNat)])
  let key := pack [(0, 8, 0x10), (8, 12, n), (48, 16, reachSeq.toNat)]
  .next (floodIn s j n key (onward v j) (fun s =>
    let s := if (reachNew s n).isEmpty then newRoutes s else openReach s (reachNew s n) 12
    ((partsOf s).filter (fun p => (s.part p).zlk.reachOpen)).foldl (fun s p =>
      s.modPart p (fun q => { q with zlk := { q.zlk with reach := n :: q.zlk.reach } })) s))

/-- 50 µs in ticks of DEV_TIME. -/
def reachTicks : Nat := 165000

/-- REACH_WINDOW_EXPIRY (R9, R350): 50 µs have passed; which members are reachable is fixed; the outcome shows at the next bell. -/
def execReachWindowExpiry (p : Fin 64) (s : State) : Host.Outcome State Fault Refusal :=
  .next (if (s.part p).zlk.reachOpen && decide ((s.part p).zlk.reachSince + reachTicks ≤ s.devTime) then
    s.modPart p (fun q => { q with zlk := { q.zlk with reachOpen := false } }) else s)

/-- Whether a LINKED bell still lacks a vote or an APPLIED. -/
def voteMissing (s : State) (p : Nat) : Bool :=
  let z := (s.part p).zlk
  ((s.part p).epoch.stage = 1 && z.members.any (fun m => !z.votes.any (fun v => v.1 = m.1 && v.2.1 = m.2))) ||
    ((s.part p).epoch.stage = 2 && z.members.any (fun m => !decide (m ∈ z.applied)))

/-- VOTE_TIMEOUT (R342): 1 ms has passed; the last vote in the same evaluation wins. -/
def execVoteTimeout (p : Fin 64) (s : State) : Host.Outcome State Fault Refusal :=
  .next (if (s.part p).job.running && epochLinked s p && voteMissing s p &&
      decide ((s.part p).zlk.voteSince + keyTicks ≤ s.devTime) then
    endJob s p Status.timeout Detail.zlkVoteTimeout none else s)

/-! ## Items (R328, R329) -/

/-- The partition of this device in the job group of an item's source. -/
def itemOwner (s : State) (i : Item) : Option Nat := (groupsWith s i.srcDevice.toNat i.srcPartition).head?

/-- Whether a range lies within the LSM grants or the scratchpad windows of a partition (R329). -/
def itemRange (s : State) (p a n : Nat) : Bool :=
  match regionOf a with
  | .lsm => granted s p a && granted s p (a + (n - 1))
  | .spad i o => bit (s.part p).record.stalls i && decide (o + n ≤ spadBytes)
  | _ => false

/-- An item whose range is not the partition's is discarded and ends the job of its group (R308, R329). -/
def itemRefused (s : State) (p : Nat) : State :=
  if (s.part p).job.running then endJob s p Status.badAddress Detail.zlkItemAddress none else s

/-- An item at a port: for another device it goes on by its route; here it acts on the partition of its group whose memory
it names; of another group it is discarded. `n` is the length of what it touches. -/
def itemIn (s : State) (j type : Nat) (i : Item) (n : Nat) (act : State → Nat → State) : State :=
  if (s.port j).state != .up then s
  else if i.dstDevice.toNat ≠ ownNumber s then queueItem s type i
  else match itemOwner s i with
    | none => s
    | some p => if itemRange s p i.address.toNat n then act s p else itemRefused s p

/-- A held item takes its place: it replaces one of a lower attempt of the same source, unit and SEQ, and an older attempt is
dropped (R309), as is one of another attempt than its unit's COMMIT has named (R318). One that follows its unit's COMMIT, a
SIGNAL, waits for nothing but the partition's own unit (R260). -/
def holdItem (kind : Nat) (i : Item) (s : State) (p : Nat) : State :=
  let same := fun (h : HeldItem) => heldOf i.srcDevice.toNat i.srcPartition.val i.unit.toNat h && h.item.seq = i.seq && h.item.kernel == i.kernel
  let ofUnit := fun (t : Nat × Nat × Nat × Nat) => t.1 = i.srcDevice.toNat && t.2.1 = i.srcPartition.val && t.2.2.1 = i.unit.toNat
  let token := (i.srcDevice.toNat, i.srcPartition.val, i.unit.toNat, i.attempt.val)
  let acted := decide (token ∈ (s.part p).zlk.acted)
  if (s.part p).zlk.held.any (fun h => same h && decide (i.attempt.val < h.item.attempt.val)) then s
  else if !acted && ((s.part p).zlk.acted ++ (s.part p).zlk.commits).any (fun t => ofUnit t && decide (t ≠ token)) then s
  else if acted then
    let s := s.modPart p (fun q => { q with zlk := { q.zlk with
      held := q.zlk.held ++ [{ kind := kind, item := i }]
      commits := if token ∈ q.zlk.commits then q.zlk.commits else q.zlk.commits ++ [token] } })
    if unitLive s p then s else applyCommit s p token
  else s.modPart p (fun q => { q with zlk := { q.zlk with held := q.zlk.held.filter (fun h => !same h) ++ [{ kind := kind, item := i }] } })

/-- Bytes that a held item writes: a COUNT writes its value only (log entry 40). -/
def heldLength (type : Nat) (i : Item) : Nat := if type = itCount then 4 else Nat.max 1 i.data.length

/-- A held item of a TYPE arrives. -/
def heldIn (s : State) (j type : Nat) (i : Item) : State := itemIn s j type i (heldLength type i) (holdItem type i)

/-- WRITE. -/
def execWrite (j : Fin 12) (item : Item) (s : State) : Host.Outcome State Fault Refusal := .next (heldIn s j itWrite item)
/-- TOKEN (R346). -/
def execToken (j : Fin 12) (item : Item) (s : State) : Host.Outcome State Fault Refusal := .next (heldIn s j itToken item)
/-- COUNT (R347). -/
def execCount (j : Fin 12) (item : Item) (s : State) : Host.Outcome State Fault Refusal := .next (heldIn s j itCount item)
/-- RESULT (R347). -/
def execResult (j : Fin 12) (item : Item) (s : State) : Host.Outcome State Fault Refusal := .next (heldIn s j itResult item)

/-! ## Requests served for other devices -/

/-- READ_REQ (R261): the committed value is returned; within a line it is read at the line's home, where a pending commit makes
it wait, as it does one over several lines (R249). -/
def readReqHere (j : Nat) (i : Item) (s : State) (p : Nat) : State :=
  let a := i.address.toNat
  let n := i.byteCount.toNat
  match regionOf a with
  | .spad k o => answerItem (checkSpad s p k o n) i ((List.range n).map (fun x => spadRead s k (o + x))) [] itReadRsp
  | _ =>
    if a % 1024 + n ≤ 1024 && (homeOf s p (a / 1024)).isSome then
      arrive (serveLater s j itReadReq i) p (a / 1024) (.rdNa (.link (Fin.ofNat 12 j)) (BitVec.ofNat 4 (rangeSectors (a % 1024) n)) false)
    else serveLate s p i

/-- READ_REQ. -/
def execReadReq (j : Fin 12) (item : Item) (s : State) : Host.Outcome State Fault Refusal :=
  .next (itemIn s j itReadReq item (Nat.max 1 item.byteCount.toNat) (readReqHere j item))

/-- The operation of an atomic's opcode (Table TGC-7). -/
def atomOpOf (op : Nat) : AtomOp :=
  match op with
  | 0xB0 => .add | 0xB1 => .min | 0xB2 => .max | 0xB3 => .and | 0xB4 => .or | 0xB5 => .xor | 0xB6 => .exch | _ => .cas

/-- The request an ATOM_REQ item carries (Table ZLK-4, R302). -/
def itemAtom (s : State) (j p : Nat) (i : Item) : AtomRequest :=
  let a := i.address.toNat / 1024
  { home := Fin.ofNat 64 ((homeOf s p a).getD 0), line := BitVec.ofNat 47 a, op := atomOpOf (i.operand.toNat % 256)
    type := atomTypeOf (bits i.operand.toNat 40 38), lanes := i.lanes, agent := .link (Fin.ofNat 12 j)
    srcDevice := i.srcDevice, srcPartition := i.srcPartition, unit := i.unit, kernel := i.kernel, seq := i.seq }

/-- ATOM_REQ (R257, R302): performed and logged at its home. -/
def execAtomReq (j : Fin 12) (item : Item) (s : State) : Host.Outcome State Fault Refusal :=
  .next (itemIn s j itAtomReq item 1 (fun s p =>
    let a := item.address.toNat / 1024
    if isLsmLine a && (homeOf s p a).isSome then
      arrive (serveLater s j itAtomReq item) p a (.atom (itemAtom s j p item))
    else s))

/-! ## Answers of other devices -/

/-- The partition's remote copy that a READ_RSP fills: the line whose request had its address and SEQ. -/
def fetchedLine (s : State) (p : Nat) (i : Item) : Option Nat :=
  ((s.part p).cache.lines.find? (fun e => isRemoteLine e.1 && decide (e.2.fetch ≠ 0) && decide (linePhys e.1 = i.address.toNat) &&
    decide (e.2.fetchSeq = i.seq.toNat))).map (fun e => e.1)

/-- A remote read that the other device's memory has failed (R285): what waited for the line goes, and the kernel, or the job,
ends with the status and detail of the answer. -/
def remoteFailed (s : State) (p a v : Nat) : State :=
  let s := s.modLine p a (fun l => { l with fetch := 0, waiting := [] })
  if (s.part p).kernel.running then kernelFault s p (v % 256) (v / 256 % 2 ^ 24) else contained s p (v % 256) (v / 256 % 2 ^ 24) none

/-- READ_RSP (R229): the remote copy is filled, or discarded where its partition has replayed since (Table UCC-5); an answer
without data is a failure. -/
def execReadRsp (j : Fin 12) (item : Item) (s : State) : Host.Outcome State Fault Refusal :=
  .next (if (s.port j).state != .up then s
    else if item.dstDevice.toNat ≠ ownNumber s then queueItem s itReadRsp item
    else match fetchedLine s item.srcPartition item with
      | none => s
      | some a =>
        if (s.line item.srcPartition a).fetch = 2 then s.modLine item.srcPartition a (fun l => { l with fetch := 0 })
        else if item.operand ≠ 0 then remoteFailed s item.srcPartition a item.operand.toNat
        else serveLine (s.modLine item.srcPartition a (fun l => { l with
          fetch := 0, base := cellsAt 0 (padTo 1024 item.data), state := if l.state == .absent then .clean else l.state }))
          item.srcPartition a)

/-- What an ATOM_RSP says of the unit that performed the atomic: it becomes a partner of the unit in progress (R311), and an
atomic performed unlogged marks that unit non-replayable (R307). -/
def noteReport (s : State) (p dev : Nat) (i : Item) : State :=
  let v := i.operand.toNat
  let (k, u, _) := unitOf s p
  if i.kernel == k && decide (i.unit.toNat = u) && unitLive s p then
    let x := (dev, bits v 37 32, bits v 30 0)
    let s := if bit v 38 && !decide (x ∈ (s.part p).zlk.partners)
      then s.modPart p (fun q => { q with zlk := { q.zlk with partners := x :: q.zlk.partners } }) else s
    if bit v 39 then markNonrepl s p else s
  else s

/-- ATOM_RSP (R193): the values reach the group whose index SEQ holds. -/
def execAtomRsp (j : Fin 12) (item : Item) (s : State) : Host.Outcome State Fault Refusal :=
  .next (if (s.port j).state != .up then s
    else if item.dstDevice.toNat ≠ ownNumber s then queueItem s itAtomRsp item
    else match (groupsOf s item.srcPartition).find? (fun g => g.2.index = item.seq.toNat % 2 ^ 24) with
      | none => s
      | some g =>
        match g.2.asked.find? (fun a => isRemoteLine a && linePhys a = item.address.toNat && !(g.2.replies.any (fun r => r.1 = a))) with
        | none => s
        | some a =>
          let s := noteReport s item.srcPartition (lineDevice a) item
          { s with groups := tmod s.groups g.1 (fun x => { x with
              replies := x.replies ++ [(a, atomCells (item.lanes.map (fun l => (l.lane.val, l.operand.toNat))))] }) })

end Sys2Proof.Machine
end

