-- ==== Sys2Proof/Machine/Power.lean ====
section
/-! DEFINITION. Scales (R451 to R478): power samples and feedback, exchanges, extra bubbles, core clock steps, droops,
alerts, temperatures, the thermal trip, the coolant stop, and the packets that set and read power. -/

namespace Sys2Proof.Machine

/-! ## Power samples (R452) -/

/-- The power of one stall rail of a sample. -/
def railMw (x : PowerSample) (i : Nat) : Nat := x.stallMilliwatt.getD i 0

/-- The rails of a partition's stalls on a die. -/
def partRails (s : State) (x : PowerSample) (p d : Nat) : Nat :=
  ((stallsOf s p).filter (fun i => dieOf i = d)).foldl (fun n i => n + railMw x i) 0

/-- The rails of every stall of a die that some pitch record lists. -/
def listedRails (s : State) (x : PowerSample) (d : Nat) : Nat := (partsOf s).foldl (fun n p => n + partRails s x p d) 0

/-- The shared rails of a die: what its stall rails do not draw. -/
def sharedRails (x : PowerSample) (d : Nat) : Nat :=
  x.dieMilliwatt.getD d 0 - ((List.range 16).foldl (fun n i => n + railMw x (16 * d + i)) 0)

/-- A partition's power on a die: its stall rails, with the shared rails divided in proportion, and the LSM estimate of
the accesses charged to it (log entry 182). -/
def partMw (s : State) (x : PowerSample) (p d : Nat) : Nat :=
  let own := partRails s x p d
  let all := listedRails s x d
  x.lsmMilliwatt.getD (4 * p + d) 0 + (if all = 0 then 0 else own + sharedRails x d * own / all)

/-- Unmanaged power of a sample: what no partition is charged with. -/
def unmanagedMw (s : State) (x : PowerSample) : Nat :=
  x.packageMilliwatt - (partsOf s).foldl (fun n p => (diesOf s p).foldl (fun n d => n + partMw s x p d) n) 0

/-- Whether a domain took a tick in most of its cycles since the last sample. -/
def tookTicks (s : State) (p d : Nat) : Bool :=
  let m := s.dom p d
  decide (m.withheld - m.sampleWithheld < m.ticks - m.sampleTicks)

/-- One span with a sample added. -/
def spanAdd (s : State) (p d w : Nat) (taken : Bool) (x : PowerSpan) : PowerSpan :=
  { x with
    ptSum := if taken then x.ptSum + w else x.ptSum
    taken := if taken then x.taken + 1 else x.taken
    phSum := if taken then x.phSum else x.phSum + w
    held := if taken then x.held else x.held + 1
    share := Nat.max x.share (tget (s.part p).pwr.share d)
    tj := Nat.max x.tj (s.die d).tj
    stack := Nat.max x.stack (Nat.max (tget s.hbm (2 * d)).temp (tget s.hbm (2 * d + 1)).temp)
    heat := x.heat || decide (heatShare s d ≠ 0)
    alert := x.alert || s.power.alert }

/-- The share that one sample asks of a partition on a die: R455 on that microsecond's power. -/
def sampleShare (s : State) (p d w : Nat) (taken : Bool) : Nat :=
  if decide (p ∈ poweredParts s) then
    requiredShare (if taken then w else measuredPt s p d) (if taken then measuredPh s p d else w) (tget (s.part p).pwr.allocDie d)
  else 0

/-- A share moves to a new demand: up at once, down by at most 4/256 (R459). -/
def feedback (old new : Nat) : Nat := if old ≤ new then new else Nat.max new (old - 4)

/-- A matrix clock one microsecond nearer to its target (R464). -/
def glideStep (f target : Nat) : Nat := if f ≤ target then Nat.min target (f + 100) else Nat.max target (f - 100)

/-- The glide of a partition on a die goes on, unless a droop pauses it (R464, R466). -/
def glideDie (s : State) (p d : Nat) : State :=
  match tget? (s.part p).pwr.glide d with
  | none => s
  | some target =>
    if drooping s d then s
    else
      let f := glideStep (matrixMhz s p d) target
      s.modPart p (fun q => { q with pwr := { q.pwr with
        freq := tset q.pwr.freq d f, glide := if f = target then tdel q.pwr.glide d else q.pwr.glide } })

/-- One partition's part of a sample on one die: its share follows feedback, from 240/256 after an alert (R459, R467). -/
def sampleDie (s : State) (x : PowerSample) (p d : Nat) : State :=
  let w := partMw s x p d
  let taken := tookTicks s p d
  let k := if s.power.fall then shareTop else feedback (tget (s.part p).pwr.share d) (sampleShare s p d w taken)
  let s := s.modPart p (fun q => { q with pwr := { q.pwr with
    period := tmod q.pwr.period d (spanAdd s p d w taken), epoch := tmod q.pwr.epoch d (spanAdd s p d w taken)
    share := tset q.pwr.share d k
    energy := if q.job.running then q.pwr.energy + w else q.pwr.energy } })
  let s := s.modDom p d (fun m => { m with sampleTicks := m.ticks, sampleWithheld := m.withheld })
  glideDie s p d

/-- The share a LOCKSTEP partition requires as it stands (R455, R461). -/
def lockstepNeed (s : State) (p : Nat) : Nat :=
  (diesOf s p).foldl (fun k d =>
    Nat.max k (Nat.max (requiredShare (measuredPt s p d) (measuredPh s p d) (tget (s.part p).pwr.allocDie d)) (heatShare s d))) 0

/-- A rise that waits for a bell; over the cap it acts at once, and once it acts it follows the need (R461). -/
def lockstepRise (s : State) (p : Nat) : State :=
  if isLockstep s p && (s.part p).job.running then
    let k := lockstepNeed s p
    let m := (s.part p).pwr.maskShare
    let above := decide (1000 * s.power.cap < s.power.average)
    s.modPart p (fun q => { q with pwr := { q.pwr with
      pendingShare := decide (m < k)
      pendingFor := if m < k then q.pwr.pendingFor + 1 else 0
      extraShare := if m < k && (above || q.pwr.extraShare ≠ 0) then k else 0 } })
  else s

/-- VIN_IVR as sampled: below 1.70 V it is a droop on every die, and one of more than 10 µs counts as such (R465,
R534). -/
def sampleVin (s : State) (mv : Nat) : State :=
  let low := decide (mv < 1700)
  let long := !low && decide (10 < s.power.vinLow)
  let s := { s with power := { s.power with vin := mv, vinLow := if low then s.power.vinLow + 1 else 0 } }
  (List.range 4).foldl (fun s d => s.modDie d (fun x => { x with
    lowVinDroop := low
    droops := if long then satInc x.droops 65535 else x.droops
    droopShare := if long then x.droopShare + 16 else x.droopShare })) s

/-- The design limit: a sample above 3,000 W holds share 240/256 for 10 µs (R468). -/
def edlCheck (w : Power) (mw : Nat) : Power :=
  if 3000000 < mw then { w with hold := 10, edlEvents := satInc w.edlEvents 65535 }
  else { w with hold := w.hold - 1, fall := w.fall && (w.alert || decide (1 < w.hold)) }

/-- The package's own figures: last sample, average of the last millisecond, energy since cold boot. -/
def samplePackage (s : State) (x : PowerSample) : State :=
  let u := unmanagedMw s x
  let all := (x.packageMilliwatt :: s.power.samples).take 1000
  let w := edlCheck s.power x.packageMilliwatt
  { s with power := { w with
      package := x.packageMilliwatt, samples := all, average := all.foldl (fun n v => n + v) 0 / all.length
      sampleU := u, energy := w.energy + x.packageMilliwatt, dieMw := (List.range 4).map (fun d => (d, x.dieMilliwatt.getD d 0)) } }

/-- Whether Scales runs: the clocks are not halted, and no coolant stop is in force. -/
def scalesRun (s : State) : Bool :=
  !s.power.halted && !s.power.tripped && !s.power.coolantStop && s.power.state != .deep && s.power.state != .off

/-- A long droop's share fades like any feedback share. -/
def fadeDroops (s : State) : State :=
  (List.range 4).foldl (fun s d => s.modDie d (fun x => { x with droopShare := x.droopShare - 4 })) s

/-- How long the core shares of a die have stayed at 64/256 or above, or at 0 (R457). -/
def coreStays (s : State) (d : Nat) : State :=
  let ps := (partsOf s).filter (fun p => decide (d ∈ diesOf s p))
  let zero := ps.all (fun p => coreShare s p d = 0)
  ps.foldl (fun s p =>
    let high := decide (64 ≤ coreShare s p d)
    s.modPart p (fun q => { q with pwr := { q.pwr with
      coreHigh := tset q.pwr.coreHigh d (if high then tget q.pwr.coreHigh d + 1 else 0) } }))
    (s.modDie d (fun x => { x with coreZero := if zero then x.coreZero + 1 else 0 }))

/-- POWER_SAMPLE (R452, R459, R461, R464, R468): one microsecond. A coolant stop leaves only the supply's level. -/
def execPowerSample (sample : PowerSample) (s : State) : Host.Outcome State Fault Refusal :=
  .next (
    if s.power.halted || s.power.tripped then s
    else if !scalesRun s then sampleVin s sample.vinMillivolt
    else
      let s := samplePackage (sampleVin (fadeDroops s) sample.vinMillivolt) sample
      let s := (partsOf s).foldl (fun s p => (diesOf s p).foldl (fun s d => sampleDie s sample p d) s) s
      (List.range 4).foldl coreStays ((partsOf s).foldl lockstepRise s))

/-! ## Exchanges (R453, R454) -/

/-- A die's averages of the period become P_t and P_h; an average without samples keeps its last value (R452). -/
def closePeriod (s : State) (p d : Nat) : State :=
  let x := tget (s.part p).pwr.period d
  s.modPart p (fun q => { q with pwr := { q.pwr with
    pt := tset q.pwr.pt d (spanMean x.ptSum x.taken (measuredPt s p d))
    ph := tset q.pwr.ph d (spanMean x.phSum x.held (measuredPh s p d)) } })

/-- A partition's power over the period: P_t and P_h weighted by the taken fraction, summed over dies. -/
def periodPower (s : State) (p : Nat) : Nat :=
  (diesOf s p).foldl (fun n d =>
    let x := tget (s.part p).pwr.period d
    n + spanMean (x.ptSum + x.phSum) (x.taken + x.held) 0) 0

/-- The shares the new allocation asks for, as an epoch meets them (R463). -/
def noteExchange (s : State) (p : Nat) : State :=
  (diesOf s p).foldl (fun s d =>
    let k := requiredShare (measuredPt s p d) (measuredPh s p d) (tget (s.part p).pwr.allocDie d)
    s.modPart p (fun q => { q with pwr := { q.pwr with
      epoch := tmod q.pwr.epoch d (fun x => { x with exchange := Nat.max x.exchange k }) } })) s

/-- BUDGET_EXCHANGE (R452 to R454). -/
def execBudgetExchange (s : State) : Host.Outcome State Fault Refusal :=
  .next (
    if !scalesRun s then s
    else
      let s := (partsOf s).foldl (fun s p =>
        (diesOf s p).foldl (fun s d => closePeriod s p d)
          (s.modPart p (fun q => { q with pwr := { q.pwr with power := periodPower s p } }))) s
      let s := { s with power := { s.power with unmanaged := s.power.sampleU } }
      let s := allocate s (measuredPt s)
      (partsOf s).foldl (fun s p => (noteExchange s p).modPart p (fun q => { q with pwr := { q.pwr with period := [] } })) s)

/-- EXTRA_BUBBLE_START (R461): a rise that no bell has met within 200 µs. -/
def execExtraBubbleStart (p : Fin 64) (s : State) : Host.Outcome State Fault Refusal :=
  .next (
    if isLockstep s p && (s.part p).job.running && (s.part p).pwr.pendingShare && decide (200 ≤ (s.part p).pwr.pendingFor) &&
        scalesRun s then
      s.modPart p (fun q => { q with pwr := { q.pwr with extraShare := lockstepNeed s p } })
    else s)

/-- CORE_CLOCK_STEP (R457): a die's core clock one step down, or up, within 1.3 to 2.6 GHz, after 100 µs of the shares that
ask for it; the next step takes 100 µs more (log entry 183). -/
def execCoreClockStep (d : Fin 4) (s : State) : Host.Outcome State Fault Refusal :=
  let ps := (partsOf s).filter (fun p => decide (d.val ∈ diesOf s p))
  .next (
    if !scalesRun s then s
    else if ps.any (fun p => decide (100 ≤ tget (s.part p).pwr.coreHigh d)) then
      ps.foldl (fun s p => s.modPart p (fun q => { q with pwr := { q.pwr with coreHigh := tdel q.pwr.coreHigh d } }))
        (s.modDie d (fun x => { x with coreMhz := Nat.max 1300 (x.coreMhz - 100) }))
    else if 100 ≤ (s.die d).coreZero then
      s.modDie d (fun x => { x with coreMhz := Nat.min 2600 (x.coreMhz + 100), coreZero := 0 })
    else s)

/-! ## Droops (R465, R466) -/

/-- DROOP_DETECT (R465). -/
def execDroopDetect (d : Fin 4) (s : State) : Host.Outcome State Fault Refusal :=
  .next (if scalesRun s then s.modDie d (fun x => { x with droop := true }) else s)

/-- DROOP_CLEAR (R465): a droop of more than 10 µs adds 16/256 to the die's feedback shares and is counted. -/
def execDroopClear (d : Fin 4) (long : Bool) (s : State) : Host.Outcome State Fault Refusal :=
  .next (
    if (s.die d).droop then s.modDie d (fun x => { x with
      droop := false
      droops := if long then satInc x.droops 65535 else x.droops
      droopShare := if long then x.droopShare + 16 else x.droopShare })
    else s)

/-! ## Board alert (R467) and temperature (R469, R470) -/

/-- PWR_ALERT_ASSERT (R467). -/
def execPwrAlertAssert (s : State) : Host.Outcome State Fault Refusal :=
  .next (
    if s.power.alert || s.power.halted then s
    else
      let s := alertManager { s with power := { s.power with alert := true, fall := true, alerts := satInc s.power.alerts 65535 } }
      (partsOf s).foldl (fun s p => s.modPart p (fun q => { q with pwr := { q.pwr with
        epoch := q.pwr.epoch.map (fun (x : Nat × PowerSpan) => (x.1, { x.2 with alert := true })) } })) s)

/-- PWR_ALERT_RELEASE (R467): the share holds for 10 µs more. -/
def execPwrAlertRelease (s : State) : Host.Outcome State Fault Refusal :=
  .next (if s.power.alert then { s with power := { s.power with alert := false, hold := Nat.max s.power.hold 10 } } else s)

/-- The temperature share of a die that was `old` (R469). -/
def thermalShare (old t : Nat) : Nat := if 95 ≤ t then Nat.min shareTop ((t - 94) * 24) else if t < 93 then 0 else old

/-- DIE_TEMP_READ (R469). -/
def execDieTempRead (d : Fin 4) (celsius : Byte) (s : State) : Host.Outcome State Fault Refusal :=
  .next (if scalesRun s then
    s.modDie d (fun x => { x with tj := celsius.toNat, thermal := thermalShare x.thermal celsius.toNat }) else s)

/-- THERMTRIP (R470): THERMTRIP_N falls, every clock halts, and the cause is kept for the next boot. -/
def execThermtrip (s : State) : Host.Outcome State Fault Refusal :=
  .next (
    if s.power.tripped then s
    else
      let s := (partsOf s).foldl (fun s p => s.modPart p (fun q => { q with job := { q.job with running := false } })) s
      { s with
        power := { s.power with tripped := true, tripLatched := true, halted := true }
        boot := { s.boot with due := none } }.emit (.pin "THERMTRIP_N" false))

/-- VIN_IVR_REMOVAL (R470, R533): THERMTRIP_N is released. Without the supply every clock halts, and only a reset brings the
device back; in OFF the rail may go. -/
def execVinIvrRemoval (s : State) : Host.Outcome State Fault Refusal :=
  .next (
    let t := s.power.tripped
    if s.power.state == .off && !t then s
    else
      let s := { s with power := { s.power with tripped := false, halted := true, vin := 0 }, boot := { s.boot with due := none } }
      if t then s.emit (.pin "THERMTRIP_N" true) else s)

/-- VIN_LOW_TIMEOUT (R534): the device stops as FATAL. -/
def execVinLowTimeout (s : State) : Host.Outcome State Fault Refusal :=
  .next (if decide (100 ≤ s.power.vinLow) && !s.power.halted && !s.power.tripped && s.boot.stage != .fatal then
    fatal s Detail.pkgVinLow else s)

/-! ## Coolant (R471, R472) -/

/-- Samples in a second of AO_CLK32K. -/
def secondSamples : Nat := 32768

/-- Whether a coolant stop can begin: the device is in a state whose clocks run (R471, R495). -/
def mayStop (s : State) : Bool :=
  !s.power.coolantStop && !s.power.halted && !s.power.tripped && s.power.state != .deep && s.power.state != .off

/-- A coolant stop: stacks in self-refresh, host port idle, MG_ALERT_N low (R471). -/
def coolantStop (s : State) : State :=
  let s := { s with power := { s.power with coolantStop := true, stopSince := s.devTime, restartReady := false } }
  let s := (List.range 8).foldl (fun s j => { s with hbm := tmod s.hbm j (fun x => { x with selfRefresh := true }) }) s
  alertManager s

/-- The wake timers one AO_CLK32K cycle on (R490, R520). -/
def wakeTick (s : State) : State :=
  { s with
    aoCount := s.aoCount + 1
    shared := { s.shared with wake := s.shared.wake.map (fun (c : Nat × Bool × Nat) => (c.1, c.2.1, c.2.2 - 1)) } }

/-- COOLANT_SAMPLE (R471, R472): one cycle of AO_CLK32K. Two low samples stop the device; a second of high ones makes a
stopped device ready to restart. -/
def execCoolantSample (level : Bool) (s : State) : Host.Outcome State Fault Refusal :=
  let s := wakeTick s
  .next (
    if level then
      let n := Nat.min secondSamples (s.power.coolantHigh + 1)
      { s with power := { s.power with
          coolantOk := true, coolantLow := 0, coolantHigh := n
          restartReady := s.power.restartReady || (s.power.coolantStop && decide (n = secondSamples)) } }
    else
      let s := { s with power := { s.power with
          coolantOk := false, coolantLow := Nat.min 2 (s.power.coolantLow + 1), coolantHigh := 0, restartReady := false } }
      if s.power.coolantLow = 2 && mayStop s then coolantStop s else s)

/-- The ticks a coolant stop cost the LOCKSTEP partitions that run (R472, R516). -/
def coolantEvents (s : State) : State :=
  let n := s.devTime - s.power.stopSince
  ((partsOf s).filter (fun p => (s.part p).job.running && (s.part p).epoch.running)).foldl (fun s p =>
    (domainsOf s p).foldl (fun s d => recoveryEvent s p 0xE (s.dom p d).epochTick n) s) s

/-- The restart of R472: supplies, memory, host port and clocks return; link partners have seen the ports fall silent
(R327, R350). -/
def coolantRestart (s : State) : State :=
  let s := coolantEvents s
  let s := { s with power := { s.power with coolantStop := false, restartReady := false } }
  let s := (List.range 8).foldl (fun s j => { s with hbm := tmod s.hbm j (fun x => { x with selfRefresh := false }) }) s
  ((List.range 12).filter (fun j => (s.port j).state == .up)).foldl (fun s j => portFails s j Status.linkDown Detail.zlkPortDown) s

/-! ## Packets -/

/-- The LOCKSTEP partitions with a job (R473). -/
def lockstepJobs (s : State) : List Nat := (partsOf s).filter (fun p => isLockstep s p && (s.part p).job.running)

/-- PWR_DEVICE.CAP_PENDING (R473). -/
def capPending (s : State) : Bool := (lockstepJobs s).any (fun p => !(s.part p).pwr.capApplied)

/-- A new cap: every LOCKSTEP partition with a job has still to apply a mask under it, and its required share follows the
new cap at once, where the others wait for the next exchange (R461, R473). -/
def setCap (s : State) (watt : Nat) : State :=
  let s := { s with power := { s.power with cap := watt } }
  let t := allocate s (measuredPt s)
  let s := (lockstepJobs s).foldl (fun s p => s.modPart p (fun q => { q with pwr := { q.pwr with
    capApplied := false, alloc := (t.part p).pwr.alloc, allocDie := (t.part p).pwr.allocDie } })) s
  (lockstepJobs s).foldl (fun s p => s.modPart p (fun q => { q with pwr := { q.pwr with
    pendingShare := decide (q.pwr.maskShare < lockstepNeed s p) } })) s

/-- POWER_SET_CAP (R473, R477). -/
def execPowerSetCap (src : PktSrc) (s : State) : Host.Outcome State Fault Refusal :=
  .next (runVoted s src (fun k => k.op = 0x0050) (fun k s =>
    if k.param 0 < 800 || 2700 < k.param 0 then .param s
    else .say (setCap s (k.param 0)) (if (lockstepJobs s).isEmpty then Status.ok else Status.accepted) 0))

/-- POWER_SET_MODE (R30, R32, R474). -/
def execPowerSetMode (src : PktSrc) (s : State) : Host.Outcome State Fault Refusal :=
  .next (runVoted s src (fun k => k.op = 0x0051) (fun k s =>
    let boost := decide (k.param 0 = 1)
    if 1 < k.param 0 then .param s
    else if boost && isLockstep s k.part then .say s Status.badState Detail.modeLockstepBoost
    else if (s.part k.part).job.running then
      .say (s.modPart k.part (fun q => { q with pendingBoost := some boost })) Status.accepted 0
    else .ok (s.modPart k.part (fun q => { q with boost := boost, pendingBoost := none }))))

/-- The largest share applied to a partition's domains on a die. -/
def appliedShare (s : State) (p d : Nat) : Nat := Nat.max (maskShareOf s p d) (extraNeed s p)

/-- The largest share applied on a die, to domains or cores. -/
def dieShare (s : State) (d : Nat) : Nat :=
  ((partsOf s).filter (fun p => decide (d ∈ diesOf s p))).foldl (fun k p => Nat.max k (Nat.max (appliedShare s p d) (coreShare s p d)))
    (Nat.max (heatShare s d) (alertShare s))

/-- The device telemetry block (Table PWR-3). -/
def deviceTelemetry (s : State) : List Byte :=
  let w := s.power
  let heat := (List.range 4).any (fun d => decide (heatShare s d ≠ 0))
  padTo 256 (natLe 4 w.package ++ natLe 4 w.average ++ natLe 4 w.unmanaged ++ natLe 2 w.cap ++ natLe 2 w.vin ++
    (List.range 4).flatMap (fun d => natLe 4 (tget w.dieMw d)) ++ (List.range 4).flatMap (fun d => natLe 1 (s.die d).tj) ++
    (List.range 8).flatMap (fun j => natLe 1 (tget s.hbm j).temp) ++ (List.range 4).flatMap (fun d => natLe 1 (dieShare s d)) ++
    natLe 1 (pack [(0, 1, b2n w.coolantOk), (1, 1, b2n w.alert), (2, 1, b2n (capPending s)), (3, 1, b2n heat)]) ++
    natLe 3 0 ++ natLe 4 w.edlEvents ++ natLe 8 (w.energy / 1000000))

/-- The PHASE of a partition's epoch in progress, 0 where none runs. -/
def phaseOf (s : State) (p : Nat) : Nat :=
  if (s.part p).epoch.running then (bellAt (imageOf s p) (s.part p).epoch.entry).phase else 0

/-- The matrix clock that a register or a block shows: 0 where the partition has no stall. -/
def shownMhz (s : State) (p d : Nat) : Nat := if decide (d ∈ diesOf s p) then matrixMhz s p d else 0

/-- The partition telemetry block (Table PWR-4). -/
def partTelemetry (s : State) (p : Nat) : List Byte :=
  let w := (s.part p).pwr
  padTo 256 (natLe 4 w.power ++ natLe 4 w.alloc ++ (List.range 4).flatMap (fun d => natLe 4 (tget w.allocDie d)) ++
    (List.range 4).flatMap (fun d => natLe 1 (if decide (d ∈ diesOf s p) then appliedShare s p d else 0)) ++
    (List.range 4).flatMap (fun d => natLe 2 (shownMhz s p d)) ++
    natLe 1 (pack [(0, 1, b2n (s.part p).boost), (1, 1, b2n (isLockstep s p))]) ++ natLe 1 (phaseOf s p) ++ natLe 2 0 ++
    natLe 8 w.bubbles ++ natLe 8 w.extra ++ natLe 8 w.stretched ++ natLe 8 (w.energy / 1000000))

/-- TELEMETRY_READ (R475). -/
def execTelemetryRead (src : PktSrc) (s : State) : Host.Outcome State Fault Refusal :=
  .next (runVoted s src (fun k => k.op = 0x0053) (fun k s =>
    let set := k.param 2
    if 1 < set || !outOk k (k.param64 0) then .param s
    else if set = 0 && k.port.isVf then .say s Status.notOnPort Detail.pwrDeviceSet
    else .reply s Status.ok 0 (k.param64 0) (if set = 0 then deviceTelemetry s else partTelemetry s k.part)))

end Sys2Proof.Machine
end

