-- ==== Sys2Proof/Machine/PowerStates.lean ====
section
/-! DEFINITION. Device power states (R479 to R497): POWER_STATE, what DEEP and OFF keep, and the wake sources. -/

namespace Sys2Proof.Machine

/-! ## Checks of Table PST-2 -/

/-- The code of a device state in POWER_STATE and PST_DEVICE. -/
def stateCode (x : PowerState) : Nat :=
  match x with | .run => 0 | .idle => 1 | .sleep => 2 | .deep => 3 | .off => 4

/-- Whether work of a partition is in progress: a job that is not PREEMPTED, a queue entry, a reset or a refill wait. -/
def partActive (s : State) (p : Nat) : Bool :=
  let q := s.part p
  (q.job.running && q.state != .preempted) || q.kernel.running || q.state == .resetting || q.refill.pending ||
    (List.range 5).any (fun k => queueRuns s p k)

/-- Whether any work is in progress (PST_ACTIVE). -/
def deviceActive (s : State) : Bool :=
  (partsOf s).any (fun p => partActive s p) || !s.bistQueue.isEmpty || s.boot.update.isSome || s.boot.programming

/-- The first check of Table PST-2 that fails. -/
def stateCheck (s : State) (target : PowerState) (mask : Nat) : Option (Nat × Nat) :=
  let run := target == .run
  let rest := target == .deep || target == .off
  firstFail
    [(s.power.coolantStop && !run && target != .off, Status.busy, Detail.pstCoolant),
     (if target == .deep then decide (mask ≠ 0) && decide (mask ≠ 0xFF) else decide (mask ≠ 0), Status.badState, Detail.pstStackMask),
     (!run && deviceActive s, Status.busy, Detail.pstActive),
     ((target == .sleep || rest) && (partsOf s).any (fun p => (s.part p).record.zlPorts ≠ 0), Status.busy, Detail.pstLinked),
     (rest && (partsOf s).any (fun p => (s.part p).job.running || (s.part p).plan.isSome), Status.badState, Detail.pstPlanHeld),
     ((target == .off || (target == .deep && decide (mask = 0))) && !(partsOf s).isEmpty, Status.badState, Detail.pstPartitions)]

/-! ## Entry to DEEP and OFF (R482, R483) -/

/-- Whether a scratchpad byte lies in banks 0 and 1 of a stall that a pitch record lists (R483). -/
def spadKept (s : State) (a : Nat) : Bool := (ownerOfStall s (a / spadBytes)).isSome && decide (a % 32768 < 2048)

/-- Steps 1 and 2 of R482: committed data goes back to memory, caches are emptied, and every key goes. -/
def leaveWork (s : State) : State :=
  (partsOf s).foldl (fun s p => dropEvidence (purgeKeys (zeroUnitRegs (flushCache s p false) p) p 0xFF) p) s

/-- What DEEP keeps of a partition: record, signature, power mode, and the lease its always-on timer holds (Table PST-3,
R490). -/
def deepPart (q : Part) : Part :=
  { present := q.present, record := q.record, signature := q.signature, pitchLost := q.pitchLost, pitchOdd := q.pitchOdd, boost := q.boost
    state := .idle, lease := q.lease, cache := { sliceList := q.cache.sliceList } }

/-- What the always-on domain keeps of the power controller. -/
def aoPower (w : Power) : Power :=
  { coolantOk := w.coolantOk, coolantLow := w.coolantLow, coolantHigh := w.coolantHigh, tripLatched := w.tripLatched
    tripReport := w.tripReport, wakeCause := w.wakeCause, stacksKept := w.stacksKept, deepEntries := w.deepEntries }

/-- The shared resources of the always-on domain: its wake timers. -/
def aoShared (h : Shared) : Shared := { wake := h.wake, wakeOwned := h.wakeOwned }

/-- What survives outside DEEP's retention: the flash, the fuses, the always-on domain, and time. -/
def offState (s : State) : State :=
  { flash := s.flash, fuses := s.fuses, power := { aoPower s.power with state := .off, halted := false }
    shared := aoShared s.shared, i3cAddress := s.i3cAddress, i3cDynamic := s.i3cDynamic, perst := s.perst
    boot := { strap := s.boot.strap, strapRecovery := s.boot.strapRecovery, due := none }
    devTime := s.devTime, aoCount := s.aoCount, out := s.out, fresh := s.fresh, pending := s.pending }

/-- A stall as DEEP leaves it: fenced or not, and gated. -/
def deepStall (s : State) (i : Nat) : Stall :=
  { fenced := (s.stall i).fenced
    gate := if isFenced s i then .off else if (ownerOfStall s i).isSome then .clockGated else .powerGated }

/-- The link settings that DEEP keeps: device number, GROUP_ID and the enable mask. -/
def deepLinks (l : Links) : Links :=
  { number := l.number, enumerated := l.enumerated, groupId := l.groupId
    ports := l.ports.map (fun (x : Nat × ZPort) => (x.1, { enabled := x.2.enabled })) }

/-- The state in DEEP (Table PST-3). -/
def deepState (s : State) (mask : Nat) : State :=
  let kept := decide (mask = 0xFF)
  { offState s with
    mem := if kept then s.mem else []
    spad := s.spad.filter (fun c => spadKept s c.1)
    spadOdd := s.spadOdd.filter (fun g => spadKept s (32 * g))
    parts := s.parts.map (fun (q : Nat × Part) => (q.1, deepPart q.2))
    stalls := (List.range 64).map (fun i => (i, deepStall s i))
    fencedPos := s.fencedPos
    edges := s.edges.map (fun (e : Nat × Edge) => (e.1, { streams := e.2.streams }))
    hbm := (List.range 8).map (fun j => (j, { selfRefresh := kept, trained := kept && (tget s.hbm j).trained }))
    chans := s.chans.map (fun (c : Nat × Chan) => (c.1, { seed := c.2.seed, failed := c.2.failed }))
    links := deepLinks s.links
    sec := { ownerKey := s.sec.ownerKey, aliasValid := s.sec.aliasValid, aliasKey := s.sec.aliasKey }
    boot :=
      { stage := .ready, strap := s.boot.strap, strapRecovery := s.boot.strapRecovery, fwVersion := s.boot.fwVersion
        fwSvn := s.boot.fwSvn, fwHash := s.boot.fwHash, due := none }
    power :=
      { aoPower s.power with
        state := .deep, halted := false, cap := s.power.cap, padsHeld := true, stacksKept := BitVec.ofNat 8 mask
        deepEntries := satInc s.power.deepEntries (2 ^ 32 - 1), deepSince := s.aoCount }
    sites := s.sites }

/-- Entry to a state (R479, R481, R482). -/
def enterState (s : State) (target : PowerState) (mask : Nat) : State :=
  match target with
  | .run => s
  | .idle => { s with power := { s.power with state := .idle } }
  | .sleep =>
    let s := { s with power := { s.power with state := .sleep } }
    let s := (List.range 4).foldl (fun s d => s.modDie d (fun x => { x with pllM := false, pllC := false })) s
    (List.range 8).foldl (fun s j => { s with hbm := tmod s.hbm j (fun x => { x with selfRefresh := true }) }) s
  | .deep => deepState (leaveWork s) mask
  | .off => offState (leaveWork s)

/-! ## POWER_STATE (R480, R481) -/

/-- POWER_STATE RUN: nothing to do in RUN; during a coolant stop the restart of R472. -/
def runState (s : State) (k : Packet) : Body :=
  if !s.power.coolantStop then .ok s
  else if !s.power.restartReady then .say s Status.badState Detail.pwrCoolantWait
  else .ok (wakeBy (coolantRestart s) (wakeCauseOf k))

/-- The body of a POWER_STATE for a state. -/
def powerStateBody (target : PowerState) (k : Packet) (s : State) : Body :=
  let mask := k.param 1 % 256
  if 4 < k.param 0 || 256 ≤ k.param 1 then .param s
  else match stateCheck s target mask with
    | some (st, d) => .say s st d
    | none => if target == .run then runState s k else .ok (enterState s target mask)

/-- A POWER_STATE packet of a state's row; a STATE above 4 falls to the row of RUN, which refuses it. -/
def powerState (s : State) (src : PktSrc) (target : PowerState) : State :=
  runVoted s src (fun k => k.op = 0x0052 && (k.param 0 = stateCode target || (target == .run && decide (4 < k.param 0))))
    (powerStateBody target)

/-- POWER_STATE_RUN (R472, R480). -/
def execPowerStateRun (src : PktSrc) (s : State) : Host.Outcome State Fault Refusal := .next (powerState s src .run)
/-- POWER_STATE_IDLE (R479 to R481). -/
def execPowerStateIdle (src : PktSrc) (s : State) : Host.Outcome State Fault Refusal := .next (powerState s src .idle)
/-- POWER_STATE_SLEEP (R479 to R481). -/
def execPowerStateSleep (src : PktSrc) (s : State) : Host.Outcome State Fault Refusal := .next (powerState s src .sleep)
/-- POWER_STATE_DEEP (R480 to R483). -/
def execPowerStateDeep (src : PktSrc) (s : State) : Host.Outcome State Fault Refusal := .next (powerState s src .deep)
/-- POWER_STATE_OFF (R480 to R482). -/
def execPowerStateOff (src : PktSrc) (s : State) : Host.Outcome State Fault Refusal := .next (powerState s src .off)

/-! ## Waking (R484 to R486, R489) -/

/-- Discovery of a site after DEEP (R538): an EMPTY site stays empty; whether another trains again, with which link and
how many units, are free values within the rule's bounds (log entry 70). -/
def rediscover (s : State) (i : Nat) : State :=
  if (s.site i).state = 0 then s
  else
    let (n, s) := s.draw
    let v := (Config.freeValue n).toNat
    s.modSite i (fun x =>
      if bit v 0 then { x with
        state := 1, modules := 1 + v / 2 % 4, rate := [4, 8, 12, 16, 24, 32].getD (v / 8 % 6) 4, flit256 := bit v 16
        units := 1 + v / 2 ^ 17 % 128, pending := [], data := [] }
      else { x with state := 2, modules := 0, rate := 0, flit256 := false, units := 0, pending := [], data := [] })

/-- The wake from DEEP: DEV_TIME is recomputed from the always-on count (Table PST-3), rails, PLLs and stacks return, the pads are released, ports and the host link train, sites are
discovered, and MG_ALERT_N falls. -/
def wakeDeep (s : State) (cause : Nat) : State :=
  let s := { s with
    power := { s.power with state := .run, wakeCause := cause, wokeAt := s.aoCount, fromDeep := true, padsHeld := false }
    hbm := (List.range 8).map (fun j => (j, { trained := true }))
    boot := { s.boot with reached := true }
    devTime := s.devTime + (s.aoCount - s.power.deepSince) * 3300000000 / 32768 }
  let s := (List.range 4).foldl (fun s d => s.modDie d (fun x => { x with pllM := true, pllC := true })) s
  let s := ((List.range 12).filter (fun j => (s.port j).enabled)).foldl (fun s j => beginTraining s j false) s
  let s := rediscover (rediscover s 0) 1
  let s := if s.perst then s else trainHost s
  let s := alertManager s
  if s.power.coolantLow = 2 then coolantStop s else s

/-- A wake source of the always-on domain (Table PST-4); OFF is left by a cold boot. -/
def aoWake (s : State) (cause : Nat) (fromOff : Bool) : State :=
  if s.power.halted || s.power.tripped then s
  else match s.power.state with
    | .deep => wakeDeep s cause
    | .off => if fromOff then { s with boot := { s.boot with due := some 2 }, power := { s.power with state := .run, halted := true } } else s
    | _ => wakeBy s cause

/-- WAKE_N (R484): from OFF it makes a cold boot due, whose steps are COLD_BOOT's. With a wake timer in one sample of
AO_CLK32K there is one wake, and its cause is WAKE_N (R495). -/
def execWakeN (s : State) : Host.Outcome State Fault Refusal :=
  .next (
    if s.power.state == .run && s.power.wakeCause = 4 && s.power.wokeAt = s.aoCount then
      { s with power := { s.power with wakeCause := 3 } }
    else aoWake s 3 true)

/-- Frees a wake timer's channel. -/
def freeWake (s : State) (c : Nat) : State :=
  { s with shared := { s.shared with wake := tdel s.shared.wake c, wakeOwned := clearBit s.shared.wakeOwned c } }

/-- WAKE_TIMER_EXPIRY (R484, R520): a channel that has counted down wakes the device and is released. -/
def execWakeTimerExpiry (c : Fin 64) (s : State) : Host.Outcome State Fault Refusal :=
  .next (match tget? s.shared.wake c with
    | some (_, 0) => aoWake (freeWake s c) 4 false
    | _ => s)

/-- MANAGEMENT_WAKE (R484): traffic addressed to the device wakes it, and from DEEP the transfer is NACKed. -/
def execManagementWake (s : State) : Host.Outcome State Fault Refusal :=
  .next (
    if s.power.state == .deep && !s.power.halted && !s.power.tripped then aoWake (s.emit .i3cNack) 2 false
    else aoWake s 2 false)

end Sys2Proof.Machine
end

