-- ==== Sys2Proof/Machine/Boot.lean ====
section
/-! DEFINITION. Cold boot (R498 to R502, R509, R538, R542), resets of the device (R493), firmware update and recovery (R503
to R506), self-test (R510 to R514), and the sweep of redundant copies (R313). -/

namespace Sys2Proof.Machine

/-! ## Firmware images (R501) -/

/-- `n` bytes of an image. -/
def imgBytes (rd : Nat → Byte) (o n : Nat) : List Byte := (List.range n).map (fun i => rd (o + i))
/-- A header field. -/
def imgField (rd : Nat → Byte) (o n : Nat) : Nat := leNat (imgBytes rd o n)
/-- IMAGE_BYTES. -/
def imgLength (rd : Nat → Byte) : Nat := imgField rd 24 8
/-- FW_SVN. -/
def imgSvn (rd : Nat → Byte) : Nat := imgField rd 12 4

/-- Whether a length is a multiple of 4 KiB from 8 KiB to 16 MiB. -/
def imgLengthOk (n : Nat) : Bool := decide (8192 ≤ n) && decide (n ≤ 2 ^ 24) && decide (n % 4096 = 0)

/-- Whether the header fields and the payload hash of an image are right. -/
def imgFormatOk (rd : Nat → Byte) : Bool :=
  decide (imgField rd 0 4 = 0x4D524946) && decide (imgField rd 4 2 = 1) && decide (imgField rd 6 2 = 4096) &&
    decide (imgField rd 20 1 = 0xB0) && imgLengthOk (imgLength rd) &&
    decide (imgBytes rd 32 32 = sha256 (imgBytes rd 4096 (imgLength rd - 4096)))

/-- Whether a fused key hash that is not revoked is that of the signing key. -/
def imgKeyOk (f : Fuses) (rd : Nat → Byte) : Bool :=
  let h := BitVec.ofNat 256 (leNat (sha256 (imgBytes rd 64 64)))
  (List.range 4).any (fun i => decide (f.keyHashes[i]? = some h) && !f.revoked.getLsbD i)

/-- Whether the key and the signature of an image are right. -/
def imgSignatureOk (f : Fuses) (rd : Nat → Byte) : Bool :=
  imgKeyOk f rd &&
    ecdsaOk (beNat (imgBytes rd 64 32)) (beNat (imgBytes rd 96 32)) (sha256 (imgBytes rd 0 128))
      (beNat (imgBytes rd 128 32)) (beNat (imgBytes rd 160 32))

/-- The first condition of R501 that an image fails. -/
def imageRefusal (f : Fuses) (rd : Nat → Byte) : Option Nat :=
  if !imgFormatOk rd then some Detail.btdImageFormat
  else if !imgSignatureOk f rd then some Detail.btdImageSignature
  else if imgSvn rd < f.svnFloor then some Detail.btdImageSvn
  else none

/-- The image in flash. -/
def flashImage (s : State) (o : Nat) : Byte := mread s.flash.image o

/-! ## Identity (R429 to R431, R434) -/

/-- KDF of R429. -/
def kdf (c : List Byte) (label : String) : Nat :=
  beNat (hkdf (List.replicate 32 0) c (ascii label) 40) % (p256n - 1) + 1

/-- CDI0 of the device. -/
def cdi0 : List Byte := hmac (natLe 32 Config.uds) (natLe 32 Config.romHash.toNat)

/-- The alias private key for a firmware measurement and SVN. -/
def aliasKeyOf (hash : BitVec 256) (svn : Nat) : Nat :=
  kdf (hmac cdi0 (natLe 32 hash.toNat ++ natBe 4 svn)) "LYL-ALIAS"

/-- The owner key as the two flash copies hold it: the first intact one (R434). -/
def ownerOfFlash (f : Flash) : Option (BitVec 512) :=
  match f.owner with
  | some k :: _ => some k
  | [none, k] => k
  | _ => none

/-! ## The steps of a cold boot (Table BTD-1) -/

/-- The device as a cold boot finds it: flash, fuses and the always-on domain; time since cold boot starts at 0. -/
def bootState (s : State) (cause : Nat) (env : BootInputs) : State :=
  let strap := if cause ≤ 1 then env.strap else s.boot.strap
  { flash := { s.flash with fenceWrite := none }, fuses := s.fuses
    power :=
      { aoPower s.power with
        wakeCause := 0, halted := false, tripReport := s.power.tripLatched, tripLatched := false }
    shared := aoShared s.shared
    i3cAddress := if s.i3cDynamic then s.i3cAddress else BitVec.ofNat 7 (0x58 + strap.toNat % 4), i3cDynamic := s.i3cDynamic
    perst := s.perst
    boot := { cause := cause, strap := strap, strapRecovery := strap.getLsbD 2, due := none }
    sec := { ownerKey := ownerOfFlash s.flash }
    aoCount := s.aoCount, out := s.out, fresh := s.fresh, pending := s.pending }

/-- A boot that ends FATAL before it is ready (Table BTD-2). -/
def bootFatal (s : State) (detail : Nat) : State :=
  let s := chkLog s { detail := detail, cls := clsFatal, part := 0, stall := none, deviceWide := true, attempt := 0, tick := 0 }
  alertManager { s with boot := { s.boot with stage := .fatal, fatalDetail := detail } }

/-- Steps 4 and 5: identity is derived, the SVN floor rises where the image asks for it, and the firmware starts. -/
def startFirmware (s : State) : State :=
  let rd := flashImage s
  let hash := BitVec.ofNat 256 (leNat (sha256 (imgBytes rd 0 (imgLength rd))))
  let svn := imgSvn rd
  let raise := bit (imgField rd 16 4) 0 && decide (1 ≤ svn) && decide (svn ≤ 64) && decide (s.fuses.svnFloor < svn)
  { s with
    fuses := if raise then { s.fuses with svnFloor := svn } else s.fuses
    sec := { s.sec with aliasValid := true, aliasKey := aliasKeyOf hash svn }
    boot := { s.boot with stage := .firmware, fwVersion := imgField rd 8 4, fwSvn := svn, fwHash := hash } }

/-- The fenced positions that the flash record gives: the first intact copy; with none intact every enabled position
(R500, R509). -/
def fencesOf (s : State) : Nat :=
  match s.flash.fence with
  | some m :: _ => m.toNat
  | [none, some m] => m.toNat
  | _ => ofBits ((List.range 4).flatMap (fun d => (enabledPos s d).map (fun q => 18 * d + q)))

/-- Step 6: fences are read, every enabled stall is power-gated and fenced ones are OFF, and the die PLLs lock. -/
def raiseDies (s : State) : State :=
  let lost := s.flash.fence.all (fun c => c.isNone)
  let s := if lost then chkLog s { detail := Detail.btdFenceRecord, cls := clsCorrected, part := 0, stall := none,
                                    deviceWide := true, attempt := 0, tick := 0 } else s
  let s := { s with fencedPos := fencesOf s }
  let s := { s with stalls := (List.range 64).map (fun i =>
    (i, { fenced := isFenced s i, gate := if isFenced s i then .off else .powerGated })) }
  { s with dies := (List.range 4).map (fun d => (d, { pllM := true, pllC := true })) }

/-- A scrambler seed of a channel: random and never zero (R277). -/
def seedOf (n : Nat) : Nat := Config.random n % (2 ^ 64 - 1) + 1

/-- Step 7: stacks are trained; a channel that fails stays FAILED (R274), and every channel draws its seed. -/
def trainStacks (s : State) (failed : List (Fin 512)) : State :=
  let n := s.fresh
  { s with
    hbm := (List.range 8).map (fun j => (j, { trained := true }))
    chans := (List.range 512).map (fun c => (c, { seed := seedOf (n + c), failed := failed.any (fun f => f.val = c) }))
    fresh := n + 512 }

/-- A companion site as discovery leaves it (R538): at most 32 GiB in units of 256 MiB; less than one unit fails. Its
vendor and device numbers are the companion's own (free values). -/
def foundSite (s : State) (i : Nat) (x : Option (Option (Nat × Nat × Bool × Nat))) : State :=
  match x with
  | none => s
  | some none => s.modSite i (fun y => { y with state := 2 })
  | some (some (modules, rate, flit256, units)) =>
    let (n, s) := s.draw
    let id := (Config.freeValue n).toNat
    if units = 0 then s.modSite i (fun y => { y with state := 2 })
    else s.modSite i (fun y => { y with
      state := 1, modules := modules, rate := rate, flit256 := flit256, units := Nat.min units 128
      vendor := BitVec.ofNat 16 id, device := BitVec.ofNat 16 (id / 2 ^ 16) })

/-- Both sites are discovered; on BXK-S64-A both are empty (R3). -/
def findSites (s : State) (sites : List (Option (Option (Nat × Nat × Bool × Nat)))) : State :=
  if s.fuses.orderingK then foundSite (foundSite s 0 (sites.getD 0 none)) 1 (sites.getD 1 none) else s

/-! ## Update buffers (R503) -/

/-- Whether a memory unit is granted to a partition. -/
def unitGranted (s : State) (u : Nat) : Bool := (partsOf s).any (fun p => bit (s.part p).record.mem u)

/-- The highest-numbered unit below 2047 that no pitch record grants. -/
def bufferUnit (s : State) : Option Nat := ((List.range 2047).filter (fun u => !unitGranted s u)).getLast?

/-- Whether a channel is FAILED. -/
def channelFailed (s : State) : Bool := s.chans.any (fun c => c.2.failed)

/-- FW_UPDATE_BEGIN on a ready device: its refusal, or the state with the buffer held and its first 16 MiB zero. -/
def beginUpdate (s : State) (bytes : Nat) : Except (Nat × Nat) State :=
  if s.boot.programming then .error (Status.busy, Detail.btdUpdateBusy)
  else match bufferUnit s with
    | none => .error (Status.noResource, Detail.btdUpdateNoUnit)
    | some u =>
      if channelFailed s then .error (Status.noResource, Detail.btdUpdateNoUnit)
      else .ok { s with
        mem := mzero s.mem (u * unitBytes) (2 ^ 24), clean := clearBit s.clean u
        boot := { s.boot with update := some (bytes, u) } }

/-- One FW_UPDATE_BEGIN that waited for the memory (R503). -/
def runBegin (s : State) (o : Outstanding) : State :=
  match o.waits with
  | some (.fwBegin bytes) =>
    let mine := fun (x : Outstanding) => decide (x = o)
    match beginUpdate s bytes with
    | .error (st, d) => completeAll s mine st d
    | .ok s => completeAll s mine Status.ok 0
  | _ => s

/-- Every FW_UPDATE_BEGIN that waited for step 7. -/
def runBegins (s : State) : State := s.outstanding.foldl runBegin s

/-! ## COLD_BOOT -/

/-- Steps 6 to 8, from a started firmware. Where COOLANT_OK is sampled low the boot waits at step 6 until it has been high for
1 s (R542). -/
def finishBoot (s : State) (cause : Nat) (env : BootInputs) : State :=
  if s.power.coolantLow ≠ 0 || (s.boot.coolWait && decide (s.power.coolantHigh < secondSamples)) then
    { s with boot := { s.boot with due := some cause, coolWait := true } }
  else if !env.pllsLock then bootFatal { s with boot := { s.boot with due := none } } Detail.btdPll
  else
    let s := findSites (trainStacks (raiseDies s) env.failedChannels) env.sites
    let s := { s with boot := { s.boot with stage := .ready, reached := true, due := none, coolWait := false } }
    let s := alertManager (if s.perst then s else trainHost s)
    runBegins s

/-- Recovery (R506). -/
def enterRecovery (s : State) : State := { s with boot := { s.boot with stage := .recovery } }

/-- Steps 1 to 5, with the outcomes of Table BTD-2. -/
def runBoot (s : State) (cause : Nat) (env : BootInputs) : State :=
  let s := bootState s cause env
  if s.boot.strap.getLsbD 3 then alertManager s
  else if !env.fuseMajority then bootFatal s Detail.chkFuseVote
  else if s.boot.strap.getLsbD 2 || !env.flashResponds || (imageRefusal s.fuses (flashImage s)).isSome then enterRecovery s
  else finishBoot (startFirmware s) cause env

/-- COLD_BOOT (R498 to R502): the boot that is due runs; one that waits at step 6 goes on from there. -/
def execColdBoot (env : BootInputs) (s : State) : Host.Outcome State Fault Refusal :=
  .next (match s.boot.due with
    | none => s
    | some cause =>
      if s.power.tripped then s
      else if s.boot.stage == .firmware && !s.power.halted then finishBoot s cause env
      else runBoot s cause env)

/-! ## Resets of the device (R493) -/

/-- The device held in reset: the flash and the fuses stand, everything else is as at reset. -/
def heldReset (s : State) (cause : Nat) (latched tripped : Bool) : State :=
  { flash := { s.flash with fenceWrite := none }, fuses := s.fuses, perst := s.perst
    power := { tripLatched := latched, tripped := tripped }, boot := { due := some cause }
    out := s.out, fresh := s.fresh, pending := s.pending }

/-- SYS_RST_N_ASSERT (R493): every domain is reset, the always-on one included; a latched trip is kept for the next boot to
report, with THERMTRIP_N low until VIN_IVR goes (R470, R529). -/
def execSysRstNAssert (s : State) : Host.Outcome State Fault Refusal :=
  .next (heldReset s 1 s.power.tripLatched s.power.tripped)

/-- AO_POWER_LOSS (R493): as SYS_RST_N, with the retention store and the trip cause lost; the boot that follows is a
power-on. -/
def execAoPowerLoss (s : State) : Host.Outcome State Fault Refusal := .next (heldReset s 0 false false)

/-- PLL_LOCK_LOSS (R492, PST_CLOCK): the loss is counted in RUN. -/
def execPllLockLoss (d : Fin 4) (core : Bool) (s : State) : Host.Outcome State Fault Refusal :=
  .next (
    if s.power.state == .run && !s.power.halted then s.modDie d (fun x => { x with
      pllM := x.pllM && core, pllC := x.pllC && !core, lockLosses := satInc x.lockLosses 65535 })
    else s)

/-! ## Firmware update packets (R503 to R506) -/

/-- FW_UPDATE_BEGIN (R503, R506). -/
def execFwUpdateBegin (src : PktSrc) (s : State) : Host.Outcome State Fault Refusal :=
  .next (runVoted s src (fun k => k.op = 0x0072) (fun k s =>
    let bytes := k.param64 0
    if !imgLengthOk bytes then .param s
    else if s.boot.stage == .recovery then
      .ok { s with flash := { s.flash with image := [] }, boot := { s.boot with update := some (bytes, 0) } }
    else if s.boot.stage != .ready then .wait s (.fwBegin bytes)
    else match beginUpdate s bytes with
      | .error (st, d) => .say s st d
      | .ok s => .ok s))

/-- FW_UPDATE_DATA (R504, R506). -/
def execFwUpdateData (src : PktSrc) (s : State) : Host.Outcome State Fault Refusal :=
  .next (runVoted s src (fun k => k.op = 0x0073) (fun k s =>
    match s.boot.update with
    | none => .say s Status.badState Detail.btdNoUpdate
    | some (bytes, u) =>
      let o := k.param 0
      let data := k.paramBytes 1
      if s.boot.programming then .say s Status.busy Detail.btdUpdateBusy
      else if o % 4 ≠ 0 || bytes < o + data.length then .param s
      else if s.boot.stage == .recovery then .ok { s with flash := { s.flash with image := mwrites s.flash.image o data } }
      else .ok { s with mem := mwrites s.mem (u * unitBytes + o) data }))

/-- FW_UPDATE_COMMIT of a recovery: the flash contents are verified, and a cold boot is due (R506). -/
def recoveryCommit (s : State) : Body :=
  match imageRefusal s.fuses (flashImage s) with
  | some d => .say s Status.badState d
  | none => .ok { s with boot := { s.boot with update := none, due := some 3 }, power := { s.power with halted := true } }

/-- FW_UPDATE_COMMIT (R505, R506): the verified image is programmed; the reply comes with FLASH_WRITE_COMPLETE. -/
def execFwUpdateCommit (src : PktSrc) (s : State) : Host.Outcome State Fault Refusal :=
  .next (runVoted s src (fun k => k.op = 0x0074) (fun _ s =>
    match s.boot.update with
    | none => .say s Status.badState Detail.btdNoUpdate
    | some (_, u) =>
      if s.boot.programming then .say s Status.busy Detail.btdUpdateBusy
      else if s.boot.stage == .recovery then recoveryCommit s
      else match imageRefusal s.fuses (fun o => mread s.mem (u * unitBytes + o)) with
        | some d => .say s Status.badState d
        | none => .wait { s with flash := { s.flash with image := [] }, boot := { s.boot with programming := true } } .fwCommit))

/-- FLASH_WRITE_COMPLETE (R505, R509): a fence record due is written first, else the image being programmed; its COMMIT
replies. -/
def execFlashWriteComplete (readBackEqual : Bool) (s : State) : Host.Outcome State Fault Refusal :=
  .next (match s.flash.fenceWrite with
    | some m => { s with flash := { s.flash with fence := [some m, some m], fenceWrite := none } }
    | none => endProgramming s readBackEqual)

/-! ## Self-test (R510 to R514) -/

/-- Whether a logical stall has no enabled position (R12). -/
def harvested (s : State) (i : Nat) : Bool := decide ((enabledPos s (dieOf i)).length ≤ i % 16)

/-- The groups of a run: at most 16 stalls each, ascending. -/
def bistGroups (kind : Nat) : Nat → List Nat → List BistGroup
  | 0, _ => []
  | n + 1, l => if l.isEmpty then []
    else { stalls := l.take 16, kind := kind, last := decide (l.length ≤ 16) } :: bistGroups kind n (l.drop 16)

/-- The group at the head of the queue starts: its stalls leave their gate state. -/
def startBist (s : State) : State :=
  match s.bistQueue with
  | [] => s
  | g :: _ => g.stalls.foldl (fun s i => s.modStall i (fun x => { x with gate := .active, bist := { x.bist with state := 2 } })) s

/-- An accepted run is queued. -/
def queueBist (s : State) (stalls kind : Nat) : State :=
  let l := setBits stalls 64
  let s := l.foldl (fun s i => s.modStall i (fun x => { x with
    bist := { state := 1, kind := kind, runs := x.bist.runs } })) s
  let idle := s.bistQueue.isEmpty
  let s := { s with bistQueue := s.bistQueue ++ bistGroups kind 4 l }
  if idle then startBist s else s

/-- BIST_RUN (R512). -/
def execBistRun (src : PktSrc) (s : State) : Host.Outcome State Fault Refusal :=
  .next (runVoted s src (fun k => k.op = 0x0070) (fun k s =>
    let m := k.param64 0
    let l := setBits m 64
    let checks :=
      [(decide (m = 0) || decide (2 < k.param 2), Status.badState, Detail.hstParam),
       (l.any (fun i => harvested s i), Status.badState, Detail.btdBistHarvested),
       (l.any (fun i => (ownerOfStall s i).isSome), Status.busy, Detail.btdBistAssigned),
       (l.any (fun i => inBist s i), Status.busy, Detail.btdBistBusy)]
    match firstFail checks with
    | some (st, d) => .say s st d
    | none => .say (queueBist s m (k.param 2)) Status.accepted 0))

/-- VERDICT of an outcome under a KIND: logic run and matched, memory run and matched. -/
def bistVerdict (kind : Nat) (r : BistOutcome) : Nat :=
  let logic := kind ≠ 1
  let memory := kind ≠ 0
  pack [(0, 1, b2n logic), (1, 1, b2n (logic && r.logicMisr = r.logicGolden)),
    (2, 1, b2n memory), (3, 1, b2n (memory && r.memoryMisr = r.memoryGolden))]

/-- Whether every test that ran matched. -/
def bistMatched (kind : Nat) (r : BistOutcome) : Bool :=
  (kind = 1 || r.logicMisr = r.logicGolden) && (kind = 0 || r.memoryMisr = r.memoryGolden)

/-- The BIST_MISR records of a stall's tests, where the buffer is owned as BIST (R513). -/
def bistTrace (s : State) (i : Nat) : State :=
  if s.shared.trace = 2 then
    let (n, s) := s.draw
    (Config.bistRecords n).foldl (fun s r => tracePut s (traceBytesOf trBist 0xFF i 0 s.devTime (natLe 8 r.1 ++ natLe 8 r.2))) s
  else s

/-- One stall's tests are done (R510, R511, R513): fenced by a mismatch, unfenced by a match of KIND 2; its contents are
lost. -/
def bistStall (s : State) (kind : Nat) (r : BistOutcome) : State :=
  let i := r.stall.val
  let was := isFenced s i
  let ok := bistMatched kind r
  let s := bistTrace s i
  let s := { s with spad := mzero s.spad (i * spadBytes) spadBytes, spadOdd := s.spadOdd.filter (fun g => g / (spadBytes / 32) ≠ i) }
  let s := s.modStall i (fun x => { fenced := x.fenced, gate := if x.fenced then .off else .powerGated, parityTimes := x.parityTimes, bist := x.bist })
  let s := if !ok && !was then fenceStall s i else if ok && was && kind = 2 then unfenceStall s i else s
  s.modStall i (fun x => { x with bist :=
    { state := 3, kind := kind, verdict := bistVerdict kind r
      fenceFlags := pack [(0, 1, b2n x.fenced), (1, 1, b2n (!ok && !was)), (2, 1, b2n (ok && was && kind = 2))]
      logicMisr := if kind = 1 then 0 else r.logicMisr, logicGolden := if kind = 1 then 0 else r.logicGolden
      memoryMisr := if kind = 0 then 0 else r.memoryMisr, memoryGolden := if kind = 0 then 0 else r.memoryGolden
      doneTime := sesClock s, runs := satInc x.bist.runs 65535 } })

/-- BIST_GROUP_COMPLETE (R513): the running group ends with an outcome for each of its stalls, and the next one starts;
MG_ALERT_N falls when the whole run ends. -/
def execBistGroupComplete (results : List BistOutcome) (s : State) : Host.Outcome State Fault Refusal :=
  .next (match s.bistQueue with
    | [] => s
    | g :: rest =>
      let found := g.stalls.filterMap (fun i => results.find? (fun r => r.stall.val = i))
      if found.length ≠ g.stalls.length || !clocksRun s then s
      else
        let s := found.foldl (fun s r => bistStall s g.kind r) { s with bistQueue := rest }
        startBist (if g.last then alertManager s else s))

/-- The BIST result block of a stall (Table BTD-6). -/
def bistBlock (b : Bist) : List Byte :=
  natLe 1 b.state ++ natLe 1 b.kind ++ natLe 1 b.verdict ++ natLe 1 b.fenceFlags ++ natLe 4 0 ++
    natLe 8 b.logicMisr.toNat ++ natLe 8 b.logicGolden.toNat ++ natLe 8 b.memoryMisr.toNat ++ natLe 8 b.memoryGolden.toNat ++
    natLe 8 b.doneTime ++ natLe 16 0

/-- BIST_RESULT (R514). -/
def execBistResult (src : PktSrc) (s : State) : Host.Outcome State Fault Refusal :=
  .next (runVoted s src (fun k => k.op = 0x0071) (fun k s =>
    let i := k.param 0
    if 64 ≤ i then .param s
    else if harvested s i then .say s Status.badState Detail.btdBistHarvested
    else .reply s Status.ok 0 0 (bistBlock { (s.stall i).bist with
      fenceFlags := (s.stall i).bist.fenceFlags / 2 * 2 + b2n (isFenced s i) })))

/-! ## VOTE_SWEEP (R313) -/

/-- What the sweep finds of copies, of which `odd` fail their CRC. -/
def sweepView (v : CopyView) (odd : List Nat) : CopyView :=
  let c := copyView odd
  { intact0 := v.intact0 && c.intact0, intact1 := v.intact1 && c.intact1, intact2 := v.intact2 && c.intact2
    equal01 := v.equal01 && c.equal01, equal02 := v.equal02 && c.equal02, equal12 := v.equal12 && c.equal12 }

/-- The vote of one partition's pitch record. -/
def sweepPitch (s : State) (v : Fin 64 × CopyView) : State :=
  let p := v.1.val
  if !(s.part p).present || (s.part p).pitchLost then s
  else pitchOutcome (s.modPart p (fun q => { q with pitchOdd := [] })) p (voteCopies (sweepView v.2 (s.part p).pitchOdd))

/-- The vote of the fuse shadow. -/
def sweepFuses (s : State) (v : CopyView) : State := fuseOutcome { s with fuseOdd := [] } (voteCopies (sweepView v s.fuseOdd))

/-- VOTE_SWEEP (R313): every copy is voted; a stopped device sweeps no more. -/
def execVoteSweep (fuse : CopyView) (pitch : List (Fin 64 × CopyView)) (s : State) : Host.Outcome State Fault Refusal :=
  .next (
    if s.boot.stage != .ready || s.power.halted || s.power.coolantStop then s
    else
      let s := sweepFuses s fuse
      if s.boot.stage == .fatal then s else (partsOf s).foldl usePitch (pitch.foldl sweepPitch s))

end Sys2Proof.Machine
end

