-- ==== Sys2Proof/Machine/Sec.lean ====
section
/-! DEFINITION. Identity and keys (spec/16): the owner and its sessions (R432 to R434), attestation (R436), measurements
(R438), and weight keys installed and purged (R86, R441, R442). Byte strings stand in their standards' order. -/

namespace Sys2Proof.Machine

/-! ## Measurements (Table SEC-3) -/

/-- The owner measurement (R434). -/
def ownerMeasure (s : State) : List Byte :=
  match s.sec.ownerKey with | some k => sha256 (natBe 64 k.toNat) | none => List.replicate 32 0

/-- The values of the fuse shadow, the UDS excluded (Table BTD-5). -/
def fuseValues (f : Fuses) : List Nat :=
  f.harvest ++ f.wayDisable.flatMap (fun e => [e.1, e.2.toNat]) ++ (f.rowsOut ++ f.colsOut).flatMap (fun e => e.1 :: e.2) ++
    f.keyHashes.map BitVec.toNat ++ [f.revoked.toNat, f.svnFloor, b2n f.orderingK, f.origin] ++
    f.stackRepair.flatMap (fun e => [e.1, e.2])

/-- FUSE: SHA-256 of the fuse shadow. -/
def fuseMeasure (s : State) : List Byte := sha256 (Config.fuseShadow (fuseValues s.fuses))

/-- PITCH: SHA-256 of the record and its placement signature. -/
def pitchMeasure (s : State) (p : Nat) : List Byte :=
  sha256 ((s.part p).record.raw ++ natLe 32 (s.part p).signature.toNat)

/-- PLAN: the hash of the held plan, or zero. -/
def planMeasure (s : State) (p : Nat) : List Byte :=
  match (s.part p).plan with | some h => natLe 32 h.hash.toNat | none => List.replicate 32 0

/-- The measurement blocks of a function (R438): 4 and 5 on the VF of a partition. -/
def measureBlocks (s : State) (fn : Nat) : List (Nat × List Byte) :=
  let common := [(1, natLe 32 Config.romHash.toNat), (2, natLe 32 s.boot.fwHash.toNat), (3, fuseMeasure s)]
  let mine := if fn ≠ 0 && (s.part (fn - 1)).present then
    [(4, pitchMeasure s (fn - 1)), (5, planMeasure s (fn - 1))] else []
  common ++ mine ++ [(6, ownerMeasure s)]

/-- GET_MEASUREMENTS (R438): one block, every block (0xFF) or their number (0); refused while the alias key is lost
(R446). -/
def execGetMeasurements (fn : Fin 65) (block : Byte) (s : State) : Host.Outcome State Fault Refusal :=
  .next (
    if !hostUp s then s
    else if !s.sec.aliasValid then s.emit (.spdmRefused (some fn.val))
    else
      let bs := measureBlocks s fn.val
      let pick := if block = 0xFF then bs else bs.filter (fun b => b.1 = block.toNat)
      if block ≠ 0 && pick.isEmpty then s.emit (.spdmRefused (some fn.val))
      else s.emit (.measurements fn.val bs.length pick))

/-! ## Sessions of the management port (R432, R530) -/

/-- Sessions open now. -/
def openSessionsOf (s : State) : List Nat := (List.range 4).filter (fun n => tget s.sec.sessions n)

/-- Whether the responder can sign: with the alias key, or in recovery with the DeviceID key (R446, R506). -/
def canSign (s : State) : Bool := s.sec.aliasValid || s.boot.stage == .recovery

/-- KEY_EXCHANGE (R432): the lowest free session opens, on an owned device only with the owner credential proved. -/
def execKeyExchange (ownerProof : Bool) (s : State) : Host.Outcome State Fault Refusal :=
  .next (
    if !mgmtUp s then s
    else
      let s := wakeBy s 2
      match (List.range 4).find? (fun n => !tget s.sec.sessions n) with
      | none => s.emit .spdmBusy
      | some n =>
        if !canSign s || (s.sec.ownerKey.isSome && !ownerProof) then s.emit (.spdmRefused none)
        else (noteTraffic { s with sec := { s.sec with sessions := tset s.sec.sessions n true } } n).emit (.sessionOpened n))

/-- A session ends: its outstanding packets complete, and their replies have no session to travel in. -/
def endSession (s : State) (n : Fin 4) : State :=
  { s with
    sec := { s.sec with sessions := tset s.sec.sessions n.val false }
    outstanding := s.outstanding.map (fun o => if o.replyTo.port = .mgmt n then { o with replyTo := { o.replyTo with lost := true } } else o) }

/-- Every session ends (R433). -/
def endSessions (s : State) : State := (List.finRange 4).foldl endSession s

/-- 90 s in ticks of DEV_TIME. -/
def sessionTicks : Nat := 297000000000

/-- MANAGEMENT_SESSION_TIMEOUT (R9, Table SEC-1): a session with no traffic for 90 s ends. -/
def execManagementSessionTimeout (session : Fin 4) (s : State) : Host.Outcome State Fault Refusal :=
  .next (if tget s.sec.sessions session.val && decide (tget s.sec.traffic session.val + sessionTicks ≤ s.devTime) then
    endSession s session else s)

/-- DYNAMIC_ADDRESS (R530). -/
def execDynamicAddress (address : BitVec 7) (s : State) : Host.Outcome State Fault Refusal :=
  .next (if s.power.halted then s else { s with i3cAddress := address, i3cDynamic := true })

/-! ## OWNER_PROVISION (R433, Table SEC-2) -/

/-- The owner key of the packet. -/
def ownerParam (k : Packet) : Nat := beNat ((k.paramBytes 1).take 64)

/-- Whether the packet's owner key is a point on P-256. -/
def ownerOnCurve (k : Packet) : Bool := onCurve (ownerParam k / 2 ^ 256) (ownerParam k % 2 ^ 256)

/-- The owner key in both flash copies and in force (R434). -/
def setOwner (s : State) (o : Option (BitVec 512)) : State :=
  { s with sec := { s.sec with ownerKey := o }, flash := { s.flash with owner := [o, o] } }

/-- OWNER_PROVISION with ACTION TAKE; an ACTION of no row is refused here (R387). -/
def execOwnerProvisionTake (src : PktSrc) (s : State) : Host.Outcome State Fault Refusal :=
  .next (runVoted s src (fun k => k.op = 0x0063 && k.word 4 ≠ 1 && k.word 4 ≠ 2) (fun k s =>
    if k.param 0 ≠ 0 then .param s
    else if k.length ≠ 17 then .say s Status.badLength 0
    else if s.sec.ownerKey.isSome then .say s Status.badState Detail.secOwned
    else if !ownerOnCurve k then .say s Status.badState Detail.secOwnerKey
    else .ok (setOwner s (some (BitVec.ofNat 512 (ownerParam k))))))

/-- OWNER_PROVISION with ACTION TRANSFER: the key is replaced and every session of the old one ends. -/
def execOwnerProvisionTransfer (src : PktSrc) (s : State) : Host.Outcome State Fault Refusal :=
  .next (runVoted s src (fun k => k.op = 0x0063 && k.word 4 = 1) (fun k s =>
    if k.length ≠ 17 then .say s Status.badLength 0
    else if !ownerOnCurve k then .say s Status.badState Detail.secOwnerKey
    else .ok (endSessions (setOwner s (some (BitVec.ofNat 512 (ownerParam k)))))))

/-- OWNER_PROVISION with ACTION RELEASE: the device becomes unowned, and every session ends. -/
def execOwnerProvisionRelease (src : PktSrc) (s : State) : Host.Outcome State Fault Refusal :=
  .next (runVoted s src (fun k => k.op = 0x0063 && k.word 4 = 2) (fun k s =>
    if k.length ≠ 1 then .say s Status.badLength 0
    else if !(partsOf s).isEmpty then .say s Status.badState Detail.secPartitionsExist
    else .ok (endSessions (setOwner s none))))

/-! ## Attestation (R436, R440) -/

/-- A private key from a draw of the random source. -/
def privateKey (n : Nat) : Nat := Config.random n % (p256n - 1) + 1

/-- A point of P-256 with a given x-coordinate, if there is one (R440). -/
def pointAt (x : Nat) : Option (Nat × Nat) := if x < p256 then (sqrtP (ecRhs x)).map (fun y => (x, y)) else none

/-- The certificate chain: alias certificate, then DeviceID certificate. -/
def certChain (s : State) : List Byte :=
  (Config.aliasCertificate s.boot.fwHash s.boot.fwSvn ++ Config.deviceCertificate).take 3708

/-- Bytes 0 to 319 of the evidence block. -/
def evidenceHead (s : State) (p : Nat) (nonce : List Byte) (d : Nat) (peer : Bool) : List Byte :=
  let q := (ecMul d (some p256g)).getD (0, 0)
  let a := [0, 1] ++ natLe 1 p ++ natLe 1 (b2n peer + 2 * b2n (s.part p).plan.isSome) ++ natLe 4 s.boot.fwSvn ++
    natLe 8 (s.part p).sec.attests ++ nonce ++ natLe 32 Config.romHash.toNat ++ natLe 32 s.boot.fwHash.toNat ++
    fuseMeasure s ++ ownerMeasure s ++ pitchMeasure s p ++ planMeasure s p
  padTo 320 (a ++ natBe 32 q.1 ++ natBe 32 q.2 ++ natLe 2 (ownNumber s) ++ [0xB0])

/-- The evidence block, signed with the alias key. -/
def evidenceBlock (s : State) (head : List Byte) (k : Nat) : List Byte :=
  padTo 4096 (head ++ ecdsaSign s.sec.aliasKey k (sha256 head) ++ natLe 2 (certChain s).length ++ natLe 2 0 ++ certChain s)

/-- A new evidence key pair, with Z where the nonce names a point, and its block. -/
def attest (s : State) (p : Nat) (nonce : List Byte) : State × List Byte :=
  let n := s.fresh
  let d := privateKey n
  let peer := pointAt (beNat nonce)
  let s := { s with fresh := n + 2 }.modPart p (fun q => { q with sec := { q.sec with attests := q.sec.attests + 1 } })
  let head := evidenceHead s p nonce d peer.isSome
  let z := peer.map (fun q => BitVec.ofNat 256 ((ecMul d (some q)).getD (0, 0)).1)
  let e := (d, BitVec.ofNat 256 (leNat (sha256 head)), z, (s.part p).plan.isSome)
  (s.modPart p (fun q => { q with sec := { q.sec with evidence := some e } }), evidenceBlock s head (privateKey (n + 1)))

/-- ATTEST_PARTITION (R436, R446). -/
def execAttestPartition (src : PktSrc) (s : State) : Host.Outcome State Fault Refusal :=
  .next (runVoted s src (fun k => k.op = 0x0060) (fun k s =>
    if !outOk k (k.param64 0) then .param s
    else if !s.sec.aliasValid then .say s Status.badState Detail.secAliasLost
    else
      let r := attest s k.part (k.paramBytes 2)
      .reply r.1 Status.ok 0 (k.param64 0) r.2))

/-! ## Weight keys (R440 to R442) -/

/-- The key-encryption key of an evidence and a KEY_ID (R440). -/
def kekOf (hash z : BitVec 256) (keyId : List Byte) : List Byte :=
  hkdf (natLe 32 hash.toNat) (natBe 32 z.toNat) (ascii "LYL-KW1" ++ keyId) 32

/-- Checks 4 and 5 of R441: the unwrapped plaintext, or the detail. -/
def unwrapKey (hash z : BitVec 256) (keyId wrapped : List Byte) : Except Nat (List Byte) :=
  match kwUnwrap (kekOf hash z keyId) wrapped with
  | none => .error Detail.secUnwrap
  | some pt => if field pt 36 4 ≠ 0 then .error Detail.secKeyFormat else .ok pt

/-- The key of a plaintext (Table SEC-4). -/
def keyOfPlain (pt keyId : List Byte) : Key :=
  { key := BitVec.ofNat 256 (field pt 0 32), nonce := BitVec.ofNat 32 (field pt 32 4), keyId := BitVec.ofNat 128 (leNat keyId) }

/-- The key becomes pending, and goes into its slots at once where no job runs (R442). -/
def takeKey (s : State) (p slot : Nat) (key : Key) : State :=
  let s := s.modPart p (fun q => { q with pendingKeys := tset q.pendingKeys slot key })
  if (s.part p).job.running then s else applyKeys s p

/-- KEY_INSTALL with its parameters in range: the checks of R441 in order. -/
def installKey (s : State) (p slot : Nat) (keyId wrapped : List Byte) : Body :=
  match (s.part p).sec.evidence with
  | none => .say s Status.attestationRequired Detail.secNoEvidence
  | some (_, _, _, false) => .say s Status.attestationRequired Detail.secNoPlan
  | some (_, _, none, true) => .say s Status.keyInvalid Detail.secPeer
  | some (_, hash, some z, true) =>
    match unwrapKey hash z keyId wrapped with
    | .error d => .say (s.modPart p (fun q => { q with sec := { q.sec with unwrapFails := satInc q.sec.unwrapFails 255 } }))
        Status.keyInvalid d
    | .ok pt => .ok (takeKey s p slot (keyOfPlain pt keyId))

/-- KEY_INSTALL (R441, R442). -/
def execKeyInstall (src : PktSrc) (s : State) : Host.Outcome State Fault Refusal :=
  .next (runVoted s src (fun k => k.op = 0x0061) (fun k s =>
    if 8 ≤ k.param 0 then .param s
    else installKey s k.part (k.param 0) ((k.paramBytes 1).take 16) ((k.paramBytes 5).take 48)))

/-- Whether a feeder needs a slot of a mask: a FETCH with blocks still to fetch, or a block fetched already and not drawn
whole (R86). -/
def feederNeeds (mask : Nat) (f : Feeder) : Bool :=
  f.fetches.any (fun x => decide (x.slot < 8) && bit mask x.slot && decide (x.asked < x.blocks)) ||
    f.blocks.any (fun b => decide (b.slot < 8) && bit mask b.slot && !b.spent)

/-- Whether a running job of a partition needs a slot of a mask now. -/
def jobNeeds (s : State) (p mask : Nat) : Bool :=
  (s.part p).job.running && (stallsOf s p).any (fun i =>
    feederNeeds mask (s.stall i).feederMxe || feederNeeds mask (s.stall i).feederMvu)

/-- KEY_PURGE (R86): the slots are cleared, and a job that needs one ends at once. -/
def execKeyPurge (src : PktSrc) (s : State) : Host.Outcome State Fault Refusal :=
  .next (runVoted s src (fun k => k.op = 0x0062) (fun k s =>
    if 256 ≤ k.param 0 then .param s
    else
      let needs := jobNeeds s k.part (k.param 0)
      let s := purgeKeys s k.part (k.param 0)
      .ok (if needs then keyFault s k.part else s)))

end Sys2Proof.Machine
end

