-- ==== Sys2Proof/Machine/Debug.lean ====
section
/-! DEFINITION. Counters, trace, shared resources and the debug halt (R515 to R521). -/

namespace Sys2Proof.Machine

/-! ## TALLY_CONFIG (R517) -/

/-- Whether words 0 and 1 and the rest are in range. -/
def tallyOk (k : Packet) : Bool :=
  zeroBits (k.param 0) 4 4 && zeroBits (k.param 0) 16 16 &&
    (k.param 1 = 0 || (decide (10 ≤ k.param 1) && decide (k.param 1 ≤ 1000000))) &&
    (List.range 62).all (fun i => k.param (i + 2) = 0)

/-- What an accepted TALLY_CONFIG changes in its partition, at a device time from which its sample period runs. -/
def tallySet (now : Nat) (k : Packet) (q : Part) : Part :=
  let w := k.param 0
  let q := if bit w 0 then { q with cache := { q.cache with tally := [] }, tally := { q.tally with tally := [] } } else q
  let q := if bit w 1 then { q with cache := { q.cache with deadTrap := bit w 2 } } else q
  let q := if bit w 3 then { q with tally := { q.tally with classes := bits w 15 8 } } else q
  if 1 < k.length then { q with tally := { q.tally with sampleUs := k.param 1, sampledAt := now } } else q

/-- TALLY_CONFIG (R517). -/
def execTallyConfig (src : PktSrc) (s : State) : Host.Outcome State Fault Refusal :=
  .next (runVoted s src (fun k => k.op = 0x0080) (fun k s =>
    if !tallyOk k then .param s else .ok (s.modPart k.part (tallySet s.devTime k))))

/-- The record of one class and quantity of UCC_TALLY. -/
def sampleOne (p : Nat) (s : State) (i : Nat) : State :=
  trace s trSample (some p) 0xFF i (tickFor s p) (natLe 8 (tget (s.part p).cache.tally i))

/-- Whether SAMPLE_US has passed since a partition's last COUNTER_SAMPLE records, or since it was set. -/
def sampleDue (s : State) (p : Nat) : Bool :=
  (s.part p).present && decide ((s.part p).tally.sampleUs ≠ 0) &&
    decide ((s.part p).tally.sampledAt + 3300 * (s.part p).tally.sampleUs ≤ s.devTime)

/-- COUNTER_SAMPLE (R517), due once in every SAMPLE_US: one record for each class and quantity, CODE 4 · class + quantity. -/
def execCounterSample (p : Fin 64) (s : State) : Host.Outcome State Fault Refusal :=
  .next (if sampleDue s p then
    ((List.range 32).foldl (sampleOne p.val) s).modPart p (fun q => { q with tally := { q.tally with sampledAt := s.devTime } })
  else s)

/-! ## TRACE_CONTROL (R519) -/

/-- Whether the trace buffer is owned as TALLY. -/
def traceOwned (s : State) : Bool := decide (s.shared.trace = 1)

/-- Tracing begins at NEXT; a full buffer begins again at 0 with WRAP, and takes nothing without. -/
def startTrace (s : State) : State :=
  let h := s.shared
  if h.next < traceBytes then { s with shared := { h with tracing := true } }
  else if h.wrap then { s with shared := { h with tracing := true, next := 0, wrapped := true } }
  else s

/-- TRACE_CONTROL with ACTION STOP; an ACTION of no row is refused here (R387). -/
def execTraceStop (src : PktSrc) (s : State) : Host.Outcome State Fault Refusal :=
  .next (runVoted s src (fun k => k.op = 0x0081 && k.word 4 ≠ 1 && k.word 4 ≠ 2 && k.word 4 ≠ 3) (fun k s =>
    if k.param 0 ≠ 0 || decide (8 ≤ k.param 1) then .param s
    else if !traceOwned s then .say s Status.busy Detail.btdTraceNotOwned
    else .ok { s with shared := { s.shared with tracing := false } }))

/-- TRACE_CONTROL with ACTION START: with START_ON_TRIGGER the first edge of SYNC_IO starts the trace. -/
def execTraceStart (src : PktSrc) (s : State) : Host.Outcome State Fault Refusal :=
  .next (runVoted s src (fun k => k.op = 0x0081 && k.word 4 = 1) (fun k s =>
    if 8 ≤ k.param 1 then .param s
    else if !traceOwned s then .say s Status.busy Detail.btdTraceNotOwned
    else
      let s := { s with shared := { s.shared with
        wrap := bit (k.param 1) 0, startOnTrigger := bit (k.param 1) 1, stopOnTrigger := bit (k.param 1) 2 } }
      .ok (if bit (k.param 1) 1 then s else startTrace s)))

/-- TRACE_CONTROL with ACTION READ: 1,024 bytes at OFFSET. -/
def execTraceRead (src : PktSrc) (s : State) : Host.Outcome State Fault Refusal :=
  .next (runVoted s src (fun k => k.op = 0x0081 && k.word 4 = 2) (fun k s =>
    let o := k.param 2
    if k.length < 5 || decide (8 ≤ k.param 1) || o % 1024 ≠ 0 || traceBytes ≤ o || !outOk k (k.param64 3) then .param s
    else .reply s Status.ok 0 (k.param64 3) (mreads s.shared.buffer o 1024)))

/-- TRACE_CONTROL with ACTION CLEAR: the buffer is empty, and the next record goes to offset 0. -/
def execTraceClear (src : PktSrc) (s : State) : Host.Outcome State Fault Refusal :=
  .next (runVoted s src (fun k => k.op = 0x0081 && k.word 4 = 3) (fun k s =>
    if 8 ≤ k.param 1 then .param s
    else if !traceOwned s then .say s Status.busy Detail.btdTraceNotOwned
    else .ok { s with shared := { s.shared with buffer := [], next := 0, wrapped := false } }))

/-! ## Shared resources (R520) -/

/-- The channel of a wake-timer claim. -/
def wakeChannel (k : Packet) : Nat := bits (k.param 0) 13 8
/-- The seconds of a wake-timer claim. -/
def wakeSeconds (k : Packet) : Nat := bits (k.param 0) 31 14

/-- Whether the resource word is one that Table BTD-9 lists. -/
def resourceOk (k : Packet) : Bool :=
  let c := bits (k.param 0) 7 0
  (decide (1 ≤ c) && decide (c ≤ 4) && zeroBits (k.param 0) 8 24) || c = 5

/-- The port that holds the resource of a code: none where it is free. -/
def holderOf (s : State) (k : Packet) : Option Bool :=
  match bits (k.param 0) 7 0 with
  | 1 | 2 => if s.shared.syncIo = 0 then none else some s.shared.syncIoMgmt
  | 3 | 4 => if s.shared.trace = 0 then none else some s.shared.traceMgmt
  | _ => (tget? s.shared.wake (wakeChannel k)).map (fun w => w.1)

/-- The owner recorded for a claim. -/
def claimResource (s : State) (k : Packet) : State :=
  let h := s.shared
  let m := k.port.isMgmt
  match bits (k.param 0) 7 0 with
  | 1 | 2 => { s with shared := { h with syncIo := bits (k.param 0) 7 0, syncIoMgmt := m } }
  | 3 | 4 => { s with shared := { h with trace := bits (k.param 0) 7 0 - 2, traceMgmt := m } }
  | _ => { s with shared := { h with
      wake := tset h.wake (wakeChannel k) (m, 32768 * wakeSeconds k), wakeOwned := setBit h.wakeOwned (wakeChannel k) } }

/-- A release: releasing TALLY stops tracing. -/
def releaseResource (s : State) (k : Packet) : State :=
  let h := s.shared
  match bits (k.param 0) 7 0 with
  | 1 | 2 => { s with shared := { h with syncIo := 0, syncIoMgmt := false } }
  | 3 | 4 => { s with shared := { h with trace := 0, traceMgmt := false, tracing := false } }
  | _ => { s with shared := { h with
      wake := tdel h.wake (wakeChannel k), wakeOwned := clearBit h.wakeOwned (wakeChannel k) } }

/-- Whether a wake-timer claim meets the channel's use for a lease. -/
def channelLeased (s : State) (k : Packet) : Bool :=
  decide (bits (k.param 0) 7 0 = 5) && (s.part (wakeChannel k)).lease.set

/-- RESOURCE_CLAIM with ACTION claim; an ACTION of no row is refused here (R387). -/
def execResourceClaim (src : PktSrc) (s : State) : Host.Outcome State Fault Refusal :=
  .next (runVoted s src (fun k => k.op = 0x00A0 && k.word 5 ≠ 1) (fun k s =>
    if k.param 1 ≠ 0 || !resourceOk k || (bits (k.param 0) 7 0 = 5 && wakeSeconds k = 0) then .param s
    else if (holderOf s k).isSome || channelLeased s k then .say s Status.busy Detail.btdResourceHeld
    else .ok (claimResource s k)))

/-- RESOURCE_CLAIM with ACTION release: only from the claiming port; a free resource replies OK. -/
def execResourceRelease (src : PktSrc) (s : State) : Host.Outcome State Fault Refusal :=
  .next (runVoted s src (fun k => k.op = 0x00A0 && k.word 5 = 1) (fun k s =>
    if !resourceOk k then .param s
    else match holderOf s k with
      | none => .ok s
      | some m => if m = k.port.isMgmt then .ok (releaseResource s k) else .say s Status.busy Detail.btdResourceHeld))

/-! ## SYNC_IO (R520) -/

/-- Whether a partition's ticks are steered by TICK_INPUT: LOCKSTEP with no link port, or the root of a group. -/
def steersByEdge (s : State) (p : Nat) : Bool :=
  isLockstep s p && (s.part p).job.running &&
    (decide ((s.part p).record.zlPorts = 0) || (isLinked s p && decide ((s.part p).zlk.root = ownNumber s)))

/-- An edge in place of TICK_SYNC: the tick counter's distance from a multiple of 4,096. -/
def tickEdge (s : State) : State :=
  match (partsOf s).find? (steersByEdge s) with
  | none => s
  | some p => { s with links := { s.links with steering := sInt 12 (partTick s p) } }

/-- A TRIGGER edge (R519, R520): it may start the trace, writes its record, and may stop the trace. -/
def triggerEdge (s : State) : State :=
  let s := if traceOwned s && s.shared.startOnTrigger && !s.shared.tracing then startTrace s else s
  let s := trace s trTrigger none 0xFF 0 s.devTime []
  if traceOwned s && s.shared.stopOnTrigger then { s with shared := { s.shared with tracing := false } } else s

/-- SYNC_IO_EDGE (R520): an edge has an effect for the use that owns SYNC_IO. -/
def execSyncIoEdge (s : State) : Host.Outcome State Fault Refusal :=
  .next (match s.shared.syncIo with | 1 => tickEdge s | 2 => triggerEdge s | _ => s)

/-! ## DEBUG_HALT (R521) -/

/-- DEBUG_HALT with ACTION HALT; an ACTION of no row is refused here (R387). -/
def execDebugHalt (src : PktSrc) (s : State) : Host.Outcome State Fault Refusal :=
  .next (runVoted s src (fun k => k.op = 0x0082 && k.word 4 ≠ 1) (fun k s =>
    let q := s.part k.part
    if k.param 0 ≠ 0 then .param s
    else if !q.job.running && !q.kernel.running then .say s Status.badState Detail.btdHaltIdle
    else .ok (s.modPart k.part (fun q => { q with halted := true }))))

/-- A halted partition resumes, and a lease that ran out meets its pre-emption point; one whose key slots a scan zeroed
ends its job instead (R521 to R523). -/
def resumePart (s : State) (p : Nat) : State :=
  let lost := (s.part p).scanned
  let s := s.modPart p (fun q => { q with halted := false, scanned := false })
  if lost && (s.part p).job.running then endJob s p Status.keyInvalid Detail.keySlotEmpty none
  else
    let s := if (s.part p).state == .preempting && !unitRuns s p && (s.part p).ses.remainder.isEmpty then pointReached s p else s
    pumpCopies (tryStart s p) p

/-- DEBUG_HALT with ACTION RELEASE. -/
def execDebugRelease (src : PktSrc) (s : State) : Host.Outcome State Fault Refusal :=
  .next (runVoted s src (fun k => k.op = 0x0082 && k.word 4 = 1) (fun k s =>
    if !(s.part k.part).halted then .say s Status.badState Detail.btdNotHalted else .ok (resumePart s k.part)))

end Sys2Proof.Machine
end

