-- ==== Sys2Proof/Machine/FeederEvents.lean ====
section
/-! DEFINITION. What reaches a unit between ticks: weight lines and tags (R79, R92, R549), tag checks (R81, R83), and the
verdicts of the array checksum and the MVU residues (R76, R109, R110). -/

namespace Sys2Proof.Machine

/-- The partition a stall serves, where an epoch of its job is in progress. -/
def epochPartOf (s : State) (i : Nat) : Option Nat :=
  (ownerOfStall s i).bind (fun p => if (s.part p).job.running && (s.part p).epoch.running && !(s.part p).epoch.inBell then some p else none)

/-- A unit's program in the running epoch. -/
def unitOps (s : State) (p i : Nat) (mvu : Bool) : List OpWord :=
  stallProgram s (imageOf s p) (runningDesc s p) i (unitProgram mvu)

/-- The first block that lacks a line or its tag, relays apart. -/
def blockDue (f : Feeder) : Option Block := f.blocks.find? (fun b => b.source ≠ 1 && !blockWhole b)

/-- One block of a feeder replaced. -/
def setBlock (s : State) (i : Nat) (mvu : Bool) (b b' : Block) : State :=
  modFeeder s i mvu (fun f => { f with blocks := f.blocks.map (fun x => if x = b then b' else x) })

/-- Where the fill of a block's miss goes (R92, R224). -/
def blockFill (b : Block) : MissFill := if b.retain then .slice else .fetch

/-- Bytes of a block in a line of own memory, by a non-allocating snooping read that RETAIN makes allocate: the bytes and
whether they are poisoned, once memory has brought what the slice lacks (R268, R282). -/
def memoryRead (s : State) (p i : Nat) (b : Block) (mvu : Bool) (a va n : Nat) : State × ReadResult × Bool :=
  let ag : Agent := .feeder (Fin.ofNat 64 i) mvu
  let o := va % 1024
  let s := lookUp s p a
  let out := if readsMemory s p a false
    then stillOut s p a (fetchMask (placesLine s p a ag (blockFill b)) (rangeSectors o n)) true else 0
  if out ≠ 0 then (askMemory s p a out (.feeder (Fin.ofNat 64 i) mvu), .waits, false)
  else
    let bad := (List.range 8).any (fun k => bit (s.line p a).bad k && decide (o < 128 * (k + 1)) && decide (128 * k < o + n))
    let r := readVa s p 1 va n
    (spendRead (access (deadRead r.1 p a ag) p a ag (if kvAt s p a va then clsKv else clsWeight) (blockFill b)) p a, r.2, bad)

/-- `n` bytes for a block, and whether memory has poisoned them: from the stall's scratchpad, from own memory, or by a read
beyond it. -/
def blockRead (s : State) (p i : Nat) (b : Block) (mvu : Bool) (va n : Nat) : State × ReadResult × Bool :=
  if b.source = 2 then (checkSpad s p i va n, .data ((List.range n).map (fun o => spadRead s i (va + o))), false)
  else match lineOfVa s p va with
    | some a =>
      if isLsmLine a && (homeOf s p a).isSome then memoryRead s p i b mvu a va n
      else let r := readVa s p 1 va n; (r.1, r.2, false)
    | none => let r := readVa s p 1 va n; (r.1, r.2, false)

/-- Whether a block's line lies at a companion site, whose data may come poisoned (R549). -/
def fromSite (s : State) (p va : Nat) : Bool :=
  match translate s p va false with
  | .ok t => (match regionOf (t.sys % 2 ^ 44) with | .companion _ _ => true | _ => false)
  | .error _ => false

/-- A line of a block is here: the 64th of a clear stream makes it ready 24 ticks later (R80, R87). -/
def lineHere (s : State) (p i : Nat) (mvu : Bool) (b : Block) (bs : List Byte) (poisoned : Bool) : State :=
  let n := b.lines + 1
  let last := decide (n = 64) && b.slot = 0xF
  let bad := b.poisoned || poisoned
  let s := setBlock s i mvu b { b with
    lines := n, cipher := b.cipher ++ bs, poisoned := bad, verified := last && !bad, failed := last && bad
    wait := if last then 24 else b.wait }
  if last && bad && fromSite s p b.va then unitError s p Detail.pkgCompanionPoison (some i) else s

/-- FEEDER_LINE_ARRIVAL (R79, R92, R549): the next line, or after 64 the tag, of the first block that lacks one. A
translation fault ends the job (Table PTN-5); data that is not here is asked for and waited for. `poisoned` is how a companion
site marks its data. -/
def execFeederLineArrival (stall : Fin 64) (mvu poisoned : Bool) (s : State) : Host.Outcome State Fault Refusal :=
  .next (match epochPartOf s stall with
    | none => s
    | some p => match blockDue (feederOf s stall mvu) with
      | none => s
      | some b =>
        let isTag := decide (64 ≤ b.lines)
        match blockRead s p stall b mvu (if isTag then b.tagVa else b.va + 1024 * b.lines) (if isTag then 16 else 1024) with
        | (s, .waits, _) => s
        | (s, .fault st d, _) => contained s p st d (some stall.val)
        | (s, .data bs, bad) =>
          let poisoned := bad || (poisoned && fromSite s p (b.va + 1024 * b.lines))
          if isTag then setBlock s stall mvu b { b with tag := bs, tagHere := true, poisoned := b.poisoned || poisoned }
          else lineHere s p stall mvu b bs poisoned)

/-- The first block whose tag can be checked: it is whole, and every block before it in its stream has been checked, so that
its place in the stream is known (R81). -/
def tagDue (f : Feeder) : Option Block :=
  f.blocks.find? (fun b => blockWhole b && !b.verified && !b.failed && b.slot ≠ 0xF &&
    ((streamBlocks f b.scales).takeWhile (fun x => x ≠ b)).all (fun x => x.verified || x.failed))

/-- TAG_CHECK (R81, R83, R86): the block's tag is computed under the format that will draw it and compared. -/
def execTagCheck (stall : Fin 64) (mvu : Bool) (s : State) : Host.Outcome State Fault Refusal :=
  .next (match epochPartOf s stall with
    | none => s
    | some p =>
      let f := feederOf s stall mvu
      match tagDue f with
      | none => s
      | some b =>
        if (tget? f.epochKeys b.slot).isNone then keyFault s p
        else
          let fmt := formatAt mvu b.scales (injections mvu (unitOps s p stall mvu)) (blockPos f b)
          if !b.poisoned && tagRight f b fmt then setBlock s stall mvu b { b with verified := true, wait := 24 }
          else
            let s := setBlock s stall mvu b { b with failed := true }
            unitError (modFeeder s stall mvu (fun f => { f with tagFails := satInc f.tagFails 65535 })) p Detail.weightTag (some stall.val))

/-- The oldest verdict of a unit is taken: whether one was due, and whether it passes. -/
def takeVerdict (s : State) (i : Nat) (mvu : Bool) : Option Bool × State :=
  match (munitOf s i mvu).verdicts with
  | [] => (none, s)
  | v :: r => (some v.1, modMunit s i mvu (fun u => { u with verdicts := r }))

/-- Whether an error counts in CHECK_FAILS, a checksum comparison, or in RESIDUE_FAILS, a residue mismatch (R101, R116). -/
def countsFail (d : Nat) : Bool := d = Detail.arrayChecksum || d = Detail.mvuResidue || d = Detail.mvuOutputResidue

/-- A verdict as it comes in: a failure is counted and marks the unit ERROR. -/
def verdictIn (s : State) (i : Nat) (mvu : Bool) (fail : Option Nat) : State :=
  match fail with
  | none => s
  | some d =>
    let s := if countsFail d then modMunit s i mvu (fun u => { u with fails := satInc u.fails 255 }) else s
    match ownerOfStall s i with
    | none => s
    | some p => unitError s p d (some i)

/-- The detail of an engine error: of the engine or of the MVU (Table CHK-2). -/
def errorDetail (mvu : Bool) (e : EngineError) : Nat :=
  match e with
  | .checksum => if mvu then Detail.mvuResidue else Detail.arrayChecksum
  | .carryParity => if mvu then Detail.mvuCarryParity else Detail.carryParity
  | .outputResidue => if mvu then Detail.mvuOutputResidue else Detail.outputResidue

/-- A parity error of a stall's carry buffer counts toward a fence: the sixteenth within a second fences it (R510). -/
def countParity (s : State) (i : Nat) (error : Option EngineError) : State :=
  if error = some .carryParity then countFence s i else s

/-- The next verdict of a unit, with a hardware error where one was found. -/
def verdict (s : State) (i : Nat) (mvu : Bool) (error : Option EngineError) : State :=
  match takeVerdict s i mvu with
  | (none, s) => s
  | (some pass, s) => countParity (verdictIn s i mvu (match error with
    | some e => some (errorDetail mvu e)
    | none => if pass then none else some (errorDetail mvu .checksum))) i error

/-- CHECKSUM_VERDICT (R59 to R61, R76, R77). -/
def execChecksumVerdict (stall : Fin 64) (error : Option EngineError) (s : State) : Host.Outcome State Fault Refusal :=
  .next (verdict s stall false error)

/-- RESIDUE_VERDICT (R109, R110). -/
def execResidueVerdict (stall : Fin 64) (error : Option EngineError) (s : State) : Host.Outcome State Fault Refusal :=
  .next (verdict s stall true error)

end Sys2Proof.Machine
end

