-- ==== Sys2Proof/Machine/Registers.lean ====
section
/-! DEFINITION. The device internal register space as it reads (R373): every register of the chapters' maps as its fields
in the state, and the address map over them. -/

namespace Sys2Proof.Machine

/-! ## Organisation (R14, R25) -/

/-- Whether a spare row or column of an array carries data: position 128 or 129 (Table MXE-1). -/
def spareUsed (out : List Nat) : Bool := (dataPositions out).any (fun x => decide (128 ≤ x))

/-- STALL_MAP[i]. -/
def rStallMap (s : State) (i : Nat) : Nat :=
  let o := ownerOfStall s i
  let q := 18 * dieOf i + physOf s i
  pack [(0, 2, dieOf i), (2, 2, rowOf s i), (4, 3, colOf s i), (8, 1, b2n (isFenced s i)), (9, 1, b2n o.isSome),
    (10, 6, o.getD 0), (16, 1, b2n (spareUsed (tget s.fuses.rowsOut q))), (17, 1, b2n (spareUsed (tget s.fuses.colsOut q)))]

/-- DIE_HARVEST[d]. -/
def rDieHarvest (s : State) (d : Nat) : Nat :=
  pack [(0, 18, s.fuses.harvest.getD d 0), (18, 18, s.fencedPos / 2 ^ (18 * d))]

/-- EDGE_STATUS[e]. -/
def rEdgeStatus (s : State) (e : Nat) : Nat :=
  pack [(0, 4, edgeModules e), (4, 4, edgeS s e), (8, 12, edgeMask s e), (20, 12, grantedModules s e),
    (32, 12, (tget s.edges e).failed)]

/-! ## Engines and feeders (R101, R116) -/

/-- Whether a stall's partition runs an epoch: its number. -/
def epochOwner (s : State) (i : Nat) : Option Nat :=
  (ownerOfStall s i).bind (fun p => if (s.part p).epoch.running then some p else none)

/-- STATE of a unit: idle, running, withheld, or halted (R101). A unit without a program in the running epoch is running or
withheld with its domain (DESIGN CHOICE, log entry 159). -/
def unitState (s : State) (i : Nat) : Nat :=
  if (ownerOfStall s i).any (fun p => (s.part p).halted) then 3
  else match epochOwner s i with
    | none => 0
    | some p => if (s.dom p (dieOf i)).held then 2 else 1

/-- The tile active in a unit after the ticks taken: a swap takes place at the end of the tick after the flagged word's
injection (R71, R106). -/
def activeNow (s : State) (i : Nat) (mvu : Bool) : Active :=
  match epochOwner s i with
  | none => .none
  | some p => activeAt mvu (unitOps s p i mvu) ((s.dom p (dieOf i)).epochTick - 1)

/-- Whether a tile loaded whole awaits its swap: a LOAD after the active one. -/
def shadowFull (s : State) (i : Nat) (mvu : Bool) : Bool :=
  match epochOwner s i with
  | none => false
  | some p =>
    let t := (s.dom p (dieOf i)).epochTick
    let loads := loadsOf (unitOps s p i mvu)
    let from' := match activeNow s i mvu with | .load n _ => n + 1 | _ => 0
    ((List.range loads.length).zip loads).any (fun (l : Nat × OpWord) =>
      decide (from' ≤ l.1) && decide (opTick l.2 + loadTicks mvu (loadFormat l.2) ≤ t))

/-- A register of a stall, which reads zero once the stall is fenced (R101, R116, R212). -/
def unlessFenced (s : State) (i x : Nat) : Nat := if isFenced s i then 0 else x

/-- MXE_STATUS[i]. -/
def rMxeStatus (s : State) (i : Nat) : Nat :=
  let u := (s.stall i).mxe
  unlessFenced s i <| pack [(0, 2, unitState s i), (2, 1, b2n (shadowFull s i false)), (8, 8, u.fails), (32, 32, u.passes)]

/-- B of the active vector tile, 0 when none; the all +0 tile of R72 has no B and reads 0 (DESIGN CHOICE, log entry 159). -/
def activeRows (s : State) (i : Nat) : Nat := match activeNow s i true with | .load _ x => x.m | _ => 0

/-- MVU_STATUS[i]. -/
def rMvuStatus (s : State) (i : Nat) : Nat :=
  let u := (s.stall i).mvu
  unlessFenced s i <| pack [(0, 2, unitState s i), (2, 1, b2n (shadowFull s i true)), (8, 8, u.fails), (16, 4, activeRows s i), (32, 32, u.passes)]

/-- FEEDER_STATUS by 2 · stall + feeder. -/
def rFeederStatus (s : State) (n : Nat) : Nat :=
  let f := feederOf s (n / 2) (n % 2 = 1)
  let count := fun (sc : Bool) => (f.blocks.filter (fun b => b.verified && b.scales == sc)).length
  unlessFenced s (n / 2) <| pack [(0, 8, ofBits ((List.range 8).filter (fun k => (tget? f.slots k).isSome))), (8, 2, Nat.min 3 (count false)),
    (10, 2, Nat.min 2 (count true)), (32, 16, f.tagFails), (48, 8, f.packErrors)]

/-! ## Fabric (R139) -/

/-- The table of a stall's router in the running epoch, and the entry it applies. -/
def routerTable (s : State) (i : Nat) : Option (Nat × Option Nat) :=
  match epochOwner s i with
  | none => none
  | some p =>
    let rd := imageOf s p
    (tableAt s rd (runningDesc s p) i).map (fun off => (off, entryAt rd off (s.dom p (dieOf i)).epochTick))

/-- FAB_ROUTER[i]: a pass-through router shows nothing but its mode. -/
def rFabRouter (s : State) (i : Nat) : Nat :=
  let r := (s.stall i).router
  let t := routerTable s i
  if passThrough s (positionOf s i) then 2
  else pack [(0, 2, b2n t.isSome), (2, 1, b2n r.bank), (3, 1, b2n r.addEmpty), (16, 12, (t.bind (fun x => x.2)).getD 0), (32, 16, r.parityErrs)]

/-- The domain of a stall: none while no partition lists it. -/
def stallDomain (s : State) (i : Nat) : Domain :=
  match ownerOfStall s i with | some p => s.dom p (dieOf i) | none => {}

/-- XING_STATUS by 16 · edge + module: fabric-mode modules read zero. -/
def rXingStatus (s : State) (n : Nat) : Nat :=
  let e := n / 16
  let m := n % 16
  if bit (edgeMask s e) m then
    let f := tget s.crossings (crossKey e m 0)
    let v := tget s.crossings (crossKey e m 1)
    let held := fun (first : Bool) => match (partsOf s).find? (fun p => moduleGranted s p e m) with
      | none => 0
      | some p => Nat.min 32 (undelivered s p e m first)
    pack [(0, 6, held true), (8, 6, held false), (16, 6, Nat.min 32 f.maxOcc),
      (24, 6, Nat.min 32 v.maxOcc), (32, 16, Nat.min 65535 (f.markErrs + v.markErrs))]
  else 0

/-! ## Plans (R173) -/

/-- STATE of PLN_STATUS. -/
def planState (s : State) (p : Nat) : Nat :=
  let q := s.part p
  if q.plan.isNone then 0
  else if q.job.faulted && !q.job.running then 6
  else if q.state == .preempted then 5
  else if !q.epoch.running then 1
  else if (domainsOf s p).any (fun d => (s.dom p d).waits) then 4
  else if q.epoch.inBell || (domainsOf s p).any (fun d => decide ((s.dom p d).bellTick ≠ 0)) then 3 else 2

/-- PLN_STATUS[p]. -/
def rPlnStatus (s : State) (p : Nat) : Nat :=
  let q := s.part p
  pack [(0, 3, planState s p), (3, 2, q.epoch.replays), (5, 1, b2n q.epoch.nonrepl), (6, 1, b2n q.job.wcetOver),
    (16, 16, q.epoch.entry), (32, 32, q.job.bells)]

/-! ## Cores (R212) -/

/-- Groups resident on a core. -/
def residentOn (s : State) (i c : Nat) : Nat := (s.groups.filter (fun g => g.2.live && decide (g.1 / 64 = 12 * i + c))).length

/-- TGC_CORE by 16 · stall + core. -/
def rTgcCore (s : State) (n : Nat) : Nat :=
  let i := n / 16
  let c := n % 16
  if 12 ≤ c then 0
  else
    let x := tget (s.stall i).cores c
    let live := residentOn s i c
    let st := if (ownerOfStall s i).any (fun p => (s.part p).halted) then 3
      else if live ≠ 0 then 1 else if (s.stall i).gate == .clockGated then 2 else 0
    unlessFenced s i (pack [(0, 2, st), (2, 7, live), (32, 16, x.regParity), (48, 16, x.l1Parity)])

/-- TGC_LAUNCH[p]. -/
def rTgcLaunch (s : State) (p : Nat) : Nat :=
  let k := (s.part p).kernel
  let st := if k.running then (if k.stage = 0 then 1 else 2) else if k.failed then 3 else 0
  pack [(0, 2, st), (2, 2, k.replays), (4, 1, b2n k.nonrepl), (5, 1, b2n (k.running && anyDiv s p)), (16, 25, k.groupsDone)]

/-! ## Cache and memory (R242, R291) -/

/-- UCC_SLICE[i]. -/
def rUccSlice (s : State) (i : Nat) : Nat :=
  pack [(0, 16, (tget s.fuses.wayDisable i).toNat), (16, 1, b2n (s.stall i).rehoming), (32, 16, (s.stall i).sliceParity)]

/-- UCC_PART[p]. -/
def rUccPart (s : State) (p : Nat) : Nat :=
  let q := s.part p
  pack [(0, 4, stageWays q.record), (4, 1, b2n q.cache.deadTrap), (8, 21, stageQuota q.record), (32, 21, q.record.pinQuota)]

/-- UCC_USE[p]. -/
def rUccUse (s : State) (p : Nat) : Nat := pack [(0, 21, stagedCount s p), (32, 21, pinnedCount s p)]

/-- LSM_STACK[j]. -/
def rLsmStack (s : State) (j : Nat) : Nat :=
  let x := tget s.hbm j
  pack [(0, 8, x.temp), (8, 1, b2n x.throttle), (9, 1, b2n x.stopped), (10, 1, b2n x.selfRefresh), (11, 1, b2n x.trained),
    (32, 32, Nat.min x.stopTime (2 ^ 32 - 1))]

/-- LSM_CHAN[c]. -/
def rLsmChan (s : State) (c : Nat) : Nat :=
  let x := s.chan c
  pack [(0, 32, x.retries), (32, 16, x.persistent), (48, 8, x.retrains), (56, 1, b2n x.failed)]

/-- LSM_PART[p]. -/
def rLsmPart (s : State) (p : Nat) : Nat :=
  pack [(0, 8, if (s.part p).present then (s.part p).record.memWeight else 0), (8, 8, (s.part p).refill.refills)]

/-- LSM_REFILL[p]: DONE is write-only and reads zero. -/
def rLsmRefill (s : State) (p : Nat) : Nat :=
  pack [(0, 1, b2n (s.part p).refill.pending), (16, 48, (s.part p).refill.page.toNat / 2 ^ 16)]

/-- The record in entry `i` of a log of `size` entries, newest first, of which `count` were made: record n lies in entry n
modulo the size. -/
def logEntry {α : Type} (l : List α) (count size i : Nat) : Option α :=
  l[(count + size - 1 - i % size) % size]?

/-- LSM_FAIL_LOG[i]. -/
def rFailLog (s : State) (i : Nat) : Nat :=
  match logEntry s.failLog s.failCount 16 i with
  | none => 0
  | some r => pack [(0, 33, r.burst), (33, 1, b2n r.write), (34, 6, r.part), (40, 1, b2n r.granted), (41, 1, 1)]

/-! ## Checking (R320) -/

/-- CHK_PART[p]. -/
def rChkPart (s : State) (p : Nat) : Nat :=
  let q := s.part p
  pack [(0, 32, q.chk.corrected), (32, 8, q.chk.stageBells), (40, 1, b2n q.epoch.wide), (41, 1, b2n q.chk.pending),
    (48, 13, q.chk.ledgerMax)]

/-- CHK_LOG[i]. -/
def rChkLog (s : State) (i : Nat) : Nat :=
  match logEntry s.chkLog s.chkCount 64 i with
  | none => 0
  | some r => pack [(0, 24, r.detail), (24, 2, r.cls), (26, 6, r.part), (32, 6, r.stall.getD 0), (38, 1, b2n r.stall.isSome),
      (39, 1, b2n r.deviceWide), (40, 2, r.attempt), (42, 1, 1)]

/-- CHK_LOG_TICK[i]. -/
def rChkLogTick (s : State) (i : Nat) : Nat := match logEntry s.chkLog s.chkCount 64 i with | none => 0 | some r => r.tick

/-- CHK_DEVICE. -/
def rChkDevice (s : State) : Nat := pack [(0, 16, s.fuseRewrites), (16, 16, s.pitchRewrites), (32, 16, s.sessionRewrites)]

/-! ## Links and sessions (R353, R368) -/

/-- ZLK_JOB[p]. -/
def rZlkJob (s : State) (p : Nat) : Nat :=
  let z := (s.part p).zlk
  pack [(0, 12, z.root), (12, 13, z.members.length), (25, 1, b2n z.split), (32, 32, z.lastFinal)]

/-- ZLK_ROUTE[d]. -/
def rZlkRoute (s : State) (d : Nat) : Nat := pack [(0, 12, ofBits (routePorts s d)), (12, 12, hopsTo s d)]

/-- ADMITTED: the open sessions in WCET mode, READY and RUNNING ones otherwise. -/
def admittedCount (s : State) (p : Nat) : Nat :=
  if (s.part p).record.session = 1 then (openSessions s p).length
  else ((List.range (s.part p).record.sesCount).filter (fun i =>
    let st := sesState (sesRead s p i); decide (st = sesReady) || decide (st = sesRunning))).length

/-- SES_PART[p]. -/
def rSesPart (s : State) (p : Nat) : Nat :=
  let z := (s.part p).ses
  let st := if z.follower then 3 else if z.stepping then 2 else if z.serving then 1 else 0
  pack [(0, 2, st), (2, 1, b2n (z.stepping && z.fallback)), (8, 9, if z.stepping then z.batch.length else 0),
    (32, 23, admittedCount s p)]

/-- SES_STAT[p]. -/
def rSesStat (s : State) (p : Nat) : Nat :=
  let z := (s.part p).ses
  pack [(0, 24, z.misses), (24, 16, z.excusedMisses), (40, 24, z.fallbacks)]

/-! ## Partitions and identity (R428, R450) -/

/-- STATE code of a partition. -/
def partStateCode (x : PartState) : Nat :=
  match x with | .none => 0 | .idle => 1 | .running => 2 | .preempting => 3 | .preempted => 4 | .resetting => 5

/-- PTN_STATE[p]. -/
def rPtnState (s : State) (p : Nat) : Nat :=
  let q := s.part p
  pack [(0, 3, partStateCode q.state), (3, 1, b2n q.lease.set), (4, 1, b2n q.logHost.isSome), (5, 1, b2n q.logDevice.isSome),
    (16, 11, popCount q.record.mem 2047), (32, 32, q.resets)]

/-- PTN_LEASE[p]. -/
def rPtnLease (s : State) (p : Nat) : Nat :=
  let l := (s.part p).lease
  pack [(0, 40, if l.set then l.remain else 0), (40, 20, if l.set then l.grace else 0)]

/-- PTN_FAULT[p]. -/
def rPtnFault (s : State) (p : Nat) : Nat :=
  let f := (s.part p).fault
  pack [(0, 48, f.va.toNat), (48, 8, f.cause.toNat), (56, 3, f.agent.toNat), (59, 1, b2n f.write), (60, 1, b2n f.valid)]

/-- PTN_SIG by 4 · partition + i. -/
def rPtnSig (s : State) (n : Nat) : Nat := field (natLe 32 (s.part (n / 4)).signature.toNat) (8 * (n % 4)) 8

/-- SEC_DEVICE. -/
def rSecDevice (s : State) : Nat :=
  pack [(0, 1, b2n s.sec.ownerKey.isSome), (1, 1, b2n s.sec.aliasValid), (8, 3, (openSessionsOf s).length), (32, 32, s.boot.fwSvn)]

/-- SEC_PART[p]. -/
def rSecPart (s : State) (p : Nat) : Nat :=
  let q := s.part p
  let e := q.sec.evidence
  pack [(0, 1, b2n e.isSome), (1, 1, b2n (e.any (fun x => x.2.2.1.isSome))), (2, 1, b2n (e.any (fun x => x.2.2.2))),
    (8, 8, ofBits (q.pendingKeys.map (fun k => k.1))), (16, 32, q.sec.attests), (48, 8, q.sec.unwrapFails)]

/-! ## Power (R478, R497) -/

/-- PWR_DEVICE. -/
def rPwrDevice (s : State) : Nat :=
  let w := s.power
  pack [(0, 12, w.cap), (12, 1, b2n (capPending s)), (13, 1, b2n w.alert), (14, 1, b2n w.coolantOk), (15, 1, b2n w.coolantStop),
    (16, 1, b2n w.restartReady), (17, 1, b2n w.tripReport), (32, 16, w.edlEvents), (48, 16, w.alerts)]

/-- PWR_DIE[d]. -/
def rPwrDie (s : State) (d : Nat) : Nat :=
  let x := s.die d
  pack [(0, 8, x.tj), (8, 8, x.thermal), (16, 8, dieShare s d), (24, 1, b2n (drooping s d)), (32, 12, x.coreMhz), (48, 16, x.droops)]

/-- PWR_PART[p]: ALLOC and POWER in watts. -/
def rPwrPart (s : State) (p : Nat) : Nat :=
  let w := (s.part p).pwr
  let share := (diesOf s p).foldl (fun k d => Nat.max k (appliedShare s p d)) 0
  pack [(0, 8, share), (8, 8, phaseOf s p), (16, 1, b2n (s.part p).boost), (17, 1, b2n w.pendingShare), (32, 16, w.alloc / 1000),
    (48, 16, w.power / 1000)]

/-- PWR_FREQ[p]. -/
def rPwrFreq (s : State) (p : Nat) : Nat := pack ((List.range 4).map (fun d => (16 * d, 16, shownMhz s p d)))

/-- PST_DEVICE. -/
def rPstDevice (s : State) : Nat :=
  let w := s.power
  pack [(0, 3, stateCode w.state), (3, 3, w.wakeCause), (6, 1, b2n w.fromDeep), (7, 1, b2n w.padsHeld), (8, 8, w.stacksKept.toNat),
    (32, 32, Nat.min w.deepEntries (2 ^ 32 - 1))]

/-- Gate code of a stall. -/
def gateCode (x : Gate) : Nat := match x with | .active => 0 | .clockGated => 1 | .powerGated => 2 | .off => 3

/-- PST_GATE[i]. -/
def rPstGate (s : State) (i : Nat) : Nat := pack ((List.range 32).map (fun k => (2 * k, 2, gateCode (s.stall (32 * i + k)).gate)))

/-- PST_CLOCK[d]. -/
def rPstClock (s : State) (d : Nat) : Nat :=
  let x := s.die d
  pack [(0, 1, b2n x.pllM), (1, 1, b2n x.pllC), (16, 16, x.lockLosses)]

/-! ## Boot, test, debug and package (R525, R545) -/

/-- STAGE code. -/
def stageCode (x : Stage) : Nat :=
  match x with | .rom => 0 | .flash => 1 | .firmware => 2 | .training => 3 | .ready => 4 | .recovery => 5 | .fatal => 6

/-- BTD_BOOT: an update holds a memory unit on a ready device only. -/
def rBtdBoot (s : State) : Nat :=
  let u := if s.boot.stage == .recovery then none else s.boot.update
  pack [(0, 3, stageCode s.boot.stage), (3, 3, s.boot.cause), (6, 1, b2n s.boot.strapRecovery), (7, 1, b2n u.isSome),
    (8, 11, (u.map (fun x => x.2)).getD 0), (19, 7, s.fuses.svnFloor), (32, 32, s.boot.fwVersion)]

/-- BTD_BIST[i]. -/
def rBtdBist (s : State) (i : Nat) : Nat :=
  let b := (s.stall i).bist
  pack [(0, 2, b.state), (2, 4, b.verdict), (16, 16, b.runs)]

/-- BTD_OWNER. -/
def rBtdOwner (s : State) : Nat :=
  let h := s.shared
  pack [(0, 2, h.syncIo), (2, 1, b2n h.syncIoMgmt), (3, 2, h.trace), (5, 1, b2n h.traceMgmt), (6, 1, b2n h.tracing),
    (7, 1, b2n h.wrapped), (8, 24, h.next)]

/-- BTD_RECOVERY[p]. -/
def rBtdRecovery (s : State) (p : Nat) : Nat :=
  let t := (s.part p).tally
  pack [(0, 4, t.lastCause), (8, 16, Nat.min t.events 65535), (24, 40, Nat.min t.recTicks (2 ^ 40 - 1))]

/-- COMP_STATUS[i]. -/
def rCompStatus (s : State) (i : Nat) : Nat :=
  let x := s.site i
  let o := (partsOf s).find? (fun p => bit (s.part p).record.companion i)
  pack [(0, 2, x.state), (2, 3, x.modules), (5, 6, x.rate), (11, 1, b2n x.flit256), (12, 1, b2n o.isSome), (13, 6, o.getD 0),
    (32, 8, x.units)]

/-- COMP_ID[i]. -/
def rCompId (s : State) (i : Nat) : Nat := pack [(0, 16, (s.site i).vendor.toNat), (16, 16, (s.site i).device.toNat)]

/-! ## The address map -/

/-- An array of registers: offset of the first, distance, count, and the value of number `i`. -/
structure Bank where
  base : Nat
  stride : Nat
  count : Nat
  value : State → Nat → Nat

/-- The arrays of chapters 1 to 9. -/
def banksCompute : List Bank :=
  [⟨0x10000, 8, 64, rStallMap⟩, ⟨0x10200, 8, 4, rDieHarvest⟩, ⟨0x10300, 8, 6, rEdgeStatus⟩,
   ⟨0x100000, 8, 64, rMxeStatus⟩, ⟨0x100200, 8, 128, rFeederStatus⟩, ⟨0x100600, 8, 64, rMvuStatus⟩,
   ⟨0x200000, 8, 64, rFabRouter⟩, ⟨0x200200, 8, 64, fun s i => (stallDomain s i).ticks⟩,
   ⟨0x200400, 8, 64, fun s i => (stallDomain s i).withheld⟩, ⟨0x200800, 8, 96, rXingStatus⟩,
   ⟨0x300000, 0x20, 64, rPlnStatus⟩, ⟨0x300008, 0x20, 64, fun s p => (s.part p).job.bellWait⟩,
   ⟨0x300010, 0x20, 64, fun s p => (s.part p).job.flip⟩] ++
  [⟨0x400000, 8, 1024, rTgcCore⟩, ⟨0x402000, 0x10, 64, rTgcLaunch⟩,
   ⟨0x402008, 0x10, 64, fun s p => (s.part p).job.launches⟩,
   ⟨0x500000, 8, 64, rUccSlice⟩, ⟨0x500400, 0x10, 64, rUccPart⟩, ⟨0x500408, 0x10, 64, rUccUse⟩,
   ⟨0x501000, 8, 2048, fun s n => tget (s.part (n / 32)).cache.tally (n % 32)⟩]

/-- The arrays of chapters 10 to 15. -/
def banksMemory : List Bank :=
  [⟨0x600000, 8, 8, rLsmStack⟩, ⟨0x601000, 8, 512, rLsmChan⟩, ⟨0x602000, 0x10, 64, rLsmPart⟩,
   ⟨0x602008, 0x10, 64, rLsmRefill⟩, ⟨0x603000, 8, 16, rFailLog⟩,
   ⟨0x700000, 0x10, 64, rChkPart⟩, ⟨0x701000, 0x10, 64, rChkLog⟩, ⟨0x701008, 0x10, 64, rChkLogTick⟩,
   ⟨0x700800, 8, 1, fun s _ => rChkDevice s⟩] ++
  [⟨0x800000, 8, 1, fun s _ => zlkDevice s⟩, ⟨0x800100, 8, 12, zlkPort⟩, ⟨0x800200, 8, 12, zlkPortErr⟩,
   ⟨0x800400, 8, 64, rZlkJob⟩, ⟨0x808000, 8, 4096, rZlkRoute⟩,
   ⟨0x900000, 0x10, 64, rSesPart⟩, ⟨0x900008, 0x10, 64, rSesStat⟩,
   ⟨0xA00000, 0x20, 64, rPtnState⟩, ⟨0xA00008, 0x20, 64, rPtnLease⟩, ⟨0xA00010, 0x20, 64, rPtnFault⟩,
   ⟨0xA01000, 8, 256, rPtnSig⟩]

/-- The arrays of chapters 16 to 20. -/
def banksDevice : List Bank :=
  [⟨0xB00000, 8, 1, fun s _ => rSecDevice s⟩, ⟨0xB00100, 8, 64, rSecPart⟩,
   ⟨0xC00000, 8, 1, fun s _ => rPwrDevice s⟩, ⟨0xC00100, 8, 4, rPwrDie⟩, ⟨0xC01000, 0x20, 64, rPwrPart⟩,
   ⟨0xC01008, 0x20, 64, rPwrFreq⟩, ⟨0xC01010, 0x20, 64, fun s p => (s.part p).pwr.bubbles⟩,
   ⟨0xD00000, 8, 1, fun s _ => rPstDevice s⟩, ⟨0xD00008, 8, 2, rPstGate⟩, ⟨0xD00100, 8, 4, rPstClock⟩] ++
  [⟨0xE00000, 8, 1, fun s _ => rBtdBoot s⟩, ⟨0xE00100, 8, 64, rBtdBist⟩, ⟨0xE00400, 8, 1, fun s _ => rBtdOwner s⟩,
   ⟨0xE00408, 8, 1, fun s _ => s.shared.wakeOwned⟩, ⟨0xE01000, 8, 64, rBtdRecovery⟩,
   ⟨0xE02000, 8, 1024, fun s n => tget (s.part (n / 16)).tally.tally (n % 16)⟩,
   ⟨0xF00000, 8, 2, rCompStatus⟩, ⟨0xF00010, 8, 2, rCompId⟩]

/-- Whether a bank has a register at an offset. -/
def Bank.has (b : Bank) (o : Nat) : Bool :=
  decide (b.base ≤ o) && decide ((o - b.base) % b.stride = 0) && decide ((o - b.base) / b.stride < b.count)

/-- The register at an offset of the internal register space: an offset that holds none reads zero (R373). -/
def regAt (s : State) (o : Nat) : Nat :=
  match (banksCompute ++ banksMemory ++ banksDevice).find? (fun b => b.has o) with
  | some b => b.value s ((o - b.base) / b.stride)
  | none => 0

/-- One byte of the internal register space; the trace buffer lies at 0x800_0000 (R518). -/
def regByte (s : State) (o : Nat) : Byte :=
  if 0x8000000 ≤ o ∧ o < 0x8000000 + traceBytes then mread s.shared.buffer (o - 0x8000000)
  else BitVec.ofNat 8 (regAt s (8 * (o / 8)) / 2 ^ (8 * (o % 8)))

/-! ## Registers of the host functions (R398, R400, R401) -/

/-- VF_STATUS. -/
def rVfStatus (s : State) (fn : Fin 65) : Nat :=
  let f := s.fn fn
  let q := s.part (fn.val - 1)
  let vf := decide (fn.val ≠ 0)
  pack [(0, 6, fn.val - 1), (6, 1, b2n !vf), (7, 1, b2n (vf && q.present)), (8, 1, b2n (vf && q.job.running)),
    (9, 1, b2n (vf && q.state == .resetting)), (10, 1, b2n (decide (f.ringLog2 = 0))), (11, 1, b2n f.overrun), (12, 1, b2n f.dpErr),
    (13, 1, b2n f.eventsLost), (14, 1, b2n !f.waiting.isEmpty), (15, 1, b2n f.hwinRefused), (16, 8, f.noringStatus),
    (32, 13, Nat.min 4096 ((outstandingOf s (.host fn)).length + (if f.ringLog2 = 0 then 0 else f.order.length)))]

/-- The registers of a function's BAR0 below 0x0058 as they read. -/
def functionReg (s : State) (fn : Fin 65) (o : Nat) : Nat :=
  let f := s.fn fn
  match o with
  | 0x00 => rVfStatus s fn
  | 0x08 => f.ringBase / 4096 * 4096
  | 0x10 => pack [(0, 32, f.producer), (32, 5, f.ringLog2)]
  | 0x18 => f.head
  | 0x20 => f.intCause.toNat
  | 0x28 => pack [(0, 4, f.intMask.toNat), (8, 3, f.vecReply.toNat), (12, 3, f.vecEvent.toNat), (16, 3, f.vecStall.toNat),
      (20, 3, f.vecDp.toNat)]
  | 0x40 => if fn.val = 0 then 0 else f.dpAddr.toNat
  | 0x48 => if fn.val = 0 then 0 else pack [(0, 1, b2n f.dpHold), (1, 3, f.dpPrefetch.toNat)]
  | 0x50 => if fn.val = 0 then 0 else pack [(0, 48, f.dpErrAddr.toNat), (48, 1, b2n f.dpErrWrite)]
  | _ => 0

/-- HWIN_WIN and HWIN_HOST of an entry as they read (R375). -/
def hwinReg (s : State) (p r : Nat) (host : Bool) : Nat :=
  let e := tget (s.part p).hwin r
  if host then pack [(0, 21, e.size.toNat), (21, 31, e.hpa.toNat)] else pack [(0, 1, b2n e.enable), (21, 20, e.offset.toNat)]

/-- The internal register that a VF's partition view shows at an offset, by its own offset (Table HST-4, R478, R525). -/
def viewOffset (p o : Nat) : Option Nat :=
  if 0x1100 ≤ o ∧ o < 0x1200 then some (0x501000 + 0x100 * p + (o - 0x1100))
  else if 0x1280 ≤ o ∧ o < 0x1300 then some (0xE02000 + 0x80 * p + (o - 0x1280))
  else lookup
    [(0x1000, 0x300000 + 0x20 * p), (0x1008, 0x300008 + 0x20 * p), (0x1010, 0x300010 + 0x20 * p),
     (0x1018, 0x402000 + 0x10 * p), (0x1020, 0x402008 + 0x10 * p), (0x1028, 0x500400 + 0x10 * p),
     (0x1030, 0x500408 + 0x10 * p), (0x1038, 0x602000 + 0x10 * p), (0x1040, 0x602008 + 0x10 * p),
     (0x1048, 0x700000 + 0x10 * p), (0x1050, 0x800400 + 8 * p), (0x1058, 0x900000 + 0x10 * p),
     (0x1060, 0x900008 + 0x10 * p), (0x1068, 0xC01000 + 0x20 * p), (0x1070, 0xC01008 + 0x20 * p),
     (0x1078, 0xC01010 + 0x20 * p), (0x1200, 0xE01000 + 8 * p)] o

/-- Eight bytes of BAR0 as they read (Table HST-3); a word of the command window that a slot does not hold reads zero. -/
def bar0Reg (s : State) (fn : Fin 65) (o : Nat) : Nat :=
  let f := s.fn fn
  let p := fn.val - 1
  if o < 0x58 then functionReg s fn o
  else if 0x800 ≤ o ∧ o < 0x880 then
    (msixWord f ((o - 0x800) / 4)).toNat + 2 ^ 32 * (msixWord f ((o - 0x800) / 4 + 1)).toNat
  else if o = 0x900 then f.msixPending.toNat
  else if 0x10000 ≤ o ∧ o < 0x18000 then
    let ws := (tget f.slots ((o - 0x10000) / 4096)).words
    (tget ws (o % 4096 / 4)).toNat + 2 ^ 32 * (tget ws (o % 4096 / 4 + 1)).toNat
  else if fn.val = 0 then
    (if 0x4000 ≤ o ∧ o < 0x6000 then hwinReg s ((o - 0x4000) / 128) (o / 16 % 8) (bit o 3) else 0)
  else if 0x1000 ≤ o ∧ o < 0x2000 then ((viewOffset p o).map (fun i => regAt s i)).getD 0
  else if 0x2000 ≤ o ∧ o < 0x4000 then
    (if bit (s.part p).record.stalls ((o - 0x2000) / 128) then regAt s (0x400000 + (o - 0x2000)) else 0)
  else 0

/-- Eight bytes of a BAR as they read: BAR2 of PF0 is the register window (R373), BAR4 its CXL component registers. -/
def barReg (s : State) (fn : Fin 65) (bar : Bar) (o : Nat) : Nat :=
  match bar with
  | .bar0 => bar0Reg s fn o
  | .bar2 => if fn.val = 0 then leNat ((List.range 8).map (fun i => regByte s (o + i))) else 0
  | .bar4 => if fn.val = 0 then (tget (s.fn 0).cxlRegs (o / 4)).toNat + 2 ^ 32 * (tget (s.fn 0).cxlRegs (o / 4 + 1)).toNat else 0

/-- What a register access of 4 or 8 bytes reads; any but an aligned one reads zero (R372). -/
def registerRead (s : State) (fn : Fin 65) (bar : Bar) (o : Nat) (wide : Bool) : Nat :=
  if o % (if wide then 8 else 4) ≠ 0 then 0
  else if wide then barReg s fn bar o else barReg s fn bar (o / 8 * 8) / 2 ^ (32 * (o / 4 % 2)) % 2 ^ 32

end Sys2Proof.Machine
end

