-- ==== Sys2Proof/Machine/Jtag.lean ====
section
/-! DEFINITION. The JTAG port (R522, Table BTD-10): its instructions, debug reads, and scans of a stall (R94) and of the hub
(R446). -/

namespace Sys2Proof.Machine

/-- An instruction is in force, and a value is captured for shifting out. -/
def capture (s : State) (code : Byte) (v : W64) : State := { s with jtag := { instruction := code, data := v } }

/-- BYPASS: the one-bit register captures 0. -/
def bypass (s : State) (code : Byte) : State := capture s code 0

/-- BYPASS (R522). -/
def execBypass (s : State) : Host.Outcome State Fault Refusal := .next (bypass s 0xFF)

/-- IDCODE (R522). -/
def execIdcode (s : State) : Host.Outcome State Fault Refusal := .next (capture s 0x01 0x1B64A0D3)

/-- What a chain shifts out: the pins, or contents of a scan chain, laid out by no rule (a free value). -/
def shiftOut (s : State) (code : Byte) : State :=
  let (n, s) := s.draw
  capture s code (Config.freeValue n)

/-- SAMPLE/PRELOAD (R522). -/
def execSamplePreload (s : State) : Host.Outcome State Fault Refusal := .next (shiftOut s 0x02)

/-- EXTEST (R522): only while no partition exists. -/
def execExtest (s : State) : Host.Outcome State Fault Refusal :=
  .next (if (partsOf s).isEmpty then shiftOut s 0x00 else bypass s 0x00)

/-! ## DEBUG_READ -/

/-- Whether the hub runs: not held in reset, tripped, or in DEEP or OFF. -/
def hubRuns (s : State) : Bool :=
  !s.power.halted && !s.power.tripped && s.power.state != .deep && s.power.state != .off

/-- The 8 bytes that a debug read finds: device memory in the committed view, scratchpads, or the register space (R373,
R522). -/
def debugBytes (s : State) (a : Nat) : List Byte :=
  match regionOf a with
  | .lsm => readCommitted s a 8
  | .spad i o => (List.range 8).map (fun j => spadRead s i (o + j))
  | _ => if regBase ≤ a then (List.range 8).map (fun j => regByte s (a - regBase + j)) else List.replicate 8 0

/-- DEBUG_READ (R522). -/
def execDebugRead (address : BitVec 44) (s : State) : Host.Outcome State Fault Refusal :=
  .next (if hubRuns s then capture s 0x10 (BitVec.ofNat 64 (leNat (debugBytes s address.toNat))) else bypass s 0x10)

/-! ## STALL_SCAN (R94) -/

/-- A feeder with its registers and key slots zeroed. -/
def scanFeeder (f : Feeder) : Feeder :=
  { f with
    slots := [], epochKeys := []
    blocks := f.blocks.map (fun b => { b with cipher := b.cipher.map (fun _ => 0), tag := b.tag.map (fun _ => 0) })
    elemHeld := f.elemHeld.map (fun _ => 0), scaleHeld := f.scaleHeld.map (fun _ => 0) }

/-- Whether a feeder held a key. -/
def holdsKey (f : Feeder) : Bool := !f.slots.isEmpty || !f.epochKeys.isEmpty

/-- The stall zeroes what R94 names, and a halted partition whose keys went remembers it. -/
def scanStall (s : State) (i : Nat) : State :=
  let x := s.stall i
  let keys := holdsKey x.feederMxe || holdsKey x.feederMvu
  let s := s.modStall i (fun x => { x with
    feederMxe := scanFeeder x.feederMxe, feederMvu := scanFeeder x.feederMvu, mxe := zeroEngine x.mxe, mvu := zeroEngine x.mvu })
  match ownerOfStall s i with
  | some p => if keys then s.modPart p (fun q => { q with scanned := true }) else s
  | none => s

/-- STALL_SCAN (R94, R522): only of a stall that is unassigned or whose partition is halted. -/
def execStallScan (stall : Fin 64) (s : State) : Host.Outcome State Fault Refusal :=
  .next (if (ownerOfStall s stall).all (fun p => (s.part p).halted) then shiftOut (scanStall s stall) 0x20 else bypass s 0x20)

/-! ## HUB_SCAN (R446) -/

/-- Whether the job of a partition uses a filled key slot: one that its plan's KEY_REFS names. -/
def usesKey (s : State) (p : Nat) : Bool :=
  (s.part p).job.running && (s.part p).plan.isSome &&
    (List.range 8).any (fun k => (keyRef (imageOf s p) k).isSome &&
      (stallsOf s p).any (fun i => (tget? (s.stall i).feederMxe.slots k).isSome))

/-- A hub scan: keys, pending keys and evidence go, then the alias key, and jobs that used a key end. -/
def scanHub (s : State) : State :=
  let users := (partsOf s).filter (usesKey s)
  let s := (partsOf s).foldl (fun s p => dropEvidence (purgeKeys s p 0xFF) p) s
  let s := { s with sec := { s.sec with aliasValid := false, aliasKey := 0 } }
  users.foldl (fun s p => endJob (zeroUnitRegs s p) p Status.keyInvalid Detail.secScanPurged none) s

/-- HUB_SCAN (R446). -/
def execHubScan (s : State) : Host.Outcome State Fault Refusal :=
  .next (if hubRuns s then shiftOut (scanHub s) 0x30 else bypass s 0x30)

end Sys2Proof.Machine
end

