-- ==== Sys2Proof/Machine/Package.lean ====
section
/-! DEFINITION. What arrives at the host link and at the companion sites: answers to the device's CXL.cache requests (R230,
R420), completion timeouts, and companion completions and failures (R537 to R540). -/

namespace Sys2Proof.Machine

/-! ## CXL.cache and completion timeouts -/

/-- Whether an entry asks the host for a cacheline and has no data yet. -/
def fetchWaits (h : Nat × Nat × Option (List Byte)) : Bool := h.2.2.isNone

/-- The first entry of a list that meets a condition, changed, or erased. -/
def changeFirst {α : Type} (pick : α → Bool) (f : α → Option α) : List α → List α
  | [] => []
  | x :: r => if pick x then (f x).toList ++ r else x :: changeFirst pick f r

/-- Data of the host for the oldest request of a cacheline. -/
def hostData (s : State) (hpa : Nat) (bs : List Byte) : State :=
  match s.hostFetch.find? (fun h => fetchWaits h && decide (h.2.1 = hpa)) with
  | none => s
  | some h =>
    let l := changeFirst (fun x => fetchWaits x && decide (x.2.1 = hpa)) (fun x => some (x.1, x.2.1, some (padTo 64 bs))) s.hostFetch
    continueReset { s with hostFetch := l } h.1

/-- The oldest store of a partition's cores to a target and address is acknowledged (R194). -/
def ackStore (s : State) (p target address : Nat) : State :=
  s.modPart p (fun q => { q with stores := q.stores.eraseP (fun e => e.target = target && e.address = address) })

/-- The host has taken the oldest commit write of a cacheline. -/
def hostTook (s : State) (hpa : Nat) : State :=
  match s.hostCommit.find? (fun h => h.2 = hpa) with
  | none => s
  | some h => continueReset (resumeReads (ackStore { s with hostCommit := s.hostCommit.erase h } h.1 2 h.2) h.1) h.1

/-- CXL_CACHE_RESPONSE (R230): data of a RdCurr, or the completion of a WrCur. -/
def execCxlCacheResponse (hpa : BitVec 52) (data : Option (List Byte)) (s : State) : Host.Outcome State Fault Refusal :=
  .next (match data with | some bs => hostData s hpa.toNat bs | none => hostTook s hpa.toNat)

/-- A 64-byte cacheline that no one has supplied: free bytes. -/
def freeLine (s : State) : List Byte × State :=
  let n := s.fresh
  ((List.range 8).flatMap (fun i => natLe 8 (Config.freeValue (n + i)).toNat), { s with fresh := n + 8 })

/-- A read of the host that times out: discarded in a reset (R420); else the reader takes free data. -/
def fetchTimeout (s : State) (p : Nat) : State :=
  if (s.part p).state == .resetting then
    { s with hostFetch := changeFirst (fun x => fetchWaits x && decide (x.1 = p)) (fun _ => none) s.hostFetch }
  else
    let (bs, s) := freeLine s
    { s with hostFetch := changeFirst (fun x => fetchWaits x && decide (x.1 = p)) (fun x => some (x.1, x.2.1, some bs)) s.hostFetch }

/-- A Porter read of the host that times out fails its copy (R395). -/
def copyTimeout (s : State) (p : Nat) : State :=
  pumpCopies (copyData (s.modPart p (fun q => { q with ioOut := q.ioOut - 1 })) p none) p

/-- One outstanding CXL request of a partition times out: a read of the host, else a commit write, else a Porter read. -/
def oneTimeout (s : State) (p : Nat) : State :=
  if s.hostFetch.any (fun h => fetchWaits h && decide (h.1 = p)) then fetchTimeout s p
  else match s.hostCommit.find? (fun h => h.1 = p) with
    | some h => resumeReads (ackStore { s with hostCommit := s.hostCommit.erase h } p 2 h.2) p
    | none => if (s.part p).ioOut = 0 then s else copyTimeout s p

/-- COMPLETION_TIMEOUT (R395, R420). -/
def execCompletionTimeout (p : Fin 64) (s : State) : Host.Outcome State Fault Refusal :=
  .next (continueReset (oneTimeout s p) p)

/-! ## Companion sites (R539, R540) -/

/-- The completion of a read: data for its reader, or a detected error of the reading unit. -/
def siteRead (s : State) (i p off : Nat) (poison : Bool) (bs : List Byte) : State :=
  if !(s.part p).present then s
  else if poison then unitError s p Detail.pkgCompanionPoison none
  else s.modSite i (fun x => { x with data := x.data ++ [(p, off, padTo 64 bs)] })

/-- COMPANION_COMPLETION (R539, R540): the oldest request of the site completes. -/
def execCompanionCompletion (site : Fin 2) (poison : Bool) (data : List Byte) (s : State) : Host.Outcome State Fault Refusal :=
  .next (match (s.site site).pending with
    | [] => s
    | (p, off, write) :: r =>
      let s := s.modSite site (fun x => { x with pending := r })
      if write then ackStore s p site off else siteRead s site p off poison data)

/-- The partition granted a failed site ends its job at once, or on resumption where it is pre-empted (Table PKG-8). -/
def siteLost (s : State) (p : Nat) : State :=
  if !(s.part p).job.running then s
  else if (s.part p).state == .preempted then s.modPart p (fun q => { q with job := { q.job with companionDown := true } })
  else contained s p Status.partitionFault Detail.pkgCompanionDown none

/-- COMPANION_DOWN (R540). -/
def execCompanionDown (site : Fin 2) (s : State) : Host.Outcome State Fault Refusal :=
  .next (
    if (s.site site).state ≠ 1 then s
    else
      let s := s.modSite site (fun x => { x with
        state := 2, modules := 0, rate := 0, flit256 := false, units := 0, pending := [], data := [] })
      let s := (partsOf s).foldl (fun s p => s.modPart p (fun q => { q with stores := q.stores.filter (fun e => e.target ≠ site.val) })) s
      ((partsOf s).filter (fun p => bit (s.part p).record.companion site)).foldl siteLost s)

end Sys2Proof.Machine
end

