-- ==== Sys2Proof/Machine/Upsets.lean ====
section
/-! DEFINITION. Hardware faults that no command brings (R293, log entry 90): where a fault strikes in a tick of DEV_TIME, and what
a Porter's line error does. What finds each fault, and what follows, stands where the spec has it found. -/

namespace Sys2Proof.Machine

/-! ## Flits, crossings and sidebands (R24, R25, R128, R133) -/

/-- A flit with one of its 521 bits turned over: payload, valid bit, parity bits. -/
def flipFlit (f : WireFlit) (b : Nat) : WireFlit :=
  if b < 512 then { f with payload := f.payload ^^^ BitVec.ofNat 512 (2 ^ b) }
  else if b = 512 then { f with valid := !f.valid }
  else { f with parity := f.parity ^^^ BitVec.ofNat 8 (2 ^ (b % 8)) }

/-- A bit of a lane of a stall's output registers. -/
def upsetFlit (s : State) (i lane b : Nat) : State :=
  s.modStall i (fun x => { x with router := { x.router with hist := match x.router.hist with
    | [] => []
    | h :: r => tset h (lane % 80) (flipFlit (tget h (lane % 80)) (b % 521)) :: r } })

/-- A flit or a tick mark on a crossing. -/
def flipCross (c : CrossFlit) (b : Nat) : CrossFlit :=
  if b < 8 then { c with mark := c.mark ^^^ BitVec.ofNat 8 (2 ^ b) } else { c with flit := flipFlit c.flit ((b - 8) % 521) }

/-- A bit of a flit buffered on a crossing. -/
def upsetCrossing (s : State) (key place b : Nat) : State :=
  { s with crossings := s.crossings.map (fun e => if e.1 = key then (e.1, { e.2 with
      flits := e.2.flits.zipIdx.map (fun c => if c.2 = place then flipCross c.1 b else c.1) }) else e) }

/-- A word of a sideband with one bit turned over: four fields of 64 bits, then the parity bits. -/
def flipSide (w : SideWord) (b : Nat) : SideWord :=
  let x := Nat.xor
  if b < 64 then { w with ready := x w.ready (2 ^ b) }
  else if b < 128 then { w with error := x w.error (2 ^ (b - 64)) }
  else if b < 192 then { w with nonrepl := x w.nonrepl (2 ^ (b - 128)) }
  else if b < 256 then { w with stage := x w.stage (2 ^ (b - 192)) }
  else { w with parity := w.parity ^^^ BitVec.ofNat 8 (2 ^ (b % 8)) }

/-- A bit of the newest word of a sideband. -/
def upsetSideband (s : State) (key b : Nat) : State :=
  { s with sidebands := s.sidebands.map (fun e => if e.1 = key then (e.1, match e.2 with
      | [] => []
      | w :: r => flipSide w (b % 264) :: r) else e) }

/-- A stream module leaves service (R24). -/
def upsetModule (s : State) (e m : Nat) : State :=
  if 6 ≤ e || edgeModules e ≤ m then s else { s with edges := tmod s.edges e (fun x => { x with failed := setBit x.failed m }) }

/-! ## Request networks (R293, R295) -/

/-- The partition that owns a message. -/
def msgPart : NocMsg → Nat
  | .toL1 _ p _ _ => p
  | .toAgent _ p _ _ _ => p
  | .toHome _ p _ _ _ => p

/-- Whether a message answers an observer outside. -/
def msgOutside : NocMsg → Bool
  | .toAgent _ _ ag _ _ => isOutside ag
  | _ => false

/-- A message to an observer outside after an error of a flit: its read has no data, and completes as R285 gives. -/
def failedMsg (m : NocMsg) : NocMsg :=
  match m with | .toAgent k p ag a cs => .toAgent k p ag a (if k = mDataNa then [] else cs) | m => m

/-- Whether a message may be dropped where no unit is in progress (R295): a grant or an answer, which its next access asks for
again. Any other is sent again (log entry 179). -/
def msgDropped : NocMsg → Bool
  | .toL1 k _ _ _ => k = mDataS || k = mDataE || k = mDataM
  | .toAgent _ _ _ _ _ => true
  | _ => false

/-- A flit of a message on its way fails its parity check: the unit that owns the message is to be replayed. -/
def upsetRequest (s : State) (place : Nat) : State :=
  match s.noc[place]? with
  | none => s
  | some m =>
    let p := msgPart m
    let others := s.noc.take place
    let rest := s.noc.drop (place + 1)
    if msgOutside m then logCorrected { s with noc := others ++ failedMsg m :: rest } p Detail.chkReqParity none
    else unitError (if !unitLive s p && msgDropped m then { s with noc := others ++ rest } else s) p Detail.chkReqParity none

/-! ## Memories with parity -/

/-- A register of a group: it holds another value, and its parity is wrong. -/
def upsetRegister (s : State) (i core slot reg : Nat) : State :=
  let key := groupKey (Fin.ofNat 64 i) (Fin.ofNat 12 core) (Fin.ofNat 64 slot)
  if !(tget s.groups key).live then s
  else
    let (n, s) := s.draw
    let v := Config.freeValue n
    { s with groups := tmod s.groups key (fun x => { x with
        v := if reg < 2048 then tset x.v reg (v.setWidth 32) else x.v
        u := if 2048 ≤ reg ∧ reg < 2080 then tset x.u (reg - 2048) (v.setWidth 64) else x.u
        preds := if 2080 ≤ reg ∧ reg < 2088 then tset x.preds (reg - 2080) (v.setWidth 32) else x.preds
        odd := if reg < 2088 then reg :: x.odd else x.odd }) }

/-- A line that an L1 holds. -/
def upsetL1 (s : State) (i core a : Nat) : State :=
  let l : L1Id := { stall := Fin.ofNat 64 i, core := Fin.ofNat 12 core }
  if (s.l1Line l a).state == .i then s else s.modL1 l a (fun x => { x with bad := true })

/-- A line of an instruction cache. -/
def upsetIcache (s : State) (i core line : Nat) : State :=
  s.modStall i (fun x => { x with cores := tmod x.cores core (fun c =>
    if c.icache.any (fun e => e.1 = line) then { c with icacheOdd := line :: c.icacheOdd } else c) })

/-- A line of a slice. -/
def upsetSlice (s : State) (p a : Nat) : State :=
  if (s.part p).present then s.modLine p a (fun l => { l with odd := true }) else s

/-- The newest filter entry of a line. -/
def upsetFilter (s : State) (p a : Nat) : State :=
  s.modLine p a (fun l => { l with filter := match l.filter with | [] => [] | f :: r => { f with odd := true } :: r })

/-- A bit of a scratchpad: a second one in a granule hides the first from its parity bit. -/
def upsetSpad (s : State) (byte b : Nat) : State :=
  let g := byte / 32
  { s with
    spad := mwrite s.spad byte (mread s.spad byte ^^^ BitVec.ofNat 8 (2 ^ (b % 8)))
    spadOdd := if g ∈ s.spadOdd then s.spadOdd.filter (fun x => x ≠ g) else g :: s.spadOdd }

/-- A part in a stall's schedule memory. -/
def upsetSchedule (s : State) (i q : Nat) : State :=
  s.modStall i (fun x => if q ∈ x.parts then { x with badParts := (q :: x.badParts).eraseDups } else x)

/-- An entry of a stall's ledger. -/
def upsetLedger (s : State) (i place : Nat) : State :=
  s.modStall i (fun x => { x with
    ledger := x.ledger.zipIdx.map (fun e => if e.2 = place then { e.1 with parity := e.1.parity ^^^ 1 } else e.1) })

/-! ## Porters and redundant copies -/

/-- A line of a partition's oldest copy fails: it is read again, and the fourth failure of one line ends the copy. -/
def upsetPorter (s : State) (p : Nat) : State :=
  match (s.part p).copies with
  | [] => s
  | c :: r =>
    if c.retries < 3 then
      logCorrected (s.modPart p (fun q => { q with copies := { c with retries := c.retries + 1 } :: r })) p 0 none
    else endCopy (s.modPart p (fun q => { q with copies := r })) p c (Status.partitionFault, Detail.chkPorterRetry)

/-- A copy of a pitch record. -/
def upsetPitch (s : State) (p copy : Nat) : State :=
  if copy < 3 && (s.part p).present then s.modPart p (fun q => { q with pitchOdd := (copy :: q.pitchOdd).eraseDups }) else s

/-- A copy of the fuse shadow. -/
def upsetFuse (s : State) (copy : Nat) : State :=
  if copy < 3 then { s with fuseOdd := (copy :: s.fuseOdd).eraseDups } else s

/-- A bit of the two state copies of a session-table entry. -/
def upsetSession (s : State) (entry b : Nat) : State :=
  let a := sesTable + 64 * (entry % 4194304) + 32 + b % 128 / 8
  { s with mem := mwrite s.mem a (mread s.mem a ^^^ BitVec.ofNat 8 (2 ^ (b % 8))) }

/-- What a hardware fault does where it strikes. -/
def applyUpset (s : State) : Config.Upset → State
  | .flit i lane b => upsetFlit s i lane b
  | .crossing key place b => upsetCrossing s key place b
  | .sideband key b => upsetSideband s key b
  | .module e m => upsetModule s e m
  | .request place => upsetRequest s place
  | .register i core slot reg => upsetRegister s i core slot reg
  | .l1 i core a => upsetL1 s i core a
  | .icache i core line => upsetIcache s i core line
  | .slice p a => upsetSlice s p a
  | .filter p a => upsetFilter s p a
  | .spad i byte b => if i < 64 && byte < spadBytes then upsetSpad s (i * spadBytes + byte) b else s
  | .schedule i q => upsetSchedule s i q
  | .ledger i place => upsetLedger s i place
  | .porter p => upsetPorter s p
  | .pitch p copy => upsetPitch s p copy
  | .fuse copy => upsetFuse s copy
  | .session entry b => upsetSession s entry b

/-- The fault of a tick, if one strikes. -/
def strike (s : State) : State :=
  let (n, s) := s.draw
  match Config.upset n with
  | none => s
  | some u => applyUpset s u

end Sys2Proof.Machine
end

