-- ==== Sys2Proof/Machine/Clock.lean ====
section
/-! DEFINITION. One tick of the 3.3 GHz base of DEV_TIME, which passes where no command waits: DEV_TIME, the leases (R416,
R419), the delay of a linked start (R334), data-port accesses (R399) and hardware faults (R293). No other effect of time has a place here (log entry 2). -/

namespace Sys2Proof.Machine

/-- Ticks of DEV_TIME in a microsecond. -/
def usTicks : Nat := 3300

/-- Whether a partition's lease timers advance (R416, R521). -/
def leaseRuns (s : State) (q : Part) : Bool := q.lease.set && q.job.running && !q.halted && !s.power.coolantStop

/-- One microsecond of a partition's lease: its time while the job runs, its grace while it is being pre-empted. -/
def leaseMicro (s : State) (q : Part) : Part :=
  if !leaseRuns s q then q
  else if q.state == .running then { q with lease := { q.lease with remain := q.lease.remain - 1 } }
  else if q.state == .preempting then { q with lease := { q.lease with graceLeft := q.lease.graceLeft - 1 } }
  else q

/-- A tick of a partition's wait timeouts, watchdog and refill limit, which a debug halt and a coolant stop hold (R471,
R521). -/
def timerTick (s : State) (q : Part) : Part :=
  if q.present && !q.halted && !s.power.coolantStop then { q with timers := q.timers + 1 } else q

/-- One tick nearer to the first epoch tick of a linked job (R334). -/
def startNear (s : State) (p : Nat) : State :=
  match (s.part p).zlk.startDelay with
  | 0 => s
  | 1 => tryStart (s.modPart p (fun q => { q with zlk := { q.zlk with startDelay := 0 }, job := { q.job with awaitStart := false } })) p
  | n + 2 => s.modPart p (fun q => { q with zlk := { q.zlk with startDelay := n + 1 } })

/-- One tick of DEV_TIME, in which a hardware fault may strike, and data-port accesses that no longer wait go on. -/
def idleTick (s : State) : State :=
  if s.power.halted || s.power.state == .deep || s.power.state == .off then s
  else
    let s := strike (pushSidebands { s with devTime := s.devTime + 1, parts := s.parts.map (fun x => (x.1, timerTick s x.2)) })
    let s := if s.devTime % usTicks = 0
      then { s with parts := s.parts.map (fun (x : Nat × Part) => (x.1, leaseMicro s x.2)) } else s
    (if s.power.coolantStop then [] else partsOf s).foldl (fun s p => dpResume (startNear s p) p) s

end Sys2Proof.Machine
end

