-- ==== Sys2Proof/Machine/Dispatch.lean ====
section
/-! DEFINITION. The dispatch: one arm for each command, calling its meaning. -/

namespace Sys2Proof.Machine

def exec (i : Instr) (s : State) : Host.Outcome State Fault Refusal :=
  match i with
  | .nop src => Sys2Proof.Machine.execNop src s
  | .getInfo src => Sys2Proof.Machine.execGetInfo src s
  | .setReplyRing src => Sys2Proof.Machine.execSetReplyRing src s
  | .invalidOpcodePacket src => Sys2Proof.Machine.execInvalidOpcodePacket src s
  | .queueSubmit src => Sys2Proof.Machine.execQueueSubmit src s
  | .queueHalt src => Sys2Proof.Machine.execQueueHalt src s
  | .queueResume src => Sys2Proof.Machine.execQueueResume src s
  | .queueFlush src => Sys2Proof.Machine.execQueueFlush src s
  | .queueStatus src => Sys2Proof.Machine.execQueueStatus src s
  | .jobStart src => Sys2Proof.Machine.execJobStart src s
  | .jobEnd src => Sys2Proof.Machine.execJobEnd src s
  | .portCopy src => Sys2Proof.Machine.execPortCopy src s
  | .pinLines src => Sys2Proof.Machine.execPinLines src s
  | .unpinLines src => Sys2Proof.Machine.execUnpinLines src s
  | .discardLines src => Sys2Proof.Machine.execDiscardLines src s
  | .sessionOpen src => Sys2Proof.Machine.execSessionOpen src s
  | .sessionAppend src => Sys2Proof.Machine.execSessionAppend src s
  | .sessionClose src => Sys2Proof.Machine.execSessionClose src s
  | .sessionQuery src => Sys2Proof.Machine.execSessionQuery src s
  | .partitionCreate src => Sys2Proof.Machine.execPartitionCreate src s
  | .partitionDestroy src => Sys2Proof.Machine.execPartitionDestroy src s
  | .partitionReset src => Sys2Proof.Machine.execPartitionReset src s
  | .partitionSetLease src => Sys2Proof.Machine.execPartitionSetLease src s
  | .dirtyLogStart src => Sys2Proof.Machine.execDirtyLogStart src s
  | .dirtyLogCollect src => Sys2Proof.Machine.execDirtyLogCollect src s
  | .dirtyLogStop src => Sys2Proof.Machine.execDirtyLogStop src s
  | .powerSetCap src => Sys2Proof.Machine.execPowerSetCap src s
  | .powerSetMode src => Sys2Proof.Machine.execPowerSetMode src s
  | .powerStateRun src => Sys2Proof.Machine.execPowerStateRun src s
  | .powerStateIdle src => Sys2Proof.Machine.execPowerStateIdle src s
  | .powerStateSleep src => Sys2Proof.Machine.execPowerStateSleep src s
  | .powerStateDeep src => Sys2Proof.Machine.execPowerStateDeep src s
  | .powerStateOff src => Sys2Proof.Machine.execPowerStateOff src s
  | .telemetryRead src => Sys2Proof.Machine.execTelemetryRead src s
  | .attestPartition src => Sys2Proof.Machine.execAttestPartition src s
  | .keyInstall src => Sys2Proof.Machine.execKeyInstall src s
  | .keyPurge src => Sys2Proof.Machine.execKeyPurge src s
  | .ownerProvisionTake src => Sys2Proof.Machine.execOwnerProvisionTake src s
  | .ownerProvisionTransfer src => Sys2Proof.Machine.execOwnerProvisionTransfer src s
  | .ownerProvisionRelease src => Sys2Proof.Machine.execOwnerProvisionRelease src s
  | .bistRun src => Sys2Proof.Machine.execBistRun src s
  | .bistResult src => Sys2Proof.Machine.execBistResult src s
  | .fwUpdateBegin src => Sys2Proof.Machine.execFwUpdateBegin src s
  | .fwUpdateData src => Sys2Proof.Machine.execFwUpdateData src s
  | .fwUpdateCommit src => Sys2Proof.Machine.execFwUpdateCommit src s
  | .tallyConfig src => Sys2Proof.Machine.execTallyConfig src s
  | .traceStop src => Sys2Proof.Machine.execTraceStop src s
  | .traceStart src => Sys2Proof.Machine.execTraceStart src s
  | .traceRead src => Sys2Proof.Machine.execTraceRead src s
  | .traceClear src => Sys2Proof.Machine.execTraceClear src s
  | .debugHalt src => Sys2Proof.Machine.execDebugHalt src s
  | .debugRelease src => Sys2Proof.Machine.execDebugRelease src s
  | .linkConfig src => Sys2Proof.Machine.execLinkConfig src s
  | .linkStatus src => Sys2Proof.Machine.execLinkStatus src s
  | .chainEnumerate src => Sys2Proof.Machine.execChainEnumerate src s
  | .resourceClaim src => Sys2Proof.Machine.execResourceClaim src s
  | .resourceRelease src => Sys2Proof.Machine.execResourceRelease src s
  | .planLoad p => Sys2Proof.Machine.execPlanLoad p s
  | .planUnload p => Sys2Proof.Machine.execPlanUnload p s
  | .planRun p => Sys2Proof.Machine.execPlanRun p s
  | .launch p => Sys2Proof.Machine.execLaunch p s
  | .copy p => Sys2Proof.Machine.execCopy p s
  | .serve p => Sys2Proof.Machine.execServe p s
  | .syncWait p => Sys2Proof.Machine.execSyncWait p s
  | .syncSignal p => Sys2Proof.Machine.execSyncSignal p s
  | .syncAdd p => Sys2Proof.Machine.execSyncAdd p s
  | .syncNotify p => Sys2Proof.Machine.execSyncNotify p s
  | .queueWaitTimeout p queue => Sys2Proof.Machine.execQueueWaitTimeout p queue s
  | .slotWrite fn k offset data => Sys2Proof.Machine.execSlotWrite fn k offset data s
  | .registerWrite fn bar offset wide value => Sys2Proof.Machine.execRegisterWrite fn bar offset wide value s
  | .ringHeadWrite fn value => Sys2Proof.Machine.execRingHeadWrite fn value s
  | .intCtrlWrite fn value => Sys2Proof.Machine.execIntCtrlWrite fn value s
  | .intCauseWrite fn value => Sys2Proof.Machine.execIntCauseWrite fn value s
  | .hwinWrite p r host value => Sys2Proof.Machine.execHwinWrite p r host value s
  | .dpAddrWrite p value => Sys2Proof.Machine.execDpAddrWrite p value s
  | .dpAddrRead p => Sys2Proof.Machine.execDpAddrRead p s
  | .dpCtrlWrite p value => Sys2Proof.Machine.execDpCtrlWrite p value s
  | .dataPortWrite p data => Sys2Proof.Machine.execDataPortWrite p data s
  | .dataPortRead p count => Sys2Proof.Machine.execDataPortRead p count s
  | .refillDone p => Sys2Proof.Machine.execRefillDone p s
  | .configurationRequest fn write register value => Sys2Proof.Machine.execConfigurationRequest fn write register value s
  | .memrd address metaValue => Sys2Proof.Machine.execMemrd address metaValue s
  | .memwr address data => Sys2Proof.Machine.execMemwr address data s
  | .birsp address => Sys2Proof.Machine.execBirsp address s
  | .hostSnoop hpa => Sys2Proof.Machine.execHostSnoop hpa s
  | .flrVf p => Sys2Proof.Machine.execFlrVf p s
  | .flrPf0 => Sys2Proof.Machine.execFlrPf0 s
  | .perstNAssert => Sys2Proof.Machine.execPerstNAssert s
  | .getMeasurements fn block => Sys2Proof.Machine.execGetMeasurements fn block s
  | .keyExchange ownerProof => Sys2Proof.Machine.execKeyExchange ownerProof s
  | .managementSessionTimeout session => Sys2Proof.Machine.execManagementSessionTimeout session s
  | .rdS p l1 line => Sys2Proof.Machine.execRdS p l1 line s
  | .rdU p l1 line => Sys2Proof.Machine.execRdU p l1 line s
  | .upg p l1 line => Sys2Proof.Machine.execUpg p l1 line s
  | .rdNa p agent line sectors retain => Sys2Proof.Machine.execRdNa p agent line sectors retain s
  | .wrl p agent line cells => Sys2Proof.Machine.execWrl p agent line cells s
  | .atom req => Sys2Proof.Machine.execAtom req s
  | .disc p agent line => Sys2Proof.Machine.execDisc p agent line s
  | .wb p l1 line => Sys2Proof.Machine.execWb p l1 line s
  | .snpInv p l1 line => Sys2Proof.Machine.execSnpInv p l1 line s
  | .snpDown p l1 line => Sys2Proof.Machine.execSnpDown p l1 line s
  | .snpSnap p l1 line => Sys2Proof.Machine.execSnpSnap p l1 line s
  | .rspAck p l1 line => Sys2Proof.Machine.execRspAck p l1 line s
  | .rspData p l1 line => Sys2Proof.Machine.execRspData p l1 line s
  | .rspNp p l1 line => Sys2Proof.Machine.execRspNp p l1 line s
  | .rspWbp p l1 line => Sys2Proof.Machine.execRspWbp p l1 line s
  | .dataS p l1 line => Sys2Proof.Machine.execDataS p l1 line s
  | .dataE p l1 line => Sys2Proof.Machine.execDataE p l1 line s
  | .dataM p l1 line => Sys2Proof.Machine.execDataM p l1 line s
  | .dataNa p agent line => Sys2Proof.Machine.execDataNa p agent line s
  | .ack p agent line => Sys2Proof.Machine.execAck p agent line s
  | .wbAck p l1 line => Sys2Proof.Machine.execWbAck p l1 line s
  | .combiningWindowClose p line => Sys2Proof.Machine.execCombiningWindowClose p line s
  | .lsmReadReturn burst reader flips => Sys2Proof.Machine.execLsmReadReturn burst reader flips s
  | .baseDieWriteError burst => Sys2Proof.Machine.execBaseDieWriteError burst s
  | .refresh channel bank => Sys2Proof.Machine.execRefresh channel bank s
  | .channelRecalibrate channel => Sys2Proof.Machine.execChannelRecalibrate channel s
  | .channelRetrain channel succeeds => Sys2Proof.Machine.execChannelRetrain channel succeeds s
  | .stackTempReport stack celsius => Sys2Proof.Machine.execStackTempReport stack celsius s
  | .refillTimeout p => Sys2Proof.Machine.execRefillTimeout p s
  | .domainTick p d => Sys2Proof.Machine.execDomainTick p d s
  | .feederLineArrival stall mvu poisoned => Sys2Proof.Machine.execFeederLineArrival stall mvu poisoned s
  | .tagCheck stall mvu => Sys2Proof.Machine.execTagCheck stall mvu s
  | .checksumVerdict stall error => Sys2Proof.Machine.execChecksumVerdict stall error s
  | .residueVerdict stall error => Sys2Proof.Machine.execResidueVerdict stall error s
  | .partPaged p stall => Sys2Proof.Machine.execPartPaged p stall s
  | .bell p => Sys2Proof.Machine.execBell p s
  | .stageBell p => Sys2Proof.Machine.execStageBell p s
  | .sessionStep p => Sys2Proof.Machine.execSessionStep p s
  | .ctlNop g w => Sys2Proof.Machine.execCtlNop g w s
  | .bra g w => Sys2Proof.Machine.execBra g w s
  | .bru g w => Sys2Proof.Machine.execBru g w s
  | .jset g w => Sys2Proof.Machine.execJset g w s
  | .brd g w => Sys2Proof.Machine.execBrd g w s
  | .brk g w => Sys2Proof.Machine.execBrk g w s
  | .join g w => Sys2Proof.Machine.execJoin g w s
  | .exit g w => Sys2Proof.Machine.execExit g w s
  | .vectorInteger g w => Sys2Proof.Machine.execVectorInteger g w s
  | .vectorFloat g w => Sys2Proof.Machine.execVectorFloat g w s
  | .conversion g w => Sys2Proof.Machine.execConversion g w s
  | .compare g w => Sys2Proof.Machine.execCompare g w s
  | .uniformInteger g w => Sys2Proof.Machine.execUniformInteger g w s
  | .sreg g w => Sys2Proof.Machine.execSreg g w s
  | .clrf g w => Sys2Proof.Machine.execClrf g w s
  | .ld g w => Sys2Proof.Machine.execLd g w s
  | .st g w => Sys2Proof.Machine.execSt g w s
  | .pref g w => Sys2Proof.Machine.execPref g w s
  | .discard g w => Sys2Proof.Machine.execDiscard g w s
  | .atomicAdd g w => Sys2Proof.Machine.execAtomicAdd g w s
  | .atomicMin g w => Sys2Proof.Machine.execAtomicMin g w s
  | .atomicMax g w => Sys2Proof.Machine.execAtomicMax g w s
  | .atomicAnd g w => Sys2Proof.Machine.execAtomicAnd g w s
  | .atomicOr g w => Sys2Proof.Machine.execAtomicOr g w s
  | .atomicXor g w => Sys2Proof.Machine.execAtomicXor g w s
  | .atomicExch g w => Sys2Proof.Machine.execAtomicExch g w s
  | .atomicCas g w => Sys2Proof.Machine.execAtomicCas g w s
  | .fence g w => Sys2Proof.Machine.execFence g w s
  | .bar g w => Sys2Proof.Machine.execBar g w s
  | .gmma g w => Sys2Proof.Machine.execGmma g w s
  | .illegalInstruction g w => Sys2Proof.Machine.execIllegalInstruction g w s
  | .launchCommit p => Sys2Proof.Machine.execLaunchCommit p s
  | .watchdogExpiry p => Sys2Proof.Machine.execWatchdogExpiry p s
  | .frame j frame => Sys2Proof.Machine.execFrame j frame s
  | .linkAck j seq => Sys2Proof.Machine.execLinkAck j seq s
  | .lost j seq => Sys2Proof.Machine.execLost j seq s
  | .credit j count => Sys2Proof.Machine.execCredit j count s
  | .hello j device group port => Sys2Proof.Machine.execHello j device group port s
  | .echo j number turnaround roundTrip => Sys2Proof.Machine.execEcho j number turnaround roundTrip s
  | .enum j offered nextFree => Sys2Proof.Machine.execEnum j offered nextFree s
  | .joinSymbol j device member => Sys2Proof.Machine.execJoinSymbol j device member s
  | .start j root diameter job => Sys2Proof.Machine.execStart j root diameter job s
  | .commit j token => Sys2Proof.Machine.execCommit j token s
  | .replay j token => Sys2Proof.Machine.execReplay j token s
  | .applied j token => Sys2Proof.Machine.execApplied j token s
  | .abandon j token => Sys2Proof.Machine.execAbandon j token s
  | .unitError j token => Sys2Proof.Machine.execUnitError j token s
  | .mask j device member share bells => Sys2Proof.Machine.execMask j device member share bells s
  | .tickSync j root ticks => Sys2Proof.Machine.execTickSync j root ticks s
  | .reach j device group hops reachSeq => Sys2Proof.Machine.execReach j device group hops reachSeq s
  | .write j item => Sys2Proof.Machine.execWrite j item s
  | .readReq j item => Sys2Proof.Machine.execReadReq j item s
  | .readRsp j item => Sys2Proof.Machine.execReadRsp j item s
  | .atomReq j item => Sys2Proof.Machine.execAtomReq j item s
  | .atomRsp j item => Sys2Proof.Machine.execAtomRsp j item s
  | .token j item => Sys2Proof.Machine.execToken j item s
  | .count j item => Sys2Proof.Machine.execCount j item s
  | .result j item => Sys2Proof.Machine.execResult j item s
  | .ackTimeout j => Sys2Proof.Machine.execAckTimeout j s
  | .portSilenceTimeout j => Sys2Proof.Machine.execPortSilenceTimeout j s
  | .trainTimeout j => Sys2Proof.Machine.execTrainTimeout j s
  | .reachWindowExpiry p => Sys2Proof.Machine.execReachWindowExpiry p s
  | .voteTimeout p => Sys2Proof.Machine.execVoteTimeout p s
  | .powerSample sample => Sys2Proof.Machine.execPowerSample sample s
  | .budgetExchange => Sys2Proof.Machine.execBudgetExchange s
  | .extraBubbleStart p => Sys2Proof.Machine.execExtraBubbleStart p s
  | .coreClockStep d => Sys2Proof.Machine.execCoreClockStep d s
  | .droopDetect d => Sys2Proof.Machine.execDroopDetect d s
  | .droopClear d long => Sys2Proof.Machine.execDroopClear d long s
  | .pwrAlertAssert => Sys2Proof.Machine.execPwrAlertAssert s
  | .pwrAlertRelease => Sys2Proof.Machine.execPwrAlertRelease s
  | .dieTempRead d celsius => Sys2Proof.Machine.execDieTempRead d celsius s
  | .thermtrip => Sys2Proof.Machine.execThermtrip s
  | .coolantSample level => Sys2Proof.Machine.execCoolantSample level s
  | .vinLowTimeout => Sys2Proof.Machine.execVinLowTimeout s
  | .leaseExpiry p => Sys2Proof.Machine.execLeaseExpiry p s
  | .graceExpiry p => Sys2Proof.Machine.execGraceExpiry p s
  | .wakeN => Sys2Proof.Machine.execWakeN s
  | .wakeTimerExpiry c => Sys2Proof.Machine.execWakeTimerExpiry c s
  | .managementWake => Sys2Proof.Machine.execManagementWake s
  | .coldBoot env => Sys2Proof.Machine.execColdBoot env s
  | .aoPowerLoss => Sys2Proof.Machine.execAoPowerLoss s
  | .voteSweep fuse pitch => Sys2Proof.Machine.execVoteSweep fuse pitch s
  | .bistGroupComplete results => Sys2Proof.Machine.execBistGroupComplete results s
  | .syncIoEdge => Sys2Proof.Machine.execSyncIoEdge s
  | .companionDown site => Sys2Proof.Machine.execCompanionDown site s
  | .bypass => Sys2Proof.Machine.execBypass s
  | .idcode => Sys2Proof.Machine.execIdcode s
  | .samplePreload => Sys2Proof.Machine.execSamplePreload s
  | .extest => Sys2Proof.Machine.execExtest s
  | .debugRead address => Sys2Proof.Machine.execDebugRead address s
  | .stallScan stall => Sys2Proof.Machine.execStallScan stall s
  | .hubScan => Sys2Proof.Machine.execHubScan s
  | .sysRstNAssert => Sys2Proof.Machine.execSysRstNAssert s
  | .perstNRelease => Sys2Proof.Machine.execPerstNRelease s
  | .pllLockLoss d core => Sys2Proof.Machine.execPllLockLoss d core s
  | .vinIvrRemoval => Sys2Proof.Machine.execVinIvrRemoval s
  | .biconflict address => Sys2Proof.Machine.execBiconflict address s
  | .cxlCacheResponse hpa data => Sys2Proof.Machine.execCxlCacheResponse hpa data s
  | .cxlIoCompletion p data => Sys2Proof.Machine.execCxlIoCompletion p data s
  | .completionTimeout p => Sys2Proof.Machine.execCompletionTimeout p s
  | .companionCompletion site poison data => Sys2Proof.Machine.execCompanionCompletion site poison data s
  | .counterSample p => Sys2Proof.Machine.execCounterSample p s
  | .flashWriteComplete readBackEqual => Sys2Proof.Machine.execFlashWriteComplete readBackEqual s
  | .lsmWriteComplete burst => Sys2Proof.Machine.execLsmWriteComplete burst s
  | .frameSend j => Sys2Proof.Machine.execFrameSend j s
  | .dynamicAddress address => Sys2Proof.Machine.execDynamicAddress address s

end Sys2Proof.Machine
end

