-- ==== Sys2Proof/Safety.lean ====
section
/-! DEFINITION. What counts as a safe run, in the terms claims use: a step that answers a next state, a run of steps in
which each does; and the terms of the claims about packets: accepted, started, replied, deferred. -/

namespace Sys2Proof

/-- Whether an outcome is a next state. -/
def answersNext (o : Host.Outcome Machine.State Machine.Fault Machine.Refusal) : Bool :=
  match o with | .next _ => true | .fault _ => false | .refused _ => false

/-- `n` steps from a state each answer a next state. -/
def SafeRun (n : Nat) (s : Machine.State) : Prop := ∃ t, core.run n s = .next t

namespace Machine

/-- The state in which a packet's command acts: its slot is freed and the device is awake (R377, R480). -/
def started (s : State) (src : PktSrc) (k : Packet) : State := wakeBy (freeSlot s src) (wakeCauseOf k)

/-- The packet an event names stands at the head of its port, may start, has somewhere to reply, passes every check of R380,
and finds no copy of the fuse shadow or of its partition's pitch record that fails (R313). -/
structure Accepted (s : State) (src : PktSrc) (op : Nat) (k : Packet) : Prop where
  stands : packetAt s src = some k
  opcode : k.op = op
  starts : mayStart s k = true
  ring : hasRing (started s src k) k = true
  intact : s.fuseOdd = [] ∧ (s.part k.part).pitchOdd = []
  checks : checkPacket (started s src k) k = none

/-- Two states differ in nothing but the functions' registers and rings, the packets outstanding, when the management
sessions last had traffic, and what has left the device. -/
def PortOnly (s t : State) : Prop :=
  t = { s with
    fns := t.fns, outstanding := t.outstanding, out := t.out, sec := { s.sec with traffic := t.sec.traffic } }

/-- The reply ring entry of a packet, with a status and a detail (Table HST-6). -/
def entryOf (s : State) (k : Packet) (status detail : Nat) : RingEntry :=
  { tag := k.tag, status := status, detail := detail, tick := replyTick s k.part, irq := k.irq }

/-- The host writes of an OUT block: none of an empty one. -/
def outWrites (fn : Fin 65) (out : Nat) (block : List Byte) : List Output :=
  if block = [] then [] else [.hostWrite fn out block]

/-- `t` is `s` with a packet's one reply made: in the management response with its block; or in its function's ring, after
its OUT block, as entry P; or, without room there, last of the entries that wait (R381, R382, R385, R388, R404). -/
def ReplyMade (s : State) (k : Packet) (t : State) (status detail out : Nat) (block : List Byte) : Prop :=
  PortOnly s t ∧
  match k.port with
  | .mgmt n => t.fns = s.fns ∧ t.outstanding = s.outstanding ∧ t.out = .mgmtReply n k.tag status detail block :: s.out
  | .host fn =>
    (∀ g : Fin 65, g ≠ fn → t.fn g = s.fn g) ∧ (t.fn fn).slots = (s.fn fn).slots ∧
    (∃ messages, (∀ o ∈ messages, ∃ v, o = .msix fn v) ∧
      t.out = messages ++ (if ringRoom (s.fn fn) then [.hostWrite fn
          ((s.fn fn).ringBase + 16 * ((s.fn fn).producer % ringSize (s.fn fn)))
          (entryBytes (s.fn fn) (entryOf s k status detail))] else []) ++ outWrites fn out block ++ s.out) ∧
    (ringRoom (s.fn fn) = true → t.outstanding = s.outstanding ∧
      (t.fn fn).producer = ((s.fn fn).producer + 1) % 2 ^ 32 ∧ (t.fn fn).waiting = [] ∧
      (k.irq = true → (t.fn fn).intCause.getLsbD 0 = true)) ∧
    (ringRoom (s.fn fn) = false → t.outstanding = s.outstanding ++ [{ replyTo := k.replyTo, part := k.part }] ∧
      (t.fn fn).producer = (s.fn fn).producer ∧ (t.fn fn).intCause.getLsbD 2 = true ∧
      (t.fn fn).waiting = (s.fn fn).waiting ++ [entryOf s k status detail])

/-- `t` is `s` with the packet outstanding: it waits for what its command names, and has no reply yet (R381). -/
def Waits (s : State) (k : Packet) (t : State) (d : Deferred) : Prop := t = openPacket s k (some d)

/-- A command of opcode `op`: from every state in which a packet of it is accepted, and in which `pre` holds once it has
started, the event answers a next state of which `post` holds. -/
def Completes (c : PktSrc → Instr) (op : Nat) (pre : State → Packet → Prop) (post : State → Packet → State → Prop) :
    Prop :=
  ∀ s src k, Accepted s src op k → pre (started s src k) k →
    ∃ t, exec (c src) s = .next t ∧ post (started s src k) k t

/-- `t` is the state that the command leaves with the packet's reply made, and nothing else: a status, a detail, and an OUT
block at an address. -/
def Reports (s' : State) (k : Packet) (t : State) (status detail out : Nat) (block : List Byte) : Prop :=
  t = replyNow s' k status detail out block

/-- The same for a reply without an OUT block. -/
def Answers (s' : State) (k : Packet) (t : State) (status detail : Nat) : Prop := Reports s' k t status detail 0 []

/-- An entry of an opcode stands readable at the head of a queue that may act (R390, R391). -/
structure EntryAt (s : State) (p k op : Nat) (e : Entry) : Prop where
  runs : partRuns s p = true
  active : (s.queue p k).halted = false
  head : headOf s p k = .entry e
  opcode : e.op = op

/-- A group may issue, the word is legal and of a class, and its fetch gives exactly that word, leaving `s'`, in which it
may still issue and no register that the word reads has a parity error (R181, R182, R293). -/
structure Fetched (s : State) (g : GroupRef) (w : W64) (c : OpClass) (s' : State) : Prop where
  may : mayIssue s g = true
  legal : wordLegal w = true
  cls : wClass w = c
  fetch : fetchWord s g w = (s', true)
  still : mayIssue s' g = true
  intact : operandsOdd (s'.group g) w = false

/-- A command that the host gives over its port: from every state in which the port is up, and in which `pre` holds once the
device is awake, the event answers a next state of which `post` holds. -/
def OnHost (c : Instr) (pre : State → Prop) (post : State → State → Prop) : Prop :=
  ∀ s, hostUp s = true → pre (wakeBy s 1) → ∃ t, exec c s = .next t ∧ post (wakeBy s 1) t

/-- An event: from every state in which `pre` holds it answers a next state of which `post` holds. -/
def Event (c : Instr) (pre : State → Prop) (post : State → State → Prop) : Prop :=
  ∀ s, pre s → ∃ t, exec c s = .next t ∧ post s t

/-- One byte of a slot. -/
def slotByte (f : FnState) (k o : Nat) : Byte := (natLe 4 (tget (tget f.slots k).words (o / 4)).toNat).getD (o % 4) 0

/-- Every byte of every memory is as before: LSM, the scratchpads, the flash image, the trace buffer. -/
def SameBytes (s t : State) : Prop :=
  t.mem = s.mem ∧ t.spad = s.spad ∧ t.flash.image = s.flash.image ∧ t.shared.buffer = s.shared.buffer

/-- A line of a partition's own grants that has a home, where its slice and its filter entries hold it without a parity error
(R213, R216, R239). -/
structure Homed (s : State) (p a : Nat) : Prop where
  home : (homeOf s p a).isSome = true
  own : isLsmLine a = true
  grants : granted s p (linePhys a) = true
  good : (s.line p a).odd = false
  names : ∀ f ∈ (s.line p a).filter, f.odd = false

/-- Such a line that lies in the sets of its slice, and at which nothing is in progress or waits (R220). -/
structure Resident (s : State) (p a : Nat) : Prop extends Homed s p a where
  valid : (s.line p a).state ≠ .absent
  sets : (s.line p a).streamed = false
  free : lineBusy (s.line p a) = false
  none : (s.line p a).waiting = []

/-- A line with what reads of memory have brought of it used up (R268). -/
def spent (n : Line) : Line := if n.here = 0 then n else { n with here := 0, bad := 0, met := 0, wrong := [] }

/-- No L1 but `l` holds the line, and neither does the host. -/
def OnlyHeldBy (s : State) (p a : Nat) (l : L1Id) : Prop :=
  (∀ f ∈ (s.line p a).filter, f.l1 = l) ∧ (s.line p a).host = false

/-- No L1 holds the line, and neither does the host. -/
def HeldByNone (s : State) (p a : Nat) : Prop := (s.line p a).filter = [] ∧ (s.line p a).host = false

/-- Two states differ in one group of the cores only. -/
def GroupOnly (s t : State) (g : GroupRef) : Prop :=
  t = { s with groups := t.groups } ∧ ∀ h : GroupRef, h ≠ g → t.group h = s.group h

/-- An instruction of a class: wherever its word is fetched and legal, and `pre` holds of its group and the word, its event
answers a next state of which `post` holds. -/
def Instruction (c : GroupRef → W64 → Instr) (k : OpClass) (pre : Group → W64 → Prop)
    (post : State → GroupRef → W64 → State → Prop) : Prop :=
  ∀ g w s s', Fetched s g w k s' → pre (s'.group g) w → ∃ t, exec (c g w) s = .next t ∧ post s' g w t

/-- An instruction whose whole effect is one on its group. -/
def GroupInstruction (c : GroupRef → W64 → Instr) (k : OpClass) (pre : Group → W64 → Prop) (f : Group → W64 → Group) : Prop :=
  Instruction c k pre (fun s g w t => GroupOnly s t g ∧ t.group g = f (s.group g) w)

/-- A device event of a function with a source, a status and a detail: written to its ring, or waiting for room there
(R385). -/
def EventPosted (t : State) (fn source status detail : Nat) : Prop :=
  ∃ e : RingEntry, e.event = true ∧ e.source = source ∧ e.status = status ∧ e.detail = detail ∧
    (e ∈ (t.fn fn).waiting ∨ ∃ a f, Output.hostWrite fn a (entryBytes f e) ∈ t.out)

/-- A flooded symbol of another device that comes for the first time within a millisecond, by a port that is UP (R326). -/
structure FirstCopy (s : State) (j source key : Nat) : Prop where
  up : (s.port j).state = .up
  other : source ≠ ownNumber s
  first : ∀ k ∈ s.links.seen, k.1 = key → k.2 + keyTicks ≤ s.devTime

/-- A symbol has gone on by every other port that is UP. -/
def SentOn (s t : State) (j : Fin 12) (v : W64) : Prop :=
  ∀ k : Fin 12, k ≠ j → (s.port k).state = .up → (t.port k).sendSymbols = (s.port k).sendSymbols ++ [v]

end Machine

end Sys2Proof
end

