-- ==== Sys2Proof/Certificates/Slice0/Obligations.lean ====
section
/-! DEFINITION. The statements for the provers. -/

open Sys2Proof Sys2Proof.Machine



/-- A step executes the command at the front of the queue on the rest; an empty queue passes one tick
(spec/14_host_port_and_commands.md, spec/95_what_each_step_holds.md). For every command c and state s: a step of s
with c at the front of its queue is exec of c on s with the queue's rest, and a step of a state whose queue is empty
answers the state after one tick of the DEV_TIME base (the model's choice, log entry 2). -/
def Obligations.StepTakesTheFrontCommand : Prop :=
  (∀ (c : Instr) (rest : List Instr) (s : State), step { s with pending := c :: rest } = exec c { s with pending := rest }) ∧
    ∀ s : State, s.pending = [] → step s = .next (idleTick s)

/-- No command ends in a fault or a refusal (spec/00_scope.md, spec/14_host_port_and_commands.md). For every command c
and state s, exec of c on s answers a next state: the manual gives every command an effect, and an event whose
premise does not hold leaves the state as it is (log entry 1). -/
def Obligations.EveryCommandAnswersANextState : Prop :=
  ∀ (c : Instr) (s : State), ∃ t, exec c s = .next t

namespace Sys2Proof.Machine

/-- Every byte memory of the device is in canonical form: LSM, the scratchpads, the flash image, the trace buffer. -/
def MemoriesCanonical (s : State) : Prop :=
  Memory.wf s.mem = true ∧ Memory.wf s.spad = true ∧ Memory.wf s.flash.image = true ∧
    Memory.wf s.shared.buffer = true

/-- The fuses of `t` are those of `s` but for an SVN floor that has not fallen. -/
def FusesStand (s t : State) : Prop :=
  t.fuses = { s.fuses with svnFloor := t.fuses.svnFloor } ∧ s.fuses.svnFloor ≤ t.fuses.svnFloor

end Sys2Proof.Machine

/-- What the state right after reset holds, the invariant of the byte memories and fuses with it (R6, R416,
spec/10_stacked_memory.md, spec/17_power_and_thermal.md, spec/19_boot_test_debug.md). At reset no command waits, no
packet is outstanding, no partition exists, the boot ROM has not handed over (stage rom) and a power-on cold boot is
due, every clock halts, the cap is 2,400 W, DEV_TIME is 0, no owner key is held, no port has an interrupt cause set,
the four byte memories list nothing and are canonical, and the SVN floor is 0. -/
def Obligations.ResetStateIsBeforeColdBoot : Prop :=
  State.reset.pending = [] ∧ State.reset.outstanding = [] ∧ partsOf State.reset = [] ∧
    State.reset.boot.stage = .rom ∧ State.reset.boot.due = some 0 ∧ State.reset.power.halted = true ∧
    State.reset.power.cap = 2400 ∧ State.reset.devTime = 0 ∧ State.reset.sec.ownerKey = none ∧
    (∀ fn, (State.reset.fn fn).intCause = 0) ∧ State.reset.mem = [] ∧ State.reset.spad = [] ∧
    State.reset.flash.image = [] ∧ State.reset.shared.buffer = [] ∧ MemoriesCanonical State.reset ∧
    State.reset.fuses.svnFloor = 0

/-- Every step keeps the byte memories canonical and the fuses as manufactured, and the SVN floor never falls (R502,
R508, spec/19_boot_test_debug.md). From every state whose byte memories are canonical, reached or not, a step
answers a state whose byte memories are canonical, whose fuses are those it had but for the SVN floor (R508), and
whose SVN floor has not fallen, so that an image below it never verifies again (R502). This is over every command of
the table and the idle tick. -/
def Obligations.EveryStepKeepsMemoriesAndFuses : Prop :=
  ∀ s t, MemoriesCanonical s → step s = .next t → MemoriesCanonical t ∧ FusesStand s t

/-- The physical place of every logical stall is the same after any number of steps (R12, R13, R502). For every state
whose byte memories are canonical and every number of steps n, if n steps answer a state t, then every logical stall
has in t the physical index, row and column it had, and an image whose security version is below the SVN floor at
the start is below the floor in t (R12, R13, R502). -/
def Obligations.NumberingNeverChanges : Prop :=
  ∀ (n : Nat) (s t : State), MemoriesCanonical s → core.run n s = .next t →
    (∀ i, physOf t i = physOf s i ∧ rowOf t i = rowOf s i ∧ colOf t i = colOf s i) ∧
      ∀ svn, svn < s.fuses.svnFloor → svn < t.fuses.svnFloor

/-- No command drops, adds or reorders the commands that wait (spec/14_host_port_and_commands.md). From every state
whose byte memories are canonical, the next state that any command answers has exactly the waiting commands it was
executed over: the queue is first in, first out. -/
def Obligations.CommandsLeaveTheQueueAlone : Prop :=
  ∀ c s t, MemoriesCanonical s → exec c s = .next t → t.pending = s.pending

namespace Sys2Proof.Machine

/-- The port a packet stands at. -/
def packetPort : PktSrc → ReplyPort
  | .slot fn _ => .host fn
  | .mgmt n _ => .mgmt n

/-- The packet commands, each with the packets of its row (Table HST-8) and what goes on after the packet's course. -/
def packetRows : List ((PktSrc → Instr) × (Packet → Bool) × (State → State)) :=
  let plain := fun (c : PktSrc → Instr) (op : Nat) => (c, fun k : Packet => decide (k.op = op), fun s : State => s)
  let action := fun (c : PktSrc → Instr) (op w a : Nat) => (c, fun k : Packet => decide (k.op = op ∧ k.word w = a), fun s : State => s)
  [plain .nop 0x0001, plain .getInfo 0x0002, plain .queueSubmit 0x0010,
    (.queueHalt, fun k => decide (k.op = 0x0011 ∧ k.param 1 = 0), settleAllHalts),
    (.queueResume, fun k => decide (k.op = 0x0011 ∧ k.param 1 = 1), fun s => s),
    (.queueFlush, fun k => decide (k.op = 0x0011 ∧ k.param 1 = 2), settleAllHalts),
    plain .queueStatus 0x0012, plain .jobStart 0x0013, plain .jobEnd 0x0014,
    (.portCopy, fun k => decide (k.op = 0x0020), pumpEvery)] ++
  [plain .pinLines 0x0022, plain .unpinLines 0x0023, (.discardLines, fun k => decide (k.op = 0x0024), settleDiscards),
    plain .sessionOpen 0x0030, plain .sessionAppend 0x0031, plain .sessionClose 0x0032, plain .sessionQuery 0x0033,
    plain .partitionCreate 0x0040, (.partitionDestroy, fun k => decide (k.op = 0x0041), settleResets),
    (.partitionReset, fun k => decide (k.op = 0x0042), settleResets), plain .partitionSetLease 0x0043] ++
  [(.dirtyLogStart, fun k => decide (k.op = 0x0044 ∧ logAction k = 1), fun s => s),
    (.dirtyLogCollect, fun k => decide (k.op = 0x0044 ∧ logWordOk k = true ∧ logAction k = 2), settleAllLogs),
    (.dirtyLogStop, fun k => decide (k.op = 0x0044 ∧ logWordOk k = true ∧ logAction k = 0), settleAllLogs),
    plain .powerSetCap 0x0050, plain .powerSetMode 0x0051,
    (.powerStateRun, fun k => decide (k.op = 0x0052 ∧ k.param 0 = 0), fun s => s),
    (.powerStateIdle, fun k => decide (k.op = 0x0052 ∧ k.param 0 = 1), fun s => s),
    (.powerStateSleep, fun k => decide (k.op = 0x0052 ∧ k.param 0 = 2), fun s => s),
    (.powerStateDeep, fun k => decide (k.op = 0x0052 ∧ k.param 0 = 3), fun s => s),
    (.powerStateOff, fun k => decide (k.op = 0x0052 ∧ k.param 0 = 4), fun s => s)] ++
  [plain .telemetryRead 0x0053, plain .attestPartition 0x0060, plain .keyInstall 0x0061, plain .keyPurge 0x0062,
    action .ownerProvisionTake 0x0063 4 0, action .ownerProvisionTransfer 0x0063 4 1, action .ownerProvisionRelease 0x0063 4 2,
    plain .bistRun 0x0070, plain .bistResult 0x0071, plain .fwUpdateBegin 0x0072, plain .fwUpdateData 0x0073,
    plain .fwUpdateCommit 0x0074, plain .tallyConfig 0x0080] ++
  [action .traceStop 0x0081 4 0, action .traceStart 0x0081 4 1, action .traceRead 0x0081 4 2, action .traceClear 0x0081 4 3,
    action .debugHalt 0x0082 4 0, action .debugRelease 0x0082 4 1, plain .linkConfig 0x0090, plain .linkStatus 0x0091,
    (.chainEnumerate, fun k => decide (k.op = 0x0092), startWalk), action .resourceClaim 0x00A0 5 0,
    action .resourceRelease 0x00A0 5 1]

end Sys2Proof.Machine

/-- A packet that fails a check of R380 is refused with the first check that fails and has no effect; and how a reply
reaches its port (R380, R381, R382, R384, R385, R388, R404). For every packet command but SET_REPLY_RING and
INVALID_OPCODE_PACKET, in every state where a packet of its row stands at its port and may start, and no copy that
it votes fails: if some check of R380 fails in the started state, the command answers that state with the reply of
that status and detail made and nothing else, and what goes on at any packet's course then goes on; on a function
with no ring only NORING_STATUS is set instead. A reply changes only what its port owns: a management response with
its block; on a host port the OUT block leaves, then the entry is written at P and the packet is no longer
outstanding, or, without room, the entry waits last and RING_STALL is set. A packet refused at check 11 keeps its
slot while its entry waits. -/
def Obligations.PacketIsRefusedAtTheFirstFailingCheck : Prop :=
  (∀ e ∈ packetRows, ∀ s src k status detail, packetAt s src = some k → e.2.1 k = true → mayStart s k = true →
      s.fuseOdd = [] → (s.part k.part).pitchOdd = [] → checkPacket (started s src k) k = some (status, detail) →
      exec (e.1 src) s = .next (e.2.2 (
        if hasRing (started s src k) k then refusePacket (started s src k) src k status detail
        else match k.port with
          | .host fn => (started s src k).modFn fn (fun f => { f with noringStatus := status })
          | .mgmt _ => started s src k))) ∧
    (∀ u src k status detail, (detail ≠ Detail.hstOutstanding ∨ k.port.isMgmt = true) →
      packetPort src = k.port → Answers u k (refusePacket u src k status detail) status detail) ∧
    (∀ u (fn : Fin 65) (i : Fin 8) k status, k.port = .host fn → ringRoom (u.fn fn) = false →
      ∃ t, t = refusePacket u (.slot fn i) k status Detail.hstOutstanding ∧ PortOnly u t ∧
        (tget (t.fn fn).slots i).committed = true ∧ (t.fn fn).producer = (u.fn fn).producer ∧
        (t.fn fn).waiting = (u.fn fn).waiting ++ [{ entryOf u k status Detail.hstOutstanding with slot := some i.val }]) ∧
    ∀ u k status detail out block,
      (∀ o ∈ u.outstanding, ¬(o.replyTo.port = k.port ∧ o.replyTo.tag = k.tag ∧ o.waits = none)) →
      (∀ fn, k.port = .host fn → ringRoom (u.fn fn) = true → (u.fn fn).waiting = []) →
      ReplyMade u k (replyNow u k status detail out block) status detail out block

/-- The checks of R380 in order: length, CRC, header, opcode (R379, R380). In every state, a packet longer than 1,020
words is refused with BAD_LENGTH whatever else it fails; else one whose CRC word does not match with BAD_CRC; else
one whose version is not 1 or whose reserved header bits are set with BAD_OPCODE and detail HST_HEADER; else one
whose opcode is in no row of Table HST-8 with BAD_OPCODE. A packet that passes every check has a LENGTH in its
opcode's range. -/
def Obligations.ChecksOfAPacketStandInTheirOrder : Prop :=
  ∀ s k, (1020 < k.length → checkPacket s k = some (Status.badLength, 0)) ∧
    (k.length ≤ 1020 → k.crcOk = false → checkPacket s k = some (Status.badCrc, 0)) ∧
    (k.length ≤ 1020 → k.crcOk = true → (k.version ≠ 1 ∨ k.reservedOk = false) →
      checkPacket s k = some (Status.badOpcode, Detail.hstHeader)) ∧
    (k.length ≤ 1020 → k.crcOk = true → k.version = 1 → k.reservedOk = true → k.row = none →
      checkPacket s k = some (Status.badOpcode, 0)) ∧
    (checkPacket s k = none → ∃ r, k.row = some r ∧ r.lo ≤ k.length ∧ k.length ≤ r.hi)

/-- A packet whose opcode is in no row of Table HST-8 is refused with BAD_OPCODE (R380). Where a packet with a good
header and CRC and an opcode of no row of Table HST-8 stands at its port, may start and has somewhere to reply,
INVALID_OPCODE_PACKET and no copy that it votes fails, INVALID_OPCODE_PACKET answers the started state with the
reply BAD_OPCODE of detail 0 made, and nothing else changed (R380, check 4). -/
def Obligations.UnknownOpcodeIsRefused : Prop :=
  ∀ s src k, packetAt s src = some k → k.row = none → k.length ≤ 1020 → k.crcOk = true → k.version = 1 →
    k.reservedOk = true → mayStart s k = true → hasRing (started s src k) k = true →
    s.fuseOdd = [] → (s.part k.part).pitchOdd = [] → exec (.invalidOpcodePacket src) s = .next (replyNow (started s src k) k Status.badOpcode 0 0 [])

/-- NOP, GET_INFO, QUEUE_STATUS, LINK_STATUS, TELEMETRY_READ, BIST_RESULT and TRACE_CONTROL READ reply and change
nothing else (R387, R388, R389, R392, R475, R514, R518). Each accepted packet of these commands, with parameters in
range, completes: the next state is the started one with the packet's reply made and nothing else: NOP replies OK;
the others reply OK (QUEUE_STATUS with STATE as its detail) with their block to OUT. Such a reply differs in nothing
but the functions' registers and rings, the packets outstanding, the sessions' last traffic and what has left the
device: no register of a partition, stall, link or memory, and no byte of memory. The blocks have the lengths of
their tables (64 bytes for a queue, 256 for the others), and BIST_RESULT's block travels in its management response. -/
def Obligations.QueryPacketsReplyWithTheirBlock : Prop :=
  Completes .nop 0x0001 (fun _ _ => True) (fun s k t => Answers s k t Status.ok 0) ∧
    Completes .getInfo 0x0002 (fun _ k => outOk k (k.param64 0) = true) (fun s k t =>
      Reports s k t Status.ok 0 (k.param64 0) (infoBlock s k)) ∧
    Completes .queueStatus 0x0012 (fun _ k => k.param 0 < 5 ∧ outOk k (k.param64 1) = true) (fun s k t =>
      Reports s k t Status.ok (queueState s k.part (k.param 0)) (k.param64 1) (queueBlock s k.part (k.param 0))) ∧
    Completes .linkStatus 0x0091 (fun _ k => outOk k (k.param64 0) = true) (fun s k t =>
      Reports s k t Status.ok 0 (k.param64 0) (linkBlock s)) ∧
    Completes .telemetryRead 0x0053 (fun _ k => k.param 2 ≤ 1 ∧ outOk k (k.param64 0) = true ∧
        ¬(k.param 2 = 0 ∧ k.port.isVf = true)) (fun s k t =>
      Reports s k t Status.ok 0 (k.param64 0) (if k.param 2 = 0 then deviceTelemetry s else partTelemetry s k.part)) ∧
    Completes .bistResult 0x0071 (fun s k => k.param 0 < 64 ∧ harvested s (k.param 0) = false) (fun s k t =>
      Reports s k t Status.ok 0 0 (bistBlock { (s.stall (k.param 0)).bist with
        fenceFlags := (s.stall (k.param 0)).bist.fenceFlags / 2 * 2 + b2n (isFenced s (k.param 0)) })) ∧
    Completes .traceRead 0x0081 (fun _ k => k.word 4 = 2 ∧ 5 ≤ k.length ∧ k.param 1 < 8 ∧ k.param 2 % 1024 = 0 ∧
        k.param 2 < traceBytes ∧ outOk k (k.param64 3) = true) (fun s k t =>
      Reports s k t Status.ok 0 (k.param64 3) (mreads s.shared.buffer (k.param 2) 1024)) ∧
    (∀ s k t status detail out block, Reports s k t status detail out block → PortOnly s t) ∧
    ∀ s k, (infoBlock s k).length = 256 ∧ (queueBlock s k.part (k.param 0)).length = 64 ∧ (linkBlock s).length = 256 ∧
      (deviceTelemetry s).length = 256 ∧ (partTelemetry s k.part).length = 256

/-- SET_REPLY_RING sets the ring, clears its counts, and replies in the new ring; it needs no ring set before (R383,
R384). Where a SET_REPLY_RING of a host function stands at its port, may start and passes the checks of R380,
whether or not a ring was set: with its BASE 4 KiB aligned, its N a power of two from 8,192 to 1,048,576, and no
other packet of the function outstanding, the event answers the started state with that ring, P and RING_HEAD at 0,
its own reply OK made in it, and the events that waited posted after it, and nothing but what the ports own changed.
Of any other it is refused: with a ring by a reply with BAD_STATE and its detail, and with none by NORING_STATUS
alone (R383, R384). -/
def Obligations.SetReplyRingStartsAnEmptyRing : Prop :=
  ∀ s src k fn n, packetAt s src = some k → k.op = 0x0003 → k.port = .host fn → mayStart s k = true →
    checkPacket (started s src k) k = none →
    (ringCheck (started s src k) k = .ok n → ∃ t u, exec (.setReplyRing src) s = .next t ∧
      u = (started s src k).modFn fn (fun f => { f with
        ringBase := k.param64 0, ringLog2 := n, producer := 0, head := 0, waiting := [] }) ∧ 2 ^ n = k.param 2 ∧
      t = ((started s src k).fn fn).waiting.foldl (fun s e => postEntry s fn e) (replyNow u k Status.ok 0 0 []) ∧
      PortOnly (started s src k) t ∧ (t.fn fn).ringBase = k.param64 0 ∧ (t.fn fn).ringLog2 = n ∧ (t.fn fn).head = 0) ∧
    ∀ status detail, ringCheck (started s src k) k = .error (status, detail) →
      status = Status.badState ∧ exec (.setReplyRing src) s = .next (
        if ((started s src k).fn fn).ringLog2 ≠ 0 then replyNow (started s src k) k status detail 0 []
        else (started s src k).modFn fn (fun f => { f with noringStatus := status }))

/-- QUEUE_SUBMIT appends its list; QUEUE_HALT and FLUSH halt idle queues and reply when all have halted; RESUME lets
them go on (R390, R391). Accepted QUEUE_SUBMIT with parameters in range and fewer than 64 lists waiting appends the
list to the queue, changes nothing else but for its reply ACCEPTED. Accepted QUEUE_HALT with ACTION HALT or FLUSH
makes its packet wait while the queues of its mask that are not in progress are halted at once, and every wait whose
queues have all halted is then answered. RESUME replies OK over the state in which every queue of the mask is
resumed and an entry that waits may start. -/
def Obligations.QueuePacketsActOnTheirQueues : Prop :=
  Completes .queueSubmit 0x0010 (fun s k => k.param 0 < 5 ∧ isVa (k.param64 1) = true ∧ k.param64 1 % 64 = 0 ∧
        k.param 3 ≠ 0 ∧ k.param 3 ≤ 65536 ∧ (s.queue k.part (k.param 0)).lists.length < 64) (fun s k t =>
      Answers (s.modQueue k.part (k.param 0) (fun x =>
        { x with lists := x.lists ++ [{ address := k.param64 1, units := k.param 3 }] })) k t Status.accepted 0) ∧
    Completes .queueHalt 0x0011 (fun _ k => k.param 0 < 32 ∧ k.param 1 = 0) (fun s k t =>
      ∃ u, Waits (haltQueues s k.part (k.param 0)) k u (.queueHalt (k.param 0) false) ∧ t = settleAllHalts u) ∧
    Completes .queueFlush 0x0011 (fun _ k => k.param 0 < 32 ∧ k.param 1 = 2) (fun s k t =>
      ∃ u, Waits (haltQueues s k.part (k.param 0)) k u (.queueHalt (k.param 0) true) ∧ t = settleAllHalts u) ∧
    Completes .queueResume 0x0011 (fun _ k => k.param 0 < 32 ∧ k.param 1 = 1) (fun s k t =>
      Answers (tryStart ((setBits (k.param 0) 5).foldl (fun s i => s.modQueue k.part i (resumeQueue (s.part k.part).timers)) s) k.part) k t
        Status.ok 0)

/-- PIN_LINES pins, UNPIN_LINES unpins, DISCARD_LINES waits for the unit in progress (R231, R237). Accepted PIN_LINES
over lines of the grants of a partition with a home, within the pin ways and the pin quota, replies OK over the
state in which every line not yet pinned is pinned. UNPIN_LINES replies OK over the state in which every line is
unpinned. DISCARD_LINES makes its packet wait with the lines of its range and changes nothing else, and discards
whose partition has no unit in progress then act. -/
def Obligations.LinePacketsPinUnpinAndDiscard : Prop :=
  Completes .pinLines 0x0022 (fun s k => lineParams k = true ∧ ∃ as,
        grantLines s k.part (k.param64 0) (k.param64 2 / 1024) = some as ∧ homeless s k.part = false ∧
        pinWaysBad s k.part (as.eraseDups.filter (fun a => !(s.line k.part a).pinned)) = false ∧
        pinnedCount s k.part + (as.eraseDups.filter (fun a => !(s.line k.part a).pinned)).length ≤
          (s.part k.part).record.pinQuota) (fun s k t =>
      ∃ as, grantLines s k.part (k.param64 0) (k.param64 2 / 1024) = some as ∧
        Answers ((as.eraseDups.filter (fun a => !(s.line k.part a).pinned)).foldl (fun s a => pinLine s k.part a) s) k t
          Status.ok 0) ∧
    Completes .unpinLines 0x0023 (fun s k => lineParams k = true ∧
        (grantLines s k.part (k.param64 0) (k.param64 2 / 1024)).isSome = true) (fun s k t =>
      ∃ as, grantLines s k.part (k.param64 0) (k.param64 2 / 1024) = some as ∧
        Answers (as.foldl (fun s a => unpinLine s k.part a) s) k t Status.ok 0) ∧
    Completes .discardLines 0x0024 (fun s k => lineParams k = true ∧ homeless s k.part = false ∧
        (grantLines s k.part (k.param64 0) (k.param64 2 / 1024)).isSome = true) (fun s k t =>
      ∃ as u, grantLines s k.part (k.param64 0) (k.param64 2 / 1024) = some as ∧
        Waits s k u (.discardLines as) ∧ t = settleDiscards u)

namespace Sys2Proof.Machine

/-- DEADLINE_US of an entry after an APPEND: the packet's, or where that is 0 the one that stands or waits (R359). -/
def appendDeadline (s : State) (k : Packet) (e : List Byte) : Nat :=
  if k.param 4 = 0 then sesDeadline (withAppend s k.part (k.param 0) e) else k.param 4

/-- An entry with the AVAIL, LIMIT and PAGES of an APPEND. -/
def appendFields (k : Packet) (e : List Byte) : List Byte :=
  patch (patch e 20 (natLe 4 (k.param 1) ++ natLe 4 (k.param 2))) 28 (natLe 2 (k.param 3))

/-- In WCET mode a deadline that falls still meets the bound with every session open (R363). -/
def AppendAdmitted (s : State) (k : Packet) (e : List Byte) : Prop :=
  (s.part k.part).record.session = 1 → appendDeadline s k e < sesDeadline (withAppend s k.part (k.param 0) e) →
    admits s k.part ((openSessions s k.part).map (fun x =>
      if x.1 = k.param 0 then (x.1, x.2.1, appendDeadline s k e) else x)) = true

end Sys2Proof.Machine

/-- SESSION_OPEN, APPEND, CLOSE and QUERY act on the one entry they name, as the vote of its copies leaves it (R314,
R357, R358, R359, R363). Every use of an entry votes its copies: alike and intact they are used as they are and
nothing changes; with one intact, both are written from it and that is counted; otherwise the entry is FAILED, and
the vote answers none. An accepted SESSION_OPEN of a free entry in range, which in WCET mode its deadline admits,
replies OK over the state in which, after the votes, the 64 bytes of that entry hold the entry the packet gives;
APPEND that R359 allows replies OK over the state with a READY entry's AVAIL, LIMIT, PAGES and DEADLINE written, a
RUNNING one's kept until its step ends, and an entry that waits made READY with its clock; CLOSE of a quarantined
entry, or one neither free nor RUNNING, replies OK over the state with its 64 bytes zero, a free one is refused, and
a RUNNING one makes the packet wait; QUERY replies OK with the entry's STATE as detail and its bytes with the
session clock as block. -/
def Obligations.SessionPacketsKeepTheTable : Prop :=
  (∀ s p i, (∀ c, sesVote (sesRead s p i) = some (c, false) → sesUse s p i = (s, some (sesRead s p i))) ∧
      (∀ c, sesVote (sesRead s p i) = some (c, true) → ∃ u, sesUse s p i = (u, some (patch (sesRead s p i) 32 (c ++ c))) ∧
        u.mem = mwrites s.mem (sesAddr s p i) (patch (sesRead s p i) 32 (c ++ c)) ∧
        u.sessionRewrites = satInc s.sessionRewrites 65535) ∧
      (sesVote (sesRead s p i) = none → ∃ u, sesUse s p i = (u, none) ∧
        u.mem = mwrites s.mem (sesAddr s p i) (sesPut (sesRead s p i) sesFailed (sesDeadline (sesRead s p i))))) ∧
    Completes .sessionOpen 0x0030 (fun s k => openOk k = true ∧ outOfRange s k.part (k.param 0) = false ∧
        (∃ e, (sesUse s k.part (k.param 0)).2 = some e ∧ sesState e = 0) ∧
        ∀ u, u = useSessions (sesUse s k.part (k.param 0)).1 k.part → (u.part k.part).record.session = 1 →
          admits u k.part ((k.param 0, bits (k.param 5) 23 16, k.param 6) :: openSessions u k.part) = true) (fun s k t =>
      ∃ u, u = useSessions (sesUse s k.part (k.param 0)).1 k.part ∧
        Answers { u with mem := mwrites u.mem (sesAddr u k.part (k.param 0)) (openEntry k) } k t Status.ok 0) ∧
    (∀ e, Completes .sessionAppend 0x0031 (fun s k => appendOk k = true ∧ outOfRange s k.part (k.param 0) = false ∧
        ∃ u, sesUse s k.part (k.param 0) = (u, some e) ∧ sesState e ≠ 0 ∧ sesState e ≠ sesFailed ∧
          appendBad (withAppend u k.part (k.param 0) e) (k.param 1) (k.param 2) (k.param 3) = false ∧
          (∀ v, v = useSessions u k.part → AppendAdmitted v k e) ∧
          (sesState e = sesReady ∨ sesState e = sesRunning ∨ (sesPos e < k.param 1 ∧ k.param 1 < k.param 2 ∧
            ∀ v, v = useSessions u k.part → sesPos e < k.param 3 * Nat.max 1 (v.part k.part).ses.perPage))) (fun s k t =>
      ∃ v, v = useSessions (sesUse s k.part (k.param 0)).1 k.part ∧ Answers (
        if sesState e = sesReady then sesWrite v k.part (k.param 0) (sesPut (appendFields k e) sesReady (appendDeadline v k e))
        else if sesState e = sesRunning then v.modPart k.part (fun q => { q with ses := { q.ses with
          appends := (k.param 0, k.param 2, k.param 3, appendDeadline v k e) :: q.ses.appends.filter (fun a => a.1 ≠ k.param 0) } })
        else sesWrite v k.part (k.param 0) (patch (sesPut (appendFields k e) sesReady (appendDeadline v k e)) 48
          (natLe 8 (sesClock v) ++ ((appendFields k e).drop 56).take 4 ++ natLe 1 0))) k t Status.ok 0)) ∧
    Completes .sessionClose 0x0032 (fun s k => outOfRange s k.part (k.param 0) = false) (fun s k t =>
      match sesUse s k.part (k.param 0) with
      | (u, none) => Answers { u with mem := mwrites u.mem (sesAddr u k.part (k.param 0)) (List.replicate 64 0) } k t Status.ok 0
      | (u, some e) =>
        if sesState e = 0 then Answers u k t Status.badState Detail.sesState
        else if sesState e = sesRunning then Waits u k t (.sessionClose (k.param 0))
        else Answers { u with mem := mwrites u.mem (sesAddr u k.part (k.param 0)) (List.replicate 64 0) } k t Status.ok 0) ∧
    Completes .sessionQuery 0x0033 (fun s k => outOk k (k.param64 1) = true ∧ outOfRange s k.part (k.param 0) = false)
      (fun s k t => ∃ u, u = (sesUse s k.part (k.param 0)).1 ∧
        Reports u k t Status.ok (sesState (sesRead u k.part (k.param 0))) (k.param64 1)
          (patch (sesRead u k.part (k.param 0)) 40 (natLe 8 (sesClock u))))

/-- PARTITION_CREATE, DESTROY, RESET and SET_LEASE (R410, R416, R420, R422, R423). An accepted PARTITION_CREATE whose
record passes every check of R408 to R410 replies OK, with the partition's number as detail, over the state with
that partition created. DESTROY and RESET begin the reset of their partition, or join the one that runs, and the
packet waits; partitions that have drained then finish. SET_LEASE in range, of a partition with no Zuloilo port and
whose wake timer is free, replies OK over the state in which only that partition's lease, and a pre-emption that had
begun, have changed; a PREEMPTED job then resumes. -/
def Obligations.PartitionPacketsCreateResetAndLease : Prop :=
  Completes .partitionCreate 0x0040 (fun s k =>
        createCheck s (k.param 0) (recordOf (padTo 512 (k.paramBytes 1))) = none ∧
        (requestedPart s (k.param 0 % 128)).isSome = true) (fun s k t =>
      ∃ p, requestedPart s (k.param 0 % 128) = some p ∧
        Answers (createPart s p (recordOf (padTo 512 (k.paramBytes 1)))) k t Status.ok p) ∧
    Completes .partitionReset 0x0042 (fun _ _ => True) (fun s k t =>
      ∃ u, Waits (startReset s k.part) k u .reset ∧ t = settleResets u) ∧
    Completes .partitionDestroy 0x0041 (fun _ _ => True) (fun s k t =>
      ∃ u, Waits (startReset s k.part) k u .destroy ∧ t = settleResets u) ∧
    Completes .partitionSetLease 0x0043 (fun s k => k.param64 0 < 2 ^ 40 ∧ k.param 2 ≤ 1000000 ∧
        (s.part k.part).record.zlPorts = 0 ∧ bit s.shared.wakeOwned k.part = false) (fun s k t =>
      ∃ u, Answers (if (s.part k.part).state = .preempted then resumeJob u k.part else u) k t Status.ok 0 ∧
        u = s.modPart k.part (fun q => { q with
        lease := { set := decide (k.param64 0 ≠ 0), remain := k.param64 0, graceLeft := 0
                   grace := if k.param64 0 = 0 then 0 else if k.param 2 = 0 then 5000 else k.param 2 }
        state := if q.state == .preempting then .running else q.state }))

/-- DIRTY_LOG_CONTROL START opens a log; COLLECT and STOP wait for their bitmap (R424, R425). An accepted
DIRTY_LOG_CONTROL with a word 0 in range: START of a space with no log, with its bitmap 64-byte aligned and its base
and size whole pages, replies OK over the state in which only that log has been set, with nothing marked. COLLECT
and STOP of a space with a log make the packet wait and change nothing else, and every wait that is due is then
settled. -/
def Obligations.DirtyLogPacketsStartCollectAndStop : Prop :=
  Completes .dirtyLogStart 0x0044 (fun s k => logWordOk k = true ∧ logAction k = 1 ∧
        logOf s k.part (logHostSpace k) = none ∧ k.param64 1 % 64 = 0 ∧ k.param64 3 % logPage (logHostSpace k) = 0 ∧
        k.param64 5 % logPage (logHostSpace k) = 0) (fun s k t =>
      ∃ l : DirtyLog, l.bitmap = k.param64 1 ∧ l.base = k.param64 3 ∧ l.bytes = k.param64 5 ∧ l.marked = [] ∧
        Answers (s.modPart k.part (fun q => if logHostSpace k then { q with logHost := some l }
          else { q with logDevice := some l })) k t Status.ok 0) ∧
    Completes .dirtyLogCollect 0x0044 (fun s k => logWordOk k = true ∧ logAction k = 2 ∧
        (logOf s k.part (logHostSpace k)).isSome = true ∧ k.param64 1 % 64 = 0) (fun s k t =>
      ∃ u, Waits s k u (.collect (logHostSpace k) (k.param64 1)) ∧ t = settleAllLogs u) ∧
    Completes .dirtyLogStop 0x0044 (fun s k => logWordOk k = true ∧ logAction k = 0 ∧
        (logOf s k.part (logHostSpace k)).isSome = true) (fun s k t =>
      ∃ u, Waits s k u (.logStop (logHostSpace k)) ∧ t = settleAllLogs u)

/-- JOB_START starts a job, JOB_END ends one, PORT_COPY adds a copy (R163, R170, R394, R395). An accepted JOB_START that
R163 does not refuse, replies OK over the state with the partition's job begun, and under a LINKED plan, whose
group's timing mode is free (log entry 42), with JOIN on its way, or BAD_STATE on a mode mismatch. JOB_END of a
running job replies OK over the state with the job ended, its SERVE entry's signal written where it is not
PREEMPTED, where no unit is in progress and no refill waits or the job is PREEMPTED; else the packet waits and only
that an end is due is noted. PORT_COPY with fields in range makes the packet wait with its copy added to the
partition's, and the copies of every partition then go on. -/
def Obligations.JobAndCopyPacketsStartAndEndWork : Prop :=
  Completes .jobStart 0x0013 (fun s k => planLinked (imageOf s k.part) = false ∧
        jobRefusal s k.part false = none) (fun s k t =>
      Answers (clearJob s k.part) k t Status.ok 0) ∧
    Completes .jobStart 0x0013 (fun s k => planLinked (imageOf s k.part) = true ∧
        jobRefusal s k.part false = none) (fun s k t =>
      if (Config.freeValue s.fresh).getLsbD 0 then
        Answers { s with fresh := s.fresh + 1 } k t Status.badState Detail.modeGroupMismatch
      else Answers (joinGroup (clearJob { s with fresh := s.fresh + 1 } k.part) k.part) k t Status.ok 0) ∧
    Completes .jobEnd 0x0014 (fun s k => (s.part k.part).job.running = true) (fun s k t =>
      if (unitRuns s k.part || (s.part k.part).refill.pending) && (s.part k.part).state != .preempted then
        Waits (s.modPart k.part (fun q => { q with job := { q.job with endPending := true } })) k t .jobEnd
      else Answers (jobEnds s k.part) k t Status.ok 0) ∧
    Completes .portCopy 0x0020 (fun _ k => copyOk { bytes := natLe 8 0 ++ padTo 48 (k.paramBytes 0) ++ natLe 8 0 } = true)
      (fun s k t => ∃ u, Waits (s.modPart k.part (fun q => { q with
          copies := q.copies ++ [{ copyOf { bytes := natLe 8 0 ++ padTo 48 (k.paramBytes 0) ++ natLe 8 0 } with
            reply := some k.replyTo, number := q.copyCount }]
          copyCount := q.copyCount + 1, cached := { q.cached with porters := [] } })) k u .portCopy ∧ t = pumpEvery u)

/-- OWNER_PROVISION takes, transfers and releases ownership; ATTEST_PARTITION, KEY_INSTALL and KEY_PURGE (R86, R432,
R433, R436, R441, R442). Accepted OWNER_PROVISION: TAKE of an unowned device by a key on the curve replies OK over
the state whose owner key, in the identity registers and in both flash copies, is that key and which is otherwise
unchanged; TRANSFER replaces the key and ends every session; RELEASE with no partition clears it and ends every
session. ATTEST_PARTITION with an aligned OUT and a valid alias key replies OK with the evidence block. KEY_INSTALL
with evidence whose plan and peer stand replies OK over the state in which the key waits for its slot or fills it,
or, where the wrap does not open, KEY_INVALID with the failure counted. KEY_PURGE replies OK over the state with the
slots cleared, and with the job ended where it needed one. -/
def Obligations.OwnerAndKeyPacketsActOnTheirSecrets : Prop :=
  Completes .ownerProvisionTake 0x0063 (fun s k => k.word 4 = 0 ∧ k.length = 17 ∧ s.sec.ownerKey = none ∧
        ownerOnCurve k = true) (fun s k t => Answers { s with
          sec := { s.sec with ownerKey := some (BitVec.ofNat 512 (ownerParam k)) }
          flash := { s.flash with owner := [some (BitVec.ofNat 512 (ownerParam k)), some (BitVec.ofNat 512 (ownerParam k))] } }
        k t Status.ok 0) ∧
    Completes .ownerProvisionTransfer 0x0063 (fun _ k => k.word 4 = 1 ∧ k.length = 17 ∧ ownerOnCurve k = true)
      (fun s k t => Answers (endSessions (setOwner s (some (BitVec.ofNat 512 (ownerParam k))))) k t Status.ok 0 ∧
        t.sec.ownerKey = some (BitVec.ofNat 512 (ownerParam k)) ∧ ∀ n < 4, tget t.sec.sessions n = false) ∧
    Completes .ownerProvisionRelease 0x0063 (fun s k => k.word 4 = 2 ∧ k.length = 1 ∧ partsOf s = []) (fun s k t =>
      Answers (endSessions (setOwner s none)) k t Status.ok 0 ∧ t.sec.ownerKey = none ∧
        ∀ n < 4, tget t.sec.sessions n = false) ∧
    Completes .attestPartition 0x0060 (fun s k => outOk k (k.param64 0) = true ∧ s.sec.aliasValid = true) (fun s k t =>
      Reports (attest s k.part (k.paramBytes 2)).1 k t Status.ok 0 (k.param64 0) (attest s k.part (k.paramBytes 2)).2) ∧
    Completes .keyInstall 0x0061 (fun s k => k.param 0 < 8 ∧ ∃ a hash z,
        (s.part k.part).sec.evidence = some (a, hash, some z, true)) (fun s k t => ∃ a hash z,
      (s.part k.part).sec.evidence = some (a, hash, some z, true) ∧
      match unwrapKey hash z ((k.paramBytes 1).take 16) ((k.paramBytes 5).take 48) with
      | .ok pt => Answers (takeKey s k.part (k.param 0) (keyOfPlain pt ((k.paramBytes 1).take 16))) k t Status.ok 0
      | .error d => Answers (s.modPart k.part (fun q => { q with sec := { q.sec with
          unwrapFails := satInc q.sec.unwrapFails 255 } })) k t Status.keyInvalid d) ∧
    Completes .keyPurge 0x0062 (fun _ k => k.param 0 < 256) (fun s k t =>
      Answers (if jobNeeds s k.part (k.param 0) then keyFault (purgeKeys s k.part (k.param 0)) k.part
        else purgeKeys s k.part (k.param 0)) k t Status.ok 0)

/-- KEY_EXCHANGE opens the lowest free session; a session ends by timeout; GET_MEASUREMENTS answers; the I3C address is
taken (R9, R432, R438, R446, R530, spec/16_identity_and_keys.md). With the management port up, over the awake state:
KEY_EXCHANGE is refused as busy while four sessions are open, and refused where the device cannot sign or ownership
is not proved; else it opens the lowest free session, notes its traffic and says so, and leaves every other session,
memory, partition and register as it was. MANAGEMENT_SESSION_TIMEOUT of an open session without traffic for 90 s
closes it and no other, and the replies still due there are lost. GET_MEASUREMENTS on a host port that is up is
refused while the alias key is lost, and else puts out the number of blocks with none, all or the one named, or
refuses one that does not exist, and changes nothing else. DYNAMIC_ADDRESS of a device whose clocks run takes the
address and changes nothing else. -/
def Obligations.ManagementSessionsOpenAndEnd : Prop :=
  (∀ proof s, mgmtUp s = true → (∀ n < 4, tget s.sec.sessions n = true) →
      exec (.keyExchange proof) s = .next ((wakeBy s 2).emit .spdmBusy)) ∧
    (∀ proof s n, mgmtUp s = true → n < 4 → tget s.sec.sessions n = false → (∀ m < n, tget s.sec.sessions m = true) →
      (canSign (wakeBy s 2) = false ∨ (proof = false ∧ s.sec.ownerKey.isSome = true) →
        exec (.keyExchange proof) s = .next ((wakeBy s 2).emit (.spdmRefused none))) ∧
      (canSign (wakeBy s 2) = true → (proof = true ∨ s.sec.ownerKey = none) → ∃ t, exec (.keyExchange proof) s = .next t ∧
        tget t.sec.sessions n = true ∧ (∀ m, m ≠ n → tget t.sec.sessions m = tget s.sec.sessions m) ∧
        tget t.sec.traffic n = s.devTime ∧ (∀ m, m ≠ n → tget t.sec.traffic m = tget s.sec.traffic m) ∧
        t = { wakeBy s 2 with
          sec := { s.sec with sessions := t.sec.sessions, traffic := t.sec.traffic }, out := .sessionOpened n :: s.out })) ∧
    (∀ n s, tget s.sec.sessions (n : Fin 4).val = true → tget s.sec.traffic n.val + 297000000000 ≤ s.devTime →
      ∃ t, exec (.managementSessionTimeout n) s = .next t ∧
      tget t.sec.sessions n.val = false ∧ (∀ m, m ≠ n.val → tget t.sec.sessions m = tget s.sec.sessions m) ∧
      t.outstanding = s.outstanding.map (fun o =>
        if o.replyTo.port = .mgmt n then { o with replyTo := { o.replyTo with lost := true } } else o) ∧
      t = { s with sec := { s.sec with sessions := t.sec.sessions }, outstanding := t.outstanding }) ∧
    (∀ fn block s, hostUp s = true → s.sec.aliasValid = false →
      exec (.getMeasurements fn block) s = .next (s.emit (.spdmRefused (some fn.val)))) ∧
    (∀ fn s, hostUp s = true → s.sec.aliasValid = true → ∀ bs, bs = measureBlocks s fn.val →
      exec (.getMeasurements fn 0) s = .next (s.emit (.measurements fn.val bs.length [])) ∧
      exec (.getMeasurements fn 0xFF) s = .next (s.emit (.measurements fn.val bs.length bs)) ∧
      (∀ b ∈ bs, exec (.getMeasurements fn (BitVec.ofNat 8 b.1)) s = .next (s.emit (.measurements fn.val bs.length [b]))) ∧
      ∀ block : BitVec 8, block ≠ 0 → block ≠ 0xFF → (∀ b ∈ bs, b.1 ≠ block.toNat) →
        exec (.getMeasurements fn block) s = .next (s.emit (.spdmRefused (some fn.val)))) ∧
    ∀ address s, s.power.halted = false →
      exec (.dynamicAddress address) s = .next { s with i3cAddress := address, i3cDynamic := true }

/-- POWER_SET_CAP and POWER_SET_MODE (R30, R32, R473, R474). An accepted POWER_SET_CAP from 800 to 2,700 W replies over
a state whose cap is that value and which is otherwise, where no LOCKSTEP job runs, unchanged: OK then, and ACCEPTED
where one runs, the change deferred to its bell. POWER_SET_MODE 0 or 1, not BOOST on a LOCKSTEP partition, replies
OK over the state with that partition's mode set where no job runs, and ACCEPTED with the mode pending where one
does; nothing else changes. -/
def Obligations.PowerPacketsSetCapAndMode : Prop :=
  Completes .powerSetCap 0x0050 (fun _ k => 800 ≤ k.param 0 ∧ k.param 0 ≤ 2700) (fun s k t =>
      t.power.cap = k.param 0 ∧
      if lockstepJobs s = [] then Answers { s with power := { s.power with cap := k.param 0 } } k t Status.ok 0
      else Answers (setCap s (k.param 0)) k t Status.accepted 0) ∧
    Completes .powerSetMode 0x0051 (fun s k => k.param 0 ≤ 1 ∧ ¬(k.param 0 = 1 ∧ isLockstep s k.part = true)) (fun s k t =>
      if (s.part k.part).job.running then
        Answers (s.modPart k.part (fun q => { q with pendingBoost := some (decide (k.param 0 = 1)) })) k t Status.accepted 0
      else Answers (s.modPart k.part (fun q => { q with boost := decide (k.param 0 = 1), pendingBoost := none })) k t
        Status.ok 0)

/-- POWER_STATE enters RUN, IDLE, SLEEP, DEEP or OFF where R481 and R482 let it (R472, R479, R480, R481, R482, R483). An
accepted POWER_STATE, with its reserved bits zero, that R481 and R482 do not refuse, replies OK over the state
entered. RUN outside a coolant stop changes nothing; in one it restarts the device where COOLANT_OK has been high
long enough, and else is refused. IDLE changes the device power state and nothing else. In SLEEP, DEEP and OFF the
device power state is that named; DEEP holds the pads and keeps the scratchpads it is told to, LSM only where every
stack is kept, and OFF lists no byte of LSM; the flash and the fuses stand in each. -/
def Obligations.PowerStatePacketsEnterTheirState : Prop :=
  Completes .powerStateRun 0x0052 (fun s k => k.param 0 = 0 ∧ k.param 1 < 256 ∧ stateCheck s .run (k.param 1) = none ∧
        s.power.coolantStop = false) (fun s k t => Answers s k t Status.ok 0 ∧ t.power = s.power) ∧
    Completes .powerStateRun 0x0052 (fun s k => k.param 0 = 0 ∧ k.param 1 < 256 ∧ stateCheck s .run (k.param 1) = none ∧
        s.power.coolantStop = true) (fun s k t =>
      if s.power.restartReady = false then Answers s k t Status.badState Detail.pwrCoolantWait
      else Answers (wakeBy (coolantRestart s) (wakeCauseOf k)) k t Status.ok 0) ∧
    Completes .powerStateIdle 0x0052 (fun s k => k.param 0 = 1 ∧ k.param 1 < 256 ∧ stateCheck s .idle (k.param 1) = none)
      (fun s k t => Answers { s with power := { s.power with state := .idle } } k t Status.ok 0 ∧
        t.power = { s.power with state := .idle } ∧ t.parts = s.parts ∧ SameBytes s t) ∧
    Completes .powerStateSleep 0x0052 (fun s k => k.param 0 = 2 ∧ k.param 1 < 256 ∧ stateCheck s .sleep (k.param 1) = none)
      (fun s k t => Answers (enterState s .sleep (k.param 1)) k t Status.ok 0 ∧ t.power.state = .sleep ∧ t.mem = s.mem ∧
        t.spad = s.spad ∧ t.flash = s.flash ∧ t.fuses = s.fuses ∧ t.parts = s.parts) ∧
    Completes .powerStateDeep 0x0052 (fun s k => k.param 0 = 3 ∧ k.param 1 < 256 ∧ stateCheck s .deep (k.param 1) = none)
      (fun s k t => Answers (enterState s .deep (k.param 1)) k t Status.ok 0 ∧ t.power.state = .deep ∧
        t.power.padsHeld = true ∧ (k.param 1 ≠ 0xFF → t.mem = []) ∧ t.flash.owner = s.flash.owner) ∧
    Completes .powerStateOff 0x0052 (fun s k => k.param 0 = 4 ∧ k.param 1 < 256 ∧ stateCheck s .off (k.param 1) = none)
      (fun s k t => Answers (enterState s .off (k.param 1)) k t Status.ok 0 ∧ t.power.state = .off ∧ t.mem = [] ∧
        t.parts = [] ∧ t.flash.owner = s.flash.owner)

/-- FW_UPDATE_BEGIN, DATA and COMMIT in recovery and in a running device, and the end of programming (R503, R504, R505,
R506, R509). In RECOVERY an accepted FW_UPDATE_BEGIN of a size that fits clears the flash image and opens the
update. In a running device it waits while the firmware boots, and else replies as the search for a buffer gives.
DATA in an open update that is not programming, word aligned and within the image, replies OK over the state in
which only the bytes of the buffer, or of the flash image in RECOVERY, are those given. COMMIT of an image that
verifies makes the packet wait while it is programmed, and in RECOVERY replies OK with a cold boot due; of any other
it is refused with BAD_STATE and the detail of the first failure, the buffer kept. FLASH_WRITE_COMPLETE with a fence
record due writes both of its copies and changes nothing else; with an image programming it answers the COMMIT and
closes the update. -/
def Obligations.FirmwareUpdateTakesAnImage : Prop :=
  Completes .fwUpdateBegin 0x0072 (fun s k => imgLengthOk (k.param64 0) = true ∧ s.boot.stage = .recovery) (fun s k t =>
      Answers { s with flash := { s.flash with image := [] }, boot := { s.boot with update := some (k.param64 0, 0) } } k t
        Status.ok 0) ∧
    Completes .fwUpdateBegin 0x0072 (fun s k => imgLengthOk (k.param64 0) = true ∧ s.boot.stage = .ready) (fun s k t =>
      match beginUpdate s (k.param64 0) with
      | .error (st, d) => Answers s k t st d
      | .ok u => Answers u k t Status.ok 0) ∧
    Completes .fwUpdateBegin 0x0072 (fun s k => imgLengthOk (k.param64 0) = true ∧ s.boot.stage = .firmware) (fun s k t =>
      Waits s k t (.fwBegin (k.param64 0))) ∧
    Completes .fwUpdateData 0x0073 (fun s k => ∃ bytes u, s.boot.update = some (bytes, u) ∧ s.boot.programming = false ∧
        k.param 0 % 4 = 0 ∧ k.param 0 + (k.paramBytes 1).length ≤ bytes) (fun s k t =>
      if s.boot.stage == .recovery then
        Answers { s with flash := { s.flash with image := mwrites s.flash.image (k.param 0) (k.paramBytes 1) } } k t Status.ok 0
      else ∃ bytes u, s.boot.update = some (bytes, u) ∧
        Answers { s with mem := mwrites s.mem (u * unitBytes + k.param 0) (k.paramBytes 1) } k t Status.ok 0) ∧
    Completes .fwUpdateCommit 0x0074 (fun s _ => s.boot.update.isSome = true ∧ s.boot.programming = false ∧
        s.boot.stage ≠ .recovery) (fun s k t => ∃ bytes u, s.boot.update = some (bytes, u) ∧
      match imageRefusal s.fuses (fun o => mread s.mem (u * unitBytes + o)) with
      | some d => Answers s k t Status.badState d
      | none => Waits { s with flash := { s.flash with image := [] }, boot := { s.boot with programming := true } } k t .fwCommit) ∧
    Completes .fwUpdateCommit 0x0074 (fun s _ => s.boot.update.isSome = true ∧ s.boot.programming = false ∧
        s.boot.stage = .recovery) (fun s k t =>
      match imageRefusal s.fuses (flashImage s) with
      | some d => Answers s k t Status.badState d
      | none => Answers { s with boot := { s.boot with update := none, due := some 3 }, power := { s.power with halted := true } }
          k t Status.ok 0) ∧
    (∀ (equal : Bool) (s : State) (m : BitVec 72), s.flash.fenceWrite = some m →
      exec (.flashWriteComplete equal) s =
        .next { s with flash := { s.flash with fence := [some m, some m], fenceWrite := none } }) ∧
    ∀ (equal : Bool) (s : State) (bytes u : Nat), s.flash.fenceWrite = none → s.boot.update = some (bytes, u) →
      s.boot.programming = true → ∃ t, exec (.flashWriteComplete equal) s = .next t ∧ t.boot.update = none ∧
        t.boot.programming = false ∧ ∀ o ∈ t.outstanding, o.waits ≠ some .fwCommit

/-- BIST_RUN queues its groups; a group that ends takes its outcomes and the next begins (R512, R513). An accepted
BIST_RUN of a non-empty mask of stalls that are enabled, unassigned and not under test replies ACCEPTED over the
state with its groups queued. BIST_GROUP_COMPLETE, with one outcome for every stall of the running group and the
clocks running, removes that group and gives each of its stalls its outcome; the next group starts, and MG_ALERT_N
falls at the run's last. -/
def Obligations.SelfTestRunsAndReports : Prop :=
  Completes .bistRun 0x0070 (fun s k => k.param64 0 ≠ 0 ∧ k.param 2 ≤ 2 ∧ ∀ i ∈ setBits (k.param64 0) 64,
        harvested s i = false ∧ ownerOfStall s i = none ∧ inBist s i = false) (fun s k t =>
      Answers (queueBist s (k.param64 0) (k.param 2)) k t Status.accepted 0) ∧
    ∀ (results : List BistOutcome) (s : State) (g : BistGroup) (rest : List BistGroup), s.bistQueue = g :: rest →
      clocksRun s = true → (∀ i ∈ g.stalls, (results.find? (fun r => r.stall.val = i)).isSome = true) →
      ∃ t, exec (.bistGroupComplete results) s = .next (startBist (if g.last then alertManager t else t)) ∧
        t = (g.stalls.filterMap (fun i => results.find? (fun r => r.stall.val = i))).foldl
          (fun s r => bistStall s g.kind r) { s with bistQueue := rest }

/-- TRACE_CONTROL, RESOURCE_CLAIM, DEBUG_HALT and TALLY_CONFIG (R517, R518, R519, R520, R521). Accepted packets with
parameters in range, each changing only what is named: TALLY_CONFIG sets the partition's counter settings;
TRACE_CONTROL of a claimed trace stops it, starts it with its settings, or empties the buffer; RESOURCE_CLAIM claims
a free resource, and releases one for its claiming port; DEBUG_HALT halts a partition with a job or a kernel, and
RELEASE lets a halted one go on. Each replies OK. -/
def Obligations.DebugPacketsTraceClaimAndHalt : Prop :=
  Completes .tallyConfig 0x0080 (fun _ k => tallyOk k = true) (fun s k t =>
      Answers (s.modPart k.part (tallySet s.devTime k)) k t Status.ok 0) ∧
    Completes .traceStop 0x0081 (fun s k => k.word 4 = 0 ∧ k.param 1 < 8 ∧ traceOwned s = true) (fun s k t =>
      Answers { s with shared := { s.shared with tracing := false } } k t Status.ok 0) ∧
    Completes .traceStart 0x0081 (fun s k => k.word 4 = 1 ∧ k.param 1 < 8 ∧ traceOwned s = true) (fun s k t =>
      t.shared.wrap = bit (k.param 1) 0 ∧ t.shared.startOnTrigger = bit (k.param 1) 1 ∧
        t.shared.stopOnTrigger = bit (k.param 1) 2 ∧ ∃ h, Answers { s with shared := h } k t Status.ok 0) ∧
    Completes .traceClear 0x0081 (fun s k => k.word 4 = 3 ∧ k.param 1 < 8 ∧ traceOwned s = true) (fun s k t =>
      Answers { s with shared := { s.shared with buffer := [], next := 0, wrapped := false } } k t Status.ok 0) ∧
    Completes .resourceClaim 0x00A0 (fun s k => k.word 5 = 0 ∧ resourceOk k = true ∧
        ¬(bits (k.param 0) 7 0 = 5 ∧ wakeSeconds k = 0) ∧ holderOf s k = none ∧ channelLeased s k = false) (fun s k t =>
      Answers (claimResource s k) k t Status.ok 0) ∧
    Completes .resourceRelease 0x00A0 (fun s k => k.word 5 = 1 ∧ resourceOk k = true ∧
        (holderOf s k = none ∨ holderOf s k = some k.port.isMgmt)) (fun s k t =>
      Answers (if (holderOf s k).isSome then releaseResource s k else s) k t Status.ok 0) ∧
    Completes .debugHalt 0x0082 (fun s k => k.word 4 = 0 ∧
        ((s.part k.part).job.running = true ∨ (s.part k.part).kernel.running = true)) (fun s k t =>
      Answers (s.modPart k.part (fun q => { q with halted := true })) k t Status.ok 0) ∧
    Completes .debugRelease 0x0082 (fun s k => k.word 4 = 1 ∧ (s.part k.part).halted = true) (fun s k t =>
      Answers (resumePart s k.part) k t Status.ok 0)

/-- LINK_CONFIG sets the enable mask and the group; CHAIN_ENUMERATE numbers this device and begins its walk (R330,
R331). An accepted LINK_CONFIG in range that touches no port in use replies OK over the state with GROUP_ID set and
every port enabled or disabled as the mask has it. An accepted CHAIN_ENUMERATE with BASE below 4,096, no group
running and no walk under way makes the packet wait over the state in which the device's number is BASE and the walk
stands before the first port; the walk then goes on from port 0. -/
def Obligations.LinkPacketsConfigureAndEnumerate : Prop :=
  Completes .linkConfig 0x0090 (fun s k => k.param 0 < 4096 ∧ k.param 1 < 65536 ∧
        configBusy s (k.param 0) (k.param 1) = false) (fun s k t =>
      Answers ((List.range 12).foldl (fun s j => configPort s (k.param 0) j)
        { s with links := { s.links with groupId := BitVec.ofNat 16 (k.param 1) } }) k t Status.ok 0) ∧
    Completes .chainEnumerate 0x0092 (fun s k => k.param 0 < 4096 ∧ groupRuns s = false ∧ s.links.enumeration = none)
      (fun s k t => ∃ u e, e = { parent := none, port := 12, next := k.param 0 + 1, base := k.param 0, before := s.links.number } ∧
        Waits { s with links := { s.links with number := k.param 0, owed := 0, enumeration := some e } } k u .enumerate ∧
        t = visitFrom u e 0)

/-- A write to a free slot stores its bytes and, where it covers word 0, commits; a slot that is not free ignores writes
and one to word 0 sets OVERRUN (R377, R378). With the host port up: a write to a slot that is not free leaves the
awake state as it is, but that a write covering a byte of word 0 sets the function's OVERRUN and nothing else. A
write to a free slot changes only that function's slot and its order of commits: each byte of the slot that the
write covers is the byte written, each other byte is as before, the slot is committed exactly if the write covers a
byte of word 0, and then stands last in the order of commits. -/
def Obligations.SlotWritesFillAndCommitASlot : Prop :=
  ∀ (fn : Fin 65) (k : Fin 8) (offset : BitVec 12) (data : List Byte),
    OnHost (.slotWrite fn k offset data) (fun s => (tget (s.fn fn).slots k).committed = true) (fun s t =>
      t = if offset.toNat < 4 ∧ data ≠ [] then s.modFn fn (fun f => { f with overrun := true }) else s) ∧
    OnHost (.slotWrite fn k offset data) (fun s => (tget (s.fn fn).slots k).committed = false) (fun s t =>
      t = { s with fns := t.fns } ∧ (∀ g : Fin 65, g ≠ fn → t.fn g = s.fn g) ∧
      t.fn fn = { s.fn fn with slots := (t.fn fn).slots, order := (t.fn fn).order } ∧
      (∀ i : Nat, i ≠ k.val → tget (t.fn fn).slots i = tget (s.fn fn).slots i) ∧
      (∀ o < 4096, slotByte (t.fn fn) k o =
        if offset.toNat ≤ o ∧ o < offset.toNat + data.length then data.getD (o - offset.toNat) 0
        else slotByte (s.fn fn) k o) ∧
      ((tget (t.fn fn).slots k).committed = true ↔ offset.toNat < 4 ∧ data ≠ []) ∧
      (t.fn fn).order = if offset.toNat < 4 ∧ data ≠ [] then (s.fn fn).order ++ [k.val] else (s.fn fn).order)

/-- While a slot is not free, writes to any of its words are ignored, and one to word 0 sets OVERRUN (R378). With the
host port up and the slot committed and not yet taken: after a write of any bytes at any offset every byte of the
slot reads as before, the slot stays committed, and if the write covers a byte of word 0, VF_STATUS.OVERRUN of the
function is set. -/
def Obligations.SlotsThatAreNotFreeIgnoreWrites : Prop :=
  ∀ (fn : Fin 65) (k : Fin 8) (offset : BitVec 12) (data : List Byte),
    OnHost (.slotWrite fn k offset data) (fun s => (tget (s.fn fn).slots k).committed = true) (fun s t =>
      (∀ o, slotByte (t.fn fn) k o = slotByte (s.fn fn) k o) ∧ (tget (t.fn fn).slots k).committed = true ∧
      (offset.toNat < 4 ∧ data ≠ [] → (t.fn fn).overrun = true))

/-- Writes of BAR0 registers, RING_HEAD, INT_CTRL, INT_CAUSE, HWIN and the data port control (R372, R373, R375, R383,
R398, R399, R401). With the host port up, over the awake state: a 4-byte write at offset 0 clears the VF_STATUS bits
written 1 and changes nothing else; one in the MSI-X table sets its word, and sends a pending message that it
unmasks; another in BAR0 changes nothing; one to PF0 BAR4 below 64 KiB is kept there; a misaligned write and one to
BAR2 change nothing; an aligned 8-byte write is its two 4-byte writes in turn. RING_HEAD is ignored where (P − HEAD)
mod 2^32 would exceed N; else it moves the head, entries that wait are written while they have room, and nothing
changes but what the port owns. INT_CTRL sets mask and vectors; each set cause that it unmasks sends its message, or
sets its pending bit where its vector is masked. INT_CAUSE clears the bits written 1. An HWIN write is refused with
HWIN_REFUSED while a job runs, where it changes an enabled entry, and where it enables one that overlaps another;
else it is applied. DP_ADDR and DP_CTRL writes set their fields and drop the read-ahead. -/
def Obligations.HostWritesReachTheirRegisters : Prop :=
  (∀ (fn : Fin 65) (value : W64), OnHost (.registerWrite fn .bar0 0 false value) (fun _ => True) (fun s t =>
      t = { s with fns := t.fns } ∧ (∀ g : Fin 65, g ≠ fn → t.fn g = s.fn g) ∧
      t.fn fn = { s.fn fn with
        overrun := (s.fn fn).overrun && !value.getLsbD 11, dpErr := (s.fn fn).dpErr && !value.getLsbD 12
        eventsLost := (s.fn fn).eventsLost && !value.getLsbD 13
        hwinRefused := (s.fn fn).hwinRefused && !value.getLsbD 15 })) ∧
    (∀ (fn : Fin 65) (offset : BitVec 28) (value : W64), offset.toNat % 4 = 0 → 0x800 ≤ offset.toNat → offset.toNat < 0x880 →
      OnHost (.registerWrite fn .bar0 offset false value) (fun _ => True) (fun s t =>
        let w := (offset.toNat - 0x800) / 4
        let sends := decide (w % 4 = 3) && !value.getLsbD 0 && (s.fn fn).msixPending.getLsbD (w / 4)
        t = { s with fns := t.fns, out := if sends then .msix fn (w / 4) :: s.out else s.out } ∧
        (∀ g : Fin 65, g ≠ fn → t.fn g = s.fn g) ∧
        t.fn fn = { s.fn fn with
          msixTable := tset (s.fn fn).msixTable w (value.setWidth 32)
          msixPending := if sends then (s.fn fn).msixPending &&& ~~~ BitVec.ofNat 8 (2 ^ (w / 4)) else (s.fn fn).msixPending })) ∧
    (∀ (fn : Fin 65) (offset : BitVec 28) (value : W64), offset.toNat ≠ 0 →
      offset.toNat < 0x800 ∨ 0x880 ≤ offset.toNat →
      OnHost (.registerWrite fn .bar0 offset false value) (fun _ => True) (fun s t => t = s)) ∧
    (∀ (fn : Fin 65) (bar : Bar) (offset : BitVec 28) (value : W64) (s : State), hostUp s = true → offset.toNat % 8 = 0 →
      ∃ u t, exec (.registerWrite fn bar offset false value) s = .next u ∧
        exec (.registerWrite fn bar (offset + 4) false (value >>> 32)) u = .next t ∧
        exec (.registerWrite fn bar offset true value) s = .next t) ∧
    (∀ (offset : BitVec 28) (value : W64), offset.toNat < 65536 → offset.toNat % 4 = 0 →
      OnHost (.registerWrite 0 .bar4 offset false value) (fun _ => True) (fun s t =>
        t = { s with fns := t.fns } ∧ tget (t.fn 0).cxlRegs (offset.toNat / 4) = value.setWidth 32)) ∧
    (∀ (fn : Fin 65) (bar : Bar) (offset : BitVec 28) (wide : Bool) (value : W64),
      offset.toNat % (if wide then 8 else 4) ≠ 0 ∨ bar = .bar2 →
      OnHost (.registerWrite fn bar offset wide value) (fun _ => True) (fun s t => t = s)) ∧
    (∀ (fn : Fin 65) (value : W64), OnHost (.ringHeadWrite fn value)
      (fun s => ((s.fn fn).producer + 2 ^ 32 - value.toNat % 2 ^ 32) % 2 ^ 32 > ringSize (s.fn fn)) (fun s t => t = s)) ∧
    (∀ (fn : Fin 65) (value : W64), OnHost (.ringHeadWrite fn value)
      (fun s => ((s.fn fn).producer + 2 ^ 32 - value.toNat % 2 ^ 32) % 2 ^ 32 ≤ ringSize (s.fn fn)) (fun s t =>
        PortOnly s t ∧ (t.fn fn).head = value.toNat % 2 ^ 32 ∧
        t = drainRing fn (s.fn fn).waiting (s.modFn fn (fun f => { f with head := value.toNat % 2 ^ 32 })))) ∧
    (∀ (fn : Fin 65) (value : W64), OnHost (.intCtrlWrite fn value)
      (fun s => (s.fn fn).intCause &&& (s.fn fn).intMask &&& ~~~ value.setWidth 4 = 0) (fun s t =>
        t = { s with fns := t.fns } ∧ (∀ g : Fin 65, g ≠ fn → t.fn g = s.fn g) ∧
        t.fn fn = { s.fn fn with
          intMask := value.setWidth 4, vecReply := value.extractLsb' 8 3, vecEvent := value.extractLsb' 12 3
          vecStall := value.extractLsb' 16 3, vecDp := value.extractLsb' 20 3 })) ∧
    (∀ (fn : Fin 65) (value : W64), OnHost (.intCtrlWrite fn value) (fun _ => True) (fun s t =>
      t = { s with fns := t.fns, out := t.out } ∧ (∀ g : Fin 65, g ≠ fn → t.fn g = s.fn g) ∧
      t.fn fn = { s.fn fn with
        intMask := value.setWidth 4, vecReply := value.extractLsb' 8 3, vecEvent := value.extractLsb' 12 3
        vecStall := value.extractLsb' 16 3, vecDp := value.extractLsb' 20 3, msixPending := (t.fn fn).msixPending } ∧
      ∀ i < 4, ((s.fn fn).intCause &&& (s.fn fn).intMask &&& ~~~ value.setWidth 4).getLsbD i = true →
        if (msixWord (s.fn fn) (4 * vectorOf (t.fn fn) i + 3)).getLsbD 0 then
          (t.fn fn).msixPending.getLsbD (vectorOf (t.fn fn) i) = true
        else .msix fn (vectorOf (t.fn fn) i) ∈ t.out)) ∧
    (∀ (fn : Fin 65) (value : W64), OnHost (.intCauseWrite fn value) (fun _ => True) (fun s t =>
      t = { s with fns := t.fns } ∧ (∀ g : Fin 65, g ≠ fn → t.fn g = s.fn g) ∧
      t.fn fn = { s.fn fn with intCause := (s.fn fn).intCause &&& ~~~ value.setWidth 4 })) ∧
    (∀ (p : Fin 64) (r : Fin 8) (host : Bool) (value : W64), OnHost (.hwinWrite p r host value)
      (fun s => (s.part p).job.running = true) (fun s t => t = s.modFn 0 (fun f => { f with hwinRefused := true }))) ∧
    (∀ (p : Fin 64) (r : Fin 8) (value : W64), OnHost (.hwinWrite p r true value)
      (fun s => (tget (s.part p).hwin r).enable = true ∧
        ((tget (s.part p).hwin r).size ≠ value.setWidth 21 ∨ (tget (s.part p).hwin r).hpa ≠ value.extractLsb' 21 31))
      (fun s t => t = s.modFn 0 (fun f => { f with hwinRefused := true }))) ∧
    (∀ (p : Fin 64) (r : Fin 8) (value : W64), OnHost (.hwinWrite p r false value)
      (fun s => value.getLsbD 0 = true ∧ hwinOverlaps s p r
        { tget (s.part p).hwin r with enable := true, offset := value.extractLsb' 21 20 } = true)
      (fun s t => t = s.modFn 0 (fun f => { f with hwinRefused := true }))) ∧
    (∀ (p : Fin 64) (r : Fin 8) (value : W64), OnHost (.hwinWrite p r true value)
      (fun s => (s.part p).job.running = false ∧ ((tget (s.part p).hwin r).enable = false ∨
        ((tget (s.part p).hwin r).size = value.setWidth 21 ∧ (tget (s.part p).hwin r).hpa = value.extractLsb' 21 31))) (fun s t =>
        t = { s with parts := t.parts } ∧ (∀ q : Fin 64, q ≠ p → t.part q = s.part q) ∧
        tget (t.part p).hwin r = { tget (s.part p).hwin r with
          size := value.setWidth 21, hpa := value.extractLsb' 21 31 })) ∧
    (∀ (p : Fin 64) (r : Fin 8) (value : W64), OnHost (.hwinWrite p r false value)
      (fun s => (s.part p).job.running = false ∧ (value.getLsbD 0 = true → hwinOverlaps s p r
        { tget (s.part p).hwin r with enable := true, offset := value.extractLsb' 21 20 } = false)) (fun s t =>
        t = { s with parts := t.parts } ∧ (∀ q : Fin 64, q ≠ p → t.part q = s.part q) ∧
        tget (t.part p).hwin r = { tget (s.part p).hwin r with
          enable := value.getLsbD 0, offset := value.extractLsb' 21 20 })) ∧
    (∀ (p : Fin 64) (value : W64), OnHost (.dpAddrWrite p value) (fun _ => True) (fun s t =>
      t = ({ s with fns := t.fns }).modPart p (fun q => { q with cached := { q.cached with dataPort := [] } }) ∧
      (t.fn (p + 1)).dpAddr = value.setWidth 48 ∧ (t.fn (p + 1)).readAhead = [] ∧
      ∀ g : Nat, g ≠ p.val + 1 → t.fn g = s.fn g)) ∧
    ∀ (p : Fin 64) (value : W64), OnHost (.dpCtrlWrite p value) (fun _ => True) (fun s t =>
      t = { s with fns := t.fns } ∧ (t.fn (p + 1)).dpHold = value.getLsbD 0 ∧ (t.fn (p + 1)).readAhead = [] ∧
      ((value.extractLsb' 1 3).toNat ≤ 4 → (t.fn (p + 1)).dpPrefetch = value.extractLsb' 1 3) ∧
      (4 < (value.extractLsb' 1 3).toNat → (t.fn (p + 1)).dpPrefetch = (s.fn (p + 1)).dpPrefetch))

/-- No access of a data port waits. -/
abbrev PortFree (s : State) (p : Fin 64) : Prop := portIdle s p = true ∧ (s.fn (p + 1)).dpHeld = []

/-- A read within one line may be answered: its partition is there and no commit of it is in progress. -/
abbrev PortReads (s : State) (p : Fin 64) (count : Nat) : Prop :=
  (s.part p).state ≠ .resetting ∧ (s.part p).present = true ∧ readsWait s p = false ∧
    (s.fn (p + 1)).dpAddr.toNat % 1024 + count ≤ 1024

/-- DP_ADDR after a span. -/
abbrev portNext (s : State) (p : Fin 64) (n : Nat) : BitVec 48 :=
  (s.fn (p + 1)).dpAddr + (if (s.fn (p + 1)).dpHold then 0 else BitVec.ofNat 48 n)

/-- The state with an access waiting behind those before it. -/
abbrev portHolds (s : State) (p : Fin 64) (x : PortAccess) : State :=
  s.modFn (p + 1) (fun f => { f with dpHeld := f.dpHeld ++ [x] })

/-- Data-port writes and reads act at DP_ADDR, in the VF and partition of the access, and move DP_ADDR past their span
(R398, R399, R400, R234). With the host port up: while an earlier write is not performed, an access waits behind
those before it. Otherwise DP_ADDR reads as its value; a read of more than 512 bytes is an unsupported request; one
of 1 to 512 bytes moves DP_ADDR past them unless HOLD is set, and returns ones where the function has no partition,
with DP_ERR set, and ones without it during a reset; within a scratchpad of the partition it returns the bytes
there, and within a line that is CLEAN or DIRTY in the slice its committed bytes, and no byte changes. A write with
an enabled byte in a partition being reset is accepted and writes nothing; DP_ADDR moves by the span; one within a
scratchpad the partition holds stores exactly its enabled bytes there, and no byte elsewhere changes; one within an
unstaged line that no L1 and not the host holds makes the line DIRTY with exactly the enabled bytes overlaid. -/
def Obligations.DataPortMovesBytesAtItsAddress : Prop :=
  (∀ p : Fin 64, OnHost (.dpAddrRead p) (fun s => portIdle s p = false) (fun s t =>
      t = portHolds s p (.addr (s.fn (p + 1)).dpAddr.toNat))) ∧
    (∀ (p : Fin 64) (count : Nat), 0 < count → count ≤ 512 → OnHost (.dataPortRead p count) (fun s => portIdle s p = false)
      (fun s t => t = portHolds (dpAdvance s p count) p (.read (s.fn (p + 1)).dpAddr.toNat count))) ∧
    (∀ (p : Fin 64) (data : List (Option Byte)), dpSpan data ≠ [] → (dpSpan data).length ≤ 512 →
      OnHost (.dataPortWrite p data) (fun s => portIdle s p = false) (fun s t =>
        t = portHolds (dpAdvance (s.modFn (p + 1) (fun f => { f with dpWrites := f.dpWrites + 1 })) p (dpSpan data).length) p
          (.write (s.fn (p + 1)).dpAddr.toNat (dpSpan data)))) ∧
    (∀ p : Fin 64, OnHost (.dpAddrRead p) (fun s => PortFree s p) (fun s t =>
      t = { s with fns := t.fns, out := .readData (natLe 8 (s.fn (p + 1)).dpAddr.toNat) :: s.out } ∧
      ∀ g : Nat, t.fn g = s.fn g)) ∧
    (∀ (p : Fin 64) (count : Nat), 512 < count → OnHost (.dataPortRead p count) (fun _ => True) (fun s t =>
      t = s.emit .unsupportedRequest)) ∧
    (∀ (p : Fin 64), OnHost (.dataPortRead p 0) (fun _ => True) (fun s t => t = s)) ∧
    (∀ (p : Fin 64) (count : Nat), 0 < count → count ≤ 512 → OnHost (.dataPortRead p count)
      (fun s => PortFree s p ∧ (s.part p).state ≠ .resetting ∧ (s.part p).present = false) (fun s t =>
        PortOnly s t ∧ t.out.head? = some (.readData (List.replicate count 0xFF)) ∧ (t.fn (p + 1)).dpErr = true ∧
        (t.fn (p + 1)).dpAddr = portNext s p count)) ∧
    (∀ (p : Fin 64) (count : Nat), 0 < count → count ≤ 512 → OnHost (.dataPortRead p count)
      (fun s => PortFree s p ∧ (s.part p).state = .resetting) (fun s t =>
        t = { s with fns := t.fns, out := .readData (List.replicate count 0xFF) :: s.out } ∧
        (∀ g : Nat, g ≠ p.val + 1 → t.fn g = s.fn g) ∧
        t.fn (p + 1) = { s.fn (p + 1) with dpAddr := portNext s p count })) ∧
    (∀ (p : Fin 64) (count i o : Nat), 0 < count → count ≤ 512 → OnHost (.dataPortRead p count)
      (fun s => PortFree s p ∧ (s.fn (p + 1)).readAhead = [] ∧ PortReads s p count ∧ s.spadOdd = [] ∧
        ∃ a, dpReach s p (s.fn (p + 1)).dpAddr.toNat false = .ok a ∧ regionOf a = .spad i o ∧ o + count ≤ spadBytes)
      (fun s t => t = { s with fns := t.fns, out := .readData ((List.range count).map (fun k => spadRead s i (o + k))) :: s.out } ∧
        (t.fn (p + 1)).dpAddr = portNext s p count ∧ (t.fn (p + 1)).dpErr = (s.fn (p + 1)).dpErr ∧
        ∀ g : Nat, g ≠ p.val + 1 → t.fn g = s.fn g)) ∧
    (∀ (p : Fin 64) (count a : Nat), 0 < count → count ≤ 512 → OnHost (.dataPortRead p count)
      (fun s => PortFree s p ∧ (s.fn (p + 1)).readAhead = [] ∧ PortReads s p count ∧ a < lsmTop ∧
        dpReach s p (s.fn (p + 1)).dpAddr.toNat false = .ok a ∧ Resident s p (a / 1024) ∧
        ((s.line p (a / 1024)).state = .clean ∨ (s.line p (a / 1024)).state = .dirty))
      (fun s t => t = { s with fns := t.fns, parts := t.parts, out := .readData (readCommitted s a count) :: s.out } ∧
        (t.fn (p + 1)).dpAddr = portNext s p count ∧ (t.fn (p + 1)).dpErr = (s.fn (p + 1)).dpErr ∧
        (∀ g : Nat, g ≠ p.val + 1 → t.fn g = s.fn g) ∧ (∀ q : Nat, q ≠ p.val → t.part q = s.part q) ∧
        t.line p (a / 1024) = spent (s.line p (a / 1024)) ∧ ∀ b, b ≠ a / 1024 → t.line p b = s.line p b)) ∧
    (∀ (p : Fin 64) (data : List (Option Byte)), dpSpan data ≠ [] → (dpSpan data).length ≤ 512 →
      OnHost (.dataPortWrite p data) (fun s => PortFree s p ∧ (s.part p).state = .resetting) (fun s t =>
        t = { s with fns := t.fns } ∧ (∀ g : Nat, g ≠ p.val + 1 → t.fn g = s.fn g) ∧
        t.fn (p + 1) = { s.fn (p + 1) with
          dpAddr := portNext s p (dpSpan data).length, readAhead := [], dpWrites := (s.fn (p + 1)).dpWrites + 1 })) ∧
    (∀ (p : Fin 64) (data : List (Option Byte)) (i o : Nat), dpSpan data ≠ [] → (dpSpan data).length ≤ 512 →
      OnHost (.dataPortWrite p data) (fun s => PortFree s p ∧ (s.part p).state ≠ .resetting ∧
        (s.part p).present = true ∧ (s.fn (p + 1)).dpAddr.toNat % 1024 + (dpSpan data).length ≤ 1024 ∧
        ∃ a, dpReach s p (s.fn (p + 1)).dpAddr.toNat true = .ok a ∧
          regionOf a = .spad i o ∧ o + (dpSpan data).length ≤ spadBytes) (fun s t =>
        t.mem = s.mem ∧ (t.fn (p + 1)).dpAddr = portNext s p (dpSpan data).length ∧
        (∀ x, (∀ j b, (dpSpan data)[j]? = some (some b) → x ≠ i * spadBytes + spadPhys s i (o + j)) →
          mread t.spad x = mread s.spad x) ∧
        ∀ j b, (dpSpan data)[j]? = some (some b) →
          (∀ l, l ≠ j → l < (dpSpan data).length → spadPhys s i (o + l) ≠ spadPhys s i (o + j)) →
          mread t.spad (i * spadBytes + spadPhys s i (o + j)) = b)) ∧
    ∀ (p : Fin 64) (data : List (Option Byte)) (a : Nat), dpSpan data ≠ [] → (dpSpan data).length ≤ 512 →
      OnHost (.dataPortWrite p data) (fun s => PortFree s p ∧ (s.part p).state ≠ .resetting ∧
        (s.part p).present = true ∧ (s.fn (p + 1)).dpAddr.toNat % 1024 + (dpSpan data).length ≤ 1024 ∧ a < lsmTop ∧
        dpReach s p (s.fn (p + 1)).dpAddr.toNat true = .ok a ∧ a % 1024 = (s.fn (p + 1)).dpAddr.toNat % 1024 ∧
        Resident s p (a / 1024) ∧ HeldByNone s p (a / 1024) ∧ (s.line p (a / 1024)).bad = 0 ∧
        ((s.line p (a / 1024)).state = .clean ∨ (s.line p (a / 1024)).state = .dirty)) (fun s t =>
        t = { s with fns := t.fns, parts := t.parts } ∧ (t.fn (p + 1)).dpAddr = portNext s p (dpSpan data).length ∧
        (t.line p (a / 1024)).state = .dirty ∧
        (∀ o, oget (t.line p (a / 1024)).data o =
          match (if o < a % 1024 then none else (dpSpan data)[o - a % 1024]?) with
          | some (some b) => some b
          | _ => oget (s.line p (a / 1024)).data o) ∧
        ∀ b, b ≠ a / 1024 → t.line p b = s.line p b)

/-- Configuration requests, function level resets and PERST_N (R370, R402, R499). A configuration request before the
firmware has reported ready, with the port and clocks up, is answered with Retry Status; afterwards, with no
partition being reset, a write is kept and completed, and a read of a word written gives what was written. FLR of a
VF returns the function's registers to their reset values and forgets its packets, and resets its partition if it
has one; FLR of PF0 returns PF0's own state to reset and stops host-space logging. PERST_N asserted leaves every
function and every HWIN entry at its reset values, no packet of the host outstanding and nothing under way with it,
and resets that wait for their transfers then go on; released, it lets the port train, and is without effect while
not asserted. -/
def Obligations.FunctionsAndHostPortReset : Prop :=
  (∀ (fn : Fin 65) (write : Bool) (register : BitVec 12) (value : W32) (s : State), s.perst = false →
      s.power.halted = false → s.power.tripped = false → s.power.coolantStop = false → s.power.state = .run →
      (s.boot.reached = false → exec (.configurationRequest fn write register value) s = .next (s.emit .retryStatus)) ∧
      (s.boot.reached = true → partsOf s = [] →
        (write = true → ∃ t, exec (.configurationRequest fn write register value) s = .next t ∧
          t.out.head? = some (.configCompletion 0) ∧ tget? (t.fn fn).config (register.toNat / 4) = some value ∧
          t = { s with fns := t.fns, out := t.out }) ∧
        ∀ v, write = false → tget? (s.fn fn).config (register.toNat / 4) = some v →
          exec (.configurationRequest fn write register value) s = .next (s.emit (.configCompletion v)))) ∧
    (∀ p : Fin 64, OnHost (.flrVf p) (fun _ => True) (fun s t => ∃ u, u = { s with fns := u.fns, outstanding := u.outstanding } ∧
      u.fn (p.val + 1) = default ∧ (∀ o ∈ u.outstanding, o.replyTo.port ≠ .host p.succ) ∧
      (∀ g : Nat, g ≠ p.val + 1 → u.fn g = s.fn g) ∧ t = if (s.part p).present then resetPart u p else u)) ∧
    OnHost .flrPf0 (fun _ => True) (fun s t => t = { s with fns := t.fns, outstanding := t.outstanding, parts := t.parts } ∧
      t.fn 0 = default ∧ (∀ g : Nat, g ≠ 0 → t.fn g = s.fn g) ∧ (∀ o ∈ t.outstanding, o.replyTo.port ≠ .host 0) ∧
      ∀ p ∈ partsOf s, t.part p = { s.part p with logHost := none }) ∧
    (∀ s : State, ∃ t, exec .perstNAssert s = .next (settleResets t) ∧ t.perst = true ∧ (∀ fn : Nat, t.fn fn = default) ∧
      (∀ p r : Nat, (tget (t.part p).hwin r) = default) ∧ t.hostFetch = [] ∧ t.hostCommit = [] ∧
      ∀ o ∈ t.outstanding, ∃ n, o.replyTo.port = .mgmt n) ∧
    ∀ s : State, (s.perst = true → ∃ t, exec .perstNRelease s = .next t ∧ t.perst = false ∧
        (t.hostRate = 64 ∨ t.hostRate = 32 ∨ t.hostRate = 16 ∨ t.hostRate = 8) ∧
        (t.hostWidth = 16 ∨ t.hostWidth = 8 ∨ t.hostWidth = 4) ∧
        t = { s with perst := false, hostRate := t.hostRate, hostWidth := t.hostWidth, fresh := t.fresh }) ∧
      (s.perst = false → exec .perstNRelease s = .next s)

/-- One transaction at a time: a request to a line with one in progress waits at its home; one to a line without a home
has none to arrive at (R216, R220). For a line of the partition's own grants with a home, at which a transaction is
in progress and no combining window is open: RD_S, RD_U and UPG of an L1 of the partition, RD_NA and DISC of any
agent, and, with the host port up, the host's MemRd and MemWr outside a held image, answer the state in which the
request stands last among those that wait at the line; nothing else changes. A request to a line in no grant of the
partition, or while it has no slice, changes nothing. -/
def Obligations.RequestsWaitAtABusyLine : Prop :=
  (∀ (p : Fin 64) (l : L1Id) (line : BitVec 47) (agent : Agent) (sectors : BitVec 4) (retain : Bool),
    ∀ e ∈ [(Instr.rdS p l line, HomeRequest.rdS l), (.rdU p l line, .rdU l), (.upg p l line, .upg l),
      (.rdNa p agent line sectors retain, .rdNa agent sectors retain), (.disc p agent line, .disc agent)],
    Event e.1 (fun s => l1Of s p l = true ∧ Homed s p line.toNat ∧
        (s.line p line.toNat).windowOpen = false ∧ (s.line p line.toNat).cur.isSome = true) (fun s t =>
      t = s.modLine p line.toNat (fun n => { n with waiting := n.waiting ++ [e.2] })) ∧
    Event e.1 (fun s => l1Of s p l = true ∧ ((homeOf s p line.toNat).isSome = false ∨
        (isLsmLine line.toNat = true ∧ granted s p (linePhys line.toNat) = false))) (fun s t => t = s)) ∧
  ∀ (p : Fin 64) (address : BitVec 44) (m : MetaValue) (data : List Byte), address.toNat < lsmTop →
    ∀ e ∈ [(Instr.memrd address m, HomeRequest.memRd (BitVec.ofNat 44 (address.toNat / 64 * 64)) (m != .invalid)),
      (.memwr address data, .memWr (BitVec.ofNat 44 (address.toNat / 64 * 64)) data)],
    OnHost e.1 (fun s => s.boot.stage ≠ .fatal ∧ homeOwner s (address.toNat / 64 * 64) = some p.val ∧
        inHeldImage s (address.toNat / 64 * 64) = false ∧ Homed s p (address.toNat / 1024) ∧
        (s.line p (address.toNat / 1024)).windowOpen = false ∧
        (s.line p (address.toNat / 1024)).cur.isSome = true) (fun s t =>
      t = s.modLine p (address.toNat / 1024) (fun n => { n with waiting := n.waiting ++ [e.2] }))

/-- RD_S: a combining window and a read of memory on a miss, E or S where no other L1 owns the line, SNP_DOWN to an
owner (R218, R219, R220, R221). For an L1 of the partition and a line of its grants with a home at which nothing is
in progress or waits: if the line is absent and no L1 owns it, RD_S opens its combining window, the whole line is
asked of memory, and nothing else changes. If the line lies in the sets and needs no memory, and no other L1 owns
it, DATA_E is sent where no other L1 holds it, the HOST bit is clear and the line is not hidden, else DATA_S; the
filter records the L1 so at the position it fills; no other message is sent and no byte of memory changes. If
another L1 owns it, that L1 and no other is sent SNP_DOWN and the read is in progress. -/
def Obligations.ReadsForSAtTheHome : Prop :=
  ∀ (p : Fin 64) (l : L1Id) (line : BitVec 47),
    Event (.rdS p l line) (fun s => l1Of s p l = true ∧ Homed s p line.toNat ∧
        lineBusy (s.line p line.toNat) = false ∧ (s.line p line.toNat).waiting = [] ∧
        (s.line p line.toNat).state = .absent ∧ ∀ f ∈ (s.line p line.toNat).filter, f.owner = false) (fun s t =>
      t = askMemory (s.modLine p line.toNat (fun n => { n with window := [.rdS l], windowOpen := true }))
        p line.toNat wholeLine (.insider p)) ∧
    Event (.rdS p l line) (fun s => l1Of s p l = true ∧ Resident s p line.toNat ∧
        blocked s p line.toNat (.rdS l) = false ∧
        ∀ f ∈ (s.line p line.toNat).filter, f.owner = true → f.l1 = l) (fun s t =>
      ∃ e : Bool, (e = true ↔ (∀ f ∈ (s.line p line.toNat).filter, f.l1 = l) ∧ (s.line p line.toNat).host = false ∧
          (s.line p line.toNat).state ≠ .discardStaged) ∧
        t.noc = s.noc ++ [.toL1 (if e then mDataE else mDataS) p l line.toNat] ∧
        t.line p line.toNat = spent { s.line p line.toNat with
          filter := { l1 := l, owner := e, way := l1Way s l line.toNat } ::
            (s.line p line.toNat).filter.filter (fun f => f.l1 ≠ l) } ∧
        t.mem = s.mem ∧ t.spad = s.spad ∧ t.l1s = s.l1s) ∧
    ∀ f : FilterEntry, f.l1 ≠ l → f.owner = true → Event (.rdS p l line) (fun s => l1Of s p l = true ∧
        Resident s p line.toNat ∧ blocked s p line.toNat (.rdS l) = false ∧ (s.line p line.toNat).filter = [f]) (fun s t =>
      t.noc = s.noc ++ [.toL1 mSnpDown p f.l1 line.toNat] ∧
      t.line p line.toNat = { s.line p line.toNat with cur := some (.rdS l), awaiting := [f.l1] } ∧
      t.mem = s.mem ∧ t.spad = s.spad ∧ t.l1s = s.l1s)

/-- RD_U and UPG: the line is staged and granted M, or every other holder is first told to give it up (R218, R220, R225,
R233). For an L1 of the partition and a line of its grants in the sets at which nothing is in progress and which
needs no memory: where no other L1 holds the line, the host does not, and staging takes it (R226), RD_U sends DATA_M
and UPG of an L1 the filter names is acknowledged; the line is STAGED with the L1 as its owner, and a byte of memory
changes only where a DIRTY or hidden line's committed value is written back. Where another L1 holds the line, it is
sent SNP_INV; where the host does, it is sent back-invalidations for the line; the claim is in progress, and no
grant is sent. -/
def Obligations.ClaimsAtTheHome : Prop :=
  ∀ (p : Fin 64) (l : L1Id) (line : BitVec 47),
    (∀ e ∈ [(Instr.rdU p l line, HomeRequest.rdU l, NocMsg.toL1 mDataM p l line.toNat, false),
        (.upg p l line, .upg l, .toAgent mAck p (.core l) line.toNat [], true)],
      Event e.1 (fun s => l1Of s p l = true ∧ Resident s p line.toNat ∧ blocked s p line.toNat e.2.1 = false ∧
          OnlyHeldBy s p line.toNat l ∧
          stageCheck s p line.toNat = .staged ∧ (e.2.2.2 = true → (s.line p line.toNat).filter ≠ [])) (fun s t =>
        t.noc = s.noc ++ [e.2.2.1] ∧ (t.line p line.toNat).state = .staged ∧
        (t.line p line.toNat).filter = [{ l1 := l, owner := true, way := l1Way s l line.toNat }] ∧
        (t.line p line.toNat).cur = none ∧
        t.mem = (if (s.line p line.toNat).state = .dirty ∨ (s.line p line.toNat).state = .discardStaged then
          mwriteCells s.mem (linePhys line.toNat) (s.line p line.toNat).data else s.mem) ∧
        (t.line p line.toNat).data = (if (s.line p line.toNat).state = .dirty ∨ (s.line p line.toNat).state = .discardStaged
          then [] else (s.line p line.toNat).data) ∧
        t.spad = s.spad ∧ t.l1s = s.l1s)) ∧
    (∀ f : FilterEntry, f.l1 ≠ l → ∀ e ∈ [(Instr.rdU p l line, HomeRequest.rdU l), (.upg p l line, .upg l)],
      Event e.1 (fun s => l1Of s p l = true ∧ Resident s p line.toNat ∧ blocked s p line.toNat e.2 = false ∧
          (s.line p line.toNat).host = false ∧ (s.line p line.toNat).filter = [f]) (fun s t =>
        t.noc = s.noc ++ [.toL1 mSnpInv p f.l1 line.toNat] ∧
        t.line p line.toNat = { s.line p line.toNat with cur := some e.2, awaiting := [f.l1] } ∧
        t.mem = s.mem ∧ t.spad = s.spad ∧ t.l1s = s.l1s)) ∧
    Event (.rdU p l line) (fun s => l1Of s p l = true ∧ Resident s p line.toNat ∧
        blocked s p line.toNat (.rdU l) = false ∧
        (s.line p line.toNat).host = true ∧ (s.line p line.toNat).filter = []) (fun s t =>
      t.noc = s.noc ∧ t.line p line.toNat = { s.line p line.toNat with
        cur := some (.rdU l), awaiting := [], awaitHost := (List.range 16).map (fun i => linePhys line.toNat + 64 * i) } ∧
      (∃ out, t.out = out ++ s.out ∧ out ≠ [] ∧ ∀ o ∈ out, ∃ c n, o = .backInvalidate c n) ∧
      t.mem = s.mem ∧ t.spad = s.spad ∧ t.l1s = s.l1s)

/-- RD_NA returns a snapshot of the sectors, WRL stages its bytes, DISC hides or drops the line, ATOM is performed and
logged (R190, R191, R224, R225, R231, R302, R303). For a line of the partition's grants in the sets, held by no L1
and not by the host, at which nothing is in progress: RD_NA that need not wait sends DATA_NA with the bytes of the
sectors asked for, in the reader's view, and changes no line. WRL of an agent of the unit outside a held image,
where staging takes the line, lays its bytes over the staged line, whose committed value goes to memory first, and
is acknowledged. DISC of a CLEAN or STAGED line makes it absent, of a DIRTY one that can be staged hides it, of
another DIRTY one changes no line, and is acknowledged. ATOM on one address performs the lanes in order, stages the
result, acknowledges with their values and logs one ledger entry; a turn logged before returns its values from
BEFORE and logs nothing. -/
def Obligations.AgentsWithoutAnL1AtTheHome : Prop :=
  ∀ (p : Fin 64) (agent : Agent) (line : BitVec 47),
    (∀ (sectors : BitVec 4) (retain : Bool), Event (.rdNa p agent line sectors retain) (fun s =>
        (s.part p).present = true ∧ Resident s p line.toNat ∧ HeldByNone s p line.toNat ∧ (s.line p line.toNat).bad = 0 ∧
        blocked s p line.toNat (.rdNa agent sectors retain) = false) (fun s t =>
      (∃ cells, t.noc = s.noc ++ [.toAgent mDataNa p agent line.toNat cells] ∧
        ∀ i < 4, sectors.getLsbD i = true → ∀ j < 256, oget cells (256 * i + j) =
          some (if isOutside agent then committedByte s p line.toNat (256 * i + j) else stagedByte s p line.toNat (256 * i + j))) ∧
      t.line p line.toNat = spent (s.line p line.toNat) ∧ t.mem = s.mem ∧ t.spad = s.spad)) ∧
    (∀ cells : List (Fin 1024 × Byte), isOutside agent = false → Event (.wrl p agent line cells) (fun s =>
        (s.part p).present = true ∧ wrlCells s p line.toNat agent cells ≠ [] ∧ Resident s p line.toNat ∧
        HeldByNone s p line.toNat ∧ inHeldImage s (linePhys line.toNat) = false ∧
        stageCheck s p line.toNat = .staged) (fun s t =>
      t.noc = s.noc ++ [.toAgent mAck p agent line.toNat []] ∧ (t.line p line.toNat).state = .staged ∧
      (let dirty := (s.line p line.toNat).state = .dirty ∨ (s.line p line.toNat).state = .discardStaged
       (t.line p line.toNat).data = olay (if dirty then [] else (s.line p line.toNat).data)
          ((wrlCells s p line.toNat agent cells).map (fun c => (c.1.val, c.2))) ∧
       t.mem = if dirty then mwriteCells s.mem (linePhys line.toNat) (s.line p line.toNat).data else s.mem) ∧
      t.spad = s.spad)) ∧
    (Event (.disc p agent line) (fun s => (s.part p).present = true ∧ Resident s p line.toNat ∧
        HeldByNone s p line.toNat ∧ ((s.line p line.toNat).state = .clean ∨ (s.line p line.toNat).state = .staged)) (fun s t =>
      t.noc = s.noc ++ [.toAgent mAck p agent line.toNat []] ∧ (t.line p line.toNat).state = .absent ∧
      (t.line p line.toNat).data = [] ∧ t.mem = s.mem ∧ t.spad = s.spad)) ∧
    (Event (.disc p agent line) (fun s => (s.part p).present = true ∧ Resident s p line.toNat ∧
        HeldByNone s p line.toNat ∧ (s.line p line.toNat).state = .dirty) (fun s t =>
      t.noc = s.noc ++ [.toAgent mAck p agent line.toNat []] ∧
      (t.line p line.toNat).state = (if canStage s p line.toNat then .discardStaged else .dirty) ∧
      (t.line p line.toNat).data = (s.line p line.toNat).data ∧ t.mem = s.mem ∧ t.spad = s.spad)) ∧
    ∀ (r : AtomRequest) (o : Nat), r.lanes ≠ [] → (∀ l ∈ r.lanes, l.offset.val = o) →
      Event (.atom r) (fun s => atomOwner s r = some p.val ∧ Resident s p r.line.toNat ∧ HeldByNone s p r.line.toNat ∧
          blocked s p r.line.toNat (.atom r) = false ∧ inHeldImage s (linePhys r.line.toNat) = false ∧
          canStage s p r.line.toNat = true ∧ ledgerMatch s r (linePhys r.line.toNat + o) = none ∧
          (s.stall r.home).ledger.length < 4096) (fun s t =>
        ∃ e, (t.stall r.home).ledger = e :: (s.stall r.home).ledger ∧ e.address = linePhys r.line.toNat + o ∧
          e.srcDevice = r.srcDevice.toNat ∧ e.srcPartition = r.srcPartition ∧ e.seq = r.seq.toNat ∧
          e.unit = r.unit.toNat ∧ e.kernel = r.kernel ∧ e.size8 = decide (atomBits r.type = 64) ∧
          e.before = stagedValue s p r.line.toNat o (atomBits r.type / 8) ∧ e.after = (atomRun r r.lanes e.before).2 ∧
          (t.line p r.line.toNat).state = .staged ∧
          (∀ k < atomBits r.type / 8, oget (t.line p r.line.toNat).data (o + k) =
            some ((natLe (atomBits r.type / 8) e.after).getD k 0)) ∧
          t.noc = s.noc ++ [.toAgent mAck p r.agent r.line.toNat (atomCells (atomRun r r.lanes e.before).1)]) ∧
      ∀ e : LedgerEntry, Event (.atom r) (fun s => atomOwner s r = some p.val ∧ Resident s p r.line.toNat ∧
          HeldByNone s p r.line.toNat ∧ blocked s p r.line.toNat (.atom r) = false ∧
          inHeldImage s (linePhys r.line.toNat) = false ∧ (s.stall r.home).ledger.length ≤ 4096 ∧ entryGood e = true ∧
          ledgerMatch s r (linePhys r.line.toNat + o) = some e) (fun s t =>
        (t.stall r.home).ledger = (s.stall r.home).ledger ∧ t.line p r.line.toNat = spent (s.line p r.line.toNat) ∧
        t.mem = s.mem ∧
        t.noc = s.noc ++ [.toAgent mAck p r.agent r.line.toNat (atomCells (atomRun r r.lanes e.before).1)])

/-- A snoop takes, downgrades or reads the L1 copy and is answered with data, without, or as not present (R218, R220,
R222, R223, R224). A snoop on its way to an L1 leaves the network and is answered at once. An L1 that holds the line
in M answers RSP_DATA with its bytes, in E or S RSP_ACK, and without the line RSP_NP, or RSP_WBP while a writeback
of it is in flight. SNP_INV leaves the line in I; SNP_DOWN leaves a held line in S; SNP_SNAP leaves it as it was.
Nothing but the network and that L1 line changes. -/
def Obligations.SnoopsAtAnL1 : Prop :=
  ∀ (p : Fin 64) (l : L1Id) (line : BitVec 47),
    ∀ e ∈ [(Instr.snpInv p l line, mSnpInv), (.snpDown p l line, mSnpDown), (.snpSnap p l line, mSnpSnap)],
    Event e.1 (fun s => .toL1 e.2 p l line.toNat ∈ s.noc) (fun s t =>
      t = { s with noc := t.noc, l1s := t.l1s } ∧
      t.noc = s.noc.erase (.toL1 e.2 p l line.toNat) ++ [match (s.l1Line l line.toNat).state with
        | .m => .toHome mRspData p l line.toNat (s.l1Line l line.toNat).data
        | .i => .toHome (if (s.l1Line l line.toNat).wbInFlight then mRspWbp else mRspNp) p l line.toNat []
        | _ => .toHome mRspAck p l line.toNat []] ∧
      (t.l1Line l line.toNat).state = (if (s.l1Line l line.toNat).state = .i then .i
        else if e.2 = mSnpInv then .i else if e.2 = mSnpDown then .s else (s.l1Line l line.toNat).state) ∧
      ∀ a, a ≠ line.toNat → t.l1Line l a = s.l1Line l a)

/-- A line takes bytes from an L1 where it lies: in the sets, with no poison of an earlier read. -/
abbrev MergesAt (s : State) (p a : Nat) : Prop :=
  (s.line p a).state ≠ .absent ∧ (s.line p a).streamed = false ∧ (s.line p a).bad = 0

/-- Responses and writebacks: one holder less to wait for, dirty bytes merged, filter entries cleared, the last one ends
the wait (R220, R222, R223, R225, R233). A response on its way leaves the network. RSP_WBP changes nothing else: the
home goes on waiting for the writeback. RSP_ACK, RSP_DATA and RSP_NP of an L1 the home waits for, while another
answer is still awaited: the home no longer waits for that L1, and after a snoop that takes the copy, or RSP_NP, the
filter no longer names it. With the last answer of an owner, a read for S ends: the owner drops to S and the reader
is sent DATA_S. A WB is acknowledged with WB_ACK, its L1 leaves the filter and the wait, and where nobody waited for
it no transaction ends; its bytes lie over the line's, staged where a kernel that can replay runs. WB_ACK ends the
writeback at the L1. A BIRsp that is not the last takes its cachelines off the wait. -/
def Obligations.ResponsesAtTheHome : Prop :=
  ∀ (p : Fin 64) (l : L1Id) (line : BitVec 47),
    (∀ cs u, Event (.rspWbp p l line) (fun s => takeHome s p l line.toNat mRspWbp = some (cs, u)) (fun _ t => t = u)) ∧
    (∀ e ∈ [(Instr.rspAck p l line, mRspAck, true), (.rspData p l line, mRspData, true), (.rspNp p l line, mRspNp, false)],
      ∀ r cs u o, o ≠ l → Event e.1 (fun s => takeHome s p l line.toNat e.2.1 = some (cs, u) ∧
          (u.line p line.toNat).cur = some r ∧ l ∈ (u.line p line.toNat).awaiting ∧ o ∈ (u.line p line.toNat).awaiting ∧
          (cs = [] ∨ (MergesAt u p line.toNat ∧ stageCheck u p line.toNat ≠ .full)))
        (fun s t => t.noc = u.noc ∧ l ∉ (t.line p line.toNat).awaiting ∧ o ∈ (t.line p line.toNat).awaiting ∧
          (t.line p line.toNat).cur = some r ∧
          (snoopTakes r = true ∨ e.2.2 = false → ∀ f ∈ (t.line p line.toNat).filter, f.l1 ≠ l) ∧ t.l1s = s.l1s)) ∧
    (∀ (x : L1Id) (f : FilterEntry) cs u, f.l1 = l → x ≠ l → Event (.rspAck p l line) (fun s =>
        takeHome s p l line.toNat mRspAck = some (cs, u) ∧ (u.line p line.toNat).cur = some (.rdS x) ∧
        (u.line p line.toNat).awaiting = [l] ∧ (u.line p line.toNat).awaitHost = [] ∧
        (u.line p line.toNat).waiting = [] ∧ (u.line p line.toNat).filter = [f] ∧ unitLive s p = true) (fun s t =>
        t.noc = u.noc ++ [.toL1 mDataS p x line.toNat] ∧
        t.line p line.toNat = spent { u.line p line.toNat with
          cur := none, awaiting := []
          filter := [{ l1 := x, owner := false, way := l1Way s x line.toNat }, { f with owner := false }] } ∧
        t.mem = s.mem ∧ t.l1s = s.l1s)) ∧
    (∀ cs u, Event (.wb p l line) (fun s => takeHome s p l line.toNat mWb = some (cs, u) ∧ cs ≠ [] ∧
          l ∉ (u.line p line.toNat).awaiting ∧ MergesAt u p line.toNat ∧
          ((s.part p).kernel.running = false ∨ (s.part p).kernel.nonrepl = true ∨
            isStagedLine (u.line p line.toNat) = true)) (fun s t =>
        t.noc = u.noc ++ [.toL1 mWbAck p l line.toNat] ∧ (∀ f ∈ (t.line p line.toNat).filter, f.l1 ≠ l) ∧
        (t.line p line.toNat).data = olay (u.line p line.toNat).data cs ∧
        (t.line p line.toNat).state = (if (u.line p line.toNat).state = .clean then .dirty else (u.line p line.toNat).state) ∧
        (t.line p line.toNat).cur = (s.line p line.toNat).cur ∧ t.l1s = s.l1s ∧ t.mem = s.mem)) ∧
    (∀ cs u, Event (.wb p l line) (fun s => takeHome s p l line.toNat mWb = some (cs, u) ∧ cs ≠ [] ∧
          l ∉ (u.line p line.toNat).awaiting ∧ MergesAt u p line.toNat ∧ isLsmLine line.toNat = true ∧
          (s.part p).kernel.running = true ∧ (s.part p).kernel.nonrepl = false ∧
          stageCheck u p line.toNat = .staged) (fun s t =>
        t.noc = u.noc ++ [.toL1 mWbAck p l line.toNat] ∧ (∀ f ∈ (t.line p line.toNat).filter, f.l1 ≠ l) ∧
        (isStagedLine (u.line p line.toNat) = false → (t.line p line.toNat).state = .staged ∧
          (t.line p line.toNat).data =
            olay (if (u.line p line.toNat).state = .dirty then [] else (u.line p line.toNat).data) cs) ∧
        (t.line p line.toNat).cur = (s.line p line.toNat).cur ∧ t.l1s = s.l1s)) ∧
    Event (.wbAck p l line) (fun s => .toL1 mWbAck p l line.toNat ∈ s.noc) (fun s t =>
      t = { s with noc := s.noc.erase (.toL1 mWbAck p l line.toNat), l1s := t.l1s } ∧
      t.l1Line l line.toNat = { s.l1Line l line.toNat with wbInFlight := false }) ∧
    ∀ address : BitVec 44, ∀ y : Nat, y ∉ backAnswered (address.toNat / 64 * 64) → Event (.birsp address) (fun s =>
        homeOwner s (address.toNat / 64 * 64) = some p.val ∧
        address.toNat / 64 * 64 ∈ (s.line p (address.toNat / 64 * 64 / 1024)).awaitHost ∧
        y ∈ (s.line p (address.toNat / 64 * 64 / 1024)).awaitHost) (fun s t =>
      t = s.modLine p (address.toNat / 64 * 64 / 1024) (fun n =>
        { n with awaitHost := n.awaitHost.filter (fun x => x ∉ backAnswered (address.toNat / 64 * 64)) }))

/-- DATA_S, DATA_E and DATA_M enter the L1; DATA_NA and ACK reach their requester; a combining window answers its
readers (R218, R219, R220, R221, R224). A fill on its way leaves the network and the L1 holds the line in S, E or M
for its partition; with room in its set nothing else leaves the L1, and of the partition's lines only filter entries
change. DATA_NA and ACK leave the network and act on their requester alone: data for a core or a Porter is only
taken; an acknowledged UPG turns an L1's S into M. When a combining window with nothing waiting closes and memory
has brought what its readers need, every RD_S in it is answered with DATA_S or DATA_E and every RD_NA with DATA_NA;
where memory has not, it is asked, and the readers wait. -/
def Obligations.FillsAndAcknowledgementsArrive : Prop :=
  ∀ (p : Fin 64) (l : L1Id) (line : BitVec 47),
    (∀ e ∈ [(Instr.dataS p l line, mDataS, Mesi.s), (.dataE p l line, mDataE, .e), (.dataM p l line, mDataM, .m)],
      Event e.1 (fun s => .toL1 e.2.1 p l line.toNat ∈ s.noc) (fun s t =>
        (t.l1Line l line.toNat).state = e.2.2 ∧ (t.l1Line l line.toNat).part = p.val ∧ t.mem = s.mem ∧ t.spad = s.spad ∧
        (∀ a, t.line p a = { s.line p a with filter := (t.line p a).filter }) ∧
        (∀ q : Nat, q ≠ p.val → t.part q = s.part q) ∧
        ((s.l1Line l line.toNat).state = .i → (l1Set s l line.toNat).length < 8 →
          t.noc = s.noc.erase (.toL1 e.2.1 p l line.toNat) ∧ ∀ a, a ≠ line.toNat → t.l1Line l a = s.l1Line l a))) ∧
    (∀ (i : Fin 64) (c : Fin 2) cs u, Event (.dataNa p (.porter i c) line)
        (fun s => takeAgent s p (.porter i c) line.toNat mDataNa = some (cs, u)) (fun _ t => t = u)) ∧
    (∀ cs u, Event (.dataNa p (.core l) line) (fun s => takeAgent s p (.core l) line.toNat mDataNa = some (cs, u))
      (fun _ t => t = u)) ∧
    (∀ (i : Fin 64) cs u, Event (.dataNa p (.loader i) line)
      (fun s => takeAgent s p (.loader i) line.toNat mDataNa = some (cs, u)) (fun _ t => t = fillData u p i line.toNat cs)) ∧
    (∀ u, Event (.ack p (.core l) line) (fun s => takeAgent s p (.core l) line.toNat mAck = some ([], u) ∧
        (s.l1Line l line.toNat).state = .s) (fun _ t => (t.l1Line l line.toNat).state = .m ∧ t.mem = u.mem ∧
          ∀ a, t.line p a = { u.line p a with filter := (t.line p a).filter })) ∧
    (∀ (i : Fin 64) u, Event (.ack p (.loader i) line) (fun s => takeAgent s p (.loader i) line.toNat mAck = some ([], u))
      (fun _ t => t = spillDone u p i line.toNat)) ∧
    Event (.combiningWindowClose p line) (fun s => (s.line p line.toNat).windowOpen = true ∧
        (s.line p line.toNat).waiting = [] ∧ (s.line p line.toNat).cur = none ∧ unitLive s p = true ∧
        (s.line p line.toNat).window ≠ [] ∧ ∀ r ∈ (s.line p line.toNat).window,
          isRead r = true ∧ memoryHere s p line.toNat r = true) (fun s t =>
      (t.line p line.toNat).windowOpen = false ∧ (t.line p line.toNat).window = [] ∧
      (∀ x, .rdS x ∈ (s.line p line.toNat).window →
        .toL1 mDataS p x line.toNat ∈ t.noc ∨ .toL1 mDataE p x line.toNat ∈ t.noc) ∧
      ∀ ag sec retain, .rdNa ag sec retain ∈ (s.line p line.toNat).window →
        ∃ cs, .toAgent mDataNa p ag line.toNat cs ∈ t.noc) ∧
    Event (.combiningWindowClose p line) (fun s => (s.line p line.toNat).windowOpen = true ∧
        ∃ r ∈ (s.line p line.toNat).window, memoryHere s p line.toNat r = false) (fun s t =>
      t = askWindow (s.modLine p line.toNat (fun n => { n with windowOpen := false })) p line.toNat)

/-- MemRd, MemWr, BIConflict and host snoops (R164, R216, R233, R234, R268, R285, R354, R369). With the host port up: a
MemRd of LSM in no grant asks its channel for one burst of memory; of a line in the sets that no L1 owns and that
need not wait it returns the committed bytes, poisoned where memory failed, and sets the HOST bit exactly if the
host asks to keep the line. A MemWr to the session table is answered BAD_ADDRESS with SES_TABLE and writes nothing;
one of other LSM in no grant writes its 64 bytes to memory, clears the clean mark of the unit, and is done; to a
held image it is answered BAD_ADDRESS; at a home whose line is held by nobody, staged by no unit and outside a held
image it makes the line DIRTY with those bytes over it. A HOST_SNOOP is answered RspIHitI. A BIConflict for a
cacheline under back-invalidation performs the host's own request for it, taken off the wait, first, or asks memory
for what it needs. -/
def Obligations.HostAccessesThroughCxlMem : Prop :=
  (∀ (address : BitVec 44) (m : MetaValue), address.toNat < lsmTop → OnHost (.memrd address m)
      (fun s => homeOwner s (address.toNat / 64 * 64) = none) (fun s t =>
        t = queueAccess s { requester := deviceTraffic, line := address.toNat / 1024
                            mask := 2 ^ (address.toNat % 1024 / 128), write := false, reader := .host
                            address := address.toNat / 64 * 64 })) ∧
    (∀ (address : BitVec 44) (m : MetaValue) (p : Nat), address.toNat < lsmTop → OnHost (.memrd address m)
      (fun s => homeOwner s (address.toNat / 64 * 64) = some p ∧ Resident s p (address.toNat / 1024) ∧
        (∀ f ∈ (s.line p (address.toNat / 1024)).filter, f.owner = false) ∧
        blocked s p (address.toNat / 1024) (.memRd (BitVec.ofNat 44 (address.toNat / 64 * 64)) (m != .invalid)) = false)
      (fun s t =>
        t.out = .memData (address.toNat / 64 * 64) (cacheline s (address.toNat / 64 * 64))
          (poisonAt s p (address.toNat / 1024) (address.toNat / 64 * 64)) :: s.out ∧
        t.line p (address.toNat / 1024) = spent { s.line p (address.toNat / 1024) with
          host := (s.line p (address.toNat / 1024)).host || m != .invalid } ∧ t.mem = s.mem)) ∧
    (∀ (address : BitVec 44) (data : List Byte), sesTable ≤ address.toNat / 64 * 64 → address.toNat < lsmTop →
      OnHost (.memwr address data) (fun s => s.boot.stage ≠ .fatal ∧ homeOwner s (address.toNat / 64 * 64) = none) (fun s t =>
        t = s.emit (.memDone (address.toNat / 64 * 64) Status.badAddress Detail.sesTable))) ∧
    (∀ (address : BitVec 44) (data : List Byte), address.toNat / 64 * 64 < sesTable → OnHost (.memwr address data)
      (fun s => s.boot.stage ≠ .fatal ∧ homeOwner s (address.toNat / 64 * 64) = none) (fun s t =>
        t = (queueAccess { s with mem := mwrites s.mem (address.toNat / 64 * 64) (data.take 64)
                                  clean := clearBit s.clean (address.toNat / 64 * 64 / unitBytes) }
          { requester := deviceTraffic, line := address.toNat / 1024, mask := 2 ^ (address.toNat % 1024 / 128)
            write := true, reader := .host }).emit (.memDone (address.toNat / 64 * 64) Status.ok 0))) ∧
    (∀ (address : BitVec 44) (data : List Byte) (p : Nat), address.toNat < lsmTop → OnHost (.memwr address data)
      (fun s => s.boot.stage ≠ .fatal ∧ homeOwner s (address.toNat / 64 * 64) = some p ∧
        inHeldImage s (address.toNat / 64 * 64) = true) (fun s t =>
        t = s.emit (.memDone (address.toNat / 64 * 64) Status.badAddress Detail.planHeld))) ∧
    (∀ (address : BitVec 44) (data : List Byte) (p : Nat), address.toNat < lsmTop → OnHost (.memwr address data)
      (fun s => s.boot.stage ≠ .fatal ∧ homeOwner s (address.toNat / 64 * 64) = some p ∧
        inHeldImage s (address.toNat / 64 * 64) = false ∧ Resident s p (address.toNat / 1024) ∧
        HeldByNone s p (address.toNat / 1024) ∧ (s.line p (address.toNat / 1024)).bad = 0 ∧
        isStagedLine (s.line p (address.toNat / 1024)) = false ∧ (s.part p).state ≠ .resetting) (fun s t =>
        t.out = .memDone (address.toNat / 64 * 64) Status.ok 0 :: s.out ∧
        (t.line p (address.toNat / 1024)).state = .dirty ∧
        (t.line p (address.toNat / 1024)).data = olay (s.line p (address.toNat / 1024)).data
          (cellsAt (address.toNat / 64 * 64 % 1024) (data.take 64)) ∧ t.mem = s.mem)) ∧
    (∀ hpa : BitVec 52, OnHost (.hostSnoop hpa) (fun _ => True) (fun s t => t = s.emit (.rspIHitI hpa.toNat))) ∧
    ∀ (address : BitVec 44) (p a : Nat) (r : HomeRequest), a = address.toNat / 64 * 64 / 1024 →
      Event (.biconflict address) (fun s => homeOwner s (address.toNat / 64 * 64) = some p ∧
          address.toNat / 64 * 64 ∈ (s.line p a).awaitHost ∧
          (s.line p a).waiting.find? (isHostRequest (address.toNat / 64 * 64)) = some r) (fun s t =>
        t = if blocked s p a r then askFor s p a r
          else spendRead (finish (s.modLine p a (fun n => { n with waiting := n.waiting.erase r })) p a r []) p a)

/-- SYNC WAIT, SIGNAL, ADD and NOTIFY, and the wait timeout (R9, R164, R168, R393, R396). For an entry of a job's SYNC
queue that may act, with fields in range and a readable (writable) semaphore in the partition's grants: WAIT ends
once the condition holds of the committed value, with no commit of the partition in progress, and else begins its
wait and changes nothing more; SIGNAL and ADD, outside a held image and while no unit holds the line, write the
value, or the old value plus VALUE modulo 2^64, as a host write, and end, and change nothing while one does; to a
held image they fail with BAD_ADDRESS; NOTIFY puts out a device event with its CODE and ends. Fields out of range
fail with BAD_STATE. A PLAN_RUN, LAUNCH or WAIT at its head whose nonzero timeout has passed since its wait began,
and whose wait is unmet, fails with TIMEOUT; one that is met takes no timeout; one found unmet for the first time
begins its wait. -/
def Obligations.SyncEntriesActOnTheirSemaphore : Prop :=
  (∀ (p : Fin 64) (e : Entry) (a : Nat), syncWaitOk e = true →
      Event (.syncWait p) (fun s => EntryAt s p 4 1 e ∧ (s.part p).job.running = true ∧
        semPhys s p (e.get 8 8) false = .ok a) (fun s t =>
        t = if readsWait s p = false ∧ syncCond e (semValue s a) = true then entryDone s p 4 1 else beginWait s p 4)) ∧
    (∀ (p : Fin 64) (e : Entry) (a : Nat), syncWriteOk e = true →
      Event (.syncSignal p) (fun s => EntryAt s p 4 2 e ∧ (s.part p).job.running = true ∧
        semPhys s p (e.get 8 8) true = .ok a ∧ inHeldImage s a = false ∧ semBusy s p a = false) (fun s t =>
        t = entryDone (semWrite s p a (e.get 16 8)) p 4 1)) ∧
    (∀ (p : Fin 64) (e : Entry) (a : Nat), syncWriteOk e = true →
      Event (.syncAdd p) (fun s => EntryAt s p 4 3 e ∧ (s.part p).job.running = true ∧
        semPhys s p (e.get 8 8) true = .ok a ∧ inHeldImage s a = false ∧ semBusy s p a = false) (fun s t =>
        t = entryDone (semWrite s p a ((semValue s a + e.get 16 8) % 2 ^ 64)) p 4 1)) ∧
    (∀ (p : Fin 64) (e : Entry), e.get 8 8 < 2 ^ 24 → e.zero 16 48 = true →
      Event (.syncNotify p) (fun s => EntryAt s p 4 4 e ∧ (s.part p).job.running = true) (fun s t =>
        t = entryDone (partEvent s p srcNotify Status.ok (e.get 8 8)) p 4 1)) ∧
    (∀ (p : Fin 64) (e : Entry), ∀ x ∈ [(Instr.syncWait p, 1, syncWaitOk e), (.syncSignal p, 2, syncWriteOk e),
        (.syncAdd p, 3, syncWriteOk e), (.syncNotify p, 4, decide (e.get 8 8 < 2 ^ 24) && e.zero 16 48)], x.2.2 = false →
      Event x.1 (fun s => EntryAt s p 4 x.2.1 e ∧ (s.part p).job.running = true) (fun s t =>
        t = entryFail s p 4 1 Status.badState Detail.hstListField)) ∧
    (∀ (p : Fin 64) (e : Entry) (a : Nat), syncWriteOk e = true → ∀ x ∈ [(Instr.syncSignal p, 2), (.syncAdd p, 3)],
      Event x.1 (fun s => EntryAt s p 4 x.2 e ∧ (s.part p).job.running = true ∧ semPhys s p (e.get 8 8) true = .ok a)
        (fun s t => (inHeldImage s a = true → t = entryFail s p 4 1 Status.badAddress Detail.planHeld) ∧
          (inHeldImage s a = false → semBusy s p a = true → t = s))) ∧
    ∀ (p : Fin 64) (k : Fin 5) (op : Nat) (e : Entry) (w : Nat × Nat × Nat), waitFields k e = some w →
      Event (.queueWaitTimeout p k) (fun s => EntryAt s p k op e ∧ (s.queue p k).inProgress = false ∧
        (s.part p).job.running = true) (fun s t =>
        (entryMet s p k e w = true → t = s) ∧
        (entryMet s p k e w = false → (s.queue p k).waitFrom = none → t = beginWait s p k) ∧
        ∀ t0, entryMet s p k e w = false → (s.queue p k).waitFrom = some t0 →
          t = if w.2.2 ≠ 0 ∧ t0 + 3300 * w.2.2 ≤ (s.part p).timers then
            entryFail s p k (if k = 1 then 2 else 1) Status.timeout 0 else s)

/-- An entry that ends moves its queue past it and is counted; one that fails halts its queue with its status (R390,
R391, R393). For every queue of every partition at which no QUEUE_HALT waits: the end of an entry of n units counts
it, takes the queue out of progress and moves it past the units, to the next list at the list's end, and leaves
every other partition and all of memory as it was. The failure of an entry halts the queue, keeps its status, detail
and units, and leaves the lists in place. -/
def Obligations.EntriesEndAtTheHeadOfTheirQueue : Prop :=
  ∀ (p k n : Nat) (s : State), (∀ o ∈ s.outstanding, o.part = p → ∀ m f, o.waits ≠ some (.queueHalt m f)) →
    ((entryDone s p k n).queue p k = { advance (s.queue p k) n with
        inProgress := false, waitFrom := none, completed := ((s.queue p k).completed + 1) % 2 ^ 64
        halted := (s.queue p k).halted } ∧
      (∀ q, q ≠ p → (entryDone s p k n).part q = s.part q) ∧ SameBytes s (entryDone s p k n)) ∧
    ∀ status detail, (entryFail s p k n status detail).queue p k = { s.queue p k with
        halted := true, failed := true, failUnits := n, inProgress := false, waitFrom := none
        lastStatus := status, lastDetail := detail
        completed := ((s.queue p k).completed + 1) % 2 ^ 64 } ∧ SameBytes s (entryFail s p k n status detail)

/-- COPY starts its copy; data, errors and timeouts of the host reach the copy or the reader that asked (R230, R394,
R395, R420). An accepted COPY entry at a PORT queue not in progress makes the queue in progress with its copy added
under the partition's next number, and the partition's copies then go on. CXL_IO_COMPLETION takes one request off
the count and gives its data, or the failure BAD_ADDRESS with HST_HOST_ABORT, to the oldest copy that asked; copies
and a reset that waits then go on. A CXL.cache answer fills the oldest request of its cacheline, or takes one commit
write off, with the core's store that it acknowledges, and reads that waited for it go on. COMPLETION_TIMEOUT of a
reader outside a reset gives it free bytes and changes nothing else; of a Porter's read it fails the copy that asked
with BAD_ADDRESS. -/
def Obligations.CopiesMoveBytesThroughThePorters : Prop :=
  (∀ (p : Fin 64) (e : Entry), copyOk e = true → e.zero 56 8 = true →
      Event (.copy p) (fun s => EntryAt s p 2 1 e ∧ (s.queue p 2).inProgress = false) (fun s t =>
        t = pumpCopies ((s.modQueue p 2 (fun q => { q with inProgress := true })).modPart p (fun q =>
          { q with copies := q.copies ++ [{ copyOf e with number := q.copyCount }], copyCount := q.copyCount + 1
                   cached := { q.cached with porters := [] } })) p)) ∧
    (∀ (p : Fin 64) (data : Option (List Byte)), Event (.cxlIoCompletion p data) (fun s => (s.part p).ioOut ≠ 0) (fun s t =>
      t = continueReset (pumpCopies (copyData (s.modPart p (fun q => { q with ioOut := q.ioOut - 1 })) p data) p) p)) ∧
    (∀ (hpa : BitVec 52) (bs : List Byte) (q : Nat), Event (.cxlCacheResponse hpa (some bs)) (fun s =>
        s.hostFetch.find? (fun h => fetchWaits h && decide (h.2.1 = hpa.toNat)) = some (q, hpa.toNat, none) ∧
        (s.part q).state ≠ .resetting) (fun s t =>
      t = { s with hostFetch := t.hostFetch } ∧ (q, hpa.toNat, some (padTo 64 bs)) ∈ t.hostFetch ∧
        t.hostFetch.length = s.hostFetch.length)) ∧
    (∀ (hpa : BitVec 52) (q : Nat), Event (.cxlCacheResponse hpa none) (fun s =>
        s.hostCommit.find? (fun h => h.2 = hpa.toNat) = some (q, hpa.toNat)) (fun s t =>
      t = continueReset (resumeReads (ackStore { s with hostCommit := s.hostCommit.erase (q, hpa.toNat) } q 2 hpa.toNat) q) q)) ∧
    ∀ p : Fin 64, Event (.completionTimeout p) (fun s => (s.part p).state ≠ .resetting ∧
        ∃ h ∈ s.hostFetch, h.1 = p.val ∧ h.2.2 = none) (fun s t =>
      t = { s with hostFetch := t.hostFetch, fresh := s.fresh + 8 } ∧ t.hostFetch.length = s.hostFetch.length ∧
        (t.hostFetch.filter (fun h => h.2.2.isNone)).length + 1 = (s.hostFetch.filter (fun h => h.2.2.isNone)).length) ∧
    ∀ p : Fin 64, Event (.completionTimeout p) (fun s => (∀ h ∈ s.hostFetch, h.1 = p.val → h.2.2.isSome = true) ∧
        (∀ h ∈ s.hostCommit, h.1 ≠ p.val) ∧ (s.part p).ioOut ≠ 0) (fun s t =>
      t = continueReset (pumpCopies (copyData (s.modPart p (fun q => { q with ioOut := q.ioOut - 1 })) p none) p) p)

/-- COMPANION_COMPLETION and COMPANION_DOWN (R539, R540). The oldest request of a site completes: a write leaves the
queue shorter and the core's store that it acknowledges; a read without poison hands its 64 bytes to its partition's
reader, and with poison marks the reading unit. A site in link up that goes down is FAILED with its requests and the
stores that wait for it gone; then the partitions granted it lose their jobs, a pre-empted one on resumption;
nothing else changes where none of them runs a job. -/
def Obligations.CompanionSitesCompleteAndFail : Prop :=
  (∀ (i : Fin 2) (poison : Bool) (data : List Byte) (p off : Nat) (r : List (Nat × Nat × Bool)),
      Event (.companionCompletion i poison data) (fun s => (s.site i).pending = (p, off, true) :: r) (fun s t =>
        t = ackStore (s.modSite i (fun x => { x with pending := r })) p i off)) ∧
    (∀ (i : Fin 2) (data : List Byte) (p off : Nat) (r : List (Nat × Nat × Bool)),
      Event (.companionCompletion i false data) (fun s => (s.site i).pending = (p, off, false) :: r ∧
        (s.part p).present = true) (fun s t =>
        t = { s with sites := t.sites } ∧ (t.site i).pending = r ∧ (t.site i).data = (s.site i).data ++ [(p, off, padTo 64 data)])) ∧
    (∀ (i : Fin 2) (data : List Byte) (p off : Nat) (r : List (Nat × Nat × Bool)),
      Event (.companionCompletion i true data) (fun s => (s.site i).pending = (p, off, false) :: r ∧
        (s.part p).present = true) (fun s t =>
        t = unitError (s.modSite i (fun x => { x with pending := r })) p Detail.pkgCompanionPoison none)) ∧
    ∀ i : Fin 2, Event (.companionDown i) (fun s => (s.site i).state = 1) (fun s t =>
      ∃ u, u = { s with sites := u.sites, parts := u.parts } ∧ (u.site i).state = 2 ∧ (u.site i).pending = [] ∧
        (u.site i).data = [] ∧ (∀ j : Fin 2, j ≠ i → u.site j = s.site j) ∧
        (∀ p ∈ partsOf s, u.part p = { s.part p with stores := (s.part p).stores.filter (fun e => e.target ≠ i.val) }) ∧
        t = ((partsOf s).filter (fun p => bit (s.part p).record.companion i)).foldl siteLost u ∧
        ((∀ p ∈ partsOf s, bit (s.part p).record.companion i = true → (s.part p).job.running = false) → t = u))

/-- PLAN_LOAD, PLAN_UNLOAD, PLAN_RUN, paging, and LAUNCH (R147, R148, R166, R167, R168, R200, R202, R203). For an entry
that may act with fields in range: PLAN_LOAD with no job and no plan held purges keys and evidence and loads its
image; PLAN_UNLOAD with no job leaves the partition without a plan, its keys purged, no part in any stall, and the
entry ended. PLAN_RUN of a range of the held plan whose wait is met and with nothing in progress starts its run with
the queue in progress; LAUNCH starts its kernel: every core caches nothing, and the kernel of the entry is running,
its time counted from now. A part that pages in and fits the free space of its stall's schedule memory is resident
there, and an epoch that waited for it may start; one that does not fit changes nothing. -/
def Obligations.PlanEntriesLoadRunAndUnload : Prop :=
  (∀ (p : Fin 64) (e : Entry), isVa (e.get 8 8) = true → isVa (e.get 24 8) = true → e.get 24 8 % 64 = 0 →
      e.zero 32 32 = true → Event (.planLoad p) (fun s => EntryAt s p 0 1 e ∧ (s.part p).job.running = false ∧
        (s.part p).plan = none) (fun s t => t = loadImage s p (e.get 8 8) (e.get 16 8) (e.get 24 8))) ∧
    (∀ (p : Fin 64) (e : Entry), e.zero 8 56 = true → Event (.planUnload p) (fun s => EntryAt s p 0 2 e ∧
        (s.part p).job.running = false) (fun s t =>
      ∃ u, t = entryDone u p 0 1 ∧ (u.part p).plan = none ∧ (u.part p).sec.evidence = none ∧
        (∀ i ∈ stallsOf s p, (u.stall i).parts = [] ∧
          ∀ k < 8, tget? (u.stall i).feederMxe.slots k = none ∧ tget? (u.stall i).feederMvu.slots k = none) ∧
        SameBytes s u)) ∧
    (∀ (p : Fin 64) (e : Entry), planRunOk e = true → Event (.planRun p) (fun s => EntryAt s p 0 3 e ∧
        (s.queue p 0).inProgress = false ∧ (s.part p).job.running = true ∧ e.get 8 2 ≤ e.get 10 2 ∧
        e.get 10 2 < bellCount (imageOf s p) ∧ waitMet s p (e.get 16 8) (e.get 24 8) = .ok true ∧ unitBusy s p = false ∧
        serveFirst s p = false ∧ (s.part p).job.awaitStart = false ∧ (s.part p).state = .running) (fun s t =>
      t = startRun (s.modQueue p 0 (fun q => { q with inProgress := true })) p
        { first := e.get 8 2, last := e.get 10 2, repeatLeft := e.get 12 4, signal := e.get 32 8, signalValue := e.get 40 8 })) ∧
    (∀ (p : Fin 64) (e : Entry), launchOk e = true → Event (.launch p) (fun s => EntryAt s p 1 0x10 e ∧
        (s.queue p 1).inProgress = false ∧ (s.part p).job.running = true ∧ launchStallsBad s p (e.get 32 8) = false ∧
        waitMet s p (e.get 64 8) (e.get 72 8) = .ok true ∧ unitBusy s p = false ∧ serveFirst s p = false ∧ unitReady s p = false ∧
        (s.part p).job.awaitStart = false ∧ (s.part p).state = .running) (fun s t =>
      (t.queue p 1).inProgress = true ∧ (t.part p).kernel.running = true ∧ (t.part p).kernel.code = e.get 8 8 ∧
        (t.part p).kernel.groups = e.get 24 4 ∧ (t.part p).kernel.groupsDone = 0 ∧ (t.part p).kernel.limit = e.get 40 4 ∧
        (t.part p).kernel.timer = (s.part p).timers ∧ (t.part p).kernel.args = e.get 16 8 ∧
        (t.part p).kernel.signal = e.get 80 8 ∧ (t.part p).kernel.nextGroup =
          Nat.min (e.get 24 4) (e.get 29 1 * (kernelCores (kernelOf e)).length) ∧ SameBytes s t)) ∧
    ∀ (p i : Fin 64) (b q : Nat), Event (.partPaged p i) (fun s => bit (s.part p).record.stalls i = true ∧
        (s.part p).plan.isSome = true ∧ partAt s (imageOf s p) (bellAt (imageOf s p) b).epoch i = some q ∧
        (((s.part p).epoch.running = true ∧ (s.part p).epoch.stage ≠ 4 ∧ (s.stall i).repage = false ∧
            nextEntry s p = some b) ∨
          ((s.part p).epoch.running = false ∧ (s.part p).run.isSome = true ∧ b = (s.part p).epoch.entry))) (fun s t =>
      t = if partFits s (imageOf s p) i q = false then s
        else tryStart (s.modStall i (fun x => { x with
          parts := (q :: x.parts).eraseDups, repage := false, badParts := x.badParts.filter (fun y => y ≠ q) })) p)

/-- SERVE and the session engine, and the lease of the partition (R360, R361, R417, R419). An accepted SERVE entry of a
plan that can serve puts the engine at work with the entry's record, result, steps and signal and the queue in
progress, and changes nothing else. A session step with nothing in progress gathers its batch and runs it, and on a
linked job writes the record of an empty batch and starts THIN of step 0. A lease that reaches zero under a running
job begins its grace: at once the pre-emption point where no unit is in progress and no primary remainder waits, in
a partition that is not halted, else the partition is PREEMPTING with GRACE to run. Grace that passes before that
point logs PTN_LEASE_RESET, puts out a fault event with LEASE_EXPIRED, and resets the partition. -/
def Obligations.SessionsServeStepByStep : Prop :=
  (∀ (p : Fin 64) (e : Entry), serveOk e = true → Event (.serve p) (fun s => EntryAt s p 3 1 e ∧
        (s.queue p 3).inProgress = false ∧ (s.part p).job.running = true ∧ servePlan s p = true) (fun s t =>
      t = { s with parts := t.parts } ∧ (∀ q : Fin 64, q ≠ p → t.part q = s.part q) ∧ (t.queue p 3).inProgress = true ∧
        (t.part p).ses = { (s.part p).ses with
          serving := true, record := e.get 8 8, result := e.get 16 8, perPage := e.get 24 4
          stepsLeft := if e.get 28 4 = 0 then none else some (e.get 28 4)
          signal := e.get 32 8, signalValue := e.get 40 8, stepCount := 0, round := [], remainder := []
          left := [], opened := false
          follower := isLinked s p && !isRoot s p })) ∧
    (∀ p : Fin 64, Event (.sessionStep p) (fun s => mayStep s p = true) (fun s t =>
      t = if isLinked s p then firstStep s p else runGathered (gather s p).1 p (gather s p).2)) ∧
    (∀ p : Fin 64, Event (.leaseExpiry p) (fun s => (s.part p).lease.set = true ∧ (s.part p).lease.remain = 0 ∧
        (s.part p).job.running = true ∧ (s.part p).state = .running) (fun s t =>
      ∃ u, u = { s with parts := u.parts } ∧ (∀ q : Fin 64, q ≠ p → u.part q = s.part q) ∧
        u.part p = { s.part p with
          state := .preempting, lease := { (s.part p).lease with graceLeft := (s.part p).lease.grace } } ∧
        t = if unitRuns s p || !(s.part p).ses.remainder.isEmpty || (s.part p).halted then u else preempt u p)) ∧
    ∀ p : Fin 64, Event (.graceExpiry p) (fun s => (s.part p).state = .preempting ∧ (s.part p).lease.graceLeft = 0)
      (fun s t => t = resetPart (partEvent (logContained s p Detail.ptnLeaseReset none) p srcFault Status.leaseExpired
        Detail.ptnLeaseReset) p)

/-- Power samples, exchanges, extra bubbles, core clock steps, droops, alerts and temperatures (R452, R453, R457, R461,
R465, R467, R468, R469). While Scales runs: a sample records the package power and the supply level, which below
1.70 V is a droop on every die; one above 3,000 W holds share 240/256 for 10 µs and is counted; no memory and no die
clock of the cores changes. An exchange takes the last sample's U, clears every period, and keeps the cap. A
LOCKSTEP job's rise that has been pending for 200 µs starts extra bubbles at the share it needs, and none before. A
core clock steps 100 MHz down after 100 µs of a share of 64 or more, up after 100 µs of none, within 1,300 to 2,600
MHz, and does not step before. A droop is set and cleared; a long one is counted and adds 16 to its share.
PWR_ALERT_N sets and clears its alert, with 10 µs held and shares marked to fall from 240/256 afterwards. A stall
sensor read sets the temperature and the temperature share of R469. -/
def Obligations.PowerEventsSteerTheDies : Prop :=
  (∀ x : PowerSample, Event (.powerSample x) (fun s => scalesRun s = true) (fun s t =>
      t.power.package = x.packageMilliwatt ∧ t.power.vin = x.vinMillivolt ∧
      t.power.energy = s.power.energy + x.packageMilliwatt ∧ t.power.cap = s.power.cap ∧
      (3000000 < x.packageMilliwatt → t.power.hold = 10 ∧ t.power.edlEvents = satInc s.power.edlEvents 65535) ∧
      (x.packageMilliwatt ≤ 3000000 → t.power.hold = s.power.hold - 1 ∧ t.power.edlEvents = s.power.edlEvents) ∧
      (∀ d < 4, (t.die d).lowVinDroop = decide (x.vinMillivolt < 1700)) ∧
      t.power.vinLow = (if x.vinMillivolt < 1700 then s.power.vinLow + 1 else 0) ∧
      (∀ d : Nat, (t.die d).coreMhz = (s.die d).coreMhz) ∧ SameBytes s t)) ∧
    Event .budgetExchange (fun s => scalesRun s = true) (fun s t =>
      t.power.unmanaged = s.power.sampleU ∧ t.power.cap = s.power.cap ∧ (∀ p ∈ partsOf s, (t.part p).pwr.period = []) ∧
      SameBytes s t ∧ t = { s with parts := t.parts, power := t.power }) ∧
    (∀ p : Fin 64, Event (.extraBubbleStart p) (fun s => isLockstep s p = true ∧ (s.part p).job.running = true ∧
        (s.part p).pwr.pendingShare = true ∧ 200 ≤ (s.part p).pwr.pendingFor ∧ scalesRun s = true) (fun s t =>
      t = { s with parts := t.parts } ∧ (∀ q : Fin 64, q ≠ p → t.part q = s.part q) ∧
      t.part p = { s.part p with pwr := { (s.part p).pwr with extraShare := lockstepNeed s p } })) ∧
    (∀ p : Fin 64, Event (.extraBubbleStart p) (fun s => (s.part p).pwr.pendingFor < 200) (fun s t => t = s)) ∧
    (∀ d : Fin 4, Event (.coreClockStep d) (fun s => scalesRun s = true ∧
        ∃ p ∈ partsOf s, d.val ∈ diesOf s p ∧ 100 ≤ tget (s.part p).pwr.coreHigh d) (fun s t =>
      t = { s with dies := t.dies, parts := t.parts } ∧ (∀ x : Fin 4, x ≠ d → t.die x = s.die x) ∧
      t.die d = { s.die d with coreMhz := Nat.max 1300 ((s.die d).coreMhz - 100) } ∧
      (∀ q : Nat, t.part q = { s.part q with pwr := { (s.part q).pwr with coreHigh := (t.part q).pwr.coreHigh } }) ∧
      ∀ q ∈ partsOf s, d.val ∈ diesOf s q → tget (t.part q).pwr.coreHigh d = 0)) ∧
    (∀ d : Fin 4, Event (.coreClockStep d) (fun s => scalesRun s = true ∧
        ∀ p ∈ partsOf s, d.val ∈ diesOf s p → tget (s.part p).pwr.coreHigh d < 100) (fun s t =>
      t = if 100 ≤ (s.die d).coreZero then
        s.modDie d (fun x => { x with coreMhz := Nat.min 2600 (x.coreMhz + 100), coreZero := 0 }) else s)) ∧
    (∀ d : Fin 4, Event (.droopDetect d) (fun s => scalesRun s = true) (fun s t =>
      t = { s with dies := t.dies } ∧ (∀ x : Fin 4, x ≠ d → t.die x = s.die x) ∧
      t.die d = { s.die d with droop := true })) ∧
    (∀ (d : Fin 4) (long : Bool), Event (.droopClear d long) (fun s => (s.die d).droop = true) (fun s t =>
      t = { s with dies := t.dies } ∧ (∀ x : Fin 4, x ≠ d → t.die x = s.die x) ∧
      t.die d = { s.die d with
        droop := false, droops := if long then satInc (s.die d).droops 65535 else (s.die d).droops
        droopShare := if long then (s.die d).droopShare + 16 else (s.die d).droopShare })) ∧
    Event .pwrAlertAssert (fun s => s.power.alert = false ∧ s.power.halted = false) (fun s t =>
      t.power = { s.power with alert := true, fall := true, alerts := satInc s.power.alerts 65535 } ∧
      t.out = .pin "MG_ALERT_N" false :: s.out ∧ t = { s with power := t.power, out := t.out, parts := t.parts }) ∧
    Event .pwrAlertRelease (fun s => s.power.alert = true) (fun s t =>
      t = { s with power := { s.power with alert := false, hold := Nat.max s.power.hold 10 } }) ∧
    ∀ (d : Fin 4) (c : Byte), Event (.dieTempRead d c) (fun s => scalesRun s = true) (fun s t =>
      t = { s with dies := t.dies } ∧ (∀ x : Fin 4, x ≠ d → t.die x = s.die x) ∧ (t.die d).tj = c.toNat ∧
      (95 ≤ c.toNat → (t.die d).thermal = Nat.min 240 ((c.toNat - 94) * 24)) ∧
      (c.toNat < 93 → (t.die d).thermal = 0) ∧ (c.toNat = 93 ∨ c.toNat = 94 → (t.die d).thermal = (s.die d).thermal))

/-- THERMTRIP, loss of VIN_IVR, the coolant stop, and PLL lock losses (R470, R471, R472, R492, R534). THERMTRIP of a
device not tripped halts the clocks, latches the trip, ends every job, drops THERMTRIP_N, and leaves every byte of
memory. VIN_IVR_REMOVAL halts the clocks and, after a trip, releases THERMTRIP_N. VIN_LOW_TIMEOUT of a running
device whose supply has been low for 100 µs makes it FATAL with PKG_VIN_LOW. A coolant sample counts an AO_CLK32K
cycle; a high one marks COOLANT_OK, and a stopped device is ready to restart at 32,768 in a row; the second low one
in a row stops a device whose clocks run: every stack is in self-refresh and MG_ALERT_N falls. A PLL lock loss in
RUN is counted on its die, whose lock bit falls. -/
def Obligations.TripsAndStopsOfTheDevice : Prop :=
  Event .thermtrip (fun s => s.power.tripped = false) (fun s t =>
      t.power = { s.power with tripped := true, tripLatched := true, halted := true } ∧ t.boot.due = none ∧
      (∀ p ∈ partsOf s, (t.part p).job.running = false) ∧ t.out = .pin "THERMTRIP_N" false :: s.out ∧ SameBytes s t ∧
      t = { s with power := t.power, boot := t.boot, parts := t.parts, out := t.out }) ∧
    Event .vinIvrRemoval (fun s => s.power.tripped = true ∨ s.power.state ≠ .off) (fun s t =>
      t = { s with
        power := { s.power with tripped := false, halted := true, vin := 0 }, boot := { s.boot with due := none }
        out := if s.power.tripped then .pin "THERMTRIP_N" true :: s.out else s.out }) ∧
    Event .vinLowTimeout (fun s => 100 ≤ s.power.vinLow ∧ s.power.halted = false ∧ s.power.tripped = false ∧
        s.boot.stage ≠ .fatal) (fun _ t =>
      t.boot.stage = .fatal ∧ t.boot.fatalDetail = Detail.pkgVinLow ∧
      .pin "MG_ALERT_N" false ∈ t.out) ∧
    Event (.coolantSample true) (fun _ => True) (fun s t =>
      t.aoCount = s.aoCount + 1 ∧ t = { s with aoCount := t.aoCount, shared := t.shared, power := t.power } ∧
      t.power = { s.power with
        coolantOk := true, coolantLow := 0, coolantHigh := Nat.min 32768 (s.power.coolantHigh + 1)
        restartReady := s.power.restartReady ||
          (s.power.coolantStop && decide (32768 ≤ s.power.coolantHigh + 1)) }) ∧
    Event (.coolantSample false) (fun s => s.power.coolantLow = 1 ∧ mayStop s = true) (fun s t =>
      t.aoCount = s.aoCount + 1 ∧ t.power.coolantStop = true ∧ t.power.coolantOk = false ∧
      t.power.stopSince = s.devTime ∧ (∀ j < 8, (tget t.hbm j).selfRefresh = true) ∧
      t.out = .pin "MG_ALERT_N" false :: s.out ∧
      t = { s with aoCount := t.aoCount, shared := t.shared, power := t.power, hbm := t.hbm, out := t.out }) ∧
    ∀ (d : Fin 4) (core : Bool), Event (.pllLockLoss d core) (fun s => s.power.state = .run ∧ s.power.halted = false)
      (fun s t => t = { s with dies := t.dies } ∧ (∀ x : Fin 4, x ≠ d → t.die x = s.die x) ∧
        (t.die d).lockLosses = satInc (s.die d).lockLosses 65535 ∧
        (if core then (t.die d).pllC = false ∧ (t.die d).pllM = (s.die d).pllM
          else (t.die d).pllM = false ∧ (t.die d).pllC = (s.die d).pllC))

/-- SYS_RST_N, loss of VDD_AO, the wakes, cold boot and the vote sweep (R313, R484, R493, R495, R498, R501, R506, R542).
SYS_RST_N and loss of VDD_AO leave the flash images and fuses, what has left the device and what waits, and put
every other part of the state at its reset value with a cold boot due, of cause 1 or 0. WAKE_N from IDLE leaves it
with wake cause 3 and changes nothing else; in the sample of AO_CLK32K in which a wake timer woke the device it
takes the timer's place as the cause; from OFF it makes a cold boot of cause 2 due. A wake timer that has run out is
released and wakes an idle device with cause 4; traffic on the management port wakes it with cause 2. A cold boot
that is due, with a majority of fuses, a strap for neither recovery nor BIST, an image that verifies, coolant, and
locked PLLs, leaves the device ready with every stack trained, no partition and no boot due; with an image that does
not verify it enters recovery; one that waits at step 6 goes on waiting while COOLANT_OK is low. A vote sweep that
uses every copy as it is changes nothing; rewritten copies of the fuses are counted and logged as CORRECTED, lost
ones make the device FATAL, and a pitch record's vote has its outcome for its partition. -/
def Obligations.ResetsWakesAndBoot : Prop :=
  Event .sysRstNAssert (fun _ => True) (fun s t => t = { State.reset with
      flash := { s.flash with fenceWrite := none }, fuses := s.fuses, perst := s.perst, out := s.out, fresh := s.fresh
      pending := s.pending, boot := { State.reset.boot with due := some 1 }
      power := { State.reset.power with tripLatched := s.power.tripLatched, tripped := s.power.tripped } }) ∧
    Event .aoPowerLoss (fun _ => True) (fun s t => t = { State.reset with
      flash := { s.flash with fenceWrite := none }, fuses := s.fuses, perst := s.perst, out := s.out, fresh := s.fresh
      pending := s.pending, boot := { State.reset.boot with due := some 0 } }) ∧
    (∀ e ∈ [(Instr.wakeN, 3), (.managementWake, 2)], Event e.1 (fun s => s.power.halted = false ∧
        s.power.tripped = false ∧ s.power.coolantStop = false ∧ s.power.state = .idle) (fun s t =>
      t = { s with power := { s.power with state := .run, wakeCause := e.2, wokeAt := s.aoCount, fromDeep := false } })) ∧
    Event .wakeN (fun s => s.power.state = .run ∧ s.power.wakeCause = 4 ∧ s.power.wokeAt = s.aoCount) (fun s t =>
      t = { s with power := { s.power with wakeCause := 3 } }) ∧
    Event .wakeN (fun s => s.power.halted = false ∧ s.power.tripped = false ∧ s.power.state = .off) (fun s t =>
      t = { s with boot := { s.boot with due := some 2 }, power := { s.power with state := .run, halted := true } }) ∧
    (∀ c : Fin 64, ∀ port : Bool, Event (.wakeTimerExpiry c) (fun s => tget? s.shared.wake c = some (port, 0) ∧
        s.power.halted = false ∧ s.power.tripped = false ∧ s.power.coolantStop = false ∧ s.power.state = .idle) (fun s t =>
      tget? t.shared.wake c = none ∧
      t = { s with shared := t.shared, power := { s.power with state := .run, wakeCause := 4, wokeAt := s.aoCount, fromDeep := false } })) ∧
    (∀ env : BootInputs, ∀ cause : Nat, Event (.coldBoot env) (fun s => s.boot.due = some cause ∧
        s.power.tripped = false ∧ s.power.halted = true ∧ env.fuseMajority = true ∧ env.flashResponds = true ∧
        (if cause ≤ 1 then env.strap else s.boot.strap).getLsbD 2 = false ∧
        (if cause ≤ 1 then env.strap else s.boot.strap).getLsbD 3 = false) (fun s t =>
      t.pending = s.pending ∧ match imageRefusal s.fuses (flashImage s) with
      | some _ => t.boot.stage = .recovery ∧ t.boot.due = none ∧ t.fuses = s.fuses
      | none => s.power.coolantLow = 0 ∧ env.pllsLock = true →
        t.boot.stage = .ready ∧ t.boot.reached = true ∧ t.boot.due = none ∧ t.boot.cause = cause ∧ partsOf t = [] ∧
        t.sec.aliasValid = true ∧ (∀ j < 8, (tget t.hbm j).trained = true) ∧ t.power.halted = false)) ∧
    (∀ env : BootInputs, ∀ cause : Nat, Event (.coldBoot env) (fun s => s.boot.due = some cause ∧
        s.power.tripped = false ∧ s.power.halted = false ∧ s.boot.stage = .firmware ∧ s.power.coolantLow ≠ 0) (fun s t =>
      t = { s with boot := { s.boot with due := some cause, coolWait := true } })) ∧
    (∀ v : CopyView, Event (.voteSweep v []) (fun s => s.boot.stage = .ready ∧ s.power.halted = false ∧
        s.power.coolantStop = false ∧ s.fuseOdd = [] ∧ ∀ p ∈ partsOf s, (s.part p).pitchOdd = []) (fun s t =>
      (voteCopies v = .used → t = s) ∧
      (∀ n, voteCopies v = .rewritten n → ∃ r : ChkRecord, r.cls = clsCorrected ∧ r.detail = Detail.chkFuseVote ∧
        t = chkLog { s with fuseRewrites := Nat.min 65535 (s.fuseRewrites + n) } r) ∧
      (voteCopies v = .lost → t = fatal s Detail.chkFuseVote))) ∧
    ∀ (v w : CopyView) (p : Fin 64), voteCopies v = .used → Event (.voteSweep v [(p, w)]) (fun s =>
        s.boot.stage = .ready ∧ s.power.halted = false ∧ s.power.coolantStop = false ∧ s.fuseOdd = [] ∧
        (s.part p).present = true ∧ (s.part p).pitchLost = false ∧ (s.part p).pitchOdd = []) (fun s t =>
      ∃ u, u = pitchOutcome (s.modPart p (fun q => { q with pitchOdd := [] })) p (voteCopies w) ∧
        t = (partsOf s).foldl usePitch u)

/-- JTAG instructions, counter samples and SYNC_IO edges (R94, R446, R517, R520, R522). BYPASS captures 0, IDCODE
1B64A0D3H, and each leaves all else. SAMPLE/PRELOAD and, while no partition exists, EXTEST capture what the chain
holds and change nothing else. DEBUG_READ with the hub running captures the 8 bytes at its address, of LSM in the
committed view. A stall scan of an unassigned stall zeroes its key slots and scratch registers and no memory; a hub
scan with no job erases the alias key. A counter sample of a partition with sampling off leaves all as it is; with
it on, once SAMPLE_US has passed since the last, it only writes trace records and takes the time. A SYNC_IO edge
with no owner changes nothing, and as a trigger only the trace. -/
def Obligations.JtagInstructionsAndTheTrace : Prop :=
  Event .bypass (fun _ => True) (fun s t => t = { s with jtag := { instruction := 0xFF, data := 0 } }) ∧
    Event .idcode (fun _ => True) (fun s t => t = { s with jtag := { instruction := 0x01, data := 0x1B64A0D3 } }) ∧
    Event .samplePreload (fun _ => True) (fun s t => t.jtag.instruction = 0x02 ∧
      t = { s with jtag := t.jtag, fresh := t.fresh }) ∧
    Event .extest (fun s => partsOf s = []) (fun s t => t.jtag.instruction = 0x00 ∧
      t = { s with jtag := t.jtag, fresh := t.fresh }) ∧
    Event .extest (fun s => partsOf s ≠ []) (fun s t => t = { s with jtag := { instruction := 0x00, data := 0 } }) ∧
    (∀ a : BitVec 44, a.toNat < lsmTop → Event (.debugRead a) (fun s => hubRuns s = true) (fun s t =>
      t = { s with jtag := { instruction := 0x10, data := BitVec.ofNat 64 (leNat (readCommitted s a.toNat 8)) } })) ∧
    (∀ (a : BitVec 44) (i o : Nat), regionOf a.toNat = .spad i o → Event (.debugRead a) (fun s => hubRuns s = true) (fun s t =>
      t = { s with jtag := { instruction := 0x10
                             data := BitVec.ofNat 64 (leNat ((List.range 8).map (fun j => spadRead s i (o + j)))) } })) ∧
    (∀ i : Fin 64, Event (.stallScan i) (fun s => ownerOfStall s i = none) (fun s t =>
      (t.stall i).feederMxe.slots = [] ∧ (t.stall i).feederMvu.slots = [] ∧ (t.stall i).feederMxe.epochKeys = [] ∧
      (∀ j : Fin 64, j ≠ i → t.stall j = s.stall j) ∧ t = { s with stalls := t.stalls, jtag := t.jtag, fresh := t.fresh })) ∧
    Event .hubScan (fun s => hubRuns s = true ∧ ∀ p ∈ partsOf s, (s.part p).job.running = false) (fun s t =>
      t.sec.aliasValid = false ∧ t.sec.aliasKey = 0 ∧ t.jtag.instruction = 0x30 ∧ SameBytes s t ∧
      ∀ p ∈ partsOf s, (t.part p).sec.evidence = none) ∧
    (∀ p : Fin 64, Event (.counterSample p) (fun s => (s.part p).present = true ∧ (s.part p).tally.sampleUs ≠ 0 ∧
        (s.part p).tally.sampledAt + 3300 * (s.part p).tally.sampleUs ≤ s.devTime) (fun s t =>
      t = ({ s with shared := t.shared }).modPart p (fun q => { q with tally := { q.tally with sampledAt := s.devTime } }))) ∧
    Event .syncIoEdge (fun s => s.shared.syncIo = 2) (fun s t => t = { s with shared := t.shared }) ∧
    Event .syncIoEdge (fun s => s.shared.syncIo = 0) (fun s t => t = s)

/-- Reads, writes, refresh, recalibration, retraining and temperatures of the stacks (R271, R273, R274, R275, R278,
R280, R281, R282, R283, R285, R287, R288). A burst of the access that its channel serves comes back. A good one
ends: device traffic completes with its cacheline, a partition's line holds the burst, and what waited for it goes
on. The first four whose check fails are reissued, counted in the channel and logged as CORRECTED; the fifth, and
any of a FAILED channel, is a persistent failure, which enters the failure log: device traffic completes with
BAD_ADDRESS and LSM_STORED, a partition's line holds zeros marked as poison, and where its own agent read it begins
a refill of a reloadable burst and else ends the job. Writes likewise. A channel with nothing else queued issues an
access at once, and none while its stack is stopped. A refresh counts at its bank, a recalibration in RUN at its
channel. Sixteen reissues within a millisecond retrain a channel, which is FAILED for good if that does not succeed.
A refill wait of 100 ms ends its job with TIMEOUT. A temperature report throttles its stack from 85 °C until 83 °C,
and stops its activations from 95 °C until below 92 °C. -/
def Obligations.BurstsOfStackedMemory : Prop :=
  (∀ (b : BitVec 32) (r : BurstReader) (flips : List (Fin 64 × Fin 18)), r ≠ .firmware →
      Event (.lsmReadReturn b r flips) (fun s => ∀ x, servingBurst s b.toNat false = some x → x.reader ≠ r)
        (fun s t => t = s)) ∧
    (∀ (b : BitVec 32) (x : MemAccess), Event (.lsmReadReturn b x.reader []) (fun s =>
        servingBurst s b.toNat false = some x ∧ x.requester = deviceTraffic ∧ (s.chan (burstChan b.toNat)).failed = false)
      (fun s t => t = burstEnds ((setAttempts s b.toNat false 0).emit (.memData x.address
        (((mreads s.mem (burstAddr b.toNat) 128).drop (x.address % 128)).take 64) false)) b.toNat x)) ∧
    (∀ (b : BitVec 32) (x : MemAccess), Event (.lsmReadReturn b x.reader []) (fun s =>
        servingBurst s b.toNat false = some x ∧ x.requester ≠ deviceTraffic ∧ (s.chan (burstChan b.toNat)).failed = false)
      (fun s t => ∃ u, t = memoryCame (burstEnds u b.toNat x) x ∧
        u = { s with chans := u.chans, parts := u.parts } ∧ (∀ q : Nat, q ≠ x.requester → u.part q = s.part q) ∧
        (∀ a, a ≠ x.line → u.line x.requester a = s.line x.requester a) ∧
        u.line x.requester x.line = { s.line x.requester x.line with
          asked := clearBit (s.line x.requester x.line).asked (b.toNat % 8)
          here := setBit (s.line x.requester x.line).here (b.toNat % 8)
          bad := clearBit (s.line x.requester x.line).bad (b.toNat % 8)
          met := clearBit (s.line x.requester x.line).met (b.toNat % 8)
          wrong := (s.line x.requester x.line).wrong.filter (fun c => c.1 / 128 ≠ b.toNat % 8) })) ∧
    (∀ (b : BitVec 32) (x : MemAccess) (flips : List (Fin 64 × Fin 18)),
      ∀ e ∈ [(Instr.lsmReadReturn b x.reader flips, false), (.baseDieWriteError b, true)],
      Event e.1 (fun s => (s.chan (burstChan b.toNat)).failed = false ∧
          (e.2 = false → servingBurst s b.toNat false = some x ∧
            (received (s.chan (burstChan b.toNat)).seed b.toNat (mreads s.mem (burstAddr b.toNat) 128) flips).2 = false) ∧
          (e.2 = true → writing s b.toNat = true) ∧
          attemptsOf (s.chan (burstChan b.toNat)) b.toNat e.2 < 4) (fun s t =>
        attemptsOf (t.chan (burstChan b.toNat)) b.toNat e.2 = attemptsOf (s.chan (burstChan b.toNat)) b.toNat e.2 + 1 ∧
        (t.chan (burstChan b.toNat)).retries = satInc (s.chan (burstChan b.toNat)).retries (2 ^ 32 - 1) ∧
        s.devTime ∈ (t.chan (burstChan b.toNat)).recent ∧ t.failLog = s.failLog ∧ SameBytes { s with shared := t.shared } t)) ∧
    (∀ (b : BitVec 32) (x : MemAccess) (flips : List (Fin 64 × Fin 18)), Event (.lsmReadReturn b x.reader flips) (fun s =>
        servingBurst s b.toNat false = some x ∧ ((s.chan (burstChan b.toNat)).failed = true ∨
          ((received (s.chan (burstChan b.toNat)).seed b.toNat (mreads s.mem (burstAddr b.toNat) 128) flips).2 = false ∧
            4 ≤ attemptsOf (s.chan (burstChan b.toNat)) b.toNat false))) (fun s t =>
      ∃ u, u.failCount = s.failCount + 1 ∧
        (u.failLog.head?.map (fun r => (r.burst, r.write))) = some (b.toNat, false) ∧
        (u.chan (burstChan b.toNat)).persistent = satInc (s.chan (burstChan b.toNat)).persistent 65535 ∧
        attemptsOf (u.chan (burstChan b.toNat)) b.toNat false = 0 ∧ u.parts = s.parts ∧ u.mem = s.mem ∧
        (x.requester = deviceTraffic →
          t = burstEnds (u.emit (.memDone x.address Status.badAddress Detail.lsmStored)) b.toNat x) ∧
        (x.requester ≠ deviceTraffic → ∃ w, w = burstEnds (landBurst u b.toNat x (List.replicate 128 0) true) b.toNat x ∧
          bit (w.line x.requester x.line).bad (b.toNat % 8) = true ∧
          t = memoryCame (if ownReader x.reader then ownFailure w x.requester b.toNat else w) x))) ∧
    (∀ (s : State) (p b : Nat), (reloadPage s p (burstAddr b) = none ∨ replayable s p = false →
        ownFailure s p b = contained s p Status.partitionFault Detail.lsmStored none) ∧
      ∀ va, reloadPage s p (burstAddr b) = some va → replayable s p = true → b ∉ (s.part p).refill.failed →
        (s.part p).refill.waitsFor = none → unitRefills s p < 4 →
        ownFailure s p b = (unitError s p Detail.lsmRefill none).modPart p (fun q => { q with refill := { q.refill with
          failed := b :: q.refill.failed, waitsFor := some (BitVec.ofNat 48 va) } })) ∧
    (∀ b : BitVec 32, Event (.lsmWriteComplete b) (fun s => writing s b.toNat = true ∧
        (s.chan (burstChan b.toNat)).failed = false) (fun s t => t = setAttempts (writeEnds s b.toNat) b.toNat true 0)) ∧
    (∀ b : BitVec 32, ∀ e ∈ [(Instr.lsmWriteComplete b, 0), (.baseDieWriteError b, 4)],
      Event e.1 (fun s => writing s b.toNat = true ∧ ((s.chan (burstChan b.toNat)).failed = true ∨
          (e.2 = 4 ∧ 4 ≤ attemptsOf (s.chan (burstChan b.toNat)) b.toNat true))) (fun s t =>
        t = persistentWrite (writeEnds s b.toNat) b.toNat)) ∧
    (∀ (s : State) (x : MemAccess), x.requester ≤ deviceTraffic →
      (s.chan (channelOf x.line)).serving = none → (s.chan (channelOf x.line)).queue = [] →
      ((tget s.hbm (stackOfChan (channelOf x.line))).stopped = false →
        ((queueAccess s x).chan (channelOf x.line)).serving = some x ∧
        ((queueAccess s x).chan (channelOf x.line)).queue = []) ∧
      ((tget s.hbm (stackOfChan (channelOf x.line))).stopped = true →
        ((queueAccess s x).chan (channelOf x.line)).serving = none ∧
        ((queueAccess s x).chan (channelOf x.line)).queue = [x])) ∧
    (∀ (c : Fin 512) (k : Fin 32), Event (.refresh c k) (fun _ => True) (fun s t =>
      t = { s with chans := t.chans } ∧ (∀ x : Fin 512, x ≠ c → t.chan x = s.chan x) ∧
      tget (t.chan c).refreshes k = tget (s.chan c).refreshes k + 1)) ∧
    (∀ c : Fin 512, Event (.channelRecalibrate c) (fun s => s.power.state = .run) (fun s t =>
      t = { s with chans := t.chans } ∧ (∀ x : Fin 512, x ≠ c → t.chan x = s.chan x) ∧
      t.chan c = { s.chan c with recalibrations := (s.chan c).recalibrations + 1 })) ∧
    (∀ (c : Fin 512) (ok : Bool), Event (.channelRetrain c ok) (fun s =>
        16 ≤ ((s.chan c).recent.filter (fun x => decide (s.devTime < x + msTicks))).length) (fun s t =>
      t = { s with chans := t.chans } ∧ (∀ x : Fin 512, x ≠ c → t.chan x = s.chan x) ∧
      t.chan c = { s.chan c with
        retrains := satInc (s.chan c).retrains 255, failed := (s.chan c).failed || !ok, recent := [] })) ∧
    (∀ p : Fin 64, Event (.refillTimeout p) (fun s => (s.part p).refill.pending = true) (fun s t =>
      t = if (s.part p).refill.timer + 330000000 ≤ (s.part p).timers then
        endJob s p Status.timeout Detail.lsmRefillTimeout none else s)) ∧
    ∀ (k : Fin 8) (c : Byte), Event (.stackTempReport k c) (fun _ => True) (fun s t =>
      t = { s with hbm := t.hbm, chans := t.chans } ∧
      ((tget s.hbm k).stopped = false ∨ (tget t.hbm k).stopped = true → t.chans = s.chans) ∧
      (∀ j : Fin 8, j ≠ k → tget t.hbm j = tget s.hbm j) ∧ (tget t.hbm k).temp = c.toNat ∧
      (85 ≤ c.toNat → (tget t.hbm k).throttle = true) ∧ (c.toNat ≤ 83 → (tget t.hbm k).throttle = false) ∧
      (c.toNat = 84 → (tget t.hbm k).throttle = (tget s.hbm k).throttle) ∧
      (95 ≤ c.toNat → (tget t.hbm k).stopped = true) ∧ (c.toNat < 92 → (tget t.hbm k).stopped = false) ∧
      (92 ≤ c.toNat ∧ c.toNat < 95 → (tget t.hbm k).stopped = (tget s.hbm k).stopped))

/-- Every lane of some stack entries has exited. -/
abbrev AllExited (exited : W32) (st : List (Bool × Nat × W32)) : Prop := ∀ e ∈ st, e.2.2 &&& ~~~ exited = 0

/-- Control instructions move their group, its lanes and its stack (R177, R180, R181, R182). A word that an undamaged
line of the group's instruction cache holds is fetched with no effect. Where a control word is fetched, NOP goes on;
BRA goes to its target; BRU goes on where U is zero and else to its target; JSET pushes and goes on, and with a full
stack ends the kernel; BRD goes on where no lane branches, to its target where all do, and else pushes the branching
lanes and goes on with the others; BRK and EXIT drop their lanes and go on with the rest, or, with none left, at the
first entry from the top of the stack whose lanes have not all exited; JOIN goes on there too, and an empty stack is
an illegal instruction. Where no entry has such a lane, the group ends and the kernel's next group, if one is left,
starts in its slot. Every other group, and all of the state but the groups, is unchanged except where a group or a
kernel ends. -/
def Obligations.InstructionsSteerTheirGroup : Prop :=
  (∀ (s : State) (g : GroupRef) (w : W64), icLook s g (s.group g).pc = some w →
      (s.group g).pc / 1024 ∉ (tget (s.stall g.stall).cores g.core).icacheOdd → fetchWord s g w = (s, true)) ∧
    GroupInstruction .ctlNop (.control 0) (fun _ _ => True) (fun x _ => nextPc x) ∧
    GroupInstruction .bra (.control 1) (fun _ _ => True) (fun x w => { x with pc := pcBy x.pc (wOff w) }) ∧
    GroupInstruction .bru (.control 2) (fun x w => uGet x (wA w) = 0) (fun x _ => { x with pc := pcBy x.pc 1 }) ∧
    GroupInstruction .bru (.control 2) (fun x w => uGet x (wA w) ≠ 0) (fun x w => { x with pc := pcBy x.pc (wOff w) }) ∧
    GroupInstruction .jset (.control 3) (fun x _ => x.stack.length < 32) (fun x w =>
      nextPc { x with stack := (false, pcBy x.pc (wOff w), x.active) :: x.stack }) ∧
    Instruction .jset (.control 3) (fun x _ => 32 ≤ x.stack.length) (fun s g _ t =>
      t = kernelFault s (s.group g).part Status.partitionFault Detail.tgcStackOverflow) ∧
    GroupInstruction .brd (.control 4) (fun x w => x.active &&& guardMask x w = 0) (fun x _ => nextPc x) ∧
    GroupInstruction .brd (.control 4) (fun x w => x.active &&& guardMask x w ≠ 0 ∧ x.active &&& ~~~ guardMask x w = 0)
      (fun x w => { x with pc := pcBy x.pc (wOff w) }) ∧
    GroupInstruction .brd (.control 4) (fun x w => x.active &&& guardMask x w ≠ 0 ∧
        x.active &&& ~~~ guardMask x w ≠ 0 ∧ x.stack.length < 32) (fun x w =>
      nextPc { x with
        active := x.active &&& ~~~ guardMask x w
        stack := (true, pcBy x.pc (wOff w), x.active &&& guardMask x w) :: x.stack }) ∧
    GroupInstruction .brk (.control 5) (fun x w => x.active &&& ~~~ guardMask x w ≠ 0) (fun x w =>
      nextPc { x with active := x.active &&& ~~~ guardMask x w }) ∧
    GroupInstruction .exit (.control 7) (fun x w => x.active &&& ~~~ guardMask x w ≠ 0) (fun x w =>
      nextPc { x with
        active := x.active &&& ~~~ guardMask x w, exited := x.exited ||| (x.active &&& guardMask x w) }) ∧
    (∀ (gone : List (Bool × Nat × W32)) (path : Bool) (pc : Nat) (m : W32) (r : List (Bool × Nat × W32)),
      GroupInstruction .brk (.control 5) (fun x w => x.active &&& ~~~ guardMask x w = 0 ∧
          x.stack = gone ++ (path, pc, m) :: r ∧ AllExited x.exited gone ∧ m &&& ~~~ x.exited ≠ 0) (fun x _ =>
        { x with pc := if path then pc else pcBy pc 1, active := m &&& ~~~ x.exited, stack := r, asked := [], replies := [] }) ∧
      GroupInstruction .join (.control 6) (fun x _ => x.stack = gone ++ (path, pc, m) :: r ∧ AllExited x.exited gone ∧
          m &&& ~~~ x.exited ≠ 0) (fun x _ =>
        { x with pc := if path then pc else pcBy pc 1, active := m &&& ~~~ x.exited, stack := r, asked := [], replies := [] }) ∧
      GroupInstruction .exit (.control 7) (fun x w => x.active &&& ~~~ guardMask x w = 0 ∧
          x.stack = gone ++ (path, pc, m) :: r ∧ AllExited (x.exited ||| actsOn x w) gone ∧
          m &&& ~~~ (x.exited ||| actsOn x w) ≠ 0) (fun x w =>
        { x with
          pc := if path then pc else pcBy pc 1, active := m &&& ~~~ (x.exited ||| actsOn x w), stack := r
          exited := x.exited ||| actsOn x w, asked := [], replies := [] })) ∧
    Instruction .join (.control 6) (fun x _ => x.stack = []) (fun s g _ t =>
      t = kernelFault s (s.group g).part Status.partitionFault Detail.tgcIllegal) ∧
    ∀ e ∈ [((Instr.exit : GroupRef → W64 → Instr), OpClass.control 7, fun (x : Group) (w : W64) =>
          x.active &&& ~~~ guardMask x w = 0 ∧ AllExited (x.exited ||| actsOn x w) x.stack),
        (.brk, .control 5, fun x w => x.active &&& ~~~ guardMask x w = 0 ∧ AllExited x.exited x.stack),
        (.join, .control 6, fun x _ => x.stack ≠ [] ∧ AllExited x.exited x.stack)],
    Instruction e.1 e.2.1 e.2.2 (fun s g _ t =>
      (t.part (s.group g).part).kernel.groupsDone = (s.part (s.group g).part).kernel.groupsDone + 1 ∧
      (∀ h : GroupRef, h ≠ g → t.group h = s.group h) ∧
      ((s.part (s.group g).part).kernel.groups ≤ (s.part (s.group g).part).kernel.nextGroup → (t.group g).live = false) ∧
      ((s.part (s.group g).part).kernel.nextGroup < (s.part (s.group g).part).kernel.groups →
        (t.group g).live = true ∧ (t.group g).index = (s.part (s.group g).part).kernel.nextGroup ∧
        (t.group g).pc = (s.part (s.group g).part).kernel.code ∧ (t.group g).stack = [] ∧ (t.group g).v = [] ∧
        (t.group g).gstat = if (s.part (s.group g).part).kernel.nonrepl then BitVec.ofNat 64 (2 ^ gstatNonrepl) else 0))

/-- `y` is `x` gone on with D written in the lanes that the word acts on, and nothing else. -/
def LanesWritten (x : Group) (w : W64) (value : Nat → W32) (y : Group) : Prop :=
  y = nextPc { x with v := y.v, odd := x.odd.filter (fun k => (lanesOf x w).all (fun l => k ≠ 32 * wD w + l)) } ∧
  ∀ r < 64, ∀ l < 32, vGet y r l = if r = wD w ∧ l ∈ lanesOf x w then value l else vGet x r l

/-- Vector, conversion, compare, uniform, SREG, CLRF and GMMA instructions write their registers and nothing else (R44,
R48, R49, R55, R175, R197, R198, R199). Where such a word is fetched, the instruction goes on and only its group
changes. A vector integer, vector floating-point or conversion instruction writes D in the lanes it acts on; a
floating-point result is the exact one rounded once to binary32, with the one canonical NaN, and a conversion's is
the target format's code; which OP is which, and integer results, are free (the OPs are not given, log entry 50). A
compare replaces the bits of its lanes in its predicate. A uniform instruction writes its uniform register, or D by
a lane move. SREG copies GSTAT and CLRF clears MMA_DIV. A GMMA writes element (i, j) of D, of the lanes it acts on,
with the chain addition to C of the exact sum of the eight products of row i and column j, and sets MMA_DIV where a
lane is absent. -/
def Obligations.InstructionsComputeInTheirGroup : Prop :=
  (∀ e ∈ [((Instr.vectorInteger : GroupRef → W64 → Instr), OpClass.vectorInt,
          fun (x : Group) (w : W64) (l : Nat) => Config.vectorResult w (laneOperands x w l)),
        (.vectorFloat, .vectorFloat, fun x w l => BitVec.ofNat 32 (floatResult w (laneOperands x w l))),
        (.conversion, .convert, fun x w l => convertResult w x l)],
      Instruction e.1 e.2.1 (fun _ _ => True) (fun s g w t => GroupOnly s t g ∧
        LanesWritten (s.group g) w (e.2.2 (s.group g) w) (t.group g))) ∧
    (∀ (w : W64) (xs : List W64), of32 (floatResult w xs) ≠ .nan ∨ floatResult w xs = 0x7FC00000) ∧
    (∀ (w : W64) (a b c : W64) (r : List W64), floatResult w (a :: b :: c :: r) = match Config.floatOp w with
      | .add => to32 (flAdd (of32 a.toNat) (of32 b.toNat))
      | .sub => to32 (flAdd (of32 a.toNat) (flNeg (of32 b.toNat)))
      | .mul => to32 (flMul (of32 a.toNat) (of32 b.toNat))
      | .fma => to32 (flAdd (flMul (of32 a.toNat) (of32 b.toNat)) (of32 c.toNat))
      | .other => to32 (Config.exactResult w (a :: b :: c :: r))) ∧
    Instruction .compare .compare (fun _ _ => True) (fun s g w t => GroupOnly s t g ∧
      t.group g = nextPc { s.group g with preds := (t.group g).preds } ∧
      (∀ r < 8, r ≠ wD w % 8 → pGet (t.group g) r = pGet (s.group g) r) ∧
      ∀ l < 32, (pGet (t.group g) (wD w)).getLsbD l = if l ∈ lanesOf (s.group g) w then
        Config.compareResult w (laneOperands (s.group g) w l)
        else (pGet (s.group g) (wD w)).getLsbD l) ∧
    Instruction .uniformInteger .uniform (fun _ _ => True) (fun s g w t => GroupOnly s t g ∧
      if Config.laneMove w then LanesWritten (s.group g) w
        (Config.laneResult w (vFile (s.group g)) (uFile (s.group g)) (pFile (s.group g))) (t.group g)
      else t.group g = nextPc { s.group g with
        u := tset (s.group g).u (wD w % 32) (Config.uniformResult w (vFile (s.group g)) (uFile (s.group g)) (pFile (s.group g)))
        odd := (s.group g).odd.filter (fun k => k ≠ 2048 + wD w % 32) }) ∧
    GroupInstruction .sreg .sreg (fun _ _ => True) (fun x w => nextPc { x with
      u := tset x.u (wD w % 32) x.gstat, odd := x.odd.filter (fun k => k ≠ 2048 + wD w % 32) }) ∧
    Instruction .clrf .clrf (fun _ _ => True) (fun s g _ t => GroupOnly s t g ∧
      t.group g = nextPc { s.group g with gstat := (t.group g).gstat } ∧ (t.group g).gstat.getLsbD gstatDiv = false ∧
      ∀ b < 64, b ≠ gstatDiv → (t.group g).gstat.getLsbD b = (s.group g).gstat.getLsbD b) ∧
    Instruction .gmma .gmma (fun _ _ => True) (fun s g w t => GroupOnly s t g ∧
      t.group g = nextPc { s.group g with v := (t.group g).v, gstat := (t.group g).gstat, odd := (t.group g).odd } ∧
      (∀ k ∈ (t.group g).odd, k ∈ (s.group g).odd) ∧
      (∀ i < 8, ∀ j < 8, vGet (t.group g) (wD w + j / 4) (4 * i + j % 4) =
        if 4 * i + j % 4 ∈ lanesOf (s.group g) w then
          BitVec.ofNat 32 (gmmaOut (s.group g) w (actsOn (s.group g) w).toNat i j)
        else vGet (s.group g) (wD w + j / 4) (4 * i + j % 4)) ∧
      (∀ r < 64, r ≠ wD w → r ≠ wD w + 1 → ∀ l < 32, vGet (t.group g) r l = vGet (s.group g) r l) ∧
      (actsOn (s.group g) w ≠ ~~~ (0 : W32) → (t.group g).gstat.getLsbD gstatDiv = true) ∧
      (∀ b < 64, b ≠ gstatDiv → (t.group g).gstat.getLsbD b = (s.group g).gstat.getLsbD b) ∧
      (actsOn (s.group g) w = ~~~ (0 : W32) → (t.group g).gstat = (s.group g).gstat))

/-- A lane's load that asks for nothing: of a scratchpad, or of a line of own memory that the core's L1 holds undamaged. -/
def LoadsAtOnce (s : State) (g : GroupRef) (y : LaneAccess) : Prop :=
  y.trans.sys / 2 ^ 44 = ownNumber s ∧
  match regionOf (y.trans.sys % 2 ^ 44) with
  | .spad _ _ => True
  | .lsm => (homeOf s (s.group g).part (accessLine s y)).isSome = true ∧
      (s.l1Line (l1OfGroup g) (accessLine s y)).state ≠ .i ∧ (s.l1Line (l1OfGroup g) (accessLine s y)).bad = false
  | _ => False

/-- `t` is `s` with a load's lanes written from the bytes that they read, the group gone on and every scratchpad as it was. -/
def LoadsWritten (s : State) (g : GroupRef) (w : W64) (as : List LaneAccess) (t : State) : Prop :=
  t.group g = nextPc { s.group g with v := (t.group g).v, odd := (t.group g).odd } ∧ t.spad = s.spad ∧
  (∀ k ∈ (t.group g).odd, k ∈ (s.group g).odd) ∧ (∀ h : GroupRef, h ≠ g → t.group h = s.group h) ∧
  (∀ r < 64, ∀ l < 32, l ∉ lanesOf (s.group g) w → vGet (t.group g) r l = vGet (s.group g) r l) ∧
  ∀ y ∈ as, ∀ u bs, readSys s (s.group g).part y.trans.sys y.bytes = (u, .data bs) →
    ∀ k < (bs.length + 3) / 4, vGet (t.group g) (wD w + k) y.lane = loadValue w bs k

/-- LD, ST, PREF and DISCARD (R183, R184, R185, R186, R187, R188, R189, R194, R206, R231). An LD whose lanes read
scratchpads without parity errors and lines of own memory that the L1 holds undamaged writes each lane's D registers
from those bytes, keeps the rest of its group, goes on, and changes no memory, no scratchpad and no line; so does
one whose other lines are ready and whose reads have been answered. An ST to scratchpads goes on and writes nothing
but scratchpads; while no flip is set (R153), each byte it covers is the last lane's that covers it and every other
byte is as before. An ST to one line that the L1 owns in M and that is STAGED lays its lanes' bytes over the L1's
line and changes nothing else but the dead-read note and the group; to a CLEAN one owned in E that can be staged it
also stages the line. A companion ST leaves as one store that waits for its site. An LD or ST whose first lane is
misaligned ends the kernel with TGC_MISALIGNED. PREF of lines the L1 holds only goes on; of one absent line it also
asks the home for S. DISCARD of one free line that neither is asked for nor held by the host goes on with the line
dropped at its home; one that no L1 holds is then absent, or hidden where it was DIRTY and can be staged. -/
def Obligations.MemoryInstructionsReachTheirLines : Prop :=
  (∀ (g : GroupRef) (w : W64) (s s' : State) (as : List LaneAccess), Fetched s g w (.memory 0) s' → s'.spadOdd = [] →
      laneAccesses s' (s'.group g).part (2 ^ wSize w) (2 ^ wSize w) Detail.tgcMisaligned false false (memoryVas (s'.group g) w) = .ok as →
      (∀ y ∈ as, LoadsAtOnce s' g y) →
      ∃ t, exec (.ld g w) s = .next t ∧ LoadsWritten s' g w as t ∧ t.mem = s'.mem ∧ (∀ p a, t.line p a = s'.line p a) ∧
        ∀ l a, t.l1Line l a = s'.l1Line l a) ∧
    (∀ (g : GroupRef) (w : W64) (s s' : State) (as : List LaneAccess), Fetched s g w (.memory 0) s' → s'.spadOdd = [] →
      laneAccesses s' (s'.group g).part (2 ^ wSize w) (2 ^ wSize w) Detail.tgcMisaligned false false (memoryVas (s'.group g) w) = .ok as →
      prepLines s' (s'.group g).part (l1OfGroup g) false (accessLines s' as) = (s', .ready) →
      (∀ y ∈ as, ∃ u bs, readSys s' (s'.group g).part y.trans.sys y.bytes = (u, .data bs)) →
      ∃ t, exec (.ld g w) s = .next t ∧ LoadsWritten s' g w as t) ∧
    (∀ (g : GroupRef) (w : W64) (s s' : State) (as : List LaneAccess), Fetched s g w (.memory 1) s' →
      releaseWaits s' g (bits w.toNat 38 36) (bits w.toNat 40 39) = false →
      laneAccesses s' (s'.group g).part (2 ^ wSize w) (2 ^ wSize w) Detail.tgcMisaligned true false (memoryVas (s'.group g) w) = .ok as →
      (∀ y ∈ as, y.trans.sys / 2 ^ 44 = ownNumber s' ∧ ∃ i o, regionOf (y.trans.sys % 2 ^ 44) = .spad i o) →
      ∃ t, exec (.st g w) s = .next t ∧ t.group g = nextPc (s'.group g) ∧ t.mem = s'.mem ∧
        t = { s' with groups := t.groups, spad := t.spad } ∧
        (Memory.wf s'.spad = true → (∀ q, (s'.part q).job.flip = 0) → ∀ i < 64, ∀ o < spadBytes, spadRead t i o = match (as.filter (fun y => match regionOf (y.trans.sys % 2 ^ 44) with
            | .spad k p => decide (k = i ∧ p ≤ o ∧ o < p + y.bytes)
            | _ => false)).getLast? with
          | none => spadRead s' i o
          | some y => match regionOf (y.trans.sys % 2 ^ 44) with
            | .spad _ p => (storeBytes (s'.group g) w y.lane).getD (o - p) 0
            | _ => 0)) ∧
    (∀ (g : GroupRef) (w : W64) (s s' : State) (as : List LaneAccess) (a : Nat), Fetched s g w (.memory 1) s' →
      releaseWaits s' g (bits w.toNat 38 36) (bits w.toNat 40 39) = false →
      laneAccesses s' (s'.group g).part (2 ^ wSize w) (2 ^ wSize w) Detail.tgcMisaligned true false (memoryVas (s'.group g) w) = .ok as →
      as.findSome? (storeBad s' (s'.group g).part) = none → as ≠ [] → (∀ y ∈ as, accessLine s' y = a) → isLsmLine a = true →
      (s'.l1Line (l1OfGroup g) a).bad = false →
      ((s'.l1Line (l1OfGroup g) a).state = .m → (s'.line (s'.group g).part a).state = .staged →
        ∃ t, exec (.st g w) s = .next t ∧ t.group g = nextPc (s'.group g) ∧
          t.l1Line (l1OfGroup g) a = { s'.l1Line (l1OfGroup g) a with
            data := olay (s'.l1Line (l1OfGroup g) a).data (lineStores s' (s'.group g) w as a) } ∧
          SameBytes s' t ∧ (∀ l b, (l, b) ≠ (l1OfGroup g, a) → t.l1Line l b = s'.l1Line l b) ∧
          ∀ p b, t.line p b = s'.line p b) ∧
      ((s'.l1Line (l1OfGroup g) a).state = .e → (s'.l1Line (l1OfGroup g) a).data = [] →
        (s'.line (s'.group g).part a).state = .clean → (s'.line (s'.group g).part a).streamed = false →
        stageCheck s' (s'.group g).part a = .staged →
        ∃ t, exec (.st g w) s = .next t ∧ t.group g = nextPc (s'.group g) ∧
          t.l1Line (l1OfGroup g) a = { s'.l1Line (l1OfGroup g) a with
            state := .m, data := olay [] (lineStores s' (s'.group g) w as a) } ∧
          (t.line (s'.group g).part a).state = .staged ∧ SameBytes s' t)) ∧
    (∀ (g : GroupRef) (w : W64) (s s' : State) (y : LaneAccess) (i : Fin 2) (o : Nat), Fetched s g w (.memory 1) s' →
      releaseWaits s' g (bits w.toNat 38 36) (bits w.toNat 40 39) = false →
      laneAccesses s' (s'.group g).part (2 ^ wSize w) (2 ^ wSize w) Detail.tgcMisaligned true false (memoryVas (s'.group g) w) = .ok [y] →
      y.trans.sys / 2 ^ 44 = ownNumber s' → regionOf (y.trans.sys % 2 ^ 44) = .companion i o → (s'.site i).state = 1 →
      ∃ t, exec (.st g w) s = .next t ∧ t.group g = nextPc (s'.group g) ∧ SameBytes s' t ∧
        (t.site i).pending = (s'.site i).pending ++ [((s'.group g).part, o / 1024 * 1024, true)] ∧
        (t.part (s'.group g).part).stores = (s'.part (s'.group g).part).stores ++
          [{ group := groupKey g.stall g.core g.slot, index := (s'.group g).index, target := i.val, address := o / 1024 * 1024 }] ∧
        ∃ cells, t.out = .companionStore i (compBase + i.val * compBytes + o / 1024 * 1024) cells :: s'.out ∧
          ∀ k < y.bytes, oget cells (o % 1024 + k) = (storeBytes (s'.group g) w y.lane)[k]?) ∧
    (∀ e ∈ [((Instr.ld : GroupRef → W64 → Instr), 0), (.st, 1)], ∀ (g : GroupRef) (w : W64) (s s' : State) (l : Nat) (r : List Nat),
      Fetched s g w (.memory e.2) s' →
      (e.2 = 1 → releaseWaits s' g (bits w.toNat 38 36) (bits w.toNat 40 39) = false) →
      lanesOf (s'.group g) w = l :: r → laneVa (s'.group g) w (wSigned w 63 43) l % 2 ^ wSize w ≠ 0 →
      exec (e.1 g w) s = .next (kernelFault s' (s'.group g).part Status.partitionFault Detail.tgcMisaligned)) ∧
    (∀ (g : GroupRef) (w : W64) (s s' : State) (as : List LaneAccess), Fetched s g w (.memory 2) s' →
      lineAccesses s' g w = .ok as → (∀ a ∈ accessLines s' as, (s'.l1Line (l1OfGroup g) a).state ≠ .i) →
      ∃ t, exec (.pref g w) s = .next t ∧ GroupOnly s' t g ∧ t.group g = nextPc (s'.group g)) ∧
    (∀ (g : GroupRef) (w : W64) (s s' : State) (as : List LaneAccess) (a : Nat), Fetched s g w (.memory 2) s' →
      lineAccesses s' g w = .ok as → accessLines s' as = [a] → (s'.l1Line (l1OfGroup g) a).state = .i →
      exec (.pref g w) s = .next (stepGroup (arrive s' (s'.group g).part a (.rdS (l1OfGroup g))) g id)) ∧
    (∀ (g : GroupRef) (w : W64) (s s' : State) (as : List LaneAccess) (a : Nat), Fetched s g w (.memory 3) s' →
      lineAccesses s' g w = .ok as → accessLines s' as = [a] → (homeOf s' (s'.group g).part a).isSome = true →
      lineQuiet s' (s'.group g).part a = true → (s'.line (s'.group g).part a).host = false → a ∉ (s'.group g).asked →
      exec (.discard g w) s = .next (stepGroup (discardNow s' (s'.group g).part (l1OfGroup g) a) g id)) ∧
    ∀ (g : GroupRef) (w : W64) (s s' : State) (as : List LaneAccess) (a : Nat), Fetched s g w (.memory 3) s' →
      lineAccesses s' g w = .ok as → accessLines s' as = [a] → Resident s' (s'.group g).part a →
      lineQuiet s' (s'.group g).part a = true → HeldByNone s' (s'.group g).part a → a ∉ (s'.group g).asked →
      ∃ t, exec (.discard g w) s = .next t ∧ t.group g = nextPc (s'.group g) ∧ SameBytes s' t ∧
        (t.line (s'.group g).part a).state = match (s'.line (s'.group g).part a).state with
          | .dirty => if canStage s' (s'.group g).part a then .discardStaged else .dirty
          | .discardStaged => .discardStaged
          | _ => .absent

/-- The eight atomics: what they compute, and how a group takes the old values (R190, R191, R192, R193, R302, R307). On
integer types ADD, AND, OR, XOR and EXCH compute modulo the width, MIN and MAX compare as the type's sign says, and
CAS stores only where the old value equals the compare value. F32 MIN and MAX give the canonical NaN where either
operand is one and order -0 below +0. Each of the eight atomics whose lanes all name one address of a line of the
partition's grants in the sets, free at its home, held by no L1 and not by the host, not logged before, with staging
and the ledger able to take it, goes on: each lane's old value stands in D, the turns of the lanes chained in
ascending order from the staged value; the result is staged in the line and logged. One whose lanes touch one such
line and that its home performs, the line held by L1s too, goes on with the old values that its home gave. -/
def Obligations.AtomicsActAtTheHome : Prop :=
  (∀ a b c : BitVec 32, ∀ t ∈ [AtomType.u32, .s32], atomApply .add t a.toNat b.toNat c.toNat = (a + b).toNat ∧
      atomApply .and t a.toNat b.toNat c.toNat = (a &&& b).toNat ∧ atomApply .or t a.toNat b.toNat c.toNat = (a ||| b).toNat ∧
      atomApply .xor t a.toNat b.toNat c.toNat = (a ^^^ b).toNat ∧ atomApply .exch t a.toNat b.toNat c.toNat = b.toNat ∧
      atomApply .cas t a.toNat b.toNat c.toNat = (if a = c then b else a).toNat ∧
      atomApply .min t a.toNat b.toNat c.toNat = (if (if t = .s32 then b.slt a else b.ult a) then b else a).toNat ∧
      atomApply .max t a.toNat b.toNat c.toNat = (if (if t = .s32 then a.slt b else a.ult b) then b else a).toNat) ∧
    (∀ a b c : BitVec 64, ∀ t ∈ [AtomType.u64, .s64], atomApply .add t a.toNat b.toNat c.toNat = (a + b).toNat ∧
      atomApply .and t a.toNat b.toNat c.toNat = (a &&& b).toNat ∧ atomApply .or t a.toNat b.toNat c.toNat = (a ||| b).toNat ∧
      atomApply .xor t a.toNat b.toNat c.toNat = (a ^^^ b).toNat ∧ atomApply .exch t a.toNat b.toNat c.toNat = b.toNat ∧
      atomApply .cas t a.toNat b.toNat c.toNat = (if a = c then b else a).toNat ∧
      atomApply .min t a.toNat b.toNat c.toNat = (if (if t = .s64 then b.slt a else b.ult a) then b else a).toNat ∧
      atomApply .max t a.toNat b.toNat c.toNat = (if (if t = .s64 then a.slt b else a.ult b) then b else a).toNat) ∧
    (∀ (op : AtomOp) (a b c : BitVec 32), (op = .min ∨ op = .max) → (of32 a.toNat = .nan ∨ of32 b.toNat = .nan) →
      atomApply op .f32 a.toNat b.toNat c.toNat = 0x7FC00000) ∧
    (∀ c : Nat, atomApply .min .f32 0 0x80000000 c = 0x80000000 ∧ atomApply .min .f32 0x80000000 0 c = 0x80000000 ∧
      atomApply .max .f32 0 0x80000000 c = 0 ∧ atomApply .max .f32 0x80000000 0 c = 0) ∧
    ∀ e ∈ [((Instr.atomicAdd : GroupRef → W64 → Instr), 0, AtomOp.add), (.atomicMin, 1, .min), (.atomicMax, 2, .max),
        (.atomicAnd, 3, .and), (.atomicOr, 4, .or), (.atomicXor, 5, .xor), (.atomicExch, 6, .exch), (.atomicCas, 7, .cas)],
      ∀ (g : GroupRef) (w : W64) (s s' : State) (as : List LaneAccess) (a n : Nat),
        Fetched s g w (.atomic e.2.1) s' → n = atomBits (atomTypeOf (wType w)) / 8 →
        releaseWaits s' g (bits w.toNat 43 41) (bits w.toNat 45 44) = false →
        laneAccesses s' (s'.group g).part n n Detail.tgcMisaligned true true
          ((lanesOf (s'.group g) w).map (fun l => (l, laneVa (s'.group g) w (wSigned w 63 47) l))) = .ok as →
        as.findSome? (storeBad s' (s'.group g).part) = none → as ≠ [] → (∀ y ∈ as, accessLine s' y = a) → isLsmLine a = true →
        lineQuiet s' (s'.group g).part a = true → (s'.line (s'.group g).part a).host = false →
        a ∉ (s'.group g).asked → (s'.group g).replies = [] →
        (∀ (o : Nat) (before : Nat) (r : AtomRequest), r = atomRequestOf s' g w e.2.2 as a 0 →
          (∀ y ∈ as, y.trans.sys % 1024 = o) → before = stagedValue s' (s'.group g).part a o n →
          Resident s' (s'.group g).part a → HeldByNone s' (s'.group g).part a →
          ((s'.line (s'.group g).part a).state = .discardStaged → stillOut s' (s'.group g).part a wholeLine true = 0) →
          inHeldImage s' (linePhys a) = false → canStage s' (s'.group g).part a = true →
          ledgerMatch s' r (linePhys a + o) = none → (s'.stall r.home).ledger.length < 4096 →
          ∃ t, exec (e.1 g w) s = .next t ∧ (t.group g).pc = pcBy (s'.group g).pc 1 ∧ (t.group g).replies = [] ∧
            (t.group g).asked = [] ∧ (t.group g).ordinal = (s'.group g).ordinal + 1 ∧
            (∀ h : GroupRef, h ≠ g → t.group h = s'.group h) ∧
            (bit w.toNat 46 = true → (t.group g).v = (s'.group g).v) ∧
            (bit w.toNat 46 = false → ∀ c ∈ (atomRun r r.lanes before).1,
              vGet (t.group g) (wD w) c.1 = BitVec.ofNat 32 c.2 ∧
              (n = 8 → vGet (t.group g) (wD w + 1) c.1 = BitVec.ofNat 32 (c.2 / 2 ^ 32))) ∧
            (∃ x, (t.stall r.home).ledger = x :: (s'.stall r.home).ledger ∧ x.address = linePhys a + o ∧
              x.seq = r.seq.toNat ∧ x.before = before ∧ x.after = (atomRun r r.lanes before).2) ∧
            (t.line (s'.group g).part a).state = .staged ∧
            ∀ k < n, oget (t.line (s'.group g).part a).data (o + k) =
              some ((natLe n (atomRun r r.lanes before).2).getD k 0)) ∧
        ∀ (v : State) (vs : List (Nat × Nat)), Homed s' (s'.group g).part a →
          (readsMemory s' (s'.group g).part a false = true → stillOut s' (s'.group g).part a wholeLine true = 0) →
          (v.group g).replies = [] → (v.group g).live = true →
          performAtom (dropL1s (access s' (s'.group g).part a (.core (l1OfGroup g)) clsCoreData .fetch) (s'.group g).part a true
            (fun _ => false)) (s'.group g).part a (atomRequestOf s' g w e.2.2 as a 0) = (v, some vs) →
          ∃ t, exec (e.1 g w) s = .next t ∧ (t.group g).pc = pcBy (v.group g).pc 1 ∧ (t.group g).replies = [] ∧
            (t.group g).ordinal = (v.group g).ordinal + 1 ∧
            t = { spendRead v (s'.group g).part a with groups := t.groups } ∧
            (∀ h : GroupRef, h ≠ g → t.group h = v.group h) ∧
            (bit w.toNat 46 = true → (t.group g).v = (v.group g).v) ∧
            (bit w.toNat 46 = false → ∀ y ∈ as, vGet (t.group g) (wD w) y.lane =
              BitVec.ofNat 32 (leNat ((List.range 8).map (fun i => (oget (atomCells vs) (8 * y.lane + i)).getD 0))))

/-- FENCE, BAR, illegal words, the watchdog, launch commit, replay and the end of a refill wait (R176, R177, R182, R195,
R196, R204, R205, R208, R282, R297, R298, R311). A FENCE that nothing holds up goes on. A BAR below its count makes
its group wait; the last one empties the barrier and every waiting group goes on; another count than that of the
waiting groups ends the kernel with TGC_BARRIER. A kernel fault (an illegal word, a watchdog that expires while
groups are left) leaves the partition with no kernel running, no group, and its COMPUTE queue halted. LAUNCH_COMMIT
of a kernel over with an error, fewer than three replays, whole ledger entries and no refill to wait for discards
what is staged and restarts the kernel, whose groups of the first round then stand in their places; a fourth
attempt, or a kernel that has become non-replayable, ends the job; with no error, no partner and no link it makes
the commit final, and ends the kernel once the host has every line; while a partner's token or the host is awaited
nothing changes. REFILL_DONE ends the wait and restarts a kernel. -/
def Obligations.KernelsSynchronizeFaultAndCommit : Prop :=
  Instruction .fence .fence (fun _ _ => True) (fun s g w t =>
      releaseWaits s g (bits w.toNat 38 36) (bits w.toNat 40 39) = false →
      GroupOnly s t g ∧ t.group g = nextPc (s.group g)) ∧
    (∀ (g : GroupRef) (w : W64) (s s' : State) (b n : Nat) (old : Nat × List Nat), Fetched s g w .bar s' →
      releaseWaits s' g 1 3 = false → b = bits w.toNat 23 20 →
      n = bits w.toNat 29 24 + 1 → old = tget (tget (s'.stall g.stall).cores g.core).barriers b →
      (old.2 = [] ∨ old.1 = n) → (∀ k ∈ old.2, k < 64) →
      (old.2.length + 1 < n → ∃ t, exec (.bar g w) s = .next t ∧ t = { s' with groups := t.groups, stalls := t.stalls } ∧
        tget (tget (t.stall g.stall).cores g.core).barriers b = (n, old.2 ++ [g.slot.val]) ∧
        t.group g = { s'.group g with waiting := true } ∧ ∀ h : GroupRef, h ≠ g → t.group h = s'.group h) ∧
      (old.2.length + 1 = n → ∃ t, exec (.bar g w) s = .next t ∧ t = { s' with groups := t.groups, stalls := t.stalls } ∧
        tget (tget (t.stall g.stall).cores g.core).barriers b = (0, []) ∧
        ∀ h : GroupRef, (s'.group h).live = true → t.group h =
          if h.stall = g.stall ∧ h.core = g.core ∧ h.slot.val ∈ old.2 ++ [g.slot.val] then
            nextPc { s'.group h with waiting := false } else s'.group h)) ∧
    (∀ (g : GroupRef) (w : W64) (s s' : State) (old : Nat × List Nat), Fetched s g w .bar s' →
      releaseWaits s' g 1 3 = false →
      old = tget (tget (s'.stall g.stall).cores g.core).barriers (bits w.toNat 23 20) →
      old.2 ≠ [] → old.1 ≠ bits w.toNat 29 24 + 1 ∨ bits w.toNat 29 24 + 1 < old.2.length + 1 →
      exec (.bar g w) s = .next (kernelFault s' (s'.group g).part Status.partitionFault Detail.tgcBarrier)) ∧
    (∀ (g : GroupRef) (w : W64) (s s' : State), mayIssue s g = true → wordLegal w = false → fetchWord s g w = (s', true) →
      mayIssue s' g = true →
      ∃ t, exec (.illegalInstruction g w) s = .next t ∧ (t.part (s'.group g).part).kernel.running = false ∧
        groupsOf t (s'.group g).part = [] ∧ (t.queue (s'.group g).part 1).halted = true) ∧
    (∀ p : Fin 64, Event (.watchdogExpiry p) (fun s => (s.part p).kernel.running = true ∧ (s.part p).kernel.limit ≠ 0 ∧
        (s.part p).kernel.timer + 3300 * (s.part p).kernel.limit ≤ (s.part p).timers ∧ groupsOf s p ≠ []) (fun _ t =>
      (t.part p).kernel.running = false ∧ groupsOf t p = [] ∧ (t.queue p 1).halted = true)) ∧
    (∀ p : Fin 64, Event (.launchCommit p) (fun s => kernelOver s p = true ∧ (s.part p).job.running = true ∧
        (s.part p).halted = false ∧ (s.part p).refill.pending = false ∧ (s.part p).state ≠ .resetting ∧ clocksRun s = true ∧
        (s.part p).kernel.stage = 0 ∧ (s.part p).kernel.error ≠ none ∧ (s.part p).kernel.nonrepl = false ∧
        badEntry s p = none ∧ (s.part p).refill.waitsFor = none ∧ (s.part p).kernel.replays < 3) (fun s t =>
      let u := runDiscards (serveAll (discardLines s p) p) p
      t = if (u.part p).job.running then restartKernel (u.modPart p (fun q =>
        { q with kernel := { q.kernel with replays := q.kernel.replays + 1 } })) p else u)) ∧
    (∀ p : Fin 64, Event (.launchCommit p) (fun s => kernelOver s p = true ∧ (s.part p).job.running = true ∧
        (s.part p).halted = false ∧ (s.part p).refill.pending = false ∧ (s.part p).state ≠ .resetting ∧ clocksRun s = true ∧
        (s.part p).kernel.stage = 0 ∧ (s.part p).kernel.error ≠ none ∧ ((s.part p).kernel.nonrepl = true ∨
          ((s.part p).refill.waitsFor = none ∧ 3 ≤ (s.part p).kernel.replays))) (fun _ t =>
      (t.part p).job.running = false ∧ (t.part p).kernel.running = false ∧ (t.part p).job.faulted = true)) ∧
    (∀ (s : State) (p : Fin 64), (s.part p).kernel.slots ≤ 64 →
      ((restartKernel s p).part p).kernel.error = none ∧ ((restartKernel s p).part p).kernel.groupsDone = 0 ∧
      ((restartKernel s p).part p).kernel.stage = 0 ∧ SameBytes s (restartKernel s p) ∧
      ∀ g : Nat, g < Nat.min (s.part p).kernel.groups ((s.part p).kernel.slots * (kernelCores (s.part p).kernel).length) →
        ∀ c, (kernelCores (s.part p).kernel)[g % (kernelCores (s.part p).kernel).length]? = some c →
          tget (restartKernel s p).groups (groupKey c.1 c.2 (g / (kernelCores (s.part p).kernel).length)) =
            startGroup p (s.part p).kernel g c.1 c.2) ∧
    (∀ (p : Fin 64) (s u f : State), kernelOver s p = true → (s.part p).job.running = true →
      (s.part p).halted = false → (s.part p).refill.pending = false → (s.part p).state ≠ .resetting → clocksRun s = true →
      (s.part p).kernel.stage = 0 → (s.part p).kernel.error = none → isLinked (sendStaged s p) p = false →
      ((sendStaged s p).part p).zlk.partners = [] →
      u = (sendStaged s p).modPart p (fun q => { q with
        chk := { q.chk with pending := false }, kernel := { q.kernel with stage := 1 } }) →
      f = finalKernel u p → (f.part p).kernel.stage = 2 →
      exec (.launchCommit p) s = .next (if f.hostCommit.any (fun h => h.1 = p) then f else kernelPoint (endKernel f p) p)) ∧
    (∀ p : Fin 64, Event (.launchCommit p) (fun s =>
        ((s.part p).kernel.stage = 1 ∧ ∃ u ∈ (s.part p).zlk.partners, ∀ c ∈ (s.part p).zlk.commits,
          (c.1, c.2.1, c.2.2.1) ≠ u) ∨
        ((s.part p).kernel.stage = 2 ∧ ∃ h ∈ s.hostCommit, h.1 = p.val)) (fun s t => t = s)) ∧
    ∀ p : Fin 64, Event (.refillDone p) (fun s => (s.part p).refill.pending = true ∧ (s.part p).kernel.running = true)
      (fun s t => (t.part p).refill.pending = false ∧ (t.part p).kernel.error = none ∧ (t.part p).kernel.running = true ∧
        (t.part p).kernel.replays = (s.part p).kernel.replays ∧ SameBytes s t)

/-- Weight lines, tags and verdicts arrive; domains take, withhold and wait out ticks; bells go on (R79, R81, R83, R118,
R135, R137, R157, R158, R228, R298, R300, R341). In a running epoch the next line of the first block that lacks one
joins it, the 64th of an intact clear stream makes it ready 24 ticks later, one poisoned at a companion site marks
the unit ERROR, and after 64 lines the tag joins. A block whose tag matches is verified and ready 24 ticks later;
another is counted and marks the unit ERROR. A verdict that passes is taken and changes nothing else; one that fails
is counted and marks the unit ERROR. A running domain whose epoch is in its bell counts a tick and schedules
nothing; one with a cause to withhold counts the cycle as withheld and takes no tick; else it takes its tick. BELL
with a replay due and the third replay spent ends the job; a bell that waits for a vote, a token, an APPLIED, the
host or a page leaves all as it is; with every vote in and a REPLAY among them it replays, with none the commit
becomes final, and so does that of an unlinked epoch without an error, whose bell then waits for the host where it
must; a STAGED line becomes DIRTY by a commit and absent by a discard, a hidden one absent or DIRTY. STAGE_BELL of a
partition all of whose domains have stopped restarts the epoch in wide staging. -/
def Obligations.UnitsTakeTicksAndBells : Prop :=
  (∀ (i : Fin 64) (m poisoned x bad last : Bool) (s u v : State) (p : Nat) (b : Block) (bs : List Byte), epochPartOf s i = some p →
      blockDue (feederOf s i m) = some b →
      b.lines < 64 → bad = (b.poisoned || x || (poisoned && fromSite u p (b.va + 1024 * b.lines))) →
      blockRead s p i b m (b.va + 1024 * b.lines) 1024 = (u, .data bs, x) → last = decide (b.lines = 63 ∧ b.slot = 0xF) →
      v = setBlock u i m b { b with
        lines := b.lines + 1, cipher := b.cipher ++ bs, poisoned := bad, verified := last && !bad, failed := last && bad
        wait := if last then 24 else b.wait } →
      exec (.feederLineArrival i m poisoned) s = .next (if last && bad && fromSite v p b.va then
        unitError v p Detail.pkgCompanionPoison (some i.val) else v)) ∧
    (∀ (i : Fin 64) (m poisoned : Bool) (s : State) (p : Nat) (b : Block), epochPartOf s i = some p →
      blockDue (feederOf s i m) = some b → b.lines < 63 → b.source = 2 → s.spadOdd = [] → poisoned = false →
      exec (.feederLineArrival i m poisoned) s = .next (setBlock s i m b { b with
        lines := b.lines + 1, verified := false, failed := false
        cipher := b.cipher ++ (List.range 1024).map (fun o => spadRead s i (b.va + 1024 * b.lines + o)) })) ∧
    (∀ (i : Fin 64) (m poisoned x : Bool) (s u : State) (p : Nat) (b : Block) (bs : List Byte), epochPartOf s i = some p →
      blockDue (feederOf s i m) = some b → 64 ≤ b.lines → blockRead s p i b m b.tagVa 16 = (u, .data bs, x) →
      exec (.feederLineArrival i m poisoned) s = .next (setBlock u i m b { b with
        tag := bs, tagHere := true
        poisoned := b.poisoned || (x || (poisoned && fromSite u p (b.va + 1024 * b.lines))) })) ∧
    (∀ (i : Fin 64) (m : Bool) (s : State) (p : Nat) (fmt : Option Nat) (b : Block), epochPartOf s i = some p →
      tagDue (feederOf s i m) = some b → (tget? (feederOf s i m).epochKeys b.slot).isSome = true →
      fmt = formatAt m b.scales (injections m (unitOps s p i m)) (blockPos (feederOf s i m) b) →
      (b.poisoned = false ∧ tagRight (feederOf s i m) b fmt = true →
        exec (.tagCheck i m) s = .next (setBlock s i m b { b with verified := true, wait := 24 })) ∧
      (b.poisoned = true ∨ tagRight (feederOf s i m) b fmt = false →
        exec (.tagCheck i m) s = .next (unitError (modFeeder (setBlock s i m b { b with failed := true }) i m
          (fun f => { f with tagFails := satInc f.tagFails 65535 })) p Detail.weightTag (some i.val)))) ∧
    (∀ (i : Fin 64) (error : Option EngineError), ∀ e ∈ [(Instr.checksumVerdict i error, false, Detail.arrayChecksum),
        (.residueVerdict i error, true, Detail.mvuResidue)], ∀ (s : State) (pass : Bool) (k : Nat) (r : List (Bool × Nat)),
      (munitOf s i e.2.1).verdicts = (pass, k) :: r →
      (pass = true → error = none → exec e.1 s = .next (modMunit s i e.2.1 (fun x => { x with verdicts := r }))) ∧
      (pass = false → error = none → ∀ p, ownerOfStall s i = some p → exec e.1 s = .next (unitError (modMunit s i e.2.1 (fun x =>
        { x with verdicts := r, fails := satInc x.fails 255 })) p e.2.2 (some i.val))) ∧
      (error = some .outputResidue → ∀ p, ownerOfStall s i = some p → exec e.1 s = .next (unitError (modMunit s i e.2.1 (fun x =>
        { x with verdicts := r, fails := if e.2.1 then satInc x.fails 255 else x.fails })) p
          (if e.2.1 then Detail.mvuOutputResidue else Detail.outputResidue) (some i.val))) ∧
      (error = some .carryParity → ∀ p, ownerOfStall s i = some p → exec e.1 s = .next (countFence (unitError (modMunit s i e.2.1
        (fun x => { x with verdicts := r })) p (if e.2.1 then Detail.mvuCarryParity else Detail.carryParity) (some i.val)) i))) ∧
    (∀ (p : Fin 64) (d : Fin 4) (s u : State), u = moveStage (pumpPorts (feederCycle s p d) p d) p d → domainRuns s p d = true →
      domainRuns u p d = true → (u.part p).epoch.inBell = true → holdCause u p d = none →
      ∃ t, exec (.domainTick p d) s = .next t ∧
        t = { u with domains := t.domains, parts := t.parts, stalls := t.stalls, links := t.links } ∧
        (t.dom p d).ticks = ((u.dom p d).ticks + 1) % 2 ^ 64 ∧ (t.dom p d).epochTick = (u.dom p d).epochTick ∧
        (t.dom p d).withheld = (u.dom p d).withheld ∧ (t.dom p d).cycles = (u.dom p d).cycles + 1) ∧
    (∀ (p : Fin 64) (d : Fin 4) (s u : State) (c : Nat) (m : Bool), u = moveStage (pumpPorts (feederCycle s p d) p d) p d →
      domainRuns s p d = true → domainRuns u p d = true → holdCause u p d = some (c, m) →
      ∃ t, exec (.domainTick p d) s = .next t ∧ t = { u with domains := t.domains, parts := t.parts, stalls := t.stalls } ∧
        (t.dom p d).ticks = (u.dom p d).ticks ∧ (t.dom p d).epochTick = (u.dom p d).epochTick ∧
        (t.dom p d).withheld = ((u.dom p d).withheld + 1) % 2 ^ 64 ∧ (t.dom p d).held = true) ∧
    (∀ (p : Fin 64) (d : Fin 4) (s u v : State), u = moveStage (pumpPorts (feederCycle s p d) p d) p d → domainRuns s p d = true →
      domainRuns u p d = true → (u.part p).epoch.inBell = false → holdCause u p d = none →
      v = (stretchCycle (readSpills u p d true) p d).modDom p d (fun x =>
        { x with extra := if extraRate u p ≠ 0 then x.extra + 1 else 0 }) → (v.dom p d).epochTick < runningLen v p →
      exec (.domainTick p d) s = .next (closeLost (takeTick v p d) p d)) ∧
    (∀ p : Fin 64, Event (.bell p) (fun s => bellRuns s p = true ∧ (s.part p).epoch.stage = 0 ∧ bellReady s p = true ∧
        linkLoss s p = none ∧ errorFlooded s p = true ∧
        (s.part p).refill.waitsFor = none ∧ 3 ≤ (s.part p).epoch.attempt ∧
        epochLinked (learnPhase s p (bellAt (imageOf s p) (s.part p).epoch.entry).phase) p = false) (fun _ t =>
      (t.part p).job.running = false ∧ (t.part p).epoch.running = false ∧ (t.part p).job.faulted = true)) ∧
    (∀ p : Fin 64, Event (.bell p) (fun s => bellRuns s p = true ∧
        (((s.part p).epoch.stage = 0 ∧ bellReady s p = false) ∨
          ((s.part p).epoch.stage = 1 ∧ linkLoss s p = none ∧ voteMissing s p = true ∧ epochLinked s p = true) ∨
          ((s.part p).epoch.stage = 1 ∧ linkLoss s p = none ∧ epochLinked s p = false ∧ (s.part p).epoch.error = none ∧
            ∃ u ∈ (s.part p).zlk.partners, ∀ c ∈ (s.part p).zlk.commits, (c.1, c.2.1, c.2.2.1) ≠ u) ∨
          ((s.part p).epoch.stage = 2 ∧ voteMissing s p = true) ∨
          ((s.part p).epoch.stage = 3 ∧ ∃ h ∈ s.hostCommit, h.1 = p.val) ∨
          ((s.part p).epoch.stage = 4 ∧ resident s p (runningDesc s p) = false))) (fun s t => t = s)) ∧
    (∀ p : Fin 64, Event (.bell p) (fun s => bellRuns s p = true ∧ (s.part p).epoch.stage = 1 ∧ linkLoss s p = none ∧
        epochLinked s p = true ∧ voteMissing s p = false) (fun s t =>
      t = if ∃ v ∈ (s.part p).zlk.votes, v.2.2 = false then replayBell s p else makeFinal s p true)) ∧
    (∀ (p : Fin 64) (s w v f : State), bellRuns s p = true → (s.part p).epoch.stage = 0 → bellReady s p = true →
      linkLoss s p = none → errorFlooded s p = false → (s.part p).epoch.error = none →
      w = sendStaged (learnPhase s p (bellAt (imageOf s p) (s.part p).epoch.entry).phase) p → epochLinked w p = false →
      isLinked w p = false → (w.part p).zlk.partners = [] → (w.part p).epoch.error = none →
      v = setStage (w.modPart p (fun q => { q with chk := { q.chk with pending := false } })) p 1 →
      f = finalCommit (countBell v p) p →
      exec (.bell p) s = .next (makeFinal v p false) ∧
      ((∃ h ∈ f.hostCommit, h.1 = p.val) → makeFinal v p false = setStage f p 3)) ∧
    (∀ (s : State) (p a : Nat), isLsmLine a = true → (s.line p a).filter = [] →
      ((s.line p a).state = .staged → ((commitLine s p a).line p a).state = .dirty ∧
        ((commitLine s p a).line p a).data = (s.line p a).data ∧ (commitLine s p a).mem = s.mem ∧
        ((discardLine s p a).line p a).state = .absent ∧ ((discardLine s p a).line p a).data = [] ∧
        (discardLine s p a).mem = s.mem) ∧
      ((s.line p a).state = .discardStaged → ((commitLine s p a).line p a).state = .absent ∧
        (commitLine s p a).mem = s.mem ∧ ((discardLine s p a).line p a).state = .dirty ∧
        ((discardLine s p a).line p a).data = (s.line p a).data ∧ (discardLine s p a).mem = s.mem)) ∧
    ∀ (p : Fin 64) (s u v : State), bellRuns s p = true → stageRequested s p = true →
      (∀ d ∈ domainsOf s p, (s.dom p d).stopped = true) → badEntry s p = none →
      u = runDiscards (serveAll (countBell (discardLines s p) p) p) p →
      v = u.modPart p (fun q => { q with
        chk := { q.chk with stageBells := satInc q.chk.stageBells 255 }
        refill := { q.refill with waitsFor := none }
        epoch := { q.epoch with wide := true, running := false, inBell := false, stage := 0 }
        ses := { q.ses with excused := true } }) →
      exec (.stageBell p) s = .next (if (u.part p).job.running then
        tryStart (switchBank (recoveryEvent (takeBellTicks ((domainsOf v p).foldl (fun s d =>
          closeStretch (closeLost s p d) p d) v) p) p 0xD 0 256) p false) p else u)

/-- A port too far from, or of another group than, its far end is FAILED; any other that completes training is UP
(R323). For a port in training with no frame unacknowledged, and fewer than 256 events waiting at any function (R385
drops a further one): a HELLO with another GROUP_ID once 16 good frames have locked framing, and after a HELLO an
ECHO that shows a one-way delay above 130 ns (round trip less turnaround above 260 ns), each answer a state in which
the port is FAILED and an event of status LINK_DOWN and detail ZLK_REACH is posted. Otherwise the HELLO is noted and
answered, and at the ECHO the port is UP. -/
def Obligations.PortsAreUpOrFail : Prop :=
  ∀ (j : Fin 12) (s : State), (s.port j).state = .training → (s.port j).unacked = [] →
    (∀ fn, ((s.fn fn).waiting.filter (fun e => e.event)).length < 256) →
    (∀ (device : BitVec 12) (group : W16) (port : Fin 12), (s.port j).locked = 16 → group ≠ s.links.groupId →
      ∃ t, exec (.hello j device group port) s = .next t ∧ (t.port j).state = .failed ∧
        ∃ fn source, EventPosted t fn source Status.linkDown Detail.zlkReach) ∧
    (∀ (device : BitVec 12) (port : Fin 12), (s.port j).locked = 16 → ∃ t, exec (.hello j device s.links.groupId port) s = .next t ∧
      (t.port j).state = .training ∧ (t.port j).helloSeen = true ∧ (t.port j).farDevice = device.toNat ∧
      (t.port j).farPort = port.val ∧ ∀ k : Fin 12, k ≠ j → t.port k = s.port k) ∧
    (∀ (n turnaround : W16) (trip : Nat), (s.port j).helloSeen = true → 260 + turnaround.toNat < trip →
      ∃ t, exec (.echo j n turnaround trip) s = .next t ∧ (t.port j).state = .failed ∧
        ∃ fn source, EventPosted t fn source Status.linkDown Detail.zlkReach) ∧
    (∀ (n turnaround : W16) (trip : Nat), (s.port j).helloSeen = true → trip ≤ 260 + turnaround.toNat →
      ∃ t, exec (.echo j n turnaround trip) s = .next t ∧ (t.port j).state = .up ∧
        2 * (t.port j).delay ≤ trip - turnaround.toNat ∧ trip - turnaround.toNat ≤ 2 * (t.port j).delay + 1 ∧
        ∀ k : Fin 12, k ≠ j → t.port k = s.port k)

/-- Frames leave and arrive, are acknowledged or lost; credits; numbering; ports that time out (R9, R29, R322, R325,
R327, R331, R335, R343). A port in training whose 500 ms are up, and an UP port without a good frame for 1 µs, fail
with the detail of their cause. FRAME_SEND of a port that runs emits one frame with the port's SEQ and a CRC over
its bytes, counts SEQ on, and touches no other port. A good frame with the expected SEQ and no stream flit counts on
the expected SEQ, and the sixteenth is acknowledged; a frame that the line code cannot correct, of a wrong CRC, or
of another SEQ is counted as lost and answered by LOST. An ACK releases every frame up to its SEQ. A frame reported
LOST, or the oldest after 10 µs, is released and UNIT_ERROR goes toward each unit it carried. CREDIT moves the
credited count on to the one whose low 32 bits arrived. ENUM gives a device in no walk the number offered, sent back
at once where it has no other port UP; a device owed that offer, or in a walk by another port, sends it back. -/
def Obligations.PortsCarryFrames : Prop :=
  (∀ j : Fin 12, Event (.trainTimeout j) (fun s => (s.port j).state = .training ∧
        (s.port j).since + trainTicks ≤ s.devTime) (fun s t =>
      t = portFails s j (if (s.port j).retraining then Status.linkDown else Status.timeout)
        (if (s.port j).retraining then Detail.zlkPortDown else Detail.zlkTrainTimeout))) ∧
    (∀ j : Fin 12, Event (.portSilenceTimeout j) (fun s => (s.port j).state = .up ∧
        (s.port j).lastGood + 3300 ≤ s.devTime) (fun s t =>
      t = portFails s j Status.linkDown Detail.zlkPortDown)) ∧
    (∀ (j : Fin 12) (s : State) (st d : Nat), (s.port j).unacked = [] → ((portFails s j st d).port j).state = .failed) ∧
    (∀ j : Fin 12, Event (.frameSend j) (fun s => portRuns s j = true) (fun s t =>
      t = { s with links := t.links, out := t.out } ∧ (∀ k : Fin 12, k ≠ j → t.port k = s.port k) ∧
      (t.port j).txSeq = ((s.port j).txSeq + 1) % 2 ^ 32 ∧
      ∃ f : Frame, t.out = .frame j f :: s.out ∧ f.seq = BitVec.ofNat 32 (s.port j).txSeq ∧ f.kinds.length = 25 ∧
        f.slots.length = 25 ∧ f.uncorrectable = false ∧
        f.crc = BitVec.ofNat 32 (crc32c (frameBytes (s.port j).txSeq f.kinds f.marks f.ctrl0 f.ctrl1 f.slots)) ∧
        ((s.port j).state = .training → ∀ k ∈ f.kinds, k = 0) ∧
        ((s.port j).state = .up → (t.port j).unacked.length = (s.port j).unacked.length + 1))) ∧
    (∀ (j : Fin 12) (f : Frame), Event (.frame j f) (fun s => (s.port j).state = .up ∧ f.uncorrectable = false ∧
        f.crc.toNat = crc32c (frameBytes f.seq.toNat f.kinds f.marks f.ctrl0 f.ctrl1 f.slots) ∧
        f.seq.toNat = (s.port j).rxSeq ∧ frameFlits f = []) (fun s t =>
      t = { s with links := t.links } ∧ (∀ k : Fin 12, k ≠ j → t.port k = s.port k) ∧
      t.port j = { s.port j with
        lastGood := s.devTime, fecCorr := Nat.min ((s.port j).fecCorr + f.corrected) (2 ^ 32 - 1), rxSeq := (f.seq.toNat + 1) % 2 ^ 32
        sinceAck := if (s.port j).sinceAck = 15 then 0 else (s.port j).sinceAck + 1
        sendSymbols := if (s.port j).sinceAck = 15 then (s.port j).sendSymbols ++ [ackSymbol f.seq.toNat]
          else (s.port j).sendSymbols })) ∧
    (∀ (j : Fin 12) (f : Frame) (n : Nat), Event (.frame j f) (fun s => (s.port j).state = .up ∧
        (((f.uncorrectable = true ∨
            f.crc.toNat ≠ crc32c (frameBytes f.seq.toNat f.kinds f.marks f.ctrl0 f.ctrl1 f.slots)) ∧ n = (s.port j).rxSeq) ∨
          (f.uncorrectable = false ∧ f.crc.toNat = crc32c (frameBytes f.seq.toNat f.kinds f.marks f.ctrl0 f.ctrl1 f.slots) ∧
            f.seq.toNat ≠ (s.port j).rxSeq ∧ n = f.seq.toNat)) ∧
        ((s.port j).recentLost.filter (fun t => decide (s.devTime < t + 3300000))).length < 15) (fun s t =>
      t = { s with links := t.links, fresh := t.fresh } ∧ (∀ k : Fin 12, k ≠ j → t.port k = s.port k) ∧
      (t.port j).lostFrames = satInc (s.port j).lostFrames 65535 ∧ (t.port j).rxSeq = (n + 1) % 2 ^ 32 ∧
      (t.port j).lastGood = (s.port j).lastGood ∧
      (t.port j).rxFlits = (s.port j).rxFlits ∧ (t.port j).sendSymbols = (s.port j).sendSymbols ++
        [BitVec.ofNat 64 (pack [(0, 8, 0x02), (8, 32, n)])])) ∧
    (∀ (j : Fin 12) (n : W32) (a b : List SentFrame) (f : SentFrame), Event (.linkAck j n) (fun s =>
        (s.port j).unacked = a ++ f :: b ∧ f.seq = n.toNat ∧ ∀ x ∈ a, x.seq ≠ n.toNat) (fun s t =>
      t = { s with links := t.links } ∧ (∀ k : Fin 12, k ≠ j → t.port k = s.port k) ∧
      t.port j = { s.port j with unacked := b })) ∧
    (∀ (j : Fin 12) (n : W32) (f : SentFrame), Event (.lost j n) (fun s =>
        (s.port j).unacked.find? (fun x => x.seq = n.toNat) = some f) (fun s t =>
      t = f.units.eraseDups.foldl sendUnitError (s.modPort j (fun x => { x with unacked := x.unacked.erase f })))) ∧
    (∀ (j : Fin 12) (f : SentFrame) (r : List SentFrame), Event (.ackTimeout j) (fun s =>
        (s.port j).unacked = f :: r ∧ f.time + 33000 ≤ s.devTime) (fun s t =>
      t = f.units.eraseDups.foldl sendUnitError (s.modPort j (fun x => { x with unacked := r })))) ∧
    (∀ (j : Fin 12) (n : W32), Event (.credit j n) (fun s => (s.port j).state = .up) (fun s t =>
      t = { s with links := t.links } ∧ (∀ k : Fin 12, k ≠ j → t.port k = s.port k) ∧
      t.port j = { s.port j with credited := (t.port j).credited } ∧ (t.port j).credited % 2 ^ 32 = n.toNat ∧
      (s.port j).credited ≤ (t.port j).credited ∧ (t.port j).credited < (s.port j).credited + 2 ^ 32)) ∧
    (∀ (j : Fin 12) (offered next : BitVec 12), Event (.enum j offered next) (fun s => (s.port j).state = .up ∧
        s.links.enumeration = none ∧ bit s.links.owed j = false) (fun s t =>
      t.links.number = offered.toNat ∧ t = { s with links := t.links, fresh := t.fresh } ∧
      ((∀ k : Fin 12, k ≠ j → (s.port k).state ≠ .up) → t.links.enumerated = true ∧ t.links.enumeration = none ∧
        (t.port j).sendSymbols = (s.port j).sendSymbols ++ [enumSymbol offered.toNat (nextNumber offered.toNat next.toNat)]))) ∧
    (∀ (j : Fin 12) (offered next : BitVec 12), Event (.enum j offered next) (fun s => (s.port j).state = .up ∧
        ((s.links.enumeration = none ∧ bit s.links.owed j = true) ∨
          ∃ e, s.links.enumeration = some e ∧ e.port ≠ j.val)) (fun s t =>
      t = { s with links := t.links } ∧ t.links.number = s.links.number ∧
      (t.port j).sendSymbols = (s.port j).sendSymbols ++ [enumSymbol s.links.number offered.toNat])) ∧
    ∀ (j : Fin 12) (offered next : BitVec 12) (e : Enumeration), Event (.enum j offered next) (fun s => (s.port j).state = .up ∧
        s.links.enumeration = some e ∧ e.port = j.val) (fun s t =>
      (t.port j).farDevice = offered.toNat ∧ SameBytes s t ∧
      ∀ k : Fin 12, j < k → (s.port k).state = .up → e.parent ≠ some k.val →
        (∀ i : Fin 12, j < i → i < k → (s.port i).state ≠ .up ∨ e.parent = some i.val) →
        (t.port k).sendSymbols = (s.port k).sendSymbols ++
          [enumSymbol (nextNumber e.next next.toNat) (nextNumber e.next next.toNat + 1)] ∧
        t.links.enumeration = some { e with next := nextNumber e.next next.toNat, port := k.val })

/-- COMMIT, REPLAY, APPLIED, ABANDON, UNIT_ERROR, JOIN, START, MASK, TICK_SYNC and REACH as they arrive; the windows
they close (R310, R312, R326, R334, R337, R341, R342, R343, R350). The first copy of a flooded symbol is sent on by
every other port that is UP, and acts where one partition shares the member's group: COMMIT during a unit is kept,
COMMIT and REPLAY are votes for and against where their UNIT is that of the partition's epoch, APPLIED is noted,
ABANDON drops the unit's held items and kept tokens and ends a running job, MASK keeps the share, REACH (one hop
further as it goes on) notes the device where it is awaited, and makes another running linked job with that member
await its members too. A second copy within a millisecond does nothing but forget what is older. TICK_SYNC steers by
the tick difference. START schedules the waiting member 462 ticks a hop before the farthest. JOIN at the root notes
the member, and with the last one the root floods START and schedules its own; elsewhere it goes on to the root, and
it is kept where no group names it. UNIT_ERROR acts at the unit's device and goes on elsewhere. A reach window that
closes, and a vote that is missing when time is up, act on their partition: the job ends with TIMEOUT. -/
def Obligations.FloodedSymbolsAct : Prop :=
  (∀ (j : Fin 12) (k : UnitToken) (p : Nat), ∀ e ∈ [((Instr.commit : Fin 12 → UnitToken → Instr), 0x09), (.replay, 0x0A),
        (.applied, 0x0B), (.abandon, 0x0C)],
      Event (e.1 j k) (fun s => FirstCopy s j k.device.toNat
          (unitSymbol e.2 k.device.toNat k.partition k.unit.toNat k.attempt).toNat ∧
          groupsWith s k.device.toNat k.partition = [p] ∧ (e.2 = 0x09 → unitLive s p = true) ∧
          (e.2 = 0x0C → (s.part p).job.running = false))
        (fun s t => SentOn s t j (unitSymbol e.2 k.device.toNat k.partition k.unit.toNat k.attempt) ∧
          (e.2 = 0x09 → tokenOf k ∈ (t.part p).zlk.commits ∧ (t.part p).zlk.votes = noteVote k true (s.part p)) ∧
          (e.2 = 0x0A → (t.part p).zlk.votes = noteVote k false (s.part p)) ∧
          (e.2 = 0x0B → (k.device.toNat, k.partition.val) ∈ (t.part p).zlk.applied) ∧
          (e.2 = 0x0C → (∀ h ∈ (t.part p).zlk.held, heldOf k.device.toNat k.partition.val k.unit.toNat h = false) ∧
            ∀ c ∈ (t.part p).zlk.commits, (c.1, c.2.1, c.2.2.1) ≠ (k.device.toNat, k.partition.val, k.unit.toNat)) ∧
          (e.2 ≠ 0x0C → t = { s with links := t.links, parts := t.parts }))) ∧
    (∀ (j : Fin 12) (k : UnitToken) (p : Nat), Event (.abandon j k) (fun s => FirstCopy s j k.device.toNat
          (unitSymbol 0x0C k.device.toNat k.partition k.unit.toNat k.attempt).toNat ∧
          groupsWith s k.device.toNat k.partition = [p] ∧ (s.part p).job.running = true) (fun _ t =>
      (t.part p).job.running = false ∧ (t.part p).job.faulted = true ∧ (t.part p).zlk.members = [])) ∧
    (∀ (j : Fin 12) (k : UnitToken) (time : Nat), ∀ e ∈ [((Instr.commit : Fin 12 → UnitToken → Instr), 0x09), (.replay, 0x0A),
        (.applied, 0x0B), (.abandon, 0x0C)],
      Event (e.1 j k) (fun s => ((unitSymbol e.2 k.device.toNat k.partition k.unit.toNat k.attempt).toNat, time) ∈ s.links.seen ∧
          s.devTime < time + keyTicks) (fun s t =>
        t = { s with links := t.links } ∧ t.links = { s.links with seen := t.links.seen })) ∧
    (∀ (j : Fin 12) (k : UnitToken), Event (.unitError j k) (fun s => (s.port j).state = .up ∧
        k.device.toNat = ownNumber s) (fun s t => t = unitErrorAt s k.partition.val k.unit.toNat)) ∧
    (∀ (j : Fin 12) (k : UnitToken) (h : Nat) (r : List Nat), Event (.unitError j k) (fun s => (s.port j).state = .up ∧
        k.device.toNat ≠ ownNumber s ∧ routePorts s k.device.toNat = h :: r) (fun s t => t = sendSymbol s h
          (BitVec.ofNat 64 (pack [(0, 8, 0x0D), (8, 12, k.device.toNat), (20, 6, k.partition.val), (26, 31, k.unit.toNat)])))) ∧
    (∀ (j : Fin 12) (dev : BitVec 12) (m : Fin 64) (p : Nat) (r : List Nat), Event (.joinSymbol j dev m) (fun s =>
        (s.port j).state = .up ∧ joinParts s dev.toNat m = p :: r ∧ groupRoot s p = ownNumber s ∧
        (s.part p).job.awaitStart = false) (fun s t =>
      t = { s with parts := t.parts } ∧ ∀ x, x ∈ (t.part p).zlk.joined ↔ x = (dev.toNat, m.val) ∨ x ∈ (s.part p).zlk.joined)) ∧
    (∀ (j : Fin 12) (dev : BitVec 12) (m : Fin 64) (p : Nat) (r : List Nat), Event (.joinSymbol j dev m) (fun s =>
        (s.port j).state = .up ∧ joinParts s dev.toNat m = p :: r ∧ groupRoot s p = ownNumber s ∧
        (s.part p).job.awaitStart = true ∧ (s.part p).zlk.startDelay = 0 ∧
        ∀ x ∈ (s.part p).zlk.members, x = (dev.toNat, m.val) ∨ x ∈ (s.part p).zlk.joined) (fun s t =>
      t = { s with links := t.links, parts := t.parts } ∧ (t.part p).zlk.joined = [] ∧
      (t.part p).zlk.startDelay = 462 * s.links.diameter + 1 ∧ t.links.linkedStarts = s.links.linkedStarts + 1 ∧
      ∀ k : Fin 12, (s.port k).state = .up → (t.port k).sendSymbols = (s.port k).sendSymbols ++ [BitVec.ofNat 64
        (pack [(0, 8, 0x08), (8, 12, ownNumber s), (20, 12, s.links.diameter), (32, 20, s.links.linkedStarts + 1)])])) ∧
    (∀ (j : Fin 12) (dev : BitVec 12) (m : Fin 64) (p h : Nat) (r q : List Nat), Event (.joinSymbol j dev m) (fun s =>
        (s.port j).state = .up ∧ joinParts s dev.toNat m = p :: r ∧ groupRoot s p ≠ ownNumber s ∧
        routePorts s (groupRoot s p) = h :: q) (fun s t =>
      t = sendSymbol s h (BitVec.ofNat 64 (pack [(0, 8, 0x07), (8, 12, dev.toNat), (20, 6, m.val)])))) ∧
    (∀ (j : Fin 12) (root dia : BitVec 12) (job : BitVec 20) (p : Nat), Event (.start j root dia job) (fun s =>
        FirstCopy s j root.toNat (pack [(0, 8, 0x08), (8, 12, root.toNat), (32, 20, job.toNat)]) ∧
        (partsOf s).filter (fun p => (s.part p).job.awaitStart && (s.part p).zlk.root = root.toNat &&
          (s.part p).zlk.startDelay = 0) = [p]) (fun s t =>
      (t.part p).zlk.startDelay = 462 * (dia.toNat - hopsTo s root.toNat) + 1 ∧
      t = { s with links := t.links, parts := t.parts })) ∧
    (∀ (j : Fin 12) (dev : BitVec 12) (m : Fin 64) (share : Byte) (bells : BitVec 23) (p : Nat), Event (.mask j dev m share bells)
      (fun s => FirstCopy s j dev.toNat (pack [(0, 8, 0x0E), (8, 12, dev.toNat), (20, 6, m.val), (34, 23, bells.toNat)]) ∧
        groupsWith s dev.toNat m = [p]) (fun s t =>
      (t.part p).zlk.masks = (dev.toNat, m.val, bells.toNat, share.toNat) :: (s.part p).zlk.masks ∧
      t = { s with links := t.links, parts := t.parts })) ∧
    (∀ (j : Fin 12) (root : BitVec 12) (n : W32) (p : Nat), Event (.tickSync j root n) (fun s =>
        FirstCopy s j root.toNat (BitVec.ofNat 64 (pack [(0, 8, 0x0F), (8, 12, root.toNat), (20, 32, n.toNat)])).toNat ∧
        (partsOf s).find? (fun p => isLinked s p && (s.part p).zlk.root = root.toNat && isLockstep s p &&
          (s.part p).job.running) = some p) (fun s t =>
      t.links.steering = sInt 32 (partTick s p + 2 ^ 32 - n.toNat) ∧ t = { s with links := t.links })) ∧
    (∀ (j : Fin 12) (dev : BitVec 12) (group : W16) (hops : BitVec 12) (n : W16), Event (.reach j dev group hops n) (fun s =>
        FirstCopy s j dev.toNat (pack [(0, 8, 0x10), (8, 12, dev.toNat), (48, 16, n.toNat)]) ∧ reachNew s dev.toNat = []) (fun s t =>
      t = { s with links := t.links, parts := t.parts, fresh := s.fresh + 4096 } ∧
      SentOn s t j (BitVec.ofNat 64 (pack [(0, 8, 0x10), (8, 12, dev.toNat), (20, 16, group.toNat), (36, 12, hops.toNat + 1),
        (48, 16, n.toNat)])) ∧
      ∀ p ∈ partsOf s, (t.part p).zlk.reach =
        if (s.part p).zlk.reachOpen then dev.toNat :: (s.part p).zlk.reach else (s.part p).zlk.reach)) ∧
    (∀ (j : Fin 12) (dev : BitVec 12) (group : W16) (hops : BitVec 12) (n : W16), Event (.reach j dev group hops n) (fun s =>
        FirstCopy s j dev.toNat (pack [(0, 8, 0x10), (8, 12, dev.toNat), (48, 16, n.toNat)]) ∧ reachNew s dev.toNat ≠ []) (fun s t =>
      t = { s with links := t.links, parts := t.parts, fresh := s.fresh + 4096 } ∧
      ∀ p ∈ reachNew s dev.toNat, (t.part p).zlk.reachOpen = true ∧ (t.part p).zlk.reach = [dev.toNat])) ∧
    (∀ (j : Fin 12) (dev : BitVec 12) (m : Fin 64), Event (.joinSymbol j dev m) (fun s =>
        (s.port j).state = .up ∧ joinParts s dev.toNat m = []) (fun s t =>
      t = { s with links := { s.links with joins := t.links.joins } } ∧ (dev.toNat, m.val) ∈ t.links.joins)) ∧
    (∀ p : Fin 64, Event (.reachWindowExpiry p) (fun s => (s.part p).zlk.reachOpen = true ∧ (s.part p).zlk.reachSince + reachTicks ≤ s.devTime) (fun s t =>
      t = { s with parts := t.parts } ∧ (∀ q : Fin 64, q ≠ p → t.part q = s.part q) ∧
      t.part p = { s.part p with zlk := { (s.part p).zlk with reachOpen := false } })) ∧
    ∀ p : Fin 64, Event (.voteTimeout p) (fun s => (s.part p).job.running = true ∧ epochLinked s p = true ∧
        voteMissing s p = true ∧ (s.part p).zlk.voteSince + keyTicks ≤ s.devTime) (fun s t => t = endJob s p Status.timeout Detail.zlkVoteTimeout none ∧
      (t.part p).job.running = false)

/-- Items of other devices: held, served, answered, or sent on (R193, R229, R261, R302, R309, R328, R329, R332). An item
for another device is queued at the port its route and SEQ select. A WRITE, TOKEN, COUNT or RESULT from a member of
a local partition's group, for memory or scratchpads of that partition, is held until its unit commits: it replaces
one of a lower attempt of its source, unit, KIND and SEQ, is dropped where a higher attempt is held or where its
unit's COMMIT named another attempt, and writes no byte; one that comes after its COMMIT acted waits for the
partition's own unit. An item outside them ends a running job. A READ_REQ of a scratchpad without parity errors is
answered with its bytes; one within a line, and an ATOM_REQ, go to the line's home. A READ_RSP fills the remote copy
that asked, or where its partition has replayed since is discarded; one that reports a failure ends the kernel or
the job. An ATOM_RSP brings its lanes' values to the group whose index SEQ holds, and what it reports is noted. -/
def Obligations.ItemsArrive : Prop :=
  (∀ (j : Fin 12) (i : Item), ∀ e ∈ [(Instr.write j i, itWrite), (.token j i, itToken), (.count j i, itCount),
        (.result j i, itResult), (.readReq j i, itReadReq), (.readRsp j i, itReadRsp), (.atomReq j i, itAtomReq),
        (.atomRsp j i, itAtomRsp)],
      ∀ (h : Nat) (r : List Nat), Event e.1 (fun s => (s.port j).state = .up ∧ i.dstDevice.toNat ≠ ownNumber s ∧
        routePorts s i.dstDevice.toNat = h :: r) (fun s t =>
      t = { s with links := t.links } ∧ ∀ k, (h :: r)[i.seq.toNat % (r.length + 1)]? = some k →
        (t.port k).sendItems = (s.port k).sendItems ++ [{ type := e.2, item := i }])) ∧
    (∀ (j : Fin 12) (i : Item) (p : Nat), ∀ e ∈ [(Instr.write j i, itWrite), (.token j i, itToken), (.count j i, itCount),
        (.result j i, itResult)], ∀ s, (s.port j).state = .up → i.dstDevice.toNat = ownNumber s → itemOwner s i = some p →
      itemRange s p i.address.toNat (heldLength e.2 i) = true →
      (∀ x ∈ (s.part p).zlk.acted ++ (s.part p).zlk.commits,
        (x.1, x.2.1, x.2.2.1) ≠ (i.srcDevice.toNat, i.srcPartition.val, i.unit.toNat)) →
      ∃ t, exec e.1 s = .next t ∧ t = { s with parts := t.parts } ∧ (∀ q, q ≠ p → t.part q = s.part q) ∧
        t.part p = { s.part p with zlk := { (s.part p).zlk with held := (t.part p).zlk.held } } ∧
        let same := fun (h : HeldItem) => heldOf i.srcDevice.toNat i.srcPartition.val i.unit.toNat h = true ∧
          h.item.seq = i.seq ∧ h.item.kernel = i.kernel
        ((∃ h ∈ (s.part p).zlk.held, same h ∧ i.attempt.val < h.item.attempt.val) → t = s) ∧
        ((∀ h ∈ (s.part p).zlk.held, same h → h.item.attempt.val ≤ i.attempt.val) →
          ∀ h, h ∈ (t.part p).zlk.held ↔ (h = { kind := e.2, item := i } ∨ (h ∈ (s.part p).zlk.held ∧ ¬ same h)))) ∧
    (∀ (j : Fin 12) (i : Item) (p : Nat), ∀ e ∈ [(Instr.write j i, itWrite), (.token j i, itToken), (.count j i, itCount),
        (.result j i, itResult)], ∀ s, (s.port j).state = .up → i.dstDevice.toNat = ownNumber s → itemOwner s i = some p →
      (itemRange s p i.address.toNat (heldLength e.2 i) = false →
        exec e.1 s = .next (if (s.part p).job.running then endJob s p Status.badAddress Detail.zlkItemAddress none else s)) ∧
      (itemRange s p i.address.toNat (heldLength e.2 i) = true →
        (∀ h ∈ (s.part p).zlk.held, heldOf i.srcDevice.toNat i.srcPartition.val i.unit.toNat h = false) →
        ((∃ a, a ≠ i.attempt.val ∧ (i.srcDevice.toNat, i.srcPartition.val, i.unit.toNat, a) ∈ (s.part p).zlk.acted ++
            (s.part p).zlk.commits) →
          (i.srcDevice.toNat, i.srcPartition.val, i.unit.toNat, i.attempt.val) ∉ (s.part p).zlk.acted → exec e.1 s = .next s) ∧
        ((i.srcDevice.toNat, i.srcPartition.val, i.unit.toNat, i.attempt.val) ∈ (s.part p).zlk.acted → unitLive s p = true →
          ∃ t, exec e.1 s = .next t ∧ t = { s with parts := t.parts } ∧
            (t.part p).zlk.held = (s.part p).zlk.held ++ [{ kind := e.2, item := i }] ∧
            (i.srcDevice.toNat, i.srcPartition.val, i.unit.toNat, i.attempt.val) ∈ (t.part p).zlk.commits))) ∧
    (∀ (j : Fin 12) (i : Item) (p k o : Nat), Event (.readReq j i) (fun s => s.spadOdd = [] ∧ (s.port j).state = .up ∧
        i.dstDevice.toNat = ownNumber s ∧ itemOwner s i = some p ∧ regionOf i.address.toNat = .spad k o ∧
        itemRange s p i.address.toNat (Nat.max 1 i.byteCount.toNat) = true) (fun s t =>
      t = queueItem s itReadRsp { i with
        dstDevice := i.srcDevice, data := (List.range i.byteCount.toNat).map (fun x => spadRead s k (o + x)), lanes := []
        byteCount := 0 })) ∧
    (∀ (j : Fin 12) (i : Item) (p a : Nat), Event (.readReq j i) (fun s => (s.port j).state = .up ∧
        i.dstDevice.toNat = ownNumber s ∧ itemOwner s i = some p ∧ a = i.address.toNat / 1024 ∧
        regionOf i.address.toNat = .lsm ∧ itemRange s p i.address.toNat (Nat.max 1 i.byteCount.toNat) = true ∧
        i.address.toNat % 1024 + i.byteCount.toNat ≤ 1024 ∧ (homeOf s p a).isSome = true) (fun s t =>
      t = arrive { s with links := { s.links with served := s.links.served ++ [(j.val, itReadReq, i)] } } p a
        (.rdNa (.link j) (BitVec.ofNat 4 (rangeSectors (i.address.toNat % 1024) i.byteCount.toNat)) false))) ∧
    (∀ (j : Fin 12) (i : Item) (p : Nat), Event (.readReq j i) (fun s => (s.port j).state = .up ∧
        i.dstDevice.toNat = ownNumber s ∧ itemOwner s i = some p ∧ regionOf i.address.toNat = .lsm ∧
        itemRange s p i.address.toNat (Nat.max 1 i.byteCount.toNat) = true ∧
        1024 < i.address.toNat % 1024 + i.byteCount.toNat) (fun s t => t = serveLate s p i)) ∧
    (∀ (j : Fin 12) (i : Item) (p a : Nat), Event (.atomReq j i) (fun s => (s.port j).state = .up ∧
        i.dstDevice.toNat = ownNumber s ∧ itemOwner s i = some p ∧ a = i.address.toNat / 1024 ∧
        itemRange s p i.address.toNat 1 = true ∧ isLsmLine a = true ∧ (homeOf s p a).isSome = true) (fun s t =>
      t = arrive { s with links := { s.links with served := s.links.served ++ [(j.val, itAtomReq, i)] } } p a
        (.atom (itemAtom s j p i)))) ∧
    (∀ (j : Fin 12) (i : Item) (a : Nat), Event (.readRsp j i) (fun s => (s.port j).state = .up ∧
        i.dstDevice.toNat = ownNumber s ∧ fetchedLine s i.srcPartition i = some a ∧
        (s.line i.srcPartition a).waiting = [] ∧ (s.line i.srcPartition a).odd = false ∧
        (∀ f ∈ (s.line i.srcPartition a).filter, f.odd = false) ∧ (i.operand = 0 ∨ (s.line i.srcPartition a).fetch = 2)) (fun s t =>
      (t.line i.srcPartition a).fetch = 0 ∧ SameBytes s t ∧
      ((s.line i.srcPartition a).fetch = 2 → t.line i.srcPartition a = { s.line i.srcPartition a with fetch := 0 }) ∧
      ((s.line i.srcPartition a).fetch ≠ 2 → (t.line i.srcPartition a).base = cellsAt 0 (padTo 1024 i.data) ∧
        (t.line i.srcPartition a).state ≠ .absent))) ∧
    (∀ (j : Fin 12) (i : Item) (a : Nat), Event (.readRsp j i) (fun s => (s.port j).state = .up ∧
        i.dstDevice.toNat = ownNumber s ∧ fetchedLine s i.srcPartition i = some a ∧
        (s.line i.srcPartition a).fetch = 1 ∧ i.operand ≠ 0 ∧
        ((s.part i.srcPartition).kernel.running = true ∨ (s.part i.srcPartition).job.running = true)) (fun _ t =>
      (t.part i.srcPartition).kernel.running = false)) ∧
    ∀ (j : Fin 12) (i : Item) (x : Nat × Group) (a : Nat), Event (.atomRsp j i) (fun s => (s.port j).state = .up ∧
        i.dstDevice.toNat = ownNumber s ∧
        (groupsOf s i.srcPartition).find? (fun g => g.2.index = i.seq.toNat % 2 ^ 24) = some x ∧
        x.2.asked.find? (fun a => isRemoteLine a && linePhys a = i.address.toNat &&
          !(x.2.replies.any (fun r => r.1 = a))) = some a) (fun s t =>
      let v := noteReport s i.srcPartition (lineDevice a) i
      t = { v with groups := t.groups } ∧ (∀ k, k ≠ x.1 → tget t.groups k = tget v.groups k) ∧
      tget t.groups x.1 = { tget v.groups x.1 with
        replies := (tget v.groups x.1).replies ++ [(a, atomCells (i.lanes.map (fun l => (l.lane.val, l.operand.toNat))))] })

/-- Encodings of the eight floating-point layouts round to themselves; sums commute; integer passes wrap and do not
depend on order (R37, R42, R44, R51, R53). Every encoding of binary32, bfloat16, binary16, E4M3, E5M2, E3M2, E2M3
and E2M1 that is no NaN is what its own value rounds to, saturating or not, and a NaN's value encodes as the
canonical NaN where the layout has one. A binary32 or bfloat16 sum is the same whichever operand comes first. An
integer pass is the carried value plus the exact products modulo 2^32, whatever their order, and may be cut anywhere
into two. -/
def Obligations.ArithmeticRoundsOnce : Prop :=
  (∀ f ∈ [fmt32, fmtBf16, fmt16, fmtE4m3, fmtE5m2, fmtE3m2, fmtE2m3, fmtE2m1], ∀ (sat : Bool) (x : Nat), x < 2 ^ f.width →
      (flDecode f x ≠ .nan → flEncode f sat (flDecode f x) = x) ∧ (flDecode f x = .nan → flEncode f sat (flDecode f x) = flNan f)) ∧
    (∀ x y : Nat, add32 x y = add32 y x ∧ add16 x y = add16 y x) ∧
    (∀ (fx fw y : Nat) (es : List (Nat × Nat)),
      (dotInt fx fw y es : Int) = ((y : Int) + (es.map (fun e => elemInt fx e.1 * elemInt fw e.2)).sum) % 2 ^ 32) ∧
    (∀ (fx fw y : Nat) (es fs : List (Nat × Nat)), dotInt fx fw y (es ++ fs) = dotInt fx fw (dotInt fx fw y es) fs) ∧
    ∀ (fx fw y : Nat) (es fs : List (Nat × Nat)), es.Perm fs → dotInt fx fw y es = dotInt fx fw y fs
end

