-- ==== Sys2Proof/Laws/State.lean ====
section
/-! SUPPORT. What each update of the state leaves alone and what it sets: one lemma for each field and update, true by
`rfl`, so that no proof unfolds a record update. -/

namespace Sys2Proof.Machine

variable (s : State)

/-! ## modPart -/

section

variable (p : Nat) (f : Part → Part)

@[simp] theorem modPart_mem : (s.modPart p f).mem = s.mem := rfl
@[simp] theorem modPart_spad : (s.modPart p f).spad = s.spad := rfl
@[simp] theorem modPart_clean : (s.modPart p f).clean = s.clean := rfl
@[simp] theorem modPart_parts : (s.modPart p f).parts = tmod s.parts p f := rfl
@[simp] theorem modPart_stalls : (s.modPart p f).stalls = s.stalls := rfl
@[simp] theorem modPart_fencedPos : (s.modPart p f).fencedPos = s.fencedPos := rfl
@[simp] theorem modPart_domains : (s.modPart p f).domains = s.domains := rfl
@[simp] theorem modPart_groups : (s.modPart p f).groups = s.groups := rfl
@[simp] theorem modPart_hostFetch : (s.modPart p f).hostFetch = s.hostFetch := rfl
@[simp] theorem modPart_hostCommit : (s.modPart p f).hostCommit = s.hostCommit := rfl
@[simp] theorem modPart_hostStream : (s.modPart p f).hostStream = s.hostStream := rfl
@[simp] theorem modPart_l1s : (s.modPart p f).l1s = s.l1s := rfl
@[simp] theorem modPart_noc : (s.modPart p f).noc = s.noc := rfl
@[simp] theorem modPart_spadOdd : (s.modPart p f).spadOdd = s.spadOdd := rfl
@[simp] theorem modPart_dies : (s.modPart p f).dies = s.dies := rfl
@[simp] theorem modPart_edges : (s.modPart p f).edges = s.edges := rfl
@[simp] theorem modPart_crossings : (s.modPart p f).crossings = s.crossings := rfl
@[simp] theorem modPart_sidebands : (s.modPart p f).sidebands = s.sidebands := rfl
@[simp] theorem modPart_hbm : (s.modPart p f).hbm = s.hbm := rfl
@[simp] theorem modPart_chans : (s.modPart p f).chans = s.chans := rfl
@[simp] theorem modPart_failLog : (s.modPart p f).failLog = s.failLog := rfl
@[simp] theorem modPart_failCount : (s.modPart p f).failCount = s.failCount := rfl
@[simp] theorem modPart_chkLog : (s.modPart p f).chkLog = s.chkLog := rfl
@[simp] theorem modPart_chkCount : (s.modPart p f).chkCount = s.chkCount := rfl
@[simp] theorem modPart_fuseOdd : (s.modPart p f).fuseOdd = s.fuseOdd := rfl
@[simp] theorem modPart_fuseRewrites : (s.modPart p f).fuseRewrites = s.fuseRewrites := rfl
@[simp] theorem modPart_pitchRewrites : (s.modPart p f).pitchRewrites = s.pitchRewrites := rfl
@[simp] theorem modPart_sessionRewrites : (s.modPart p f).sessionRewrites = s.sessionRewrites := rfl
@[simp] theorem modPart_links : (s.modPart p f).links = s.links := rfl
@[simp] theorem modPart_fns : (s.modPart p f).fns = s.fns := rfl
@[simp] theorem modPart_outstanding : (s.modPart p f).outstanding = s.outstanding := rfl
@[simp] theorem modPart_sec : (s.modPart p f).sec = s.sec := rfl
@[simp] theorem modPart_boot : (s.modPart p f).boot = s.boot := rfl
@[simp] theorem modPart_flash : (s.modPart p f).flash = s.flash := rfl
@[simp] theorem modPart_fuses : (s.modPart p f).fuses = s.fuses := rfl
@[simp] theorem modPart_power : (s.modPart p f).power = s.power := rfl
@[simp] theorem modPart_shared : (s.modPart p f).shared = s.shared := rfl
@[simp] theorem modPart_sites : (s.modPart p f).sites = s.sites := rfl
@[simp] theorem modPart_jtag : (s.modPart p f).jtag = s.jtag := rfl
@[simp] theorem modPart_i3cAddress : (s.modPart p f).i3cAddress = s.i3cAddress := rfl
@[simp] theorem modPart_i3cDynamic : (s.modPart p f).i3cDynamic = s.i3cDynamic := rfl
@[simp] theorem modPart_perst : (s.modPart p f).perst = s.perst := rfl
@[simp] theorem modPart_hostRate : (s.modPart p f).hostRate = s.hostRate := rfl
@[simp] theorem modPart_hostWidth : (s.modPart p f).hostWidth = s.hostWidth := rfl
@[simp] theorem modPart_bistQueue : (s.modPart p f).bistQueue = s.bistQueue := rfl
@[simp] theorem modPart_devTime : (s.modPart p f).devTime = s.devTime := rfl
@[simp] theorem modPart_aoCount : (s.modPart p f).aoCount = s.aoCount := rfl
@[simp] theorem modPart_out : (s.modPart p f).out = s.out := rfl
@[simp] theorem modPart_fresh : (s.modPart p f).fresh = s.fresh := rfl
@[simp] theorem modPart_pending : (s.modPart p f).pending = s.pending := rfl

end

/-! ## modStall -/

section

variable (i : Nat) (f : Stall → Stall)

@[simp] theorem modStall_mem : (s.modStall i f).mem = s.mem := rfl
@[simp] theorem modStall_spad : (s.modStall i f).spad = s.spad := rfl
@[simp] theorem modStall_clean : (s.modStall i f).clean = s.clean := rfl
@[simp] theorem modStall_parts : (s.modStall i f).parts = s.parts := rfl
@[simp] theorem modStall_stalls : (s.modStall i f).stalls = tmod s.stalls i f := rfl
@[simp] theorem modStall_fencedPos : (s.modStall i f).fencedPos = s.fencedPos := rfl
@[simp] theorem modStall_domains : (s.modStall i f).domains = s.domains := rfl
@[simp] theorem modStall_groups : (s.modStall i f).groups = s.groups := rfl
@[simp] theorem modStall_hostFetch : (s.modStall i f).hostFetch = s.hostFetch := rfl
@[simp] theorem modStall_hostCommit : (s.modStall i f).hostCommit = s.hostCommit := rfl
@[simp] theorem modStall_hostStream : (s.modStall i f).hostStream = s.hostStream := rfl
@[simp] theorem modStall_l1s : (s.modStall i f).l1s = s.l1s := rfl
@[simp] theorem modStall_noc : (s.modStall i f).noc = s.noc := rfl
@[simp] theorem modStall_spadOdd : (s.modStall i f).spadOdd = s.spadOdd := rfl
@[simp] theorem modStall_dies : (s.modStall i f).dies = s.dies := rfl
@[simp] theorem modStall_edges : (s.modStall i f).edges = s.edges := rfl
@[simp] theorem modStall_crossings : (s.modStall i f).crossings = s.crossings := rfl
@[simp] theorem modStall_sidebands : (s.modStall i f).sidebands = s.sidebands := rfl
@[simp] theorem modStall_hbm : (s.modStall i f).hbm = s.hbm := rfl
@[simp] theorem modStall_chans : (s.modStall i f).chans = s.chans := rfl
@[simp] theorem modStall_failLog : (s.modStall i f).failLog = s.failLog := rfl
@[simp] theorem modStall_failCount : (s.modStall i f).failCount = s.failCount := rfl
@[simp] theorem modStall_chkLog : (s.modStall i f).chkLog = s.chkLog := rfl
@[simp] theorem modStall_chkCount : (s.modStall i f).chkCount = s.chkCount := rfl
@[simp] theorem modStall_fuseOdd : (s.modStall i f).fuseOdd = s.fuseOdd := rfl
@[simp] theorem modStall_fuseRewrites : (s.modStall i f).fuseRewrites = s.fuseRewrites := rfl
@[simp] theorem modStall_pitchRewrites : (s.modStall i f).pitchRewrites = s.pitchRewrites := rfl
@[simp] theorem modStall_sessionRewrites : (s.modStall i f).sessionRewrites = s.sessionRewrites := rfl
@[simp] theorem modStall_links : (s.modStall i f).links = s.links := rfl
@[simp] theorem modStall_fns : (s.modStall i f).fns = s.fns := rfl
@[simp] theorem modStall_outstanding : (s.modStall i f).outstanding = s.outstanding := rfl
@[simp] theorem modStall_sec : (s.modStall i f).sec = s.sec := rfl
@[simp] theorem modStall_boot : (s.modStall i f).boot = s.boot := rfl
@[simp] theorem modStall_flash : (s.modStall i f).flash = s.flash := rfl
@[simp] theorem modStall_fuses : (s.modStall i f).fuses = s.fuses := rfl
@[simp] theorem modStall_power : (s.modStall i f).power = s.power := rfl
@[simp] theorem modStall_shared : (s.modStall i f).shared = s.shared := rfl
@[simp] theorem modStall_sites : (s.modStall i f).sites = s.sites := rfl
@[simp] theorem modStall_jtag : (s.modStall i f).jtag = s.jtag := rfl
@[simp] theorem modStall_i3cAddress : (s.modStall i f).i3cAddress = s.i3cAddress := rfl
@[simp] theorem modStall_i3cDynamic : (s.modStall i f).i3cDynamic = s.i3cDynamic := rfl
@[simp] theorem modStall_perst : (s.modStall i f).perst = s.perst := rfl
@[simp] theorem modStall_hostRate : (s.modStall i f).hostRate = s.hostRate := rfl
@[simp] theorem modStall_hostWidth : (s.modStall i f).hostWidth = s.hostWidth := rfl
@[simp] theorem modStall_bistQueue : (s.modStall i f).bistQueue = s.bistQueue := rfl
@[simp] theorem modStall_devTime : (s.modStall i f).devTime = s.devTime := rfl
@[simp] theorem modStall_aoCount : (s.modStall i f).aoCount = s.aoCount := rfl
@[simp] theorem modStall_out : (s.modStall i f).out = s.out := rfl
@[simp] theorem modStall_fresh : (s.modStall i f).fresh = s.fresh := rfl
@[simp] theorem modStall_pending : (s.modStall i f).pending = s.pending := rfl

end

/-! ## modFn -/

section

variable (fn : Nat) (f : FnState → FnState)

@[simp] theorem modFn_mem : (s.modFn fn f).mem = s.mem := rfl
@[simp] theorem modFn_spad : (s.modFn fn f).spad = s.spad := rfl
@[simp] theorem modFn_clean : (s.modFn fn f).clean = s.clean := rfl
@[simp] theorem modFn_parts : (s.modFn fn f).parts = s.parts := rfl
@[simp] theorem modFn_stalls : (s.modFn fn f).stalls = s.stalls := rfl
@[simp] theorem modFn_fencedPos : (s.modFn fn f).fencedPos = s.fencedPos := rfl
@[simp] theorem modFn_domains : (s.modFn fn f).domains = s.domains := rfl
@[simp] theorem modFn_groups : (s.modFn fn f).groups = s.groups := rfl
@[simp] theorem modFn_hostFetch : (s.modFn fn f).hostFetch = s.hostFetch := rfl
@[simp] theorem modFn_hostCommit : (s.modFn fn f).hostCommit = s.hostCommit := rfl
@[simp] theorem modFn_hostStream : (s.modFn fn f).hostStream = s.hostStream := rfl
@[simp] theorem modFn_l1s : (s.modFn fn f).l1s = s.l1s := rfl
@[simp] theorem modFn_noc : (s.modFn fn f).noc = s.noc := rfl
@[simp] theorem modFn_spadOdd : (s.modFn fn f).spadOdd = s.spadOdd := rfl
@[simp] theorem modFn_dies : (s.modFn fn f).dies = s.dies := rfl
@[simp] theorem modFn_edges : (s.modFn fn f).edges = s.edges := rfl
@[simp] theorem modFn_crossings : (s.modFn fn f).crossings = s.crossings := rfl
@[simp] theorem modFn_sidebands : (s.modFn fn f).sidebands = s.sidebands := rfl
@[simp] theorem modFn_hbm : (s.modFn fn f).hbm = s.hbm := rfl
@[simp] theorem modFn_chans : (s.modFn fn f).chans = s.chans := rfl
@[simp] theorem modFn_failLog : (s.modFn fn f).failLog = s.failLog := rfl
@[simp] theorem modFn_failCount : (s.modFn fn f).failCount = s.failCount := rfl
@[simp] theorem modFn_chkLog : (s.modFn fn f).chkLog = s.chkLog := rfl
@[simp] theorem modFn_chkCount : (s.modFn fn f).chkCount = s.chkCount := rfl
@[simp] theorem modFn_fuseOdd : (s.modFn fn f).fuseOdd = s.fuseOdd := rfl
@[simp] theorem modFn_fuseRewrites : (s.modFn fn f).fuseRewrites = s.fuseRewrites := rfl
@[simp] theorem modFn_pitchRewrites : (s.modFn fn f).pitchRewrites = s.pitchRewrites := rfl
@[simp] theorem modFn_sessionRewrites : (s.modFn fn f).sessionRewrites = s.sessionRewrites := rfl
@[simp] theorem modFn_links : (s.modFn fn f).links = s.links := rfl
@[simp] theorem modFn_fns : (s.modFn fn f).fns = tmod s.fns fn f := rfl
@[simp] theorem modFn_outstanding : (s.modFn fn f).outstanding = s.outstanding := rfl
@[simp] theorem modFn_sec : (s.modFn fn f).sec = s.sec := rfl
@[simp] theorem modFn_boot : (s.modFn fn f).boot = s.boot := rfl
@[simp] theorem modFn_flash : (s.modFn fn f).flash = s.flash := rfl
@[simp] theorem modFn_fuses : (s.modFn fn f).fuses = s.fuses := rfl
@[simp] theorem modFn_power : (s.modFn fn f).power = s.power := rfl
@[simp] theorem modFn_shared : (s.modFn fn f).shared = s.shared := rfl
@[simp] theorem modFn_sites : (s.modFn fn f).sites = s.sites := rfl
@[simp] theorem modFn_jtag : (s.modFn fn f).jtag = s.jtag := rfl
@[simp] theorem modFn_i3cAddress : (s.modFn fn f).i3cAddress = s.i3cAddress := rfl
@[simp] theorem modFn_i3cDynamic : (s.modFn fn f).i3cDynamic = s.i3cDynamic := rfl
@[simp] theorem modFn_perst : (s.modFn fn f).perst = s.perst := rfl
@[simp] theorem modFn_hostRate : (s.modFn fn f).hostRate = s.hostRate := rfl
@[simp] theorem modFn_hostWidth : (s.modFn fn f).hostWidth = s.hostWidth := rfl
@[simp] theorem modFn_bistQueue : (s.modFn fn f).bistQueue = s.bistQueue := rfl
@[simp] theorem modFn_devTime : (s.modFn fn f).devTime = s.devTime := rfl
@[simp] theorem modFn_aoCount : (s.modFn fn f).aoCount = s.aoCount := rfl
@[simp] theorem modFn_out : (s.modFn fn f).out = s.out := rfl
@[simp] theorem modFn_fresh : (s.modFn fn f).fresh = s.fresh := rfl
@[simp] theorem modFn_pending : (s.modFn fn f).pending = s.pending := rfl

end

/-! ## modDom -/

section

variable (p d : Nat) (f : Domain → Domain)

@[simp] theorem modDom_mem : (s.modDom p d f).mem = s.mem := rfl
@[simp] theorem modDom_spad : (s.modDom p d f).spad = s.spad := rfl
@[simp] theorem modDom_clean : (s.modDom p d f).clean = s.clean := rfl
@[simp] theorem modDom_parts : (s.modDom p d f).parts = s.parts := rfl
@[simp] theorem modDom_stalls : (s.modDom p d f).stalls = s.stalls := rfl
@[simp] theorem modDom_fencedPos : (s.modDom p d f).fencedPos = s.fencedPos := rfl
@[simp] theorem modDom_domains : (s.modDom p d f).domains = tmod s.domains (4 * p + d) f := rfl
@[simp] theorem modDom_groups : (s.modDom p d f).groups = s.groups := rfl
@[simp] theorem modDom_hostFetch : (s.modDom p d f).hostFetch = s.hostFetch := rfl
@[simp] theorem modDom_hostCommit : (s.modDom p d f).hostCommit = s.hostCommit := rfl
@[simp] theorem modDom_hostStream : (s.modDom p d f).hostStream = s.hostStream := rfl
@[simp] theorem modDom_l1s : (s.modDom p d f).l1s = s.l1s := rfl
@[simp] theorem modDom_noc : (s.modDom p d f).noc = s.noc := rfl
@[simp] theorem modDom_spadOdd : (s.modDom p d f).spadOdd = s.spadOdd := rfl
@[simp] theorem modDom_dies : (s.modDom p d f).dies = s.dies := rfl
@[simp] theorem modDom_edges : (s.modDom p d f).edges = s.edges := rfl
@[simp] theorem modDom_crossings : (s.modDom p d f).crossings = s.crossings := rfl
@[simp] theorem modDom_sidebands : (s.modDom p d f).sidebands = s.sidebands := rfl
@[simp] theorem modDom_hbm : (s.modDom p d f).hbm = s.hbm := rfl
@[simp] theorem modDom_chans : (s.modDom p d f).chans = s.chans := rfl
@[simp] theorem modDom_failLog : (s.modDom p d f).failLog = s.failLog := rfl
@[simp] theorem modDom_failCount : (s.modDom p d f).failCount = s.failCount := rfl
@[simp] theorem modDom_chkLog : (s.modDom p d f).chkLog = s.chkLog := rfl
@[simp] theorem modDom_chkCount : (s.modDom p d f).chkCount = s.chkCount := rfl
@[simp] theorem modDom_fuseOdd : (s.modDom p d f).fuseOdd = s.fuseOdd := rfl
@[simp] theorem modDom_fuseRewrites : (s.modDom p d f).fuseRewrites = s.fuseRewrites := rfl
@[simp] theorem modDom_pitchRewrites : (s.modDom p d f).pitchRewrites = s.pitchRewrites := rfl
@[simp] theorem modDom_sessionRewrites : (s.modDom p d f).sessionRewrites = s.sessionRewrites := rfl
@[simp] theorem modDom_links : (s.modDom p d f).links = s.links := rfl
@[simp] theorem modDom_fns : (s.modDom p d f).fns = s.fns := rfl
@[simp] theorem modDom_outstanding : (s.modDom p d f).outstanding = s.outstanding := rfl
@[simp] theorem modDom_sec : (s.modDom p d f).sec = s.sec := rfl
@[simp] theorem modDom_boot : (s.modDom p d f).boot = s.boot := rfl
@[simp] theorem modDom_flash : (s.modDom p d f).flash = s.flash := rfl
@[simp] theorem modDom_fuses : (s.modDom p d f).fuses = s.fuses := rfl
@[simp] theorem modDom_power : (s.modDom p d f).power = s.power := rfl
@[simp] theorem modDom_shared : (s.modDom p d f).shared = s.shared := rfl
@[simp] theorem modDom_sites : (s.modDom p d f).sites = s.sites := rfl
@[simp] theorem modDom_jtag : (s.modDom p d f).jtag = s.jtag := rfl
@[simp] theorem modDom_i3cAddress : (s.modDom p d f).i3cAddress = s.i3cAddress := rfl
@[simp] theorem modDom_i3cDynamic : (s.modDom p d f).i3cDynamic = s.i3cDynamic := rfl
@[simp] theorem modDom_perst : (s.modDom p d f).perst = s.perst := rfl
@[simp] theorem modDom_hostRate : (s.modDom p d f).hostRate = s.hostRate := rfl
@[simp] theorem modDom_hostWidth : (s.modDom p d f).hostWidth = s.hostWidth := rfl
@[simp] theorem modDom_bistQueue : (s.modDom p d f).bistQueue = s.bistQueue := rfl
@[simp] theorem modDom_devTime : (s.modDom p d f).devTime = s.devTime := rfl
@[simp] theorem modDom_aoCount : (s.modDom p d f).aoCount = s.aoCount := rfl
@[simp] theorem modDom_out : (s.modDom p d f).out = s.out := rfl
@[simp] theorem modDom_fresh : (s.modDom p d f).fresh = s.fresh := rfl
@[simp] theorem modDom_pending : (s.modDom p d f).pending = s.pending := rfl

end

/-! ## modDie -/

section

variable (d : Nat) (f : Die → Die)

@[simp] theorem modDie_mem : (s.modDie d f).mem = s.mem := rfl
@[simp] theorem modDie_spad : (s.modDie d f).spad = s.spad := rfl
@[simp] theorem modDie_clean : (s.modDie d f).clean = s.clean := rfl
@[simp] theorem modDie_parts : (s.modDie d f).parts = s.parts := rfl
@[simp] theorem modDie_stalls : (s.modDie d f).stalls = s.stalls := rfl
@[simp] theorem modDie_fencedPos : (s.modDie d f).fencedPos = s.fencedPos := rfl
@[simp] theorem modDie_domains : (s.modDie d f).domains = s.domains := rfl
@[simp] theorem modDie_groups : (s.modDie d f).groups = s.groups := rfl
@[simp] theorem modDie_hostFetch : (s.modDie d f).hostFetch = s.hostFetch := rfl
@[simp] theorem modDie_hostCommit : (s.modDie d f).hostCommit = s.hostCommit := rfl
@[simp] theorem modDie_hostStream : (s.modDie d f).hostStream = s.hostStream := rfl
@[simp] theorem modDie_l1s : (s.modDie d f).l1s = s.l1s := rfl
@[simp] theorem modDie_noc : (s.modDie d f).noc = s.noc := rfl
@[simp] theorem modDie_spadOdd : (s.modDie d f).spadOdd = s.spadOdd := rfl
@[simp] theorem modDie_dies : (s.modDie d f).dies = tmod s.dies d f := rfl
@[simp] theorem modDie_edges : (s.modDie d f).edges = s.edges := rfl
@[simp] theorem modDie_crossings : (s.modDie d f).crossings = s.crossings := rfl
@[simp] theorem modDie_sidebands : (s.modDie d f).sidebands = s.sidebands := rfl
@[simp] theorem modDie_hbm : (s.modDie d f).hbm = s.hbm := rfl
@[simp] theorem modDie_chans : (s.modDie d f).chans = s.chans := rfl
@[simp] theorem modDie_failLog : (s.modDie d f).failLog = s.failLog := rfl
@[simp] theorem modDie_failCount : (s.modDie d f).failCount = s.failCount := rfl
@[simp] theorem modDie_chkLog : (s.modDie d f).chkLog = s.chkLog := rfl
@[simp] theorem modDie_chkCount : (s.modDie d f).chkCount = s.chkCount := rfl
@[simp] theorem modDie_fuseOdd : (s.modDie d f).fuseOdd = s.fuseOdd := rfl
@[simp] theorem modDie_fuseRewrites : (s.modDie d f).fuseRewrites = s.fuseRewrites := rfl
@[simp] theorem modDie_pitchRewrites : (s.modDie d f).pitchRewrites = s.pitchRewrites := rfl
@[simp] theorem modDie_sessionRewrites : (s.modDie d f).sessionRewrites = s.sessionRewrites := rfl
@[simp] theorem modDie_links : (s.modDie d f).links = s.links := rfl
@[simp] theorem modDie_fns : (s.modDie d f).fns = s.fns := rfl
@[simp] theorem modDie_outstanding : (s.modDie d f).outstanding = s.outstanding := rfl
@[simp] theorem modDie_sec : (s.modDie d f).sec = s.sec := rfl
@[simp] theorem modDie_boot : (s.modDie d f).boot = s.boot := rfl
@[simp] theorem modDie_flash : (s.modDie d f).flash = s.flash := rfl
@[simp] theorem modDie_fuses : (s.modDie d f).fuses = s.fuses := rfl
@[simp] theorem modDie_power : (s.modDie d f).power = s.power := rfl
@[simp] theorem modDie_shared : (s.modDie d f).shared = s.shared := rfl
@[simp] theorem modDie_sites : (s.modDie d f).sites = s.sites := rfl
@[simp] theorem modDie_jtag : (s.modDie d f).jtag = s.jtag := rfl
@[simp] theorem modDie_i3cAddress : (s.modDie d f).i3cAddress = s.i3cAddress := rfl
@[simp] theorem modDie_i3cDynamic : (s.modDie d f).i3cDynamic = s.i3cDynamic := rfl
@[simp] theorem modDie_perst : (s.modDie d f).perst = s.perst := rfl
@[simp] theorem modDie_hostRate : (s.modDie d f).hostRate = s.hostRate := rfl
@[simp] theorem modDie_hostWidth : (s.modDie d f).hostWidth = s.hostWidth := rfl
@[simp] theorem modDie_bistQueue : (s.modDie d f).bistQueue = s.bistQueue := rfl
@[simp] theorem modDie_devTime : (s.modDie d f).devTime = s.devTime := rfl
@[simp] theorem modDie_aoCount : (s.modDie d f).aoCount = s.aoCount := rfl
@[simp] theorem modDie_out : (s.modDie d f).out = s.out := rfl
@[simp] theorem modDie_fresh : (s.modDie d f).fresh = s.fresh := rfl
@[simp] theorem modDie_pending : (s.modDie d f).pending = s.pending := rfl

end

/-! ## modChan -/

section

variable (c : Nat) (f : Chan → Chan)

@[simp] theorem modChan_mem : (s.modChan c f).mem = s.mem := rfl
@[simp] theorem modChan_spad : (s.modChan c f).spad = s.spad := rfl
@[simp] theorem modChan_clean : (s.modChan c f).clean = s.clean := rfl
@[simp] theorem modChan_parts : (s.modChan c f).parts = s.parts := rfl
@[simp] theorem modChan_stalls : (s.modChan c f).stalls = s.stalls := rfl
@[simp] theorem modChan_fencedPos : (s.modChan c f).fencedPos = s.fencedPos := rfl
@[simp] theorem modChan_domains : (s.modChan c f).domains = s.domains := rfl
@[simp] theorem modChan_groups : (s.modChan c f).groups = s.groups := rfl
@[simp] theorem modChan_hostFetch : (s.modChan c f).hostFetch = s.hostFetch := rfl
@[simp] theorem modChan_hostCommit : (s.modChan c f).hostCommit = s.hostCommit := rfl
@[simp] theorem modChan_hostStream : (s.modChan c f).hostStream = s.hostStream := rfl
@[simp] theorem modChan_l1s : (s.modChan c f).l1s = s.l1s := rfl
@[simp] theorem modChan_noc : (s.modChan c f).noc = s.noc := rfl
@[simp] theorem modChan_spadOdd : (s.modChan c f).spadOdd = s.spadOdd := rfl
@[simp] theorem modChan_dies : (s.modChan c f).dies = s.dies := rfl
@[simp] theorem modChan_edges : (s.modChan c f).edges = s.edges := rfl
@[simp] theorem modChan_crossings : (s.modChan c f).crossings = s.crossings := rfl
@[simp] theorem modChan_sidebands : (s.modChan c f).sidebands = s.sidebands := rfl
@[simp] theorem modChan_hbm : (s.modChan c f).hbm = s.hbm := rfl
@[simp] theorem modChan_chans : (s.modChan c f).chans = tmod s.chans c f := rfl
@[simp] theorem modChan_failLog : (s.modChan c f).failLog = s.failLog := rfl
@[simp] theorem modChan_failCount : (s.modChan c f).failCount = s.failCount := rfl
@[simp] theorem modChan_chkLog : (s.modChan c f).chkLog = s.chkLog := rfl
@[simp] theorem modChan_chkCount : (s.modChan c f).chkCount = s.chkCount := rfl
@[simp] theorem modChan_fuseOdd : (s.modChan c f).fuseOdd = s.fuseOdd := rfl
@[simp] theorem modChan_fuseRewrites : (s.modChan c f).fuseRewrites = s.fuseRewrites := rfl
@[simp] theorem modChan_pitchRewrites : (s.modChan c f).pitchRewrites = s.pitchRewrites := rfl
@[simp] theorem modChan_sessionRewrites : (s.modChan c f).sessionRewrites = s.sessionRewrites := rfl
@[simp] theorem modChan_links : (s.modChan c f).links = s.links := rfl
@[simp] theorem modChan_fns : (s.modChan c f).fns = s.fns := rfl
@[simp] theorem modChan_outstanding : (s.modChan c f).outstanding = s.outstanding := rfl
@[simp] theorem modChan_sec : (s.modChan c f).sec = s.sec := rfl
@[simp] theorem modChan_boot : (s.modChan c f).boot = s.boot := rfl
@[simp] theorem modChan_flash : (s.modChan c f).flash = s.flash := rfl
@[simp] theorem modChan_fuses : (s.modChan c f).fuses = s.fuses := rfl
@[simp] theorem modChan_power : (s.modChan c f).power = s.power := rfl
@[simp] theorem modChan_shared : (s.modChan c f).shared = s.shared := rfl
@[simp] theorem modChan_sites : (s.modChan c f).sites = s.sites := rfl
@[simp] theorem modChan_jtag : (s.modChan c f).jtag = s.jtag := rfl
@[simp] theorem modChan_i3cAddress : (s.modChan c f).i3cAddress = s.i3cAddress := rfl
@[simp] theorem modChan_i3cDynamic : (s.modChan c f).i3cDynamic = s.i3cDynamic := rfl
@[simp] theorem modChan_perst : (s.modChan c f).perst = s.perst := rfl
@[simp] theorem modChan_hostRate : (s.modChan c f).hostRate = s.hostRate := rfl
@[simp] theorem modChan_hostWidth : (s.modChan c f).hostWidth = s.hostWidth := rfl
@[simp] theorem modChan_bistQueue : (s.modChan c f).bistQueue = s.bistQueue := rfl
@[simp] theorem modChan_devTime : (s.modChan c f).devTime = s.devTime := rfl
@[simp] theorem modChan_aoCount : (s.modChan c f).aoCount = s.aoCount := rfl
@[simp] theorem modChan_out : (s.modChan c f).out = s.out := rfl
@[simp] theorem modChan_fresh : (s.modChan c f).fresh = s.fresh := rfl
@[simp] theorem modChan_pending : (s.modChan c f).pending = s.pending := rfl

end

/-! ## modPort -/

section

variable (j : Nat) (f : ZPort → ZPort)

@[simp] theorem modPort_mem : (s.modPort j f).mem = s.mem := rfl
@[simp] theorem modPort_spad : (s.modPort j f).spad = s.spad := rfl
@[simp] theorem modPort_clean : (s.modPort j f).clean = s.clean := rfl
@[simp] theorem modPort_parts : (s.modPort j f).parts = s.parts := rfl
@[simp] theorem modPort_stalls : (s.modPort j f).stalls = s.stalls := rfl
@[simp] theorem modPort_fencedPos : (s.modPort j f).fencedPos = s.fencedPos := rfl
@[simp] theorem modPort_domains : (s.modPort j f).domains = s.domains := rfl
@[simp] theorem modPort_groups : (s.modPort j f).groups = s.groups := rfl
@[simp] theorem modPort_hostFetch : (s.modPort j f).hostFetch = s.hostFetch := rfl
@[simp] theorem modPort_hostCommit : (s.modPort j f).hostCommit = s.hostCommit := rfl
@[simp] theorem modPort_hostStream : (s.modPort j f).hostStream = s.hostStream := rfl
@[simp] theorem modPort_l1s : (s.modPort j f).l1s = s.l1s := rfl
@[simp] theorem modPort_noc : (s.modPort j f).noc = s.noc := rfl
@[simp] theorem modPort_spadOdd : (s.modPort j f).spadOdd = s.spadOdd := rfl
@[simp] theorem modPort_dies : (s.modPort j f).dies = s.dies := rfl
@[simp] theorem modPort_edges : (s.modPort j f).edges = s.edges := rfl
@[simp] theorem modPort_crossings : (s.modPort j f).crossings = s.crossings := rfl
@[simp] theorem modPort_sidebands : (s.modPort j f).sidebands = s.sidebands := rfl
@[simp] theorem modPort_hbm : (s.modPort j f).hbm = s.hbm := rfl
@[simp] theorem modPort_chans : (s.modPort j f).chans = s.chans := rfl
@[simp] theorem modPort_failLog : (s.modPort j f).failLog = s.failLog := rfl
@[simp] theorem modPort_failCount : (s.modPort j f).failCount = s.failCount := rfl
@[simp] theorem modPort_chkLog : (s.modPort j f).chkLog = s.chkLog := rfl
@[simp] theorem modPort_chkCount : (s.modPort j f).chkCount = s.chkCount := rfl
@[simp] theorem modPort_fuseOdd : (s.modPort j f).fuseOdd = s.fuseOdd := rfl
@[simp] theorem modPort_fuseRewrites : (s.modPort j f).fuseRewrites = s.fuseRewrites := rfl
@[simp] theorem modPort_pitchRewrites : (s.modPort j f).pitchRewrites = s.pitchRewrites := rfl
@[simp] theorem modPort_sessionRewrites : (s.modPort j f).sessionRewrites = s.sessionRewrites := rfl
@[simp] theorem modPort_links : (s.modPort j f).links = { s.links with ports := tmod s.links.ports j f } := rfl
@[simp] theorem modPort_fns : (s.modPort j f).fns = s.fns := rfl
@[simp] theorem modPort_outstanding : (s.modPort j f).outstanding = s.outstanding := rfl
@[simp] theorem modPort_sec : (s.modPort j f).sec = s.sec := rfl
@[simp] theorem modPort_boot : (s.modPort j f).boot = s.boot := rfl
@[simp] theorem modPort_flash : (s.modPort j f).flash = s.flash := rfl
@[simp] theorem modPort_fuses : (s.modPort j f).fuses = s.fuses := rfl
@[simp] theorem modPort_power : (s.modPort j f).power = s.power := rfl
@[simp] theorem modPort_shared : (s.modPort j f).shared = s.shared := rfl
@[simp] theorem modPort_sites : (s.modPort j f).sites = s.sites := rfl
@[simp] theorem modPort_jtag : (s.modPort j f).jtag = s.jtag := rfl
@[simp] theorem modPort_i3cAddress : (s.modPort j f).i3cAddress = s.i3cAddress := rfl
@[simp] theorem modPort_i3cDynamic : (s.modPort j f).i3cDynamic = s.i3cDynamic := rfl
@[simp] theorem modPort_perst : (s.modPort j f).perst = s.perst := rfl
@[simp] theorem modPort_hostRate : (s.modPort j f).hostRate = s.hostRate := rfl
@[simp] theorem modPort_hostWidth : (s.modPort j f).hostWidth = s.hostWidth := rfl
@[simp] theorem modPort_bistQueue : (s.modPort j f).bistQueue = s.bistQueue := rfl
@[simp] theorem modPort_devTime : (s.modPort j f).devTime = s.devTime := rfl
@[simp] theorem modPort_aoCount : (s.modPort j f).aoCount = s.aoCount := rfl
@[simp] theorem modPort_out : (s.modPort j f).out = s.out := rfl
@[simp] theorem modPort_fresh : (s.modPort j f).fresh = s.fresh := rfl
@[simp] theorem modPort_pending : (s.modPort j f).pending = s.pending := rfl

end

/-! ## modSite -/

section

variable (i : Nat) (f : Site → Site)

@[simp] theorem modSite_mem : (s.modSite i f).mem = s.mem := rfl
@[simp] theorem modSite_spad : (s.modSite i f).spad = s.spad := rfl
@[simp] theorem modSite_clean : (s.modSite i f).clean = s.clean := rfl
@[simp] theorem modSite_parts : (s.modSite i f).parts = s.parts := rfl
@[simp] theorem modSite_stalls : (s.modSite i f).stalls = s.stalls := rfl
@[simp] theorem modSite_fencedPos : (s.modSite i f).fencedPos = s.fencedPos := rfl
@[simp] theorem modSite_domains : (s.modSite i f).domains = s.domains := rfl
@[simp] theorem modSite_groups : (s.modSite i f).groups = s.groups := rfl
@[simp] theorem modSite_hostFetch : (s.modSite i f).hostFetch = s.hostFetch := rfl
@[simp] theorem modSite_hostCommit : (s.modSite i f).hostCommit = s.hostCommit := rfl
@[simp] theorem modSite_hostStream : (s.modSite i f).hostStream = s.hostStream := rfl
@[simp] theorem modSite_l1s : (s.modSite i f).l1s = s.l1s := rfl
@[simp] theorem modSite_noc : (s.modSite i f).noc = s.noc := rfl
@[simp] theorem modSite_spadOdd : (s.modSite i f).spadOdd = s.spadOdd := rfl
@[simp] theorem modSite_dies : (s.modSite i f).dies = s.dies := rfl
@[simp] theorem modSite_edges : (s.modSite i f).edges = s.edges := rfl
@[simp] theorem modSite_crossings : (s.modSite i f).crossings = s.crossings := rfl
@[simp] theorem modSite_sidebands : (s.modSite i f).sidebands = s.sidebands := rfl
@[simp] theorem modSite_hbm : (s.modSite i f).hbm = s.hbm := rfl
@[simp] theorem modSite_chans : (s.modSite i f).chans = s.chans := rfl
@[simp] theorem modSite_failLog : (s.modSite i f).failLog = s.failLog := rfl
@[simp] theorem modSite_failCount : (s.modSite i f).failCount = s.failCount := rfl
@[simp] theorem modSite_chkLog : (s.modSite i f).chkLog = s.chkLog := rfl
@[simp] theorem modSite_chkCount : (s.modSite i f).chkCount = s.chkCount := rfl
@[simp] theorem modSite_fuseOdd : (s.modSite i f).fuseOdd = s.fuseOdd := rfl
@[simp] theorem modSite_fuseRewrites : (s.modSite i f).fuseRewrites = s.fuseRewrites := rfl
@[simp] theorem modSite_pitchRewrites : (s.modSite i f).pitchRewrites = s.pitchRewrites := rfl
@[simp] theorem modSite_sessionRewrites : (s.modSite i f).sessionRewrites = s.sessionRewrites := rfl
@[simp] theorem modSite_links : (s.modSite i f).links = s.links := rfl
@[simp] theorem modSite_fns : (s.modSite i f).fns = s.fns := rfl
@[simp] theorem modSite_outstanding : (s.modSite i f).outstanding = s.outstanding := rfl
@[simp] theorem modSite_sec : (s.modSite i f).sec = s.sec := rfl
@[simp] theorem modSite_boot : (s.modSite i f).boot = s.boot := rfl
@[simp] theorem modSite_flash : (s.modSite i f).flash = s.flash := rfl
@[simp] theorem modSite_fuses : (s.modSite i f).fuses = s.fuses := rfl
@[simp] theorem modSite_power : (s.modSite i f).power = s.power := rfl
@[simp] theorem modSite_shared : (s.modSite i f).shared = s.shared := rfl
@[simp] theorem modSite_sites : (s.modSite i f).sites = tmod s.sites i f := rfl
@[simp] theorem modSite_jtag : (s.modSite i f).jtag = s.jtag := rfl
@[simp] theorem modSite_i3cAddress : (s.modSite i f).i3cAddress = s.i3cAddress := rfl
@[simp] theorem modSite_i3cDynamic : (s.modSite i f).i3cDynamic = s.i3cDynamic := rfl
@[simp] theorem modSite_perst : (s.modSite i f).perst = s.perst := rfl
@[simp] theorem modSite_hostRate : (s.modSite i f).hostRate = s.hostRate := rfl
@[simp] theorem modSite_hostWidth : (s.modSite i f).hostWidth = s.hostWidth := rfl
@[simp] theorem modSite_bistQueue : (s.modSite i f).bistQueue = s.bistQueue := rfl
@[simp] theorem modSite_devTime : (s.modSite i f).devTime = s.devTime := rfl
@[simp] theorem modSite_aoCount : (s.modSite i f).aoCount = s.aoCount := rfl
@[simp] theorem modSite_out : (s.modSite i f).out = s.out := rfl
@[simp] theorem modSite_fresh : (s.modSite i f).fresh = s.fresh := rfl
@[simp] theorem modSite_pending : (s.modSite i f).pending = s.pending := rfl

end

/-! ## modGroup -/

section

variable (g : GroupRef) (f : Group → Group)

@[simp] theorem modGroup_mem : (s.modGroup g f).mem = s.mem := rfl
@[simp] theorem modGroup_spad : (s.modGroup g f).spad = s.spad := rfl
@[simp] theorem modGroup_clean : (s.modGroup g f).clean = s.clean := rfl
@[simp] theorem modGroup_parts : (s.modGroup g f).parts = s.parts := rfl
@[simp] theorem modGroup_stalls : (s.modGroup g f).stalls = s.stalls := rfl
@[simp] theorem modGroup_fencedPos : (s.modGroup g f).fencedPos = s.fencedPos := rfl
@[simp] theorem modGroup_domains : (s.modGroup g f).domains = s.domains := rfl
@[simp] theorem modGroup_groups : (s.modGroup g f).groups = tmod s.groups (groupKey g.stall g.core g.slot) f := rfl
@[simp] theorem modGroup_hostFetch : (s.modGroup g f).hostFetch = s.hostFetch := rfl
@[simp] theorem modGroup_hostCommit : (s.modGroup g f).hostCommit = s.hostCommit := rfl
@[simp] theorem modGroup_hostStream : (s.modGroup g f).hostStream = s.hostStream := rfl
@[simp] theorem modGroup_l1s : (s.modGroup g f).l1s = s.l1s := rfl
@[simp] theorem modGroup_noc : (s.modGroup g f).noc = s.noc := rfl
@[simp] theorem modGroup_spadOdd : (s.modGroup g f).spadOdd = s.spadOdd := rfl
@[simp] theorem modGroup_dies : (s.modGroup g f).dies = s.dies := rfl
@[simp] theorem modGroup_edges : (s.modGroup g f).edges = s.edges := rfl
@[simp] theorem modGroup_crossings : (s.modGroup g f).crossings = s.crossings := rfl
@[simp] theorem modGroup_sidebands : (s.modGroup g f).sidebands = s.sidebands := rfl
@[simp] theorem modGroup_hbm : (s.modGroup g f).hbm = s.hbm := rfl
@[simp] theorem modGroup_chans : (s.modGroup g f).chans = s.chans := rfl
@[simp] theorem modGroup_failLog : (s.modGroup g f).failLog = s.failLog := rfl
@[simp] theorem modGroup_failCount : (s.modGroup g f).failCount = s.failCount := rfl
@[simp] theorem modGroup_chkLog : (s.modGroup g f).chkLog = s.chkLog := rfl
@[simp] theorem modGroup_chkCount : (s.modGroup g f).chkCount = s.chkCount := rfl
@[simp] theorem modGroup_fuseOdd : (s.modGroup g f).fuseOdd = s.fuseOdd := rfl
@[simp] theorem modGroup_fuseRewrites : (s.modGroup g f).fuseRewrites = s.fuseRewrites := rfl
@[simp] theorem modGroup_pitchRewrites : (s.modGroup g f).pitchRewrites = s.pitchRewrites := rfl
@[simp] theorem modGroup_sessionRewrites : (s.modGroup g f).sessionRewrites = s.sessionRewrites := rfl
@[simp] theorem modGroup_links : (s.modGroup g f).links = s.links := rfl
@[simp] theorem modGroup_fns : (s.modGroup g f).fns = s.fns := rfl
@[simp] theorem modGroup_outstanding : (s.modGroup g f).outstanding = s.outstanding := rfl
@[simp] theorem modGroup_sec : (s.modGroup g f).sec = s.sec := rfl
@[simp] theorem modGroup_boot : (s.modGroup g f).boot = s.boot := rfl
@[simp] theorem modGroup_flash : (s.modGroup g f).flash = s.flash := rfl
@[simp] theorem modGroup_fuses : (s.modGroup g f).fuses = s.fuses := rfl
@[simp] theorem modGroup_power : (s.modGroup g f).power = s.power := rfl
@[simp] theorem modGroup_shared : (s.modGroup g f).shared = s.shared := rfl
@[simp] theorem modGroup_sites : (s.modGroup g f).sites = s.sites := rfl
@[simp] theorem modGroup_jtag : (s.modGroup g f).jtag = s.jtag := rfl
@[simp] theorem modGroup_i3cAddress : (s.modGroup g f).i3cAddress = s.i3cAddress := rfl
@[simp] theorem modGroup_i3cDynamic : (s.modGroup g f).i3cDynamic = s.i3cDynamic := rfl
@[simp] theorem modGroup_perst : (s.modGroup g f).perst = s.perst := rfl
@[simp] theorem modGroup_hostRate : (s.modGroup g f).hostRate = s.hostRate := rfl
@[simp] theorem modGroup_hostWidth : (s.modGroup g f).hostWidth = s.hostWidth := rfl
@[simp] theorem modGroup_bistQueue : (s.modGroup g f).bistQueue = s.bistQueue := rfl
@[simp] theorem modGroup_devTime : (s.modGroup g f).devTime = s.devTime := rfl
@[simp] theorem modGroup_aoCount : (s.modGroup g f).aoCount = s.aoCount := rfl
@[simp] theorem modGroup_out : (s.modGroup g f).out = s.out := rfl
@[simp] theorem modGroup_fresh : (s.modGroup g f).fresh = s.fresh := rfl
@[simp] theorem modGroup_pending : (s.modGroup g f).pending = s.pending := rfl

end

/-! ## modL1 -/

section

variable (l : L1Id) (a : Nat) (f : L1Line → L1Line)

@[simp] theorem modL1_mem : (s.modL1 l a f).mem = s.mem := rfl
@[simp] theorem modL1_spad : (s.modL1 l a f).spad = s.spad := rfl
@[simp] theorem modL1_clean : (s.modL1 l a f).clean = s.clean := rfl
@[simp] theorem modL1_parts : (s.modL1 l a f).parts = s.parts := rfl
@[simp] theorem modL1_stalls : (s.modL1 l a f).stalls = s.stalls := rfl
@[simp] theorem modL1_fencedPos : (s.modL1 l a f).fencedPos = s.fencedPos := rfl
@[simp] theorem modL1_domains : (s.modL1 l a f).domains = s.domains := rfl
@[simp] theorem modL1_groups : (s.modL1 l a f).groups = s.groups := rfl
@[simp] theorem modL1_hostFetch : (s.modL1 l a f).hostFetch = s.hostFetch := rfl
@[simp] theorem modL1_hostCommit : (s.modL1 l a f).hostCommit = s.hostCommit := rfl
@[simp] theorem modL1_hostStream : (s.modL1 l a f).hostStream = s.hostStream := rfl
@[simp] theorem modL1_l1s : (s.modL1 l a f).l1s = tset s.l1s (l1Key l) (tmod (tget s.l1s (l1Key l)) a f) := rfl
@[simp] theorem modL1_noc : (s.modL1 l a f).noc = s.noc := rfl
@[simp] theorem modL1_spadOdd : (s.modL1 l a f).spadOdd = s.spadOdd := rfl
@[simp] theorem modL1_dies : (s.modL1 l a f).dies = s.dies := rfl
@[simp] theorem modL1_edges : (s.modL1 l a f).edges = s.edges := rfl
@[simp] theorem modL1_crossings : (s.modL1 l a f).crossings = s.crossings := rfl
@[simp] theorem modL1_sidebands : (s.modL1 l a f).sidebands = s.sidebands := rfl
@[simp] theorem modL1_hbm : (s.modL1 l a f).hbm = s.hbm := rfl
@[simp] theorem modL1_chans : (s.modL1 l a f).chans = s.chans := rfl
@[simp] theorem modL1_failLog : (s.modL1 l a f).failLog = s.failLog := rfl
@[simp] theorem modL1_failCount : (s.modL1 l a f).failCount = s.failCount := rfl
@[simp] theorem modL1_chkLog : (s.modL1 l a f).chkLog = s.chkLog := rfl
@[simp] theorem modL1_chkCount : (s.modL1 l a f).chkCount = s.chkCount := rfl
@[simp] theorem modL1_fuseOdd : (s.modL1 l a f).fuseOdd = s.fuseOdd := rfl
@[simp] theorem modL1_fuseRewrites : (s.modL1 l a f).fuseRewrites = s.fuseRewrites := rfl
@[simp] theorem modL1_pitchRewrites : (s.modL1 l a f).pitchRewrites = s.pitchRewrites := rfl
@[simp] theorem modL1_sessionRewrites : (s.modL1 l a f).sessionRewrites = s.sessionRewrites := rfl
@[simp] theorem modL1_links : (s.modL1 l a f).links = s.links := rfl
@[simp] theorem modL1_fns : (s.modL1 l a f).fns = s.fns := rfl
@[simp] theorem modL1_outstanding : (s.modL1 l a f).outstanding = s.outstanding := rfl
@[simp] theorem modL1_sec : (s.modL1 l a f).sec = s.sec := rfl
@[simp] theorem modL1_boot : (s.modL1 l a f).boot = s.boot := rfl
@[simp] theorem modL1_flash : (s.modL1 l a f).flash = s.flash := rfl
@[simp] theorem modL1_fuses : (s.modL1 l a f).fuses = s.fuses := rfl
@[simp] theorem modL1_power : (s.modL1 l a f).power = s.power := rfl
@[simp] theorem modL1_shared : (s.modL1 l a f).shared = s.shared := rfl
@[simp] theorem modL1_sites : (s.modL1 l a f).sites = s.sites := rfl
@[simp] theorem modL1_jtag : (s.modL1 l a f).jtag = s.jtag := rfl
@[simp] theorem modL1_i3cAddress : (s.modL1 l a f).i3cAddress = s.i3cAddress := rfl
@[simp] theorem modL1_i3cDynamic : (s.modL1 l a f).i3cDynamic = s.i3cDynamic := rfl
@[simp] theorem modL1_perst : (s.modL1 l a f).perst = s.perst := rfl
@[simp] theorem modL1_hostRate : (s.modL1 l a f).hostRate = s.hostRate := rfl
@[simp] theorem modL1_hostWidth : (s.modL1 l a f).hostWidth = s.hostWidth := rfl
@[simp] theorem modL1_bistQueue : (s.modL1 l a f).bistQueue = s.bistQueue := rfl
@[simp] theorem modL1_devTime : (s.modL1 l a f).devTime = s.devTime := rfl
@[simp] theorem modL1_aoCount : (s.modL1 l a f).aoCount = s.aoCount := rfl
@[simp] theorem modL1_out : (s.modL1 l a f).out = s.out := rfl
@[simp] theorem modL1_fresh : (s.modL1 l a f).fresh = s.fresh := rfl
@[simp] theorem modL1_pending : (s.modL1 l a f).pending = s.pending := rfl

end

/-! ## modLine -/

section

variable (p a : Nat) (f : Line → Line)

@[simp] theorem modLine_mem : (s.modLine p a f).mem = s.mem := rfl
@[simp] theorem modLine_spad : (s.modLine p a f).spad = s.spad := rfl
@[simp] theorem modLine_clean : (s.modLine p a f).clean = s.clean := rfl
@[simp] theorem modLine_stalls : (s.modLine p a f).stalls = s.stalls := rfl
@[simp] theorem modLine_fencedPos : (s.modLine p a f).fencedPos = s.fencedPos := rfl
@[simp] theorem modLine_domains : (s.modLine p a f).domains = s.domains := rfl
@[simp] theorem modLine_groups : (s.modLine p a f).groups = s.groups := rfl
@[simp] theorem modLine_hostFetch : (s.modLine p a f).hostFetch = s.hostFetch := rfl
@[simp] theorem modLine_hostCommit : (s.modLine p a f).hostCommit = s.hostCommit := rfl
@[simp] theorem modLine_hostStream : (s.modLine p a f).hostStream = s.hostStream := rfl
@[simp] theorem modLine_l1s : (s.modLine p a f).l1s = s.l1s := rfl
@[simp] theorem modLine_noc : (s.modLine p a f).noc = s.noc := rfl
@[simp] theorem modLine_spadOdd : (s.modLine p a f).spadOdd = s.spadOdd := rfl
@[simp] theorem modLine_dies : (s.modLine p a f).dies = s.dies := rfl
@[simp] theorem modLine_edges : (s.modLine p a f).edges = s.edges := rfl
@[simp] theorem modLine_crossings : (s.modLine p a f).crossings = s.crossings := rfl
@[simp] theorem modLine_sidebands : (s.modLine p a f).sidebands = s.sidebands := rfl
@[simp] theorem modLine_hbm : (s.modLine p a f).hbm = s.hbm := rfl
@[simp] theorem modLine_chans : (s.modLine p a f).chans = s.chans := rfl
@[simp] theorem modLine_failLog : (s.modLine p a f).failLog = s.failLog := rfl
@[simp] theorem modLine_failCount : (s.modLine p a f).failCount = s.failCount := rfl
@[simp] theorem modLine_chkLog : (s.modLine p a f).chkLog = s.chkLog := rfl
@[simp] theorem modLine_chkCount : (s.modLine p a f).chkCount = s.chkCount := rfl
@[simp] theorem modLine_fuseOdd : (s.modLine p a f).fuseOdd = s.fuseOdd := rfl
@[simp] theorem modLine_fuseRewrites : (s.modLine p a f).fuseRewrites = s.fuseRewrites := rfl
@[simp] theorem modLine_pitchRewrites : (s.modLine p a f).pitchRewrites = s.pitchRewrites := rfl
@[simp] theorem modLine_sessionRewrites : (s.modLine p a f).sessionRewrites = s.sessionRewrites := rfl
@[simp] theorem modLine_links : (s.modLine p a f).links = s.links := rfl
@[simp] theorem modLine_fns : (s.modLine p a f).fns = s.fns := rfl
@[simp] theorem modLine_outstanding : (s.modLine p a f).outstanding = s.outstanding := rfl
@[simp] theorem modLine_sec : (s.modLine p a f).sec = s.sec := rfl
@[simp] theorem modLine_boot : (s.modLine p a f).boot = s.boot := rfl
@[simp] theorem modLine_flash : (s.modLine p a f).flash = s.flash := rfl
@[simp] theorem modLine_fuses : (s.modLine p a f).fuses = s.fuses := rfl
@[simp] theorem modLine_power : (s.modLine p a f).power = s.power := rfl
@[simp] theorem modLine_shared : (s.modLine p a f).shared = s.shared := rfl
@[simp] theorem modLine_sites : (s.modLine p a f).sites = s.sites := rfl
@[simp] theorem modLine_jtag : (s.modLine p a f).jtag = s.jtag := rfl
@[simp] theorem modLine_i3cAddress : (s.modLine p a f).i3cAddress = s.i3cAddress := rfl
@[simp] theorem modLine_i3cDynamic : (s.modLine p a f).i3cDynamic = s.i3cDynamic := rfl
@[simp] theorem modLine_perst : (s.modLine p a f).perst = s.perst := rfl
@[simp] theorem modLine_hostRate : (s.modLine p a f).hostRate = s.hostRate := rfl
@[simp] theorem modLine_hostWidth : (s.modLine p a f).hostWidth = s.hostWidth := rfl
@[simp] theorem modLine_bistQueue : (s.modLine p a f).bistQueue = s.bistQueue := rfl
@[simp] theorem modLine_devTime : (s.modLine p a f).devTime = s.devTime := rfl
@[simp] theorem modLine_aoCount : (s.modLine p a f).aoCount = s.aoCount := rfl
@[simp] theorem modLine_out : (s.modLine p a f).out = s.out := rfl
@[simp] theorem modLine_fresh : (s.modLine p a f).fresh = s.fresh := rfl
@[simp] theorem modLine_pending : (s.modLine p a f).pending = s.pending := rfl

end

/-! ## emit -/

section

variable (o : Output)

@[simp] theorem emit_mem : (s.emit o).mem = s.mem := rfl
@[simp] theorem emit_spad : (s.emit o).spad = s.spad := rfl
@[simp] theorem emit_clean : (s.emit o).clean = s.clean := rfl
@[simp] theorem emit_parts : (s.emit o).parts = s.parts := rfl
@[simp] theorem emit_stalls : (s.emit o).stalls = s.stalls := rfl
@[simp] theorem emit_fencedPos : (s.emit o).fencedPos = s.fencedPos := rfl
@[simp] theorem emit_domains : (s.emit o).domains = s.domains := rfl
@[simp] theorem emit_groups : (s.emit o).groups = s.groups := rfl
@[simp] theorem emit_hostFetch : (s.emit o).hostFetch = s.hostFetch := rfl
@[simp] theorem emit_hostCommit : (s.emit o).hostCommit = s.hostCommit := rfl
@[simp] theorem emit_hostStream : (s.emit o).hostStream = s.hostStream := rfl
@[simp] theorem emit_l1s : (s.emit o).l1s = s.l1s := rfl
@[simp] theorem emit_noc : (s.emit o).noc = s.noc := rfl
@[simp] theorem emit_spadOdd : (s.emit o).spadOdd = s.spadOdd := rfl
@[simp] theorem emit_dies : (s.emit o).dies = s.dies := rfl
@[simp] theorem emit_edges : (s.emit o).edges = s.edges := rfl
@[simp] theorem emit_crossings : (s.emit o).crossings = s.crossings := rfl
@[simp] theorem emit_sidebands : (s.emit o).sidebands = s.sidebands := rfl
@[simp] theorem emit_hbm : (s.emit o).hbm = s.hbm := rfl
@[simp] theorem emit_chans : (s.emit o).chans = s.chans := rfl
@[simp] theorem emit_failLog : (s.emit o).failLog = s.failLog := rfl
@[simp] theorem emit_failCount : (s.emit o).failCount = s.failCount := rfl
@[simp] theorem emit_chkLog : (s.emit o).chkLog = s.chkLog := rfl
@[simp] theorem emit_chkCount : (s.emit o).chkCount = s.chkCount := rfl
@[simp] theorem emit_fuseOdd : (s.emit o).fuseOdd = s.fuseOdd := rfl
@[simp] theorem emit_fuseRewrites : (s.emit o).fuseRewrites = s.fuseRewrites := rfl
@[simp] theorem emit_pitchRewrites : (s.emit o).pitchRewrites = s.pitchRewrites := rfl
@[simp] theorem emit_sessionRewrites : (s.emit o).sessionRewrites = s.sessionRewrites := rfl
@[simp] theorem emit_links : (s.emit o).links = s.links := rfl
@[simp] theorem emit_fns : (s.emit o).fns = s.fns := rfl
@[simp] theorem emit_outstanding : (s.emit o).outstanding = s.outstanding := rfl
@[simp] theorem emit_sec : (s.emit o).sec = s.sec := rfl
@[simp] theorem emit_boot : (s.emit o).boot = s.boot := rfl
@[simp] theorem emit_flash : (s.emit o).flash = s.flash := rfl
@[simp] theorem emit_fuses : (s.emit o).fuses = s.fuses := rfl
@[simp] theorem emit_power : (s.emit o).power = s.power := rfl
@[simp] theorem emit_shared : (s.emit o).shared = s.shared := rfl
@[simp] theorem emit_sites : (s.emit o).sites = s.sites := rfl
@[simp] theorem emit_jtag : (s.emit o).jtag = s.jtag := rfl
@[simp] theorem emit_i3cAddress : (s.emit o).i3cAddress = s.i3cAddress := rfl
@[simp] theorem emit_i3cDynamic : (s.emit o).i3cDynamic = s.i3cDynamic := rfl
@[simp] theorem emit_perst : (s.emit o).perst = s.perst := rfl
@[simp] theorem emit_hostRate : (s.emit o).hostRate = s.hostRate := rfl
@[simp] theorem emit_hostWidth : (s.emit o).hostWidth = s.hostWidth := rfl
@[simp] theorem emit_bistQueue : (s.emit o).bistQueue = s.bistQueue := rfl
@[simp] theorem emit_devTime : (s.emit o).devTime = s.devTime := rfl
@[simp] theorem emit_aoCount : (s.emit o).aoCount = s.aoCount := rfl
@[simp] theorem emit_out : (s.emit o).out = o :: s.out := rfl
@[simp] theorem emit_fresh : (s.emit o).fresh = s.fresh := rfl
@[simp] theorem emit_pending : (s.emit o).pending = s.pending := rfl

end

/-! ## draw -/

@[simp] theorem draw_mem : s.draw.2.mem = s.mem := rfl
@[simp] theorem draw_spad : s.draw.2.spad = s.spad := rfl
@[simp] theorem draw_clean : s.draw.2.clean = s.clean := rfl
@[simp] theorem draw_parts : s.draw.2.parts = s.parts := rfl
@[simp] theorem draw_stalls : s.draw.2.stalls = s.stalls := rfl
@[simp] theorem draw_fencedPos : s.draw.2.fencedPos = s.fencedPos := rfl
@[simp] theorem draw_domains : s.draw.2.domains = s.domains := rfl
@[simp] theorem draw_groups : s.draw.2.groups = s.groups := rfl
@[simp] theorem draw_hostFetch : s.draw.2.hostFetch = s.hostFetch := rfl
@[simp] theorem draw_hostCommit : s.draw.2.hostCommit = s.hostCommit := rfl
@[simp] theorem draw_hostStream : s.draw.2.hostStream = s.hostStream := rfl
@[simp] theorem draw_l1s : s.draw.2.l1s = s.l1s := rfl
@[simp] theorem draw_noc : s.draw.2.noc = s.noc := rfl
@[simp] theorem draw_spadOdd : s.draw.2.spadOdd = s.spadOdd := rfl
@[simp] theorem draw_dies : s.draw.2.dies = s.dies := rfl
@[simp] theorem draw_edges : s.draw.2.edges = s.edges := rfl
@[simp] theorem draw_crossings : s.draw.2.crossings = s.crossings := rfl
@[simp] theorem draw_sidebands : s.draw.2.sidebands = s.sidebands := rfl
@[simp] theorem draw_hbm : s.draw.2.hbm = s.hbm := rfl
@[simp] theorem draw_chans : s.draw.2.chans = s.chans := rfl
@[simp] theorem draw_failLog : s.draw.2.failLog = s.failLog := rfl
@[simp] theorem draw_failCount : s.draw.2.failCount = s.failCount := rfl
@[simp] theorem draw_chkLog : s.draw.2.chkLog = s.chkLog := rfl
@[simp] theorem draw_chkCount : s.draw.2.chkCount = s.chkCount := rfl
@[simp] theorem draw_fuseOdd : s.draw.2.fuseOdd = s.fuseOdd := rfl
@[simp] theorem draw_fuseRewrites : s.draw.2.fuseRewrites = s.fuseRewrites := rfl
@[simp] theorem draw_pitchRewrites : s.draw.2.pitchRewrites = s.pitchRewrites := rfl
@[simp] theorem draw_sessionRewrites : s.draw.2.sessionRewrites = s.sessionRewrites := rfl
@[simp] theorem draw_links : s.draw.2.links = s.links := rfl
@[simp] theorem draw_fns : s.draw.2.fns = s.fns := rfl
@[simp] theorem draw_outstanding : s.draw.2.outstanding = s.outstanding := rfl
@[simp] theorem draw_sec : s.draw.2.sec = s.sec := rfl
@[simp] theorem draw_boot : s.draw.2.boot = s.boot := rfl
@[simp] theorem draw_flash : s.draw.2.flash = s.flash := rfl
@[simp] theorem draw_fuses : s.draw.2.fuses = s.fuses := rfl
@[simp] theorem draw_power : s.draw.2.power = s.power := rfl
@[simp] theorem draw_shared : s.draw.2.shared = s.shared := rfl
@[simp] theorem draw_sites : s.draw.2.sites = s.sites := rfl
@[simp] theorem draw_jtag : s.draw.2.jtag = s.jtag := rfl
@[simp] theorem draw_i3cAddress : s.draw.2.i3cAddress = s.i3cAddress := rfl
@[simp] theorem draw_i3cDynamic : s.draw.2.i3cDynamic = s.i3cDynamic := rfl
@[simp] theorem draw_perst : s.draw.2.perst = s.perst := rfl
@[simp] theorem draw_hostRate : s.draw.2.hostRate = s.hostRate := rfl
@[simp] theorem draw_hostWidth : s.draw.2.hostWidth = s.hostWidth := rfl
@[simp] theorem draw_bistQueue : s.draw.2.bistQueue = s.bistQueue := rfl
@[simp] theorem draw_devTime : s.draw.2.devTime = s.devTime := rfl
@[simp] theorem draw_aoCount : s.draw.2.aoCount = s.aoCount := rfl
@[simp] theorem draw_out : s.draw.2.out = s.out := rfl
@[simp] theorem draw_fresh : s.draw.2.fresh = s.fresh + 1 := rfl
@[simp] theorem draw_pending : s.draw.2.pending = s.pending := rfl

@[simp] theorem draw_fst : s.draw.1 = s.fresh := rfl

end Sys2Proof.Machine
end

