-- ==== Sys2Proof/Laws/Tables.lean ====
section
/-! SUPPORT. Sparse tables: what an entry is after a set, a change or a deletion; and the units of the state after a change
of one of them. -/

namespace Sys2Proof.Machine

variable {α : Type}

@[simp] theorem tget?_nil (i : Nat) : tget? ([] : Tbl α) i = none := rfl

@[simp] theorem tget_nil [Inhabited α] (i : Nat) : tget ([] : Tbl α) i = default := rfl

theorem tget?_tdel_other {t : Tbl α} {i j : Nat} (h : j ≠ i) : tget? (tdel t i) j = tget? t j := by
  induction t with
  | nil => rfl
  | cons e r ih =>
    obtain ⟨k, v⟩ := e
    unfold tdel at ih ⊢
    rw [List.filter_cons]
    by_cases hk : k = i
    · subst hk
      rw [if_neg (by simp), ih]
      simp only [tget?]
      rw [if_neg (Ne.symm h)]
    · rw [if_pos (by simpa using hk)]
      simp only [tget?]
      rw [ih]

/-- A deleted entry is gone. -/
@[simp] theorem tget?_tdel_same {t : Tbl α} {i : Nat} : tget? (tdel t i) i = none := by
  induction t with
  | nil => rfl
  | cons e r ih =>
    obtain ⟨k, v⟩ := e
    unfold tdel at ih ⊢
    rw [List.filter_cons]
    by_cases hk : k = i
    · rw [if_neg (by simpa using hk), ih]
    · rw [if_pos (by simpa using hk)]
      simp only [tget?]
      rw [if_neg hk, ih]

@[simp] theorem tget?_tset_same {t : Tbl α} {i : Nat} {v : α} : tget? (tset t i v) i = some v := by
  simp [tset, tget?]

theorem tget?_tset_other {t : Tbl α} {i j : Nat} {v : α} (h : j ≠ i) : tget? (tset t i v) j = tget? t j := by
  simp [tset, tget?, Ne.symm h, tget?_tdel_other h]

variable [Inhabited α]

theorem tget_eq_getD {t : Tbl α} {i : Nat} : tget t i = (tget? t i).getD default := by
  induction t with
  | nil => rfl
  | cons e r ih =>
    obtain ⟨k, v⟩ := e
    by_cases hk : k = i
    · simp [tget, tget?, hk]
    · simp [tget, tget?, hk, ih]

/-- The entry just set. -/
@[simp] theorem tget_tset_same {t : Tbl α} {i : Nat} {v : α} : tget (tset t i v) i = v := by
  simp [tget_eq_getD]

/-- Every other entry is as before. -/
theorem tget_tset_other {t : Tbl α} {i j : Nat} {v : α} (h : j ≠ i) : tget (tset t i v) j = tget t j := by
  simp [tget_eq_getD, tget?_tset_other h]

/-- The entry just changed. -/
@[simp] theorem tget_tmod_same {t : Tbl α} {i : Nat} {f : α → α} : tget (tmod t i f) i = f (tget t i) := by
  simp [tmod]

/-- Every other entry is as before. -/
theorem tget_tmod_other {t : Tbl α} {i j : Nat} {f : α → α} (h : j ≠ i) : tget (tmod t i f) j = tget t j := by
  simp [tmod, tget_tset_other h]

/-- A deleted entry reads as at reset. -/
@[simp] theorem tget_tdel_same {t : Tbl α} {i : Nat} : tget (tdel t i) i = default := by
  simp [tget_eq_getD]

theorem tget_tdel_other {t : Tbl α} {i j : Nat} (h : j ≠ i) : tget (tdel t i) j = tget t j := by
  simp [tget_eq_getD, tget?_tdel_other h]

/-! ## Units of the state -/

variable (s : State)

@[simp] theorem part_modPart_same (p : Nat) (f : Part → Part) : (s.modPart p f).part p = f (s.part p) := by
  simp [State.part]

theorem part_modPart_other {p p' : Nat} (f : Part → Part) (h : p' ≠ p) : (s.modPart p f).part p' = s.part p' := by
  simp [State.part, tget_tmod_other h]

@[simp] theorem stall_modStall_same (i : Nat) (f : Stall → Stall) : (s.modStall i f).stall i = f (s.stall i) := by
  simp [State.stall]

theorem stall_modStall_other {i j : Nat} (f : Stall → Stall) (h : j ≠ i) : (s.modStall i f).stall j = s.stall j := by
  simp [State.stall, tget_tmod_other h]

@[simp] theorem fn_modFn_same (n : Nat) (f : FnState → FnState) : (s.modFn n f).fn n = f (s.fn n) := by
  simp [State.fn]

theorem fn_modFn_other {n m : Nat} (f : FnState → FnState) (h : m ≠ n) : (s.modFn n f).fn m = s.fn m := by
  simp [State.fn, tget_tmod_other h]

@[simp] theorem chan_modChan_same (c : Nat) (f : Chan → Chan) : (s.modChan c f).chan c = f (s.chan c) := by
  simp [State.chan]

@[simp] theorem port_modPort_same (j : Nat) (f : ZPort → ZPort) : (s.modPort j f).port j = f (s.port j) := by
  simp [State.port]

@[simp] theorem site_modSite_same (i : Nat) (f : Site → Site) : (s.modSite i f).site i = f (s.site i) := by
  simp [State.site]

@[simp] theorem die_modDie_same (d : Nat) (f : Die → Die) : (s.modDie d f).die d = f (s.die d) := by
  simp [State.die]

@[simp] theorem dom_modDom_same (p d : Nat) (f : Domain → Domain) : (s.modDom p d f).dom p d = f (s.dom p d) := by
  simp [State.dom]

@[simp] theorem group_modGroup_same (g : GroupRef) (f : Group → Group) : (s.modGroup g f).group g = f (s.group g) := by
  simp [State.group]

@[simp] theorem l1Line_modL1_same (l : L1Id) (a : Nat) (f : L1Line → L1Line) :
    (s.modL1 l a f).l1Line l a = f (s.l1Line l a) := by
  simp [State.l1Line]

@[simp] theorem line_modLine_same (p a : Nat) (f : Line → Line) : (s.modLine p a f).line p a = f (s.line p a) := by
  simp [State.line, State.modLine]

end Sys2Proof.Machine
end

