-- ==== Sys2Proof/Laws/Coherence.lean ====
section
/-! SUPPORT. The home's operations on a line that lies in the sets and at which nothing is in progress: what a lookup, an
arriving request and the staging check do there. -/

namespace Sys2Proof.Machine

variable {s : State} {p a : Nat}

/-- A change of a partition that leaves its lines alone leaves every line alone. -/
theorem line_modPart {p q b : Nat} {f : Part → Part} (h : ∀ x, (f x).cache.lines = x.cache.lines) :
    (s.modPart p f).line q b = s.line q b := by
  simp only [State.line]
  by_cases hp : q = p
  · subst hp
    simp [h]
  · simp [State.part, State.modPart, tget_tmod_other hp]

@[simp] theorem line_tallyAdd {c k q b : Nat} : (tallyAdd s p c k).line q b = s.line q b := line_modPart fun _ => rfl

@[simp] theorem line_unDead {q b c : Nat} : (unDead s p b).line q c = s.line q c := line_modPart fun _ => rfl

/-- A hit on a line in the sets is counted and changes nothing else. -/
theorem access_resident {ag : Agent} {own : Nat} {al : MissFill} (h : (s.line p a).state ≠ .absent)
    (h2 : (s.line p a).streamed = false) (h3 : isOutside ag = true → isStagedLine (s.line p a) = true → al = .none) :
    access s p a ag own al = tallyAdd (tallyAdd s p (classOf s p a own) 0) p (classOf s p a own) 1 := by
  have hc : ¬((isOutside ag && isStagedLine (s.line p a) && decide (al ≠ .none)) = true) := by
    intro hc
    simp only [Bool.and_eq_true, decide_eq_true_eq] at hc
    exact hc.2 (h3 hc.1.1 hc.1.2)
  simp only [access]
  rw [if_neg hc]
  simp [h, h2]

/-- A line without a parity error is looked up and found as it is (R239). -/
theorem lookUp_homed (h : Homed s p a) : lookUp s p a = s := by
  unfold lookUp
  cases hh : homeOf s p a with
  | none => rfl
  | some i =>
    have hf : (s.line p a).filter.any (fun f => f.odd) = false := by
      rw [List.any_eq_false]
      intro f hf
      simp [h.names f hf]
    simp [hf, h.good]

/-- A request to such a line has a home to arrive at (R216). -/
theorem hasHome_homed {r : HomeRequest} (h : Homed s p a) : hasHome s p a r = true := by
  have ho : isRemoteLine a = false := by
    have := h.own
    unfold isLsmLine at this
    simp only [Bool.and_eq_true, Bool.not_eq_true'] at this
    exact this.1
  simp [hasHome, h.home, ho, h.own, h.grants]

/-- A line of own memory is no remote copy. -/
theorem homed_own (h : Homed s p a) : isRemoteLine a = false := by
  have := h.own
  unfold isLsmLine at this
  simp only [Bool.and_eq_true, Bool.not_eq_true'] at this
  exact this.1

theorem homed_modLine {f : Line → Line} (h : Homed s p a) (ho : ∀ n, (f n).odd = n.odd) (hf : ∀ n, (f n).filter = n.filter) :
    Homed (s.modLine p a f) p a := by
  have hp : ((s.modLine p a f).part p).cache.sliceList = (s.part p).cache.sliceList ∧
      ((s.modLine p a f).part p).record = (s.part p).record := by simp [State.modLine]
  refine ⟨?_, h.own, ?_, ?_, ?_⟩
  · have := h.home
    unfold homeOf at this ⊢
    rw [hp.1]
    exact this
  · have := h.grants
    unfold granted at this ⊢
    rw [hp.2]
    exact this
  · rw [line_modLine_same, ho]
    exact h.good
  · rw [line_modLine_same, hf]
    exact h.names

/-- A request to a line with a transaction in progress waits (R220). -/
theorem arrive_busy {r : HomeRequest} (h : Homed s p a) (hw : (s.line p a).windowOpen = false)
    (hc : (s.line p a).cur.isSome = true) :
    arrive s p a r = s.modLine p a (fun n => { n with waiting := n.waiting ++ [r] }) := by
  unfold arrive
  rw [hasHome_homed h, lookUp_homed h]
  simp only [homed_own h, Bool.false_and, Bool.false_eq_true, if_false, hw, Bool.not_true]
  rw [if_pos (by simp [lineBusy, hc])]
  unfold serveLine
  rw [line_modLine_same]
  simp only [List.length_append, List.length_singleton]
  unfold homeNext
  rw [lookUp_homed (homed_modLine (f := fun n => { n with waiting := n.waiting ++ [r] }) h (fun _ => rfl) (fun _ => rfl))]
  simp only
  rw [line_modLine_same]
  simp [lineBusy, hc]

theorem modLine_modLine {f g : Line → Line} : (s.modLine p a f).modLine p a g = s.modLine p a (fun n => g (f n)) := by
  simp only [State.modLine, State.modPart]
  congr 1
  simp [tmod, tset, tdel, tget, List.filter_filter]

/-- A request that need not wait begins at once at a free line in the sets. -/
theorem arrive_resident {r : HomeRequest} (h : Resident s p a) (hn : held s p a r = false)
    (hh : held (s.modLine p a (fun n => { n with waiting := [r] })) p a r = false)
    (hm : memoryHere (s.modLine p a (fun n => { n with waiting := [r] })) p a r = true) :
    arrive s p a r = beginRequest (s.modLine p a (fun n => { n with waiting := [] })) p a r := by
  have hf := h.free
  simp only [lineBusy, Bool.or_eq_false_iff] at hf
  have hl : (s.modLine p a (fun n => { n with waiting := [r] })).line p a = { s.line p a with waiting := [r] } := line_modLine_same ..
  unfold arrive
  rw [hasHome_homed h.toHomed, lookUp_homed h.toHomed]
  simp only [homed_own h.toHomed, Bool.false_and, Bool.false_eq_true, if_false, Bool.not_true, hf, hn, h.none, h.free,
    List.isEmpty_nil, Bool.or_self]
  have hv : ((s.line p a).state == LineState.absent) = false := by simpa using h.valid
  rw [hv]
  simp only [Bool.and_false, Bool.false_and, Bool.false_eq_true, if_false]
  unfold serveLine
  rw [hl]
  simp only [List.length_singleton]
  unfold homeNext
  rw [lookUp_homed (homed_modLine (f := fun n => { n with waiting := [r] }) h.toHomed (fun _ => rfl) (fun _ => rfl))]
  simp only
  rw [hl, if_neg (by simp [lineBusy, hf])]
  have hw : nextWaiting (s.modLine p a (fun n => { n with waiting := [r] })) p a = some r := by
    simp [nextWaiting, hl, hh]
  rw [hw]
  simp only [hm, if_true]
  unfold homeNext
  rw [modLine_modLine]
  simp

/-- A change of a partition that leaves lines, record, slice list and epoch alone leaves the staging check alone. -/
theorem canStage_modPart {b q : Nat} {f : Part → Part} (hl : ∀ x, (f x).cache.lines = x.cache.lines)
    (hs : ∀ x, (f x).cache.sliceList = x.cache.sliceList) (hr : ∀ x, (f x).record = x.record)
    (he : ∀ x, (f x).epoch = x.epoch) : canStage (s.modPart p f) q b = canStage s q b := by
  have hline : ∀ c, (s.modPart p f).line q c = s.line q c := fun c => line_modPart hl
  have hp : ((s.modPart p f).part q).cache.sliceList = (s.part q).cache.sliceList ∧
      ((s.modPart p f).part q).cache.lines = (s.part q).cache.lines ∧
      ((s.modPart p f).part q).record = (s.part q).record ∧ ((s.modPart p f).part q).epoch = (s.part q).epoch := by
    by_cases hq : q = p
    · subst hq
      simp [hl, hs, hr, he]
    · simp [State.part, State.modPart, tget_tmod_other hq]
  have hw : ∀ i, waysOf (s.modPart p f) i = waysOf s i := fun i => rfl
  have hh : ∀ c, homeOf (s.modPart p f) q c = homeOf s q c := by intro c; unfold homeOf; rw [hp.1]
  have hc : stagedCount (s.modPart p f) q = stagedCount s q := by unfold stagedCount; rw [hp.2.1]
  have hset : setLines (s.modPart p f) q b = setLines s q b := by unfold setLines; rw [hp.2.1]; simp only [hh]
  unfold canStage
  rw [hh, hset, hc, hline]
  simp only [hp.2.2.1, hp.2.2.2, hw]

theorem canStage_tallyAdd {c k q b : Nat} : canStage (tallyAdd s p c k) q b = canStage s q b :=
  canStage_modPart (fun _ => rfl) (fun _ => rfl) (fun _ => rfl) (fun _ => rfl)

theorem canStage_unDead {b q c : Nat} : canStage (unDead s p b) q c = canStage s q c :=
  canStage_modPart (fun _ => rfl) (fun _ => rfl) (fun _ => rfl) (fun _ => rfl)

theorem stageCheck_modPart {b q : Nat} {f : Part → Part} (hl : ∀ x, (f x).cache.lines = x.cache.lines)
    (hs : ∀ x, (f x).cache.sliceList = x.cache.sliceList) (hr : ∀ x, (f x).record = x.record)
    (he : ∀ x, (f x).epoch = x.epoch) : stageCheck (s.modPart p f) q b = stageCheck s q b := by
  have hq : ((s.modPart p f).part q).record = (s.part q).record := by
    by_cases hq : q = p
    · subst hq
      simp [hr]
    · simp [State.part, State.modPart, tget_tmod_other hq]
  unfold stageCheck
  rw [canStage_modPart hl hs hr he, hq]

@[simp] theorem stageCheck_tallyAdd {c k q b : Nat} : stageCheck (tallyAdd s p c k) q b = stageCheck s q b :=
  stageCheck_modPart (fun _ => rfl) (fun _ => rfl) (fun _ => rfl) (fun _ => rfl)

@[simp] theorem stageCheck_unDead {b q c : Nat} : stageCheck (unDead s p b) q c = stageCheck s q c :=
  stageCheck_modPart (fun _ => rfl) (fun _ => rfl) (fun _ => rfl) (fun _ => rfl)

/-- A message on its way is the one taken. -/
theorem takeMsg_mem {m : NocMsg} (h : m ∈ s.noc) :
    takeMsg s (fun x => x == m) = some (m, { s with noc := s.noc.erase m }) := by
  have : s.noc.find? (fun x => x == m) = some m := by
    cases hf : s.noc.find? (fun x => x == m) with
    | none => exact absurd h (by intro hm; have := List.find?_eq_none.1 hf m hm; simp at this)
    | some x =>
      have := List.find?_some hf
      simp only [beq_iff_eq] at this
      rw [this]
  simp [takeMsg, this]

/-! ## Cached translations (R413) -/

/-- Where a kind of agent has dropped its cached translations and nothing was written since, it walks the committed view. -/
theorem pageOf_of_dropped {s : State} {w : Walker} {p va : Nat} (h : heldCells s p w = []) :
    pageOf s w p va = walk s p va [] [3, 2, 1, 0] (s.part p).record.root := by
  unfold pageOf
  rw [h]
  cases walk s p va [] [3, 2, 1, 0] (s.part p).record.root <;> rfl

/-- Noting the bytes about to be written changes what cached translations show, and nothing else. -/
theorem noteTables_parts {s : State} {p a : Nat} {cells : List Host.Cell} :
    ∃ q, noteTables s p a cells = { s with parts := q } := by
  unfold noteTables
  split
  · exact ⟨_, rfl⟩
  · exact ⟨s.parts, rfl⟩

end Sys2Proof.Machine
end

