-- ==== Sys2Proof/Laws/Memory.lean ====
section
/-! SUPPORT. Memory in canonical form: every write keeps it, a read after a write to the same address gives the byte
written, a write leaves every other address alone, and two canonical memories that read alike are equal. -/

namespace Sys2Proof.Machine

theorem mwfFrom_mono {m : List Host.Cell} {lo lo' : Nat} (hle : lo' ≤ lo) (h : mwfFrom lo m = true) :
    mwfFrom lo' m = true := by
  cases m with
  | nil => rfl
  | cons c r =>
    simp only [mwfFrom, Bool.and_eq_true, decide_eq_true_eq] at h ⊢
    exact ⟨⟨Nat.le_trans hle h.1.1, h.1.2⟩, h.2⟩

theorem mread_below {m : List Host.Cell} {lo a : Nat} (h : mwfFrom lo m = true) (ha : a < lo) : mread m a = 0 := by
  cases m with
  | nil => rfl
  | cons c r =>
    simp only [mwfFrom, Bool.and_eq_true, decide_eq_true_eq] at h
    have h1 := h.1.1
    rw [mread, if_neg (by omega), if_pos (by omega)]

theorem mwrite_wfFrom {m : List Host.Cell} {lo a : Nat} (x : Byte) (ha : lo ≤ a) (h : mwfFrom lo m = true) :
    mwfFrom lo (mwrite m a x) = true := by
  induction m generalizing lo with
  | nil =>
    unfold mwrite
    split
    · rfl
    · rename_i hx
      simp only [mwfFrom, Bool.and_eq_true, decide_eq_true_eq, bne_iff_ne]
      exact ⟨⟨ha, hx⟩, trivial⟩
  | cons c r ih =>
    obtain ⟨b, v⟩ := c
    simp only [mwfFrom, Bool.and_eq_true, decide_eq_true_eq] at h
    unfold mwrite
    split
    · split
      · exact mwfFrom_mono (by omega) h.2
      · rename_i hx
        simp only [mwfFrom, Bool.and_eq_true, decide_eq_true_eq, bne_iff_ne]
        exact ⟨⟨h.1.1, hx⟩, h.2⟩
    · split
      · split
        · simp only [mwfFrom, Bool.and_eq_true, decide_eq_true_eq]
          exact h
        · rename_i hab hx
          simp only [mwfFrom, Bool.and_eq_true, decide_eq_true_eq]
          exact ⟨⟨ha, by simpa using hx⟩, ⟨by omega, h.1.2⟩, h.2⟩
      · simp only [mwfFrom, Bool.and_eq_true, decide_eq_true_eq]
        exact ⟨h.1, ih (by omega) h.2⟩

/-- The empty memory is canonical. -/
theorem nil_wf : Memory.wf [] = true := rfl

/-- Writing one byte keeps the canonical form. -/
theorem mwrite_wf {m : List Host.Cell} {a : Nat} {x : Byte} (h : Memory.wf m = true) : Memory.wf (mwrite m a x) = true :=
  mwrite_wfFrom x (Nat.zero_le a) h

/-- Writing bytes keeps the canonical form. -/
theorem mwrites_wf {m : List Host.Cell} {a : Nat} {bs : List Byte} (h : Memory.wf m = true) :
    Memory.wf (mwrites m a bs) = true := by
  induction bs generalizing m a with
  | nil => exact h
  | cons b r ih => exact ih (mwrite_wf h)

/-- Any fold of single writes keeps the canonical form. -/
theorem foldl_mwrite_wf {α : Type} {l : List α} {f : α → Nat} {g : α → Byte} {m : List Host.Cell}
    (h : Memory.wf m = true) : Memory.wf (l.foldl (fun m e => mwrite m (f e) (g e)) m) = true := by
  induction l generalizing m with
  | nil => exact h
  | cons e r ih => exact ih (mwrite_wf h)

/-- Writing cells keeps the canonical form. -/
theorem mwriteCells_wf {m : List Host.Cell} {a : Nat} {cs : List Host.Cell} (h : Memory.wf m = true) :
    Memory.wf (mwriteCells m a cs) = true := foldl_mwrite_wf h

theorem filter_wfFrom {m : List Host.Cell} {p : Host.Cell → Bool} {lo : Nat} (h : mwfFrom lo m = true) :
    mwfFrom lo (m.filter p) = true := by
  induction m generalizing lo with
  | nil => rfl
  | cons c r ih =>
    simp only [mwfFrom, Bool.and_eq_true, decide_eq_true_eq] at h
    rw [List.filter_cons]
    split
    · simp only [mwfFrom, Bool.and_eq_true, decide_eq_true_eq]
      exact ⟨h.1, ih h.2⟩
    · exact mwfFrom_mono (by omega) (ih h.2)

/-- Dropping cells keeps the canonical form. -/
theorem filter_wf {m : List Host.Cell} {p : Host.Cell → Bool} (h : Memory.wf m = true) :
    Memory.wf (m.filter p) = true := filter_wfFrom h

/-- Clearing a range keeps the canonical form. -/
theorem mzero_wf {m : List Host.Cell} {a n : Nat} (h : Memory.wf m = true) : Memory.wf (mzero m a n) = true :=
  filter_wf h

/-- Reading the byte just written. -/
theorem mread_mwrite_same {m : List Host.Cell} {lo a : Nat} {x : Byte} (h : mwfFrom lo m = true) :
    mread (mwrite m a x) a = x := by
  induction m generalizing lo with
  | nil =>
    unfold mwrite
    split
    · simp [mread, *]
    · simp [mread]
  | cons c r ih =>
    obtain ⟨b, v⟩ := c
    simp only [mwfFrom, Bool.and_eq_true, decide_eq_true_eq] at h
    unfold mwrite
    split
    · split
      · rename_i hab hx
        rw [hx]
        exact mread_below h.2 (by omega)
      · simp [mread, *]
    · split
      · split
        · rename_i hx
          rw [hx, mread, if_neg (by assumption), if_pos (by assumption)]
        · simp [mread]
      · rw [mread, if_neg (by assumption), if_neg (by assumption)]
        exact ih h.2

/-- A write leaves every other address alone. -/
theorem mread_mwrite_other {m : List Host.Cell} {lo a c : Nat} {x : Byte} (h : mwfFrom lo m = true) (hne : c ≠ a) :
    mread (mwrite m a x) c = mread m c := by
  induction m generalizing lo with
  | nil =>
    unfold mwrite
    split
    · rfl
    · simp [mread, hne]
  | cons e r ih =>
    obtain ⟨b, v⟩ := e
    simp only [mwfFrom, Bool.and_eq_true, decide_eq_true_eq] at h
    unfold mwrite
    split
    · rename_i hab
      subst hab
      split
      · rw [mread, if_neg hne]
        split
        · exact mread_below h.2 (by omega)
        · rfl
      · simp [mread, hne]
    · split
      · split
        · rfl
        · rw [mread, if_neg hne]
          split
          · rw [mread, if_neg (by omega), if_pos (by omega)]
          · rfl
      · rw [mread, mread, ih h.2]

/-- Bytes outside a written string read as before. -/
theorem mread_mwrites_other {m : List Host.Cell} {a c : Nat} {bs : List Byte} (h : Memory.wf m = true)
    (hc : c < a ∨ a + bs.length ≤ c) : mread (mwrites m a bs) c = mread m c := by
  induction bs generalizing m a with
  | nil => rfl
  | cons b r ih =>
    simp only [List.length_cons] at hc
    rw [mwrites, ih (mwrite_wf h) (by omega), mread_mwrite_other (lo := 0) h (by omega)]

/-- Byte `i` of a written string. -/
theorem mread_mwrites_in {m : List Host.Cell} {a i : Nat} {bs : List Byte} (h : Memory.wf m = true)
    (hi : i < bs.length) : mread (mwrites m a bs) (a + i) = bs.getD i 0 := by
  induction bs generalizing m a i with
  | nil => exact absurd hi (Nat.not_lt_zero i)
  | cons b r ih =>
    cases i with
    | zero =>
      rw [mwrites, mread_mwrites_other (mwrite_wf h) (by omega), Nat.add_zero, mread_mwrite_same (lo := 0) h]
      rfl
    | succ i =>
      rw [mwrites, show a + (i + 1) = a + 1 + i by omega, ih (mwrite_wf h) (by simpa using hi)]
      rfl

/-- Dropping the cells a predicate on addresses refuses: such an address reads 0, every other as before. -/
theorem mread_filter {m : List Host.Cell} {p : Nat → Bool} {lo a : Nat} (h : mwfFrom lo m = true) :
    mread (m.filter (fun c => p c.1)) a = if p a then mread m a else 0 := by
  induction m generalizing lo with
  | nil => simp [mread]
  | cons e r ih =>
    obtain ⟨b, v⟩ := e
    simp only [mwfFrom, Bool.and_eq_true, decide_eq_true_eq] at h
    rw [List.filter_cons]
    simp only [mread]
    by_cases hab : a = b
    · subst hab
      cases hp : p a
      · simpa using mread_below (filter_wfFrom h.2) (by omega)
      · simp [mread]
    · have hr := ih h.2
      by_cases hlt : a < b
      · cases hb : p b
        · simpa [hab, hlt] using mread_below (filter_wfFrom h.2) (by omega)
        · simp [mread, hab, hlt]
      · cases hb : p b
        · simp [hab, hlt, hr]
        · simp [mread, hab, hlt, hr]

/-- A cleared range reads 0, every other address as before. -/
theorem mread_mzero {m : List Host.Cell} {a n c : Nat} (h : Memory.wf m = true) :
    mread (mzero m a n) c = if c < a ∨ a + n ≤ c then mread m c else 0 := by
  have := mread_filter (p := fun b => decide (b < a) || decide (a + n ≤ b)) (a := c) (lo := 0) h
  simpa [mzero] using this

/-- Two canonical memories that read alike are equal. -/
theorem mem_ext {m n : List Host.Cell} {lo lo' : Nat} (hm : mwfFrom lo m = true) (hn : mwfFrom lo' n = true)
    (h : ∀ a, mread m a = mread n a) : m = n := by
  induction m generalizing lo lo' n with
  | nil =>
    cases n with
    | nil => rfl
    | cons e r =>
      obtain ⟨b, v⟩ := e
      simp only [mwfFrom, Bool.and_eq_true, decide_eq_true_eq] at hn
      have hb := h b
      simp only [mread, if_true] at hb
      simp [← hb] at hn
  | cons e r ih =>
    obtain ⟨a, v⟩ := e
    have hm' := hm
    simp only [mwfFrom, Bool.and_eq_true, decide_eq_true_eq] at hm
    cases n with
    | nil =>
      have ha := h a
      simp only [mread, if_true] at ha
      simp [ha] at hm
    | cons e' r' =>
      obtain ⟨b, w⟩ := e'
      have hn' := hn
      simp only [mwfFrom, Bool.and_eq_true, decide_eq_true_eq] at hn
      have ha := h a
      have hb := h b
      simp only [mread, if_true] at ha hb
      have hab : a = b := by
        rcases Nat.lt_trichotomy a b with hlt | heq | hgt
        · rw [if_neg (by omega), if_pos hlt] at ha
          simp [ha] at hm
        · exact heq
        · rw [if_neg (by omega), if_pos hgt] at hb
          simp [← hb] at hn
      subst hab
      simp only [if_true] at ha
      subst ha
      have hr : r = r' := by
        refine ih hm.2 hn.2 (fun c => ?_)
        have hc := h c
        simp only [mread] at hc
        by_cases hca : c ≤ a
        · rw [mread_below hm.2 (by omega), mread_below hn.2 (by omega)]
        · rwa [if_neg (by omega), if_neg (by omega), if_neg (by omega), if_neg (by omega)] at hc
      rw [hr]

end Sys2Proof.Machine
end

