-- ==== Sys2Proof/Laws/Kept.lean ====
section
/-! SUPPORT. What every operation keeps: the four byte memories stay in canonical form and the queue of commands is left
alone. One lemma for each shape of record update, and the rules for choices, folds and results with more than a state. -/

namespace Sys2Proof.Machine

/-- What a command finds and may not change: the commands that wait, the fuses but for the SVN floor (R508), and a floor
below which the SVN floor may not fall (R502). -/
structure Fixed where
  queue : List Instr
  fuses : Fuses
  floor : Nat

/-- Every byte memory is canonical (LSM, scratchpads, the flash image, the trace buffer), and queue and fuses are as `q`
has them. -/
structure Kept (q : Fixed) (s : State) : Prop where
  mem : Memory.wf s.mem = true
  spad : Memory.wf s.spad = true
  flash : Memory.wf s.flash.image = true
  trace : Memory.wf s.shared.buffer = true
  queue : s.pending = q.queue
  fuses : { s.fuses with svnFloor := 0 } = q.fuses
  floor : q.floor ≤ s.fuses.svnFloor

/-- The same of an outcome: of the next state, where there is one. -/
def KeptO (q : Fixed) : Host.Outcome State Fault Refusal → Prop
  | .next s => Kept q s
  | _ => True

/-- The same of a packet's body: of the state it leaves. -/
def KeptB (q : Fixed) : Body → Prop
  | .reply s _ _ _ _ => Kept q s
  | .wait s _ => Kept q s

/-- The same of a state beside a value, where there is one. -/
def KeptOP {α : Type} (q : Fixed) (o : Option (α × State)) : Prop := ∀ a t, o = some (a, t) → Kept q t

/-- The same of a state, where there is one. -/
def KeptOS (q : Fixed) (o : Option State) : Prop := ∀ t, o = some t → Kept q t

/-- The same of the state an attempt ends in where it fails. -/
def KeptEE {α : Type} (q : Fixed) (o : Except State α) : Prop := ∀ t, o = .error t → Kept q t

/-- The same of the state an attempt ends in where it succeeds. -/
def KeptEO {ε : Type} (q : Fixed) (o : Except ε State) : Prop := ∀ t, o = .ok t → Kept q t

/-- The same of the state an attempt yields beside a value where it succeeds. -/
def KeptEP {ε α : Type} (q : Fixed) (o : Except ε (State × α)) : Prop := ∀ t a, o = .ok (t, a) → Kept q t

variable {q : Fixed} {s : State}

/-- An update of fields that hold no memory. -/
theorem kept_mk (h : Kept q s) {x0 x1 x2 x3 x4 x5 x6 x7 x8 x9 x10 x11 x12 x13 x14 x15 x16 x17 x18 x19 x20 x21 x22 x23 x24 x25 x26 x28 x29 x30 x31 x32 x33 x34 x35 x36 x37 x38 x39 x40 x41 x42 x43 x44} : Kept q
    { mem := s.mem, spad := s.spad, clean := x0, parts := x1, stalls := x2, fencedPos := x3, domains := x4,
      groups := x5, hostFetch := x6, hostCommit := x7, hostStream := x41, l1s := x8, noc := x9, spadOdd := x42, dies := x10, edges := x11,
      crossings := x12, sidebands := x43, hbm := x13, chans := x14, failLog := x15, failCount := x16, chkLog := x17,
      chkCount := x18, fuseOdd := x44, fuseRewrites := x19, pitchRewrites := x20, sessionRewrites := x21, links := x22,
      fns := x23, outstanding := x24, sec := x25, boot := x26, flash := s.flash, fuses := s.fuses, power := x28,
      shared := s.shared, sites := x29, jtag := x30, i3cAddress := x31, i3cDynamic := x32, perst := x33,
      hostRate := x34, hostWidth := x35, bistQueue := x36, devTime := x37, aoCount := x38, out := x39,
      fresh := x40, pending := s.pending } := ⟨h.mem, h.spad, h.flash, h.trace, h.queue, h.fuses, h.floor⟩

/-- An update that writes LSM. -/
theorem kept_mem (h : Kept q s) {x0 x1 x2 x3 x4 x5 x6 x7 x8 x9 x10 x11 x12 x13 x14 x15 x16 x17 x18 x19 x20 x21 x22 x23 x24 x25 x26 x28 x29 x30 x31 x32 x33 x34 x35 x36 x37 x38 x39 x40 x41 x42 x43 x44 m} (hm : Memory.wf m = true) : Kept q
    { mem := m, spad := s.spad, clean := x0, parts := x1, stalls := x2, fencedPos := x3, domains := x4,
      groups := x5, hostFetch := x6, hostCommit := x7, hostStream := x41, l1s := x8, noc := x9, spadOdd := x42, dies := x10, edges := x11,
      crossings := x12, sidebands := x43, hbm := x13, chans := x14, failLog := x15, failCount := x16, chkLog := x17,
      chkCount := x18, fuseOdd := x44, fuseRewrites := x19, pitchRewrites := x20, sessionRewrites := x21, links := x22,
      fns := x23, outstanding := x24, sec := x25, boot := x26, flash := s.flash, fuses := s.fuses, power := x28,
      shared := s.shared, sites := x29, jtag := x30, i3cAddress := x31, i3cDynamic := x32, perst := x33,
      hostRate := x34, hostWidth := x35, bistQueue := x36, devTime := x37, aoCount := x38, out := x39,
      fresh := x40, pending := s.pending } := ⟨hm, h.spad, h.flash, h.trace, h.queue, h.fuses, h.floor⟩

/-- An update that writes scratchpads. -/
theorem kept_spad (h : Kept q s) {x0 x1 x2 x3 x4 x5 x6 x7 x8 x9 x10 x11 x12 x13 x14 x15 x16 x17 x18 x19 x20 x21 x22 x23 x24 x25 x26 x28 x29 x30 x31 x32 x33 x34 x35 x36 x37 x38 x39 x40 x41 x42 x43 x44 m} (hm : Memory.wf m = true) : Kept q
    { mem := s.mem, spad := m, clean := x0, parts := x1, stalls := x2, fencedPos := x3, domains := x4,
      groups := x5, hostFetch := x6, hostCommit := x7, hostStream := x41, l1s := x8, noc := x9, spadOdd := x42, dies := x10, edges := x11,
      crossings := x12, sidebands := x43, hbm := x13, chans := x14, failLog := x15, failCount := x16, chkLog := x17,
      chkCount := x18, fuseOdd := x44, fuseRewrites := x19, pitchRewrites := x20, sessionRewrites := x21, links := x22,
      fns := x23, outstanding := x24, sec := x25, boot := x26, flash := s.flash, fuses := s.fuses, power := x28,
      shared := s.shared, sites := x29, jtag := x30, i3cAddress := x31, i3cDynamic := x32, perst := x33,
      hostRate := x34, hostWidth := x35, bistQueue := x36, devTime := x37, aoCount := x38, out := x39,
      fresh := x40, pending := s.pending } := ⟨h.mem, hm, h.flash, h.trace, h.queue, h.fuses, h.floor⟩

/-- An update of the flash device that leaves its image. -/
theorem kept_flash (h : Kept q s) {x0 x1 x2 x3 x4 x5 x6 x7 x8 x9 x10 x11 x12 x13 x14 x15 x16 x17 x18 x19 x20 x21 x22 x23 x24 x25 x26 x28 x29 x30 x31 x32 x33 x34 x35 x36 x37 x38 x39 x40 x41 x42 x43 x44 y1 y2 y3}  : Kept q
    { mem := s.mem, spad := s.spad, clean := x0, parts := x1, stalls := x2, fencedPos := x3, domains := x4,
      groups := x5, hostFetch := x6, hostCommit := x7, hostStream := x41, l1s := x8, noc := x9, spadOdd := x42, dies := x10, edges := x11,
      crossings := x12, sidebands := x43, hbm := x13, chans := x14, failLog := x15, failCount := x16, chkLog := x17,
      chkCount := x18, fuseOdd := x44, fuseRewrites := x19, pitchRewrites := x20, sessionRewrites := x21, links := x22,
      fns := x23, outstanding := x24, sec := x25, boot := x26, flash := ⟨s.flash.image, y1, y2, y3⟩,
      fuses := s.fuses, power := x28, shared := s.shared, sites := x29, jtag := x30, i3cAddress := x31,
      i3cDynamic := x32, perst := x33, hostRate := x34, hostWidth := x35, bistQueue := x36, devTime := x37,
      aoCount := x38, out := x39, fresh := x40, pending := s.pending } := ⟨h.mem, h.spad, h.flash, h.trace, h.queue, h.fuses, h.floor⟩

/-- An update that writes the flash image. -/
theorem kept_image (h : Kept q s) {x0 x1 x2 x3 x4 x5 x6 x7 x8 x9 x10 x11 x12 x13 x14 x15 x16 x17 x18 x19 x20 x21 x22 x23 x24 x25 x26 x28 x29 x30 x31 x32 x33 x34 x35 x36 x37 x38 x39 x40 x41 x42 x43 x44 m y1 y2 y3} (hm : Memory.wf m = true) : Kept q
    { mem := s.mem, spad := s.spad, clean := x0, parts := x1, stalls := x2, fencedPos := x3, domains := x4,
      groups := x5, hostFetch := x6, hostCommit := x7, hostStream := x41, l1s := x8, noc := x9, spadOdd := x42, dies := x10, edges := x11,
      crossings := x12, sidebands := x43, hbm := x13, chans := x14, failLog := x15, failCount := x16, chkLog := x17,
      chkCount := x18, fuseOdd := x44, fuseRewrites := x19, pitchRewrites := x20, sessionRewrites := x21, links := x22,
      fns := x23, outstanding := x24, sec := x25, boot := x26, flash := ⟨m, y1, y2, y3⟩, fuses := s.fuses,
      power := x28, shared := s.shared, sites := x29, jtag := x30, i3cAddress := x31, i3cDynamic := x32,
      perst := x33, hostRate := x34, hostWidth := x35, bistQueue := x36, devTime := x37, aoCount := x38,
      out := x39, fresh := x40, pending := s.pending } := ⟨h.mem, h.spad, hm, h.trace, h.queue, h.fuses, h.floor⟩

/-- An update of shared resources that leaves the trace buffer. -/
theorem kept_shared (h : Kept q s) {x0 x1 x2 x3 x4 x5 x6 x7 x8 x9 x10 x11 x12 x13 x14 x15 x16 x17 x18 x19 x20 x21 x22 x23 x24 x25 x26 x28 x29 x30 x31 x32 x33 x34 x35 x36 x37 x38 x39 x40 x41 x42 x43 x44 y0 y1 y2 y3 y4 y5 y6 y7 y8 y9 y11 y12}  : Kept q
    { mem := s.mem, spad := s.spad, clean := x0, parts := x1, stalls := x2, fencedPos := x3, domains := x4,
      groups := x5, hostFetch := x6, hostCommit := x7, hostStream := x41, l1s := x8, noc := x9, spadOdd := x42, dies := x10, edges := x11,
      crossings := x12, sidebands := x43, hbm := x13, chans := x14, failLog := x15, failCount := x16, chkLog := x17,
      chkCount := x18, fuseOdd := x44, fuseRewrites := x19, pitchRewrites := x20, sessionRewrites := x21, links := x22,
      fns := x23, outstanding := x24, sec := x25, boot := x26, flash := s.flash, fuses := s.fuses, power := x28,
      shared := ⟨y0, y1, y2, y3, y4, y5, y6, y7, y8, y9, s.shared.buffer, y11, y12⟩, sites := x29, jtag := x30,
      i3cAddress := x31, i3cDynamic := x32, perst := x33, hostRate := x34, hostWidth := x35, bistQueue := x36,
      devTime := x37, aoCount := x38, out := x39, fresh := x40, pending := s.pending } := ⟨h.mem, h.spad, h.flash, h.trace, h.queue, h.fuses, h.floor⟩

/-- An update that writes the trace buffer. -/
theorem kept_trace (h : Kept q s) {x0 x1 x2 x3 x4 x5 x6 x7 x8 x9 x10 x11 x12 x13 x14 x15 x16 x17 x18 x19 x20 x21 x22 x23 x24 x25 x26 x28 x29 x30 x31 x32 x33 x34 x35 x36 x37 x38 x39 x40 x41 x42 x43 x44 m y0 y1 y2 y3 y4 y5 y6 y7 y8 y9 y11 y12} (hm : Memory.wf m = true) : Kept q
    { mem := s.mem, spad := s.spad, clean := x0, parts := x1, stalls := x2, fencedPos := x3, domains := x4,
      groups := x5, hostFetch := x6, hostCommit := x7, hostStream := x41, l1s := x8, noc := x9, spadOdd := x42, dies := x10, edges := x11,
      crossings := x12, sidebands := x43, hbm := x13, chans := x14, failLog := x15, failCount := x16, chkLog := x17,
      chkCount := x18, fuseOdd := x44, fuseRewrites := x19, pitchRewrites := x20, sessionRewrites := x21, links := x22,
      fns := x23, outstanding := x24, sec := x25, boot := x26, flash := s.flash, fuses := s.fuses, power := x28,
      shared := ⟨y0, y1, y2, y3, y4, y5, y6, y7, y8, y9, m, y11, y12⟩, sites := x29, jtag := x30,
      i3cAddress := x31, i3cDynamic := x32, perst := x33, hostRate := x34, hostWidth := x35, bistQueue := x36,
      devTime := x37, aoCount := x38, out := x39, fresh := x40, pending := s.pending } := ⟨h.mem, h.spad, h.flash, hm, h.queue, h.fuses, h.floor⟩

/-- An update that raises the SVN floor (R502). -/
theorem kept_fuses (h : Kept q s) {f x0 x1 x2 x3 x4 x5 x6 x7 x8 x9 x10 x11 x12 x13 x14 x15 x16 x17 x18 x19 x20 x21 x22 x23 x24 x25 x26 x28 x29 x30 x31 x32 x33 x34 x35 x36 x37 x38 x39 x40 x41 x42 x43 x44} (hf : { f with svnFloor := 0 } = { s.fuses with svnFloor := 0 })
    (hl : s.fuses.svnFloor ≤ f.svnFloor) : Kept q
    { mem := s.mem, spad := s.spad, clean := x0, parts := x1, stalls := x2, fencedPos := x3, domains := x4,
      groups := x5, hostFetch := x6, hostCommit := x7, hostStream := x41, l1s := x8, noc := x9, spadOdd := x42, dies := x10, edges := x11,
      crossings := x12, sidebands := x43, hbm := x13, chans := x14, failLog := x15, failCount := x16, chkLog := x17,
      chkCount := x18, fuseOdd := x44, fuseRewrites := x19, pitchRewrites := x20, sessionRewrites := x21, links := x22,
      fns := x23, outstanding := x24, sec := x25, boot := x26, flash := s.flash, fuses := f, power := x28,
      shared := s.shared, sites := x29, jtag := x30, i3cAddress := x31, i3cDynamic := x32, perst := x33,
      hostRate := x34, hostWidth := x35, bistQueue := x36, devTime := x37, aoCount := x38, out := x39,
      fresh := x40, pending := s.pending } := ⟨h.mem, h.spad, h.flash, h.trace, h.queue, hf.trans h.fuses, Nat.le_trans h.floor hl⟩

theorem ite_kept {c : Prop} [Decidable c] {a b : State} (ha : Kept q a) (hb : Kept q b) : Kept q (if c then a else b) := by
  split
  · exact ha
  · exact hb

theorem foldl_kept {α : Type} {l : List α} {f : State → α → State} (hf : ∀ t x, Kept q t → Kept q (f t x))
    (h : Kept q s) : Kept q (l.foldl f s) := by
  induction l generalizing s with
  | nil => exact h
  | cons x r ih => exact ih (hf s x h)

theorem foldl_fst_kept {α β : Type} {l : List α} {f : State × β → α → State × β} {r : State × β}
    (hf : ∀ t x, Kept q t.1 → Kept q (f t x).1) (h : Kept q r.1) : Kept q (l.foldl f r).1 := by
  induction l generalizing r with
  | nil => exact h
  | cons x l ih => exact ih (hf r x h)

theorem step_kept {t : State} {P : Prop} (h : Kept q t) (f : Kept q t → P) : P := f h

theorem fst_kept {α : Type} {x : State × α} {t : State} {a : α} (e : x = (t, a)) (h : Kept q x.1) : Kept q t := by
  rw [e] at h
  exact h

theorem snd_kept {α : Type} {x : α × State} {t : State} {a : α} (e : x = (a, t)) (h : Kept q x.2) : Kept q t := by
  rw [e] at h
  exact h

theorem next_kept (h : Kept q s) : KeptO q (.next s) := h

theorem reply_kept {st d out : Nat} {bs : List Byte} (h : Kept q s) : KeptB q (.reply s st d out bs) := h

theorem wait_kept {d : Deferred} (h : Kept q s) : KeptB q (.wait s d) := h

theorem opt_kept {α : Type} {o : Option (α × State)} {t : State} {a : α} (e : o = some (a, t)) (h : KeptOP q o) :
    Kept q t := h a t e

theorem some_kept {o : Option State} {t : State} (e : o = some t) (h : KeptOS q o) : Kept q t := h t e

theorem err_kept {α : Type} {o : Except State α} {t : State} (e : o = .error t) (h : KeptEE q o) : Kept q t := h t e

theorem exOk_kept {ε : Type} {o : Except ε State} {t : State} (e : o = .ok t) (h : KeptEO q o) : Kept q t := h t e

theorem none_keptOP {α : Type} : KeptOP q (none : Option (α × State)) := fun _ _ e => nomatch e

theorem some_keptOP {α : Type} {a : α} (h : Kept q s) : KeptOP q (some (a, s)) := fun _ _ e => by
  cases e
  exact h

theorem map_keptOP {α β : Type} {o : Option β} {f : β → α} {g : β → State} (h : ∀ b, Kept q (g b)) :
    KeptOP q (o.map (fun b => (f b, g b))) := fun _ _ e => by
  cases o with
  | none => nomatch e
  | some b =>
    cases e
    exact h b

theorem none_keptOS : KeptOS q none := fun _ e => nomatch e

theorem some_keptOS (h : Kept q s) : KeptOS q (some s) := fun _ e => by
  cases e
  exact h

theorem map_keptOS {β : Type} {o : Option β} {g : β → State} (h : ∀ b, Kept q (g b)) : KeptOS q (o.map g) :=
  fun _ e => by
  cases o with
  | none => nomatch e
  | some b =>
    cases e
    exact h b

theorem ok_keptEE {α : Type} {a : α} : KeptEE q (.ok a) := fun _ e => nomatch e

theorem error_keptEE {α : Type} (h : Kept q s) : KeptEE q (.error s : Except State α) := fun _ e => by
  cases e
  exact h

theorem error_keptEO {ε : Type} {a : ε} : KeptEO q (.error a) := fun _ e => nomatch e

theorem ok_keptEO {ε : Type} (h : Kept q s) : KeptEO q (.ok s : Except ε State) := fun _ e => by
  cases e
  exact h

theorem error_keptEP {ε α : Type} {a : ε} : KeptEP q (.error a : Except ε (State × α)) := fun _ _ e => nomatch e

theorem ok_keptEP {ε α : Type} {a : α} (h : Kept q s) : KeptEP q (.ok (s, a) : Except ε (State × α)) := fun _ _ e => by
  cases e
  exact h

theorem okP_kept {ε α : Type} {o : Except ε (State × α)} {t : State} {a : α} (e : o = .ok (t, a))
    (h : KeptEP q o) : Kept q t := h t a e

end Sys2Proof.Machine
end

