-- ==== Sys2Proof/Laws/Kept1.lean ====
section
/-! SUPPORT. What every operation keeps (Laws/Kept): the definitions of Machine/Ops, Reply, Address, Channels, Image,
Cache. -/

set_option linter.tactic.unusedName false

namespace Sys2Proof.Machine

variable {q : Fixed}

/-! ## Ops -/

theorem modPart_kept {s p f} (h : Kept q s) : Kept q (State.modPart s p f) := by
  unfold State.modPart
  with_reducible repeat' first
    | assumption | (apply kept_mk; assumption)

theorem modStall_kept {s i f} (h : Kept q s) : Kept q (State.modStall s i f) := by
  unfold State.modStall
  with_reducible repeat' first
    | assumption | (apply kept_mk; assumption)

theorem modFn_kept {s fn f} (h : Kept q s) : Kept q (State.modFn s fn f) := by
  unfold State.modFn
  with_reducible repeat' first
    | assumption | (apply kept_mk; assumption)

theorem modDom_kept {s p d f} (h : Kept q s) : Kept q (State.modDom s p d f) := by
  unfold State.modDom
  with_reducible repeat' first
    | assumption | (apply kept_mk; assumption)

theorem modDie_kept {s d f} (h : Kept q s) : Kept q (State.modDie s d f) := by
  unfold State.modDie
  with_reducible repeat' first
    | assumption | (apply kept_mk; assumption)

theorem modChan_kept {s c f} (h : Kept q s) : Kept q (State.modChan s c f) := by
  unfold State.modChan
  with_reducible repeat' first
    | assumption | (apply kept_mk; assumption)

theorem modPort_kept {s j f} (h : Kept q s) : Kept q (State.modPort s j f) := by
  unfold State.modPort
  with_reducible repeat' first
    | assumption | (extract_lets +onlyGivenNames t; clear_value t) | extract_lets +onlyGivenNames t
    | (apply kept_mk; assumption)

theorem modSite_kept {s i f} (h : Kept q s) : Kept q (State.modSite s i f) := by
  unfold State.modSite
  with_reducible repeat' first
    | assumption | (apply kept_mk; assumption)

theorem modGroup_kept {s g f} (h : Kept q s) : Kept q (State.modGroup s g f) := by
  unfold State.modGroup
  with_reducible repeat' first
    | assumption | (apply kept_mk; assumption)

theorem modL1_kept {s l a f} (h : Kept q s) : Kept q (State.modL1 s l a f) := by
  unfold State.modL1
  with_reducible repeat' first
    | assumption | (apply kept_mk; assumption)

theorem modLine_kept {s p a f} (h : Kept q s) : Kept q (State.modLine s p a f) := by
  unfold State.modLine
  with_reducible repeat' first
    | assumption | intro _ | extract_lets +onlyGivenNames t | apply modPart_kept

theorem emit_kept {s o} (h : Kept q s) : Kept q (State.emit s o) := by
  unfold State.emit
  with_reducible repeat' first
    | assumption | (apply kept_mk; assumption)

theorem draw_kept {s} (h : Kept q s) : Kept q (State.draw s).2 := by
  unfold State.draw
  with_reducible repeat' first
    | assumption | (apply kept_mk; assumption)

/-! ## Reply -/

theorem sendMsix_kept {s fn v} (h : Kept q s) : Kept q (sendMsix s fn v) := by
  unfold sendMsix
  with_reducible repeat' first
    | assumption | intro _ | refine ite_kept ?_ ?_ | apply emit_kept | apply modFn_kept

theorem raiseCause_kept {s fn i} (h : Kept q s) : Kept q (raiseCause s fn i) := by
  unfold raiseCause
  with_reducible repeat' first
    | assumption | intro _ | refine ite_kept ?_ ?_ | extract_lets +onlyGivenNames t | apply modFn_kept
    | apply sendMsix_kept

theorem dropOutstanding_kept {s port tag} (h : Kept q s) : Kept q (dropOutstanding s port tag) := by
  unfold dropOutstanding
  with_reducible repeat' first
    | assumption | intro _ | (apply kept_mk; assumption)

theorem clearSlot_kept {s fn i} (h : Kept q s) : Kept q (clearSlot s fn i) := by
  unfold clearSlot
  with_reducible repeat' first
    | assumption | intro _ | apply modFn_kept

theorem closePacket_kept {s fn e} (h : Kept q s) : Kept q (closePacket s fn e) := by
  unfold closePacket
  with_reducible repeat' first
    | assumption | refine ite_kept ?_ ?_
    | (extract_lets +onlyGivenNames t; refine step_kept (q := q) (t := t) ?_ (fun _ => ?_); rotate_left; clear_value t; rotate_right; unfold t; clear t)
    | extract_lets +onlyGivenNames t | apply clearSlot_kept | apply dropOutstanding_kept | split

theorem writeEntry_kept {s fn e} (h : Kept q s) : Kept q (writeEntry s fn e) := by
  unfold writeEntry
  with_reducible repeat' first
    | assumption | intro _ | refine ite_kept ?_ ?_ | extract_lets +onlyGivenNames t | apply emit_kept
    | apply modFn_kept | apply closePacket_kept | apply raiseCause_kept

theorem drainRing_kept {fn a1 a2} (h : Kept q a2) : Kept q (drainRing fn a1 a2) := by
  induction a1 generalizing fn a2 with
  | nil =>
    unfold drainRing
    with_reducible repeat' first
      | assumption | intro _ | refine ite_kept ?_ ?_ | apply modFn_kept
  | cons x r ih =>
    unfold drainRing
    with_reducible repeat' first
      | assumption | intro _ | refine ite_kept ?_ ?_ | apply modFn_kept | apply writeEntry_kept | split | apply ih

theorem postEntry_kept {s fn e} (h : Kept q s) : Kept q (postEntry s fn e) := by
  unfold postEntry
  with_reducible repeat' first
    | assumption | refine ite_kept ?_ ?_ | extract_lets +onlyGivenNames t | apply drainRing_kept
    | apply raiseCause_kept

theorem postEvent_kept {s fn source status detail tick} (h : Kept q s) :
    Kept q (postEvent s fn source status detail tick) := by
  unfold postEvent
  with_reducible repeat' first
    | assumption | intro _ | refine ite_kept ?_ ?_ | extract_lets +onlyGivenNames t | apply modFn_kept
    | apply postEntry_kept

theorem partEvent_kept {s p source status detail} (h : Kept q s) : Kept q (partEvent s p source status detail) := by
  unfold partEvent
  with_reducible repeat' first
    | assumption | apply postEvent_kept

theorem noteTraffic_kept {s n} (h : Kept q s) : Kept q (noteTraffic s n) := by
  unfold noteTraffic
  with_reducible repeat' first
    | assumption | (extract_lets +onlyGivenNames t; clear_value t) | extract_lets +onlyGivenNames t
    | (apply kept_mk; assumption)

theorem postReply_kept {s who part status detail block} (h : Kept q s) :
    Kept q (postReply s who part status detail block) := by
  unfold postReply
  with_reducible repeat' first
    | assumption | refine ite_kept ?_ ?_
    | (extract_lets +onlyGivenNames t; refine step_kept (q := q) (t := t) ?_ (fun _ => ?_); rotate_left; clear_value t; rotate_right; unfold t; clear t)
    | extract_lets +onlyGivenNames t | apply emit_kept | apply dropOutstanding_kept | apply noteTraffic_kept
    | apply postEntry_kept | split

theorem completeAll_kept {s pick status detail} (h : Kept q s) : Kept q (completeAll s pick status detail) := by
  unfold completeAll
  with_reducible repeat' first
    | assumption | intro _ | refine ite_kept ?_ ?_
    | (extract_lets +onlyGivenNames t; refine step_kept (q := q) (t := t) ?_ (fun _ => ?_); rotate_left; clear_value t; rotate_right; unfold t; clear t)
    | (extract_lets +onlyGivenNames t; clear_value t) | extract_lets +onlyGivenNames t
    | refine foldl_kept (fun _ _ _ => ?_) ?_ | (apply kept_mk; assumption) | apply postReply_kept

theorem wakeBy_kept {s cause} (h : Kept q s) : Kept q (wakeBy s cause) := by
  unfold wakeBy
  with_reducible repeat' first
    | assumption | intro _ | refine ite_kept ?_ ?_
    | (extract_lets +onlyGivenNames t; refine step_kept (q := q) (t := t) ?_ (fun _ => ?_); rotate_left; clear_value t; rotate_right; unfold t; clear t)
    | (extract_lets +onlyGivenNames t; clear_value t) | extract_lets +onlyGivenNames t
    | refine foldl_kept (fun _ _ _ => ?_) ?_ | (apply kept_mk; assumption) | apply modDie_kept | split

theorem bodyOk_kept {s} (h : Kept q s) : KeptB q (Body.ok s) := by
  unfold Body.ok
  with_reducible repeat' first
    | assumption | apply reply_kept

theorem bodySay_kept {s status detail} (h : Kept q s) : KeptB q (Body.say s status detail) := by
  unfold Body.say
  with_reducible repeat' first
    | assumption | apply reply_kept

theorem bodyParam_kept {s} (h : Kept q s) : KeptB q (Body.param s) := by
  unfold Body.param
  with_reducible repeat' first
    | assumption | apply reply_kept

theorem freeSlot_kept {s src} (h : Kept q s) : Kept q (freeSlot s src) := by
  unfold freeSlot
  with_reducible repeat' first
    | assumption | intro _ | apply modFn_kept | apply clearSlot_kept | apply noteTraffic_kept | split

theorem writeOut_kept {s k out block} (h : Kept q s) : Kept q (writeOut s k out block) := by
  unfold writeOut
  with_reducible repeat' first
    | assumption | refine ite_kept ?_ ?_ | apply emit_kept | split

theorem openPacket_kept {s k d} (h : Kept q s) : Kept q (openPacket s k d) := by
  unfold openPacket
  with_reducible repeat' first
    | assumption | (apply kept_mk; assumption)

theorem replyNow_kept {s k status detail out block} (h : Kept q s) : Kept q (replyNow s k status detail out block) := by
  unfold replyNow
  with_reducible repeat' first
    | assumption | apply openPacket_kept | apply postReply_kept | apply writeOut_kept

theorem refusePacket_kept {s src k status detail} (h : Kept q s) : Kept q (refusePacket s src k status detail) := by
  unfold refusePacket
  with_reducible repeat' first
    | assumption | intro _ | refine ite_kept ?_ ?_
    | (extract_lets +onlyGivenNames t; refine step_kept (q := q) (t := t) ?_ (fun _ => ?_); rotate_left; clear_value t; rotate_right; unfold t; clear t)
    | (extract_lets +onlyGivenNames t; clear_value t) | extract_lets +onlyGivenNames t | (apply kept_mk; assumption)
    | apply modFn_kept | apply postReply_kept | apply replyNow_kept | split

theorem noRing_kept {s k status} (h : Kept q s) : Kept q (noRing s k status) := by
  unfold noRing
  with_reducible repeat' first
    | assumption | intro _ | apply modFn_kept | split

theorem startPacket_kept {s src k body} (h : Kept q s) (hbody : ∀ x0 x1, Kept q x1 → KeptB q (body x0 x1)) :
    Kept q (startPacket s src k body) := by
  unfold startPacket
  split
  · exact refusePacket_kept h
  · split
    · rename_i hb
      have hk := hbody k _ h
      rw [hb] at hk
      exact replyNow_kept hk
    · rename_i hb
      have hk := hbody k _ h
      rw [hb] at hk
      exact openPacket_kept hk

theorem runPacket_kept {s src mine body} (h : Kept q s) (hbody : ∀ x0 x1, Kept q x1 → KeptB q (body x0 x1)) :
    Kept q (runPacket s src mine body) := by
  unfold runPacket
  split
  · exact h
  · refine ite_kept h ?_
    exact ite_kept (startPacket_kept (wakeBy_kept (freeSlot_kept h)) hbody) (noRing_kept (wakeBy_kept (freeSlot_kept h)))

/-! ## Address -/

theorem noteTables_kept {s p a cells} (h : Kept q s) : Kept q (noteTables s p a cells) := by
  unfold noteTables
  with_reducible repeat' first
    | assumption | intro _ | refine ite_kept ?_ ?_ | (extract_lets +onlyGivenNames t; clear_value t)
    | extract_lets +onlyGivenNames t | apply modPart_kept

theorem recordFault_kept {s p va cause agent write} (h : Kept q s) : Kept q (recordFault s p va cause agent write) := by
  unfold recordFault
  with_reducible repeat' first
    | assumption | intro _ | apply modPart_kept

theorem spadWrite_kept {s stall off bs} (h : Kept q s) : Kept q (spadWrite s stall off bs) := by
  unfold spadWrite
  with_reducible repeat' first
    | assumption | (refine kept_spad (by assumption) ?_) | apply mwrites_wf | exact Kept.spad (by assumption)

/-! ## Channels -/

theorem arbitrate_kept {s ch} (h : Kept q s) : Kept q (arbitrate s ch) := by
  unfold arbitrate
  with_reducible repeat' first
    | assumption | refine ite_kept ?_ ?_ | apply modChan_kept

theorem queueAccess_kept {s x} (h : Kept q s) : Kept q (queueAccess s x) := by
  unfold queueAccess
  with_reducible repeat' first
    | assumption | intro _ | (extract_lets +onlyGivenNames t; clear_value t) | extract_lets +onlyGivenNames t
    | apply modChan_kept | apply arbitrate_kept

theorem burstEnds_kept {s b x} (h : Kept q s) : Kept q (burstEnds s b x) := by
  unfold burstEnds
  with_reducible repeat' first
    | assumption | intro _ | refine ite_kept ?_ ?_ | extract_lets +onlyGivenNames t | apply modChan_kept
    | apply arbitrate_kept

theorem dropAccesses_kept {s p} (h : Kept q s) : Kept q (dropAccesses s p) := by
  unfold dropAccesses
  with_reducible repeat' first
    | assumption | intro _ | refine ite_kept ?_ ?_ | extract_lets +onlyGivenNames t
    | refine foldl_kept (fun _ _ _ => ?_) ?_ | apply modChan_kept | apply arbitrate_kept

theorem askMemory_kept {s p a mask reader} (h : Kept q s) : Kept q (askMemory s p a mask reader) := by
  unfold askMemory
  with_reducible repeat' first
    | assumption | intro _ | refine ite_kept ?_ ?_ | extract_lets +onlyGivenNames t | apply modLine_kept
    | apply queueAccess_kept

theorem spendRead_kept {s p a} (h : Kept q s) : Kept q (spendRead s p a) := by
  unfold spendRead
  with_reducible repeat' first
    | assumption | intro _ | refine ite_kept ?_ ?_ | apply modLine_kept

theorem forgetReads_kept {s p a} (h : Kept q s) : Kept q (forgetReads s p a) := by
  unfold forgetReads
  with_reducible repeat' first
    | assumption | intro _ | refine ite_kept ?_ ?_ | extract_lets +onlyGivenNames t | apply modLine_kept

theorem writeLine_kept {s p a cells} (h : Kept q s) : Kept q (writeLine s p a cells) := by
  unfold writeLine
  with_reducible repeat' first
    | assumption | refine ite_kept ?_ ?_ | apply queueAccess_kept | (refine kept_mem (by assumption) ?_)
    | apply mwriteCells_wf | exact Kept.mem (by assumption)

/-! ## Image -/

theorem spadPut_kept {s i o bs} (h : Kept q s) : Kept q (spadPut s i o bs) := by
  unfold spadPut
  with_reducible repeat' first
    | assumption | intro _ | refine ite_kept ?_ ?_ | refine foldl_kept (fun _ _ _ => ?_) ?_
    | (refine kept_spad (by assumption) ?_) | apply mwrite_wf | apply filter_wf | apply foldl_mwrite_wf
    | exact Kept.spad (by assumption)

/-! ## Cache -/

theorem send_kept {s m} (h : Kept q s) : Kept q (send s m) := by
  unfold send
  with_reducible repeat' first
    | assumption | (apply kept_mk; assumption)

theorem takeMsg_kept {s f} (h : Kept q s) : KeptOP q (takeMsg s f) := by
  unfold takeMsg
  with_reducible repeat' first
    | assumption | intro _ | (apply kept_mk; assumption) | exact none_keptOP | apply some_keptOP
    | refine map_keptOP (fun _ => ?_)

theorem tallyAdd_kept {s p cls k} (h : Kept q s) : Kept q (tallyAdd s p cls k) := by
  unfold tallyAdd
  with_reducible repeat' first
    | assumption | intro _ | extract_lets +onlyGivenNames t | apply modPart_kept

theorem logDevice_kept {s p phys} (h : Kept q s) : Kept q (logDevice s p phys) := by
  unfold logDevice
  with_reducible repeat' first
    | assumption | intro _ | refine ite_kept ?_ ?_ | extract_lets +onlyGivenNames t | apply modPart_kept | split

theorem logHost_kept {s p hpa} (h : Kept q s) : Kept q (logHost s p hpa) := by
  unfold logHost
  with_reducible repeat' first
    | assumption | intro _ | refine ite_kept ?_ ?_ | extract_lets +onlyGivenNames t | apply modPart_kept | split

theorem writeback_kept {s p a} (h : Kept q s) : Kept q (writeback s p a) := by
  unfold writeback
  with_reducible repeat' first
    | assumption | intro _ | refine ite_kept ?_ ?_ | apply modLine_kept | apply writeLine_kept

theorem makeRoom_kept {s p a} (h : Kept q s) : Kept q (makeRoom s p a) := by
  unfold makeRoom
  with_reducible repeat' first
    | assumption | intro _ | refine ite_kept ?_ ?_
    | (extract_lets +onlyGivenNames t; refine step_kept (q := q) (t := t) ?_ (fun _ => ?_); rotate_left; clear_value t; rotate_right; unfold t; clear t)
    | (extract_lets +onlyGivenNames t; clear_value t) | extract_lets +onlyGivenNames t | apply modLine_kept
    | apply tallyAdd_kept | apply writeback_kept | apply draw_kept | split | (refine snd_kept (by assumption) ?_)

theorem toBuffer_kept {s p a} (h : Kept q s) : Kept q (toBuffer s p a) := by
  unfold toBuffer
  with_reducible repeat' first
    | assumption | intro _
    | (extract_lets +onlyGivenNames t; refine step_kept (q := q) (t := t) ?_ (fun _ => ?_); rotate_left; clear_value t; rotate_right; unfold t; clear t)
    | (extract_lets +onlyGivenNames t; clear_value t) | extract_lets +onlyGivenNames t
    | refine foldl_kept (fun _ _ _ => ?_) ?_ | apply modLine_kept | apply modPart_kept | apply tallyAdd_kept | split

theorem toSets_kept {s p a} (h : Kept q s) : Kept q (toSets s p a) := by
  unfold toSets
  with_reducible repeat' first
    | assumption | intro _ | refine ite_kept ?_ ?_
    | (extract_lets +onlyGivenNames t; refine step_kept (q := q) (t := t) ?_ (fun _ => ?_); rotate_left; clear_value t; rotate_right; unfold t; clear t)
    | extract_lets +onlyGivenNames t | apply modLine_kept | apply modPart_kept | apply makeRoom_kept

theorem missed_kept {s p a ag} (h : Kept q s) : Kept q (missed s p a ag).1 := by
  unfold missed
  with_reducible repeat' first
    | assumption | intro _ | refine ite_kept ?_ ?_ | extract_lets +onlyGivenNames t | (apply kept_mk; assumption)
    | apply modPart_kept | split

theorem access_kept {s p a ag own fill} (h : Kept q s) : Kept q (access s p a ag own fill) := by
  unfold access
  with_reducible repeat' first
    | assumption | refine ite_kept ?_ ?_ | extract_lets +onlyGivenNames t | apply modLine_kept | apply makeRoom_kept
    | apply tallyAdd_kept | apply toBuffer_kept | apply missed_kept

theorem noteDead_kept {s p a} (h : Kept q s) : Kept q (noteDead s p a) := by
  unfold noteDead
  with_reducible repeat' first
    | assumption | intro _ | extract_lets +onlyGivenNames t | apply modPart_kept | split

theorem unDead_kept {s p a} (h : Kept q s) : Kept q (unDead s p a) := by
  unfold unDead
  with_reducible repeat' first
    | assumption | intro _ | extract_lets +onlyGivenNames t | apply modPart_kept

theorem backInvalidate_kept {s p a} (h : Kept q s) : Kept q (backInvalidate s p a) := by
  unfold backInvalidate
  with_reducible repeat' first
    | assumption | intro _
    | (extract_lets +onlyGivenNames t; refine step_kept (q := q) (t := t) ?_ (fun _ => ?_); rotate_left; clear_value t; rotate_right; unfold t; clear t)
    | (extract_lets +onlyGivenNames t; clear_value t) | extract_lets +onlyGivenNames t
    | refine foldl_kept (fun _ _ _ => ?_) ?_ | apply emit_kept | apply modLine_kept

theorem takeDirty_kept {s p a cells} (h : Kept q s) : Kept q (takeDirty s p a cells) := by
  unfold takeDirty
  with_reducible repeat' first
    | assumption | intro _ | refine ite_kept ?_ ?_
    | (extract_lets +onlyGivenNames t; refine step_kept (q := q) (t := t) ?_ (fun _ => ?_); rotate_left; clear_value t; rotate_right; unfold t; clear t)
    | extract_lets +onlyGivenNames t | apply modLine_kept | apply forgetReads_kept | apply makeRoom_kept
    | apply toSets_kept

theorem settleFlight_kept {s p a l keep toS} (h : Kept q s) : Kept q (settleFlight s p a l keep toS) := by
  unfold settleFlight
  with_reducible repeat' first
    | assumption | intro _ | refine ite_kept ?_ ?_ | extract_lets +onlyGivenNames t | (apply kept_mk; assumption)
    | apply takeDirty_kept

theorem dropL1_kept {s p a l keep} (h : Kept q s) : Kept q (dropL1 s p a l keep) := by
  unfold dropL1
  with_reducible repeat' first
    | assumption | intro _ | refine ite_kept ?_ ?_
    | (extract_lets +onlyGivenNames t; refine step_kept (q := q) (t := t) ?_ (fun _ => ?_); rotate_left; clear_value t; rotate_right; unfold t; clear t)
    | (extract_lets +onlyGivenNames t; clear_value t) | extract_lets +onlyGivenNames t | apply modL1_kept
    | apply modLine_kept | apply settleFlight_kept | apply takeDirty_kept

theorem dropL1s_kept {s p a keep spare} (h : Kept q s) : Kept q (dropL1s s p a keep spare) := by
  unfold dropL1s
  with_reducible repeat' first
    | assumption | intro _ | refine foldl_kept (fun _ _ _ => ?_) ?_ | apply dropL1_kept

theorem downOwner_kept {s p a} (h : Kept q s) : Kept q (downOwner s p a) := by
  unfold downOwner
  with_reducible repeat' first
    | assumption | intro _ | refine ite_kept ?_ ?_ | extract_lets +onlyGivenNames t | apply modL1_kept
    | apply modLine_kept | apply settleFlight_kept | apply takeDirty_kept | split

theorem markStaged_kept {s p a} (h : Kept q s) : Kept q (markStaged s p a) := by
  unfold markStaged
  with_reducible repeat' first
    | assumption | intro _ | refine ite_kept ?_ ?_
    | (extract_lets +onlyGivenNames t; refine step_kept (q := q) (t := t) ?_ (fun _ => ?_); rotate_left; clear_value t; rotate_right; unfold t; clear t)
    | extract_lets +onlyGivenNames t | apply modLine_kept | apply makeRoom_kept | apply toSets_kept
    | apply unDead_kept | apply writeback_kept | split

theorem writeCommitted_kept {s p a cells} (h : Kept q s) : Kept q (writeCommitted s p a cells) := by
  unfold writeCommitted
  with_reducible repeat' first
    | assumption | intro _ | refine ite_kept ?_ ?_
    | (extract_lets +onlyGivenNames t; refine step_kept (q := q) (t := t) ?_ (fun _ => ?_); rotate_left; clear_value t; rotate_right; unfold t; clear t)
    | extract_lets +onlyGivenNames t | apply modLine_kept | apply dropL1s_kept | apply forgetReads_kept
    | apply logDevice_kept | apply makeRoom_kept | apply noteTables_kept | apply toSets_kept | apply unDead_kept
    | apply writeLine_kept

theorem homeWrite_kept {s p a cells} (h : Kept q s) : Kept q (homeWrite s p a cells) := by
  unfold homeWrite
  with_reducible repeat' first
    | assumption | intro _ | refine ite_kept ?_ ?_ | apply modLine_kept | apply writeCommitted_kept

theorem writeUnit_kept {s p a cells} (h : Kept q s) : Kept q (writeUnit s p a cells) := by
  unfold writeUnit
  with_reducible repeat' first
    | assumption | intro _
    | (extract_lets +onlyGivenNames t; refine step_kept (q := q) (t := t) ?_ (fun _ => ?_); rotate_left; clear_value t; rotate_right; unfold t; clear t)
    | extract_lets +onlyGivenNames t | apply modLine_kept | apply dropL1s_kept | apply markStaged_kept
    | apply writeCommitted_kept | split

theorem queueItem_kept {s type1 i} (h : Kept q s) : Kept q (queueItem s type1 i) := by
  unfold queueItem
  with_reducible repeat' first
    | assumption | intro _ | (extract_lets +onlyGivenNames t; clear_value t) | extract_lets +onlyGivenNames t
    | apply modPort_kept | split

theorem unitItemBy_kept {s key p dst addr data} (h : Kept q s) : Kept q (unitItemBy s key p dst addr data).2 := by
  unfold unitItemBy
  with_reducible repeat' first
    | assumption | intro _ | (extract_lets +onlyGivenNames t; clear_value t) | extract_lets +onlyGivenNames t
    | apply modPart_kept

theorem unitItem_kept {s p dst addr data} (h : Kept q s) : Kept q (unitItem s p dst addr data).2 := by
  unfold unitItem
  with_reducible repeat' first
    | assumption | apply unitItemBy_kept

theorem askRemote_kept {s p a} (h : Kept q s) : Kept q (askRemote s p a) := by
  unfold askRemote
  with_reducible repeat' first
    | assumption | intro _ | refine ite_kept ?_ ?_ | extract_lets +onlyGivenNames t | apply modLine_kept
    | apply queueItem_kept | apply unitItemBy_kept

theorem sendRemote_kept {s p a} (h : Kept q s) : Kept q (sendRemote s p a) := by
  unfold sendRemote
  with_reducible repeat' first
    | assumption | intro _ | (extract_lets +onlyGivenNames t; clear_value t) | extract_lets +onlyGivenNames t
    | refine foldl_kept (fun _ _ _ => ?_) ?_ | apply queueItem_kept | apply unitItem_kept

theorem sendHost_kept {s p a} (h : Kept q s) : Kept q (sendHost s p a) := by
  unfold sendHost
  with_reducible repeat' first
    | assumption | intro _ | refine ite_kept ?_ ?_ | (extract_lets +onlyGivenNames t; clear_value t)
    | extract_lets +onlyGivenNames t | refine foldl_kept (fun _ _ _ => ?_) ?_ | (apply kept_mk; assumption)
    | apply emit_kept | apply logHost_kept | split

theorem sendStaged_kept {s p} (h : Kept q s) : Kept q (sendStaged s p) := by
  unfold sendStaged
  with_reducible repeat' first
    | assumption | intro _ | refine ite_kept ?_ ?_ | extract_lets +onlyGivenNames t
    | refine foldl_kept (fun _ _ _ => ?_) ?_ | apply downOwner_kept | apply sendRemote_kept

theorem commitLine_kept {s p a} (h : Kept q s) : Kept q (commitLine s p a) := by
  unfold commitLine
  with_reducible repeat' first
    | assumption | intro _ | refine ite_kept ?_ ?_ | extract_lets +onlyGivenNames t | apply modLine_kept
    | apply downOwner_kept | apply dropL1s_kept | apply logDevice_kept | apply sendHost_kept | split

theorem discardLine_kept {s p a} (h : Kept q s) : Kept q (discardLine s p a) := by
  unfold discardLine
  with_reducible repeat' first
    | assumption | intro _ | refine ite_kept ?_ ?_
    | (extract_lets +onlyGivenNames t; refine step_kept (q := q) (t := t) ?_ (fun _ => ?_); rotate_left; clear_value t; rotate_right; unfold t; clear t)
    | extract_lets +onlyGivenNames t | refine foldl_kept (fun _ _ _ => ?_) ?_ | apply modLine_kept
    | apply downOwner_kept | apply dropL1_kept | apply dropL1s_kept | apply forgetReads_kept | split

theorem rebuildLedger_kept {s p as} (h : Kept q s) : Kept q (rebuildLedger s p as) := by
  unfold rebuildLedger
  with_reducible repeat' first
    | assumption | intro _ | (extract_lets +onlyGivenNames t; clear_value t) | extract_lets +onlyGivenNames t
    | refine foldl_kept (fun _ _ _ => ?_) ?_ | apply modLine_kept | apply markStaged_kept

theorem settleLoose_kept {s p f} (h : Kept q s) : Kept q (settleLoose s p f) := by
  unfold settleLoose
  with_reducible repeat' first
    | assumption | intro _ | refine foldl_kept (fun _ _ _ => ?_) ?_ | apply logDevice_kept
    | (refine kept_mem (by assumption) ?_) | apply mwriteCells_wf | apply filter_wf | apply foldl_mwrite_wf
    | exact Kept.mem (by assumption)

theorem freeLedger_kept {s p f} (h : Kept q s) : Kept q (freeLedger s p f) := by
  unfold freeLedger
  with_reducible repeat' first
    | assumption | intro _ | refine foldl_kept (fun _ _ _ => ?_) ?_ | apply modStall_kept

theorem homeDone_kept {s p} (h : Kept q s) : Kept q (homeDone s p) := by
  unfold homeDone
  with_reducible repeat' first
    | assumption | intro _ | extract_lets +onlyGivenNames t | refine foldl_kept (fun _ _ _ => ?_) ?_
    | apply modStall_kept

theorem commitLines_kept {s p} (h : Kept q s) : Kept q (commitLines s p) := by
  unfold commitLines
  with_reducible repeat' first
    | assumption | intro _
    | (extract_lets +onlyGivenNames t; refine step_kept (q := q) (t := t) ?_ (fun _ => ?_); rotate_left; clear_value t; rotate_right; unfold t; clear t)
    | extract_lets +onlyGivenNames t | refine foldl_kept (fun _ _ _ => ?_) ?_ | apply commitLine_kept
    | apply freeLedger_kept | apply homeDone_kept

theorem discardLines_kept {s p} (h : Kept q s) : Kept q (discardLines s p) := by
  unfold discardLines
  with_reducible repeat' first
    | assumption | intro _ | refine foldl_kept (fun _ _ _ => ?_) ?_ | apply discardLine_kept
    | apply rebuildLedger_kept

theorem fillPinned_kept {s p a} (h : Kept q s) : Kept q (fillPinned s p a) := by
  unfold fillPinned
  with_reducible repeat' first
    | assumption | refine ite_kept ?_ ?_ | extract_lets +onlyGivenNames t | apply modLine_kept | apply makeRoom_kept
    | apply tallyAdd_kept

theorem pinLine_kept {s p a} (h : Kept q s) : Kept q (pinLine s p a) := by
  unfold pinLine
  with_reducible repeat' first
    | assumption | intro _ | refine ite_kept ?_ ?_ | extract_lets +onlyGivenNames t | apply modLine_kept
    | apply askMemory_kept | apply fillPinned_kept | apply toSets_kept

theorem unpinLine_kept {s p a} (h : Kept q s) : Kept q (unpinLine s p a) := by
  unfold unpinLine
  with_reducible repeat' first
    | assumption | intro _ | apply modLine_kept

theorem dropLine_kept {s p a} (h : Kept q s) : Kept q (dropLine s p a) := by
  unfold dropLine
  with_reducible repeat' first
    | assumption | intro _
    | (extract_lets +onlyGivenNames t; refine step_kept (q := q) (t := t) ?_ (fun _ => ?_); rotate_left; clear_value t; rotate_right; unfold t; clear t)
    | extract_lets +onlyGivenNames t | apply modLine_kept | apply dropL1s_kept | apply noteDead_kept

theorem flushCache_kept {s p pins} (h : Kept q s) : Kept q (flushCache s p pins) := by
  unfold flushCache
  with_reducible repeat' first
    | assumption | intro _ | refine ite_kept ?_ ?_
    | (extract_lets +onlyGivenNames t; refine step_kept (q := q) (t := t) ?_ (fun _ => ?_); rotate_left; clear_value t; rotate_right; unfold t; clear t)
    | extract_lets +onlyGivenNames t | refine foldl_kept (fun _ _ _ => ?_) ?_ | apply modLine_kept
    | apply dropL1s_kept | apply writeback_kept

theorem wipeCache_kept {s p} (h : Kept q s) : Kept q (wipeCache s p) := by
  unfold wipeCache
  with_reducible repeat' first
    | assumption | intro _
    | (extract_lets +onlyGivenNames t; refine step_kept (q := q) (t := t) ?_ (fun _ => ?_); rotate_left; clear_value t; rotate_right; unfold t; clear t)
    | extract_lets +onlyGivenNames t | refine foldl_kept (fun _ _ _ => ?_) ?_ | apply modPart_kept
    | apply dropAccesses_kept | apply dropL1s_kept

theorem moveLedger_kept {s p from'} (h : Kept q s) : Kept q (moveLedger s p from') := by
  unfold moveLedger
  with_reducible repeat' first
    | assumption | intro _
    | (extract_lets +onlyGivenNames t; refine step_kept (q := q) (t := t) ?_ (fun _ => ?_); rotate_left; clear_value t; rotate_right; unfold t; clear t)
    | (extract_lets +onlyGivenNames t; clear_value t) | extract_lets +onlyGivenNames t
    | refine foldl_kept (fun _ _ _ => ?_) ?_ | apply modStall_kept | split

theorem rehome_kept {s p} (h : Kept q s) : Kept q (rehome s p) := by
  unfold rehome
  with_reducible repeat' first
    | assumption | intro _ | refine ite_kept ?_ ?_
    | (extract_lets +onlyGivenNames t; refine step_kept (q := q) (t := t) ?_ (fun _ => ?_); rotate_left; clear_value t; rotate_right; unfold t; clear t)
    | (extract_lets +onlyGivenNames t; clear_value t) | extract_lets +onlyGivenNames t
    | refine foldl_kept (fun _ _ _ => ?_) ?_ | apply modPart_kept | apply flushCache_kept | apply moveLedger_kept
    | apply pinLine_kept | apply rebuildLedger_kept

end Sys2Proof.Machine
end

