-- ==== Sys2Proof/Laws/Kept2.lean ====
section
/-! SUPPORT. What every operation keeps (Laws/Kept): the definitions of Machine/Faults, Units, Placement, Parity,
Coherence, Reset. -/

set_option linter.tactic.unusedName false

namespace Sys2Proof.Machine

variable {q : Fixed}

/-! ## Faults -/

theorem chkLog_kept {s r} (h : Kept q s) : Kept q (chkLog s r) := by
  unfold chkLog
  with_reducible repeat' first
    | assumption | (apply kept_mk; assumption)

theorem tracePut_kept {s bs} (h : Kept q s) : Kept q (tracePut s bs) := by
  unfold tracePut
  with_reducible repeat' first
    | assumption | refine ite_kept ?_ ?_ | extract_lets +onlyGivenNames t | (refine kept_trace (by assumption) ?_)
    | apply mwrites_wf | exact Kept.trace (by assumption)

theorem trace_kept {s type1 p where' code tick data} (h : Kept q s) :
    Kept q (trace s type1 p where' code tick data) := by
  unfold trace
  with_reducible repeat' first
    | assumption | refine ite_kept ?_ ?_ | apply tracePut_kept | split

theorem logCorrected_kept {s p detail stall} (h : Kept q s) : Kept q (logCorrected s p detail stall) := by
  unfold logCorrected
  with_reducible repeat' first
    | assumption | intro _
    | (extract_lets +onlyGivenNames t; refine step_kept (q := q) (t := t) ?_ (fun _ => ?_); rotate_left; clear_value t; rotate_right; unfold t; clear t)
    | extract_lets +onlyGivenNames t | apply modPart_kept | apply chkLog_kept

theorem logContained_kept {s p detail stall} (h : Kept q s) : Kept q (logContained s p detail stall) := by
  unfold logContained
  with_reducible repeat' first
    | assumption
    | (extract_lets +onlyGivenNames t; refine step_kept (q := q) (t := t) ?_ (fun _ => ?_); rotate_left; clear_value t; rotate_right; unfold t; clear t)
    | extract_lets +onlyGivenNames t | apply chkLog_kept | apply trace_kept

theorem sendSymbol_kept {s j v} (h : Kept q s) : Kept q (sendSymbol s j v) := by
  unfold sendSymbol
  with_reducible repeat' first
    | assumption | intro _ | refine ite_kept ?_ ?_ | apply modPort_kept

theorem flood_kept {s v except} (h : Kept q s) : Kept q (flood s v except) := by
  unfold flood
  with_reducible repeat' first
    | assumption | intro _ | refine foldl_kept (fun _ _ _ => ?_) ?_ | apply sendSymbol_kept

theorem sendAbandon_kept {s p} (h : Kept q s) : Kept q (sendAbandon s p) := by
  unfold sendAbandon
  with_reducible repeat' first
    | assumption | refine ite_kept ?_ ?_ | extract_lets +onlyGivenNames t | apply flood_kept

theorem modQueue_kept {s p k f} (h : Kept q s) : Kept q (State.modQueue s p k f) := by
  unfold State.modQueue
  with_reducible repeat' first
    | assumption | intro _ | apply modPart_kept

theorem flushRun_kept {s p k} (h : Kept q s) : Kept q (flushRun s p k) := by
  unfold flushRun
  with_reducible repeat' first
    | assumption | intro _ | refine ite_kept ?_ ?_ | extract_lets +onlyGivenNames t | apply modPart_kept

theorem settleHalts_kept {s p} (h : Kept q s) : Kept q (settleHalts s p) := by
  unfold settleHalts
  with_reducible repeat' first
    | assumption | intro _
    | (extract_lets +onlyGivenNames t; refine step_kept (q := q) (t := t) ?_ (fun _ => ?_); rotate_left; clear_value t; rotate_right; unfold t; clear t)
    | (extract_lets +onlyGivenNames t; clear_value t) | extract_lets +onlyGivenNames t
    | refine foldl_kept (fun _ _ _ => ?_) ?_ | apply modQueue_kept | apply completeAll_kept | apply flushRun_kept
    | split

theorem entryDone_kept {s p k units} (h : Kept q s) : Kept q (entryDone s p k units) := by
  unfold entryDone
  with_reducible repeat' first
    | assumption | intro _ | (extract_lets +onlyGivenNames t; clear_value t) | extract_lets +onlyGivenNames t
    | apply modQueue_kept | apply settleHalts_kept

theorem entryFail_kept {s p k units status detail} (h : Kept q s) : Kept q (entryFail s p k units status detail) := by
  unfold entryFail
  with_reducible repeat' first
    | assumption | intro _
    | (extract_lets +onlyGivenNames t; refine step_kept (q := q) (t := t) ?_ (fun _ => ?_); rotate_left; clear_value t; rotate_right; unfold t; clear t)
    | extract_lets +onlyGivenNames t | apply modQueue_kept | apply partEvent_kept | apply settleHalts_kept

theorem abortQueues_kept {s p detail} (h : Kept q s) : Kept q (abortQueues s p detail) := by
  unfold abortQueues
  with_reducible repeat' first
    | assumption | intro _ | refine ite_kept ?_ ?_ | refine foldl_kept (fun _ _ _ => ?_) ?_ | apply modQueue_kept

theorem noteQueueFault_kept {s p va write d} (h : Kept q s) : Kept q (noteQueueFault s p va write d) := by
  unfold noteQueueFault
  with_reducible repeat' first
    | assumption | refine ite_kept ?_ ?_ | apply recordFault_kept

theorem semWrite_kept {s p a v} (h : Kept q s) : Kept q (semWrite s p a v) := by
  unfold semWrite
  with_reducible repeat' first
    | assumption | apply homeWrite_kept

theorem signalFar_kept {s p sys v unit} (h : Kept q s) : Kept q (signalFar s p sys v unit) := by
  unfold signalFar
  with_reducible repeat' first
    | assumption | extract_lets +onlyGivenNames t | apply queueItem_kept | apply unitItem_kept

theorem signal_kept {s p va v} (h : Kept q s) : Kept q (signal s p va v).1 := by
  unfold signal
  with_reducible repeat' first
    | assumption | intro _ | refine ite_kept ?_ ?_ | apply noteQueueFault_kept | apply semWrite_kept
    | apply signalFar_kept | split

theorem purgeKeys_kept {s p mask} (h : Kept q s) : Kept q (purgeKeys s p mask) := by
  unfold purgeKeys
  with_reducible repeat' first
    | assumption | intro _
    | (extract_lets +onlyGivenNames t; refine step_kept (q := q) (t := t) ?_ (fun _ => ?_); rotate_left; clear_value t; rotate_right; unfold t; clear t)
    | extract_lets +onlyGivenNames t | refine foldl_kept (fun _ _ _ => ?_) ?_ | apply modPart_kept
    | apply modStall_kept

theorem zeroUnitRegs_kept {s p} (h : Kept q s) : Kept q (zeroUnitRegs s p) := by
  unfold zeroUnitRegs
  with_reducible repeat' first
    | assumption | intro _ | refine foldl_kept (fun _ _ _ => ?_) ?_ | apply modStall_kept

theorem dropEvidence_kept {s p} (h : Kept q s) : Kept q (dropEvidence s p) := by
  unfold dropEvidence
  with_reducible repeat' first
    | assumption | intro _ | extract_lets +onlyGivenNames t | apply modPart_kept

theorem applyKeys_kept {s p} (h : Kept q s) : Kept q (applyKeys s p) := by
  unfold applyKeys
  with_reducible repeat' first
    | assumption | intro _
    | (extract_lets +onlyGivenNames t; refine step_kept (q := q) (t := t) ?_ (fun _ => ?_); rotate_left; clear_value t; rotate_right; unfold t; clear t)
    | (extract_lets +onlyGivenNames t; clear_value t) | extract_lets +onlyGivenNames t
    | refine foldl_kept (fun _ _ _ => ?_) ?_ | apply modPart_kept | apply modStall_kept

theorem sesWrite_kept {s p i bs} (h : Kept q s) : Kept q (sesWrite s p i bs) := by
  unfold sesWrite
  with_reducible repeat' first
    | assumption | (refine kept_mem (by assumption) ?_) | apply mwrites_wf | exact Kept.mem (by assumption)

theorem sesClear_kept {s p i} (h : Kept q s) : Kept q (sesClear s p i) := by
  unfold sesClear
  with_reducible repeat' first
    | assumption | apply sesWrite_kept

theorem sesNote_kept {s p status detail} (h : Kept q s) : Kept q (sesNote s p status detail) := by
  unfold sesNote
  with_reducible repeat' first
    | assumption | apply partEvent_kept

theorem sesFail_kept {s p i status detail} (h : Kept q s) : Kept q (sesFail s p i status detail) := by
  unfold sesFail
  with_reducible repeat' first
    | assumption | (extract_lets +onlyGivenNames t; clear_value t) | extract_lets +onlyGivenNames t
    | apply sesNote_kept | apply sesWrite_kept

theorem sesUse_kept {s p i} (h : Kept q s) : Kept q (sesUse s p i).1 := by
  unfold sesUse
  with_reducible repeat' first
    | assumption
    | (extract_lets +onlyGivenNames t; refine step_kept (q := q) (t := t) ?_ (fun _ => ?_); rotate_left; clear_value t; rotate_right; unfold t; clear t)
    | (extract_lets +onlyGivenNames t; clear_value t) | extract_lets +onlyGivenNames t | (apply kept_mk; assumption)
    | apply logContained_kept | apply logCorrected_kept | apply sesFail_kept | apply sesWrite_kept | split

theorem unrunSession_kept {s p i} (h : Kept q s) : Kept q (unrunSession s p i) := by
  unfold unrunSession
  with_reducible repeat' first
    | assumption | refine ite_kept ?_ ?_ | (extract_lets +onlyGivenNames t; clear_value t)
    | extract_lets +onlyGivenNames t | apply completeAll_kept | apply sesClear_kept | apply sesWrite_kept
    | apply sesUse_kept | split | (refine fst_kept (by assumption) ?_)

theorem unrunBatch_kept {s p} (h : Kept q s) : Kept q (unrunBatch s p) := by
  unfold unrunBatch
  with_reducible repeat' first
    | assumption | intro _
    | (extract_lets +onlyGivenNames t; refine step_kept (q := q) (t := t) ?_ (fun _ => ?_); rotate_left; clear_value t; rotate_right; unfold t; clear t)
    | (extract_lets +onlyGivenNames t; clear_value t) | extract_lets +onlyGivenNames t
    | refine foldl_kept (fun _ _ _ => ?_) ?_ | apply modPart_kept | apply unrunSession_kept

theorem endGroups_kept {s p} (h : Kept q s) : Kept q (endGroups s p) := by
  unfold endGroups
  with_reducible repeat' first
    | assumption | intro _ | (apply kept_mk; assumption)

theorem emptyEngines_kept {s p} (h : Kept q s) : Kept q (emptyEngines s p) := by
  unfold emptyEngines
  with_reducible repeat' first
    | assumption | intro _ | (extract_lets +onlyGivenNames t; clear_value t) | extract_lets +onlyGivenNames t
    | refine foldl_kept (fun _ _ _ => ?_) ?_ | apply modStall_kept

theorem applyBoost_kept {s p} (h : Kept q s) : Kept q (applyBoost s p) := by
  unfold applyBoost
  with_reducible repeat' first
    | assumption | intro _ | apply modPart_kept | split

theorem runDiscards_kept {s p} (h : Kept q s) : Kept q (runDiscards s p) := by
  unfold runDiscards
  with_reducible repeat' first
    | assumption | intro _ | refine ite_kept ?_ ?_ | extract_lets +onlyGivenNames t
    | refine foldl_kept (fun _ _ _ => ?_) ?_ | apply backInvalidate_kept | apply completeAll_kept
    | apply dropLine_kept

theorem flushLog_kept {s l} (h : Kept q s) : Kept q (flushLog s l) := by
  unfold flushLog
  with_reducible repeat' first
    | assumption | intro _ | refine foldl_kept (fun _ _ _ => ?_) ?_ | apply emit_kept

theorem setLog_kept {s p host l} (h : Kept q s) : Kept q (setLog s p host l) := by
  unfold setLog
  with_reducible repeat' first
    | assumption | intro _ | refine ite_kept ?_ ?_ | extract_lets +onlyGivenNames t | apply modPart_kept

theorem collectLog_kept {s p host bitmap} (h : Kept q s) : Kept q (collectLog s p host bitmap) := by
  unfold collectLog
  with_reducible repeat' first
    | assumption | apply flushLog_kept | apply setLog_kept | split

theorem stopLog_kept {s p host} (h : Kept q s) : Kept q (stopLog s p host) := by
  unfold stopLog
  with_reducible repeat' first
    | assumption | apply flushLog_kept | apply setLog_kept | split

theorem settleLogs_kept {s p} (h : Kept q s) : Kept q (settleLogs s p) := by
  unfold settleLogs
  with_reducible repeat' first
    | assumption | intro _ | refine ite_kept ?_ ?_
    | (extract_lets +onlyGivenNames t; refine step_kept (q := q) (t := t) ?_ (fun _ => ?_); rotate_left; clear_value t; rotate_right; unfold t; clear t)
    | (extract_lets +onlyGivenNames t; clear_value t) | extract_lets +onlyGivenNames t
    | refine foldl_kept (fun _ _ _ => ?_) ?_ | apply collectLog_kept | apply completeAll_kept | apply stopLog_kept
    | split

theorem gateStalls_kept {s p} (h : Kept q s) : Kept q (gateStalls s p) := by
  unfold gateStalls
  with_reducible repeat' first
    | assumption | intro _ | refine ite_kept ?_ ?_ | refine foldl_kept (fun _ _ _ => ?_) ?_ | apply modStall_kept

theorem stopJob_kept {s p detail} (h : Kept q s) : Kept q (stopJob s p detail) := by
  unfold stopJob
  with_reducible repeat' first
    | assumption | intro _ | refine ite_kept ?_ ?_
    | (extract_lets +onlyGivenNames t; refine step_kept (q := q) (t := t) ?_ (fun _ => ?_); rotate_left; clear_value t; rotate_right; unfold t; clear t)
    | extract_lets +onlyGivenNames t | apply modPart_kept | apply abortQueues_kept | apply applyBoost_kept
    | apply completeAll_kept | apply emptyEngines_kept | apply endGroups_kept | apply gateStalls_kept
    | apply rehome_kept | apply runDiscards_kept | apply settleLogs_kept | apply unrunBatch_kept

theorem endServing_kept {s p} (h : Kept q s) : Kept q (endServing s p) := by
  unfold endServing
  with_reducible repeat' first
    | assumption | intro _ | refine ite_kept ?_ ?_ | extract_lets +onlyGivenNames t | apply modQueue_kept
    | apply signal_kept

theorem jobEnds_kept {s p} (h : Kept q s) : Kept q (jobEnds s p) := by
  unfold jobEnds
  with_reducible repeat' first
    | assumption | apply endServing_kept | apply stopJob_kept

theorem discardUnit_kept {s p} (h : Kept q s) : Kept q (discardUnit s p) := by
  unfold discardUnit
  with_reducible repeat' first
    | assumption | extract_lets +onlyGivenNames t | apply discardLines_kept | apply freeLedger_kept

theorem endJob_kept {s p status detail stall} (h : Kept q s) : Kept q (endJob s p status detail stall) := by
  unfold endJob
  with_reducible repeat' first
    | assumption | intro _
    | (extract_lets +onlyGivenNames t; refine step_kept (q := q) (t := t) ?_ (fun _ => ?_); rotate_left; clear_value t; rotate_right; unfold t; clear t)
    | extract_lets +onlyGivenNames t | apply modPart_kept | apply discardUnit_kept | apply logContained_kept
    | apply partEvent_kept | apply sendAbandon_kept | apply stopJob_kept

theorem contained_kept {s p status detail stall} (h : Kept q s) : Kept q (contained s p status detail stall) := by
  unfold contained
  with_reducible repeat' first
    | assumption | refine ite_kept ?_ ?_ | apply endJob_kept | apply logContained_kept | apply partEvent_kept

theorem discardChecked_kept {s p} (h : Kept q s) : Kept q (discardChecked s p) := by
  unfold discardChecked
  with_reducible repeat' first
    | assumption | intro _ | apply contained_kept | apply discardLines_kept | apply freeLedger_kept | split

theorem markError_kept {s p detail stall} (h : Kept q s) : Kept q (markError s p detail stall) := by
  unfold markError
  with_reducible repeat' first
    | assumption | intro _ | refine ite_kept ?_ ?_ | extract_lets +onlyGivenNames t | apply modPart_kept
    | apply modStall_kept | apply logCorrected_kept

theorem unitError_kept {s p detail stall} (h : Kept q s) : Kept q (unitError s p detail stall) := by
  unfold unitError
  with_reducible repeat' first
    | assumption | refine ite_kept ?_ ?_ | extract_lets +onlyGivenNames t | apply contained_kept
    | apply logCorrected_kept | apply markError_kept

theorem alertManager_kept {s} (h : Kept q s) : Kept q (alertManager s) := by
  unfold alertManager
  with_reducible repeat' first
    | assumption | apply emit_kept

theorem parityHit_kept {s i} (h : Kept q s) : Kept q (parityHit s i).1 := by
  unfold parityHit
  with_reducible repeat' first
    | assumption | intro _
    | (extract_lets +onlyGivenNames t; refine step_kept (q := q) (t := t) ?_ (fun _ => ?_); rotate_left; clear_value t; rotate_right; unfold t; clear t)
    | (extract_lets +onlyGivenNames t; clear_value t) | extract_lets +onlyGivenNames t | apply modStall_kept

theorem releaseBuffer_kept {s u} (h : Kept q s) : Kept q (releaseBuffer s u) := by
  unfold releaseBuffer
  with_reducible repeat' first
    | assumption | (extract_lets +onlyGivenNames t; clear_value t) | extract_lets +onlyGivenNames t
    | (apply kept_mk; assumption)

theorem programImage_kept {s bytes u equal} (h : Kept q s) : Kept q (programImage s bytes u equal) :=
  kept_image (draw_kept h) (mwrites_wf rfl)

theorem endProgramming_kept {s equal} (h : Kept q s) : Kept q (endProgramming s equal) := by
  unfold endProgramming
  with_reducible repeat' first
    | assumption | intro _ | refine ite_kept ?_ ?_ | apply completeAll_kept | apply programImage_kept
    | apply releaseBuffer_kept | split

theorem finishFlash_kept {s} (h : Kept q s) : Kept q (finishFlash s) := by
  unfold finishFlash
  with_reducible repeat' first
    | assumption | refine ite_kept ?_ ?_ | extract_lets +onlyGivenNames t | apply endProgramming_kept
    | apply draw_kept

theorem fatal_kept {s detail} (h : Kept q s) : Kept q (fatal s detail) := by
  unfold fatal
  with_reducible repeat' first
    | assumption | intro _
    | (extract_lets +onlyGivenNames t; refine step_kept (q := q) (t := t) ?_ (fun _ => ?_); rotate_left; clear_value t; rotate_right; unfold t; clear t)
    | (extract_lets +onlyGivenNames t; clear_value t) | extract_lets +onlyGivenNames t
    | refine foldl_kept (fun _ _ _ => ?_) ?_ | (apply kept_mk; assumption) | apply alertManager_kept
    | apply chkLog_kept | apply discardUnit_kept | apply dropEvidence_kept | apply finishFlash_kept
    | apply logContained_kept | apply postEvent_kept | apply purgeKeys_kept | apply sendAbandon_kept
    | apply stopJob_kept | apply trace_kept | apply zeroUnitRegs_kept

/-! ## Units -/

theorem markNonrepl_kept {s p} (h : Kept q s) : Kept q (markNonrepl s p) := by
  unfold markNonrepl
  with_reducible repeat' first
    | assumption | intro _ | refine ite_kept ?_ ?_
    | (extract_lets +onlyGivenNames t; refine step_kept (q := q) (t := t) ?_ (fun _ => ?_); rotate_left; clear_value t; rotate_right; unfold t; clear t)
    | extract_lets +onlyGivenNames t | (apply kept_mk; assumption) | apply modPart_kept

theorem writeHost_kept {s p o bs} (h : Kept q s) : Kept q (writeHost s p o bs).1 := by
  unfold writeHost
  with_reducible repeat' first
    | assumption | (apply kept_mk; assumption) | apply emit_kept | apply logHost_kept | split

theorem queueWrite_kept {s p va bs} (h : Kept q s) : Kept q (queueWrite s p va bs).1 := by
  unfold queueWrite
  with_reducible repeat' first
    | assumption | refine ite_kept ?_ ?_ | apply homeWrite_kept | apply recordFault_kept | apply spadPut_kept
    | apply writeHost_kept | split

theorem timeKernel_kept {s p} (h : Kept q s) : Kept q (timeKernel s p) := by
  unfold timeKernel
  with_reducible repeat' first
    | assumption | intro _ | extract_lets +onlyGivenNames t | apply modPart_kept | apply draw_kept

theorem preempt_kept {s p} (h : Kept q s) : Kept q (preempt s p) := by
  unfold preempt
  with_reducible repeat' first
    | assumption | intro _
    | (extract_lets +onlyGivenNames t; refine step_kept (q := q) (t := t) ?_ (fun _ => ?_); rotate_left; clear_value t; rotate_right; unfold t; clear t)
    | extract_lets +onlyGivenNames t | refine foldl_kept (fun _ _ _ => ?_) ?_ | apply modPart_kept
    | apply modQueue_kept | apply gateStalls_kept | apply partEvent_kept | apply settleHalts_kept

theorem haltAtPoint_kept {s p} (h : Kept q s) : Kept q (haltAtPoint s p) := by
  unfold haltAtPoint
  with_reducible repeat' first
    | assumption | intro _ | refine ite_kept ?_ ?_ | apply modQueue_kept | apply settleHalts_kept

theorem pointReached_kept {s p} (h : Kept q s) : Kept q (pointReached s p) := by
  unfold pointReached
  with_reducible repeat' first
    | assumption | refine ite_kept ?_ ?_ | apply haltAtPoint_kept | apply jobEnds_kept | apply preempt_kept

theorem stopKernel_kept {s p} (h : Kept q s) : Kept q (stopKernel s p) := by
  unfold stopKernel
  with_reducible repeat' first
    | assumption | apply discardUnit_kept | apply endGroups_kept | apply sendAbandon_kept

theorem kernelFault_kept {s p status detail} (h : Kept q s) : Kept q (kernelFault s p status detail) := by
  unfold kernelFault
  with_reducible repeat' first
    | assumption | intro _ | refine ite_kept ?_ ?_
    | (extract_lets +onlyGivenNames t; refine step_kept (q := q) (t := t) ?_ (fun _ => ?_); rotate_left; clear_value t; rotate_right; unfold t; clear t)
    | (extract_lets +onlyGivenNames t; clear_value t) | extract_lets +onlyGivenNames t | apply modPart_kept
    | apply entryFail_kept | apply pointReached_kept | apply runDiscards_kept | apply stopKernel_kept
    | apply timeKernel_kept | apply queueWrite_kept

/-! ## Placement -/

theorem sign_kept {s p} (h : Kept q s) : Kept q (sign s p) := by
  unfold sign
  with_reducible repeat' first
    | assumption | intro _ | (extract_lets +onlyGivenNames t; clear_value t) | extract_lets +onlyGivenNames t
    | apply modPart_kept

theorem fenceInPart_kept {s p} (h : Kept q s) : Kept q (fenceInPart s p) := by
  unfold fenceInPart
  with_reducible repeat' first
    | assumption | intro _ | refine ite_kept ?_ ?_
    | (extract_lets +onlyGivenNames t; refine step_kept (q := q) (t := t) ?_ (fun _ => ?_); rotate_left; clear_value t; rotate_right; unfold t; clear t)
    | (extract_lets +onlyGivenNames t; clear_value t) | extract_lets +onlyGivenNames t | apply modPart_kept
    | apply kernelFault_kept | apply rehome_kept | apply sign_kept

theorem rewriteFences_kept {s mask} (h : Kept q s) : Kept q (rewriteFences s mask) := by
  unfold rewriteFences
  with_reducible repeat' first
    | assumption | extract_lets +onlyGivenNames t | (apply kept_flash; assumption)

theorem fenceStall_kept {s i} (h : Kept q s) : Kept q (fenceStall s i) := by
  unfold fenceStall
  with_reducible repeat' first
    | assumption | intro _
    | (extract_lets +onlyGivenNames t; refine step_kept (q := q) (t := t) ?_ (fun _ => ?_); rotate_left; clear_value t; rotate_right; unfold t; clear t)
    | (extract_lets +onlyGivenNames t; clear_value t) | extract_lets +onlyGivenNames t | apply modStall_kept
    | apply alertManager_kept | apply fenceInPart_kept | apply rewriteFences_kept | split

theorem unfenceStall_kept {s i} (h : Kept q s) : Kept q (unfenceStall s i) := by
  unfold unfenceStall
  with_reducible repeat' first
    | assumption | intro _ | (extract_lets +onlyGivenNames t; clear_value t) | extract_lets +onlyGivenNames t
    | apply modStall_kept | apply rewriteFences_kept

/-! ## Parity -/

theorem countFence_kept {s i} (h : Kept q s) : Kept q (countFence s i) := by
  unfold countFence
  with_reducible repeat' first
    | assumption | refine ite_kept ?_ ?_ | apply fenceStall_kept | apply parityHit_kept | split
    | (refine fst_kept (by assumption) ?_)

theorem hardwareError_kept {s p i detail} (h : Kept q s) : Kept q (hardwareError s p i detail) := by
  unfold hardwareError
  with_reducible repeat' first
    | assumption | apply countFence_kept | apply unitError_kept

theorem countSlice_kept {s i} (h : Kept q s) : Kept q (countSlice s i) := by
  unfold countSlice
  with_reducible repeat' first
    | assumption | intro _ | apply modStall_kept

theorem invalidate_kept {s p a} (h : Kept q s) : Kept q (invalidate s p a) := by
  unfold invalidate
  with_reducible repeat' first
    | assumption | intro _
    | (extract_lets +onlyGivenNames t; refine step_kept (q := q) (t := t) ?_ (fun _ => ?_); rotate_left; clear_value t; rotate_right; unfold t; clear t)
    | extract_lets +onlyGivenNames t | apply modLine_kept | apply modPart_kept

theorem checkFilter_kept {s p h1 a} (h : Kept q s) : Kept q (checkFilter s p h1 a) := by
  unfold checkFilter
  with_reducible repeat' first
    | assumption | intro _ | refine foldl_kept (fun _ _ _ => ?_) ?_ | apply countSlice_kept | apply dropL1_kept
    | apply logCorrected_kept

theorem lookUp_kept {s p a} (h : Kept q s) : Kept q (lookUp s p a) := by
  unfold lookUp
  with_reducible repeat' first
    | assumption | intro _ | refine ite_kept ?_ ?_ | extract_lets +onlyGivenNames t | apply checkFilter_kept
    | apply contained_kept | apply countSlice_kept | apply hardwareError_kept | apply invalidate_kept
    | apply rebuildLedger_kept | split

theorem checkSpad_kept {s p i o n} (h : Kept q s) : Kept q (checkSpad s p i o n) := by
  unfold checkSpad
  with_reducible repeat' first
    | assumption | intro _ | refine ite_kept ?_ ?_ | extract_lets +onlyGivenNames t | (apply kept_mk; assumption)
    | apply contained_kept | apply hardwareError_kept | split

theorem checkSpadAt_kept {s p a n} (h : Kept q s) : Kept q (checkSpadAt s p a n) := by
  unfold checkSpadAt
  with_reducible repeat' first
    | assumption | refine ite_kept ?_ ?_ | apply checkSpad_kept | split

theorem registerError_kept {s p i core} (h : Kept q s) : Kept q (registerError s p i core) := by
  unfold registerError
  with_reducible repeat' first
    | assumption | intro _ | apply modStall_kept | apply hardwareError_kept

theorem countL1_kept {s i core} (h : Kept q s) : Kept q (countL1 s i core) := by
  unfold countL1
  with_reducible repeat' first
    | assumption | intro _ | extract_lets +onlyGivenNames t | apply modStall_kept

theorem l1Error_kept {s p l a} (h : Kept q s) : Kept q (l1Error s p l a) := by
  unfold l1Error
  with_reducible repeat' first
    | assumption | intro _ | apply modL1_kept | apply countL1_kept | apply hardwareError_kept

theorem icacheError_kept {s p i core line} (h : Kept q s) : Kept q (icacheError s p i core line) := by
  unfold icacheError
  with_reducible repeat' first
    | assumption | intro _ | extract_lets +onlyGivenNames t | apply modStall_kept | apply countL1_kept
    | apply logCorrected_kept

theorem pitchOutcome_kept {s p a2} (h : Kept q s) : Kept q (pitchOutcome s p a2) := by
  unfold pitchOutcome
  with_reducible repeat' first
    | assumption | intro _ | (apply kept_mk; assumption) | apply modPart_kept | apply contained_kept
    | apply logCorrected_kept | split

theorem fuseOutcome_kept {s a1} (h : Kept q s) : Kept q (fuseOutcome s a1) := by
  unfold fuseOutcome
  with_reducible repeat' first
    | assumption | (apply kept_mk; assumption) | apply chkLog_kept | apply fatal_kept | split

theorem usePitch_kept {s p} (h : Kept q s) : Kept q (usePitch s p) := by
  unfold usePitch
  with_reducible repeat' first
    | assumption | intro _ | refine ite_kept ?_ ?_ | apply modPart_kept | apply pitchOutcome_kept

theorem useFuses_kept {s} (h : Kept q s) : Kept q (useFuses s) := by
  unfold useFuses
  with_reducible repeat' first
    | assumption | refine ite_kept ?_ ?_ | (apply kept_mk; assumption) | apply fuseOutcome_kept

theorem voted_kept {s src mine} (h : Kept q s) : Kept q (voted s src mine) := by
  unfold voted
  with_reducible repeat' first
    | assumption | refine ite_kept ?_ ?_ | apply useFuses_kept | apply usePitch_kept | split

theorem runVoted_kept {s src mine body} (h : Kept q s) (hbody : ∀ x0 x1, Kept q x1 → KeptB q (body x0 x1)) :
    Kept q (runVoted s src mine body) := by
  unfold runVoted
  with_reducible repeat' first
    | assumption | apply reply_kept | apply wait_kept | apply runPacket_kept | apply voted_kept

/-! ## Coherence -/

theorem enter_kept {s p a l owner} (h : Kept q s) : Kept q (enter s p a l owner) := by
  unfold enter
  with_reducible repeat' first
    | assumption | intro _ | apply modLine_kept

theorem grantS_kept {s p a l alone} (h : Kept q s) : Kept q (grantS s p a l alone) := by
  unfold grantS
  with_reducible repeat' first
    | assumption | intro _ | refine ite_kept ?_ ?_ | (extract_lets +onlyGivenNames t; clear_value t)
    | extract_lets +onlyGivenNames t | apply enter_kept | apply send_kept

theorem grantM_kept {s p a l msg} (h : Kept q s) : Kept q (grantM s p a l msg) := by
  unfold grantM
  with_reducible repeat' first
    | assumption | apply enter_kept | apply kernelFault_kept | apply markNonrepl_kept | apply markStaged_kept
    | apply send_kept | split

theorem deadRead_kept {s p a ag} (h : Kept q s) : Kept q (deadRead s p a ag) := by
  unfold deadRead
  with_reducible repeat' first
    | assumption | intro _ | refine ite_kept ?_ ?_ | apply trace_kept

theorem atomAddress_kept {s p a r o lanes} (h : Kept q s) : Kept q (atomAddress s p a r o lanes).1 := by
  unfold atomAddress
  with_reducible repeat' first
    | assumption | intro _ | refine ite_kept ?_ ?_
    | (extract_lets +onlyGivenNames t; refine step_kept (q := q) (t := t) ?_ (fun _ => ?_); rotate_left; clear_value t; rotate_right; unfold t; clear t)
    | (extract_lets +onlyGivenNames t; clear_value t) | extract_lets +onlyGivenNames t | apply modLine_kept
    | apply modStall_kept | apply markNonrepl_kept | apply markStaged_kept | apply writeCommitted_kept | split

theorem atomAll_kept {s p a r a4} (h : Kept q s) : Kept q (atomAll s p a r a4).1 := by
  induction a4 generalizing s p a r with
  | nil =>
    unfold atomAll
    with_reducible repeat' first
      | assumption
  | cons x r ih =>
    unfold atomAll
    with_reducible repeat' first
      | assumption | extract_lets +onlyGivenNames t | apply atomAddress_kept | split
      | (refine fst_kept (by assumption) ?_) | apply ih

theorem noteLedger_kept {s p h1} (h : Kept q s) : Kept q (noteLedger s p h1) := by
  unfold noteLedger
  with_reducible repeat' first
    | assumption | intro _ | extract_lets +onlyGivenNames t | apply modPart_kept

theorem notePartner_kept {s p r} (h : Kept q s) : Kept q (notePartner s p r) := by
  unfold notePartner
  with_reducible repeat' first
    | assumption | intro _ | refine ite_kept ?_ ?_ | extract_lets +onlyGivenNames t | apply modPart_kept

theorem stageFull_kept {s p i} (h : Kept q s) : Kept q (stageFull s p i) := by
  unfold stageFull
  with_reducible repeat' first
    | assumption | intro _ | refine ite_kept ?_ ?_ | apply modStall_kept | apply contained_kept

theorem performAtom_kept {s p a r} (h : Kept q s) : Kept q (performAtom s p a r).1 := by
  unfold performAtom
  with_reducible repeat' first
    | assumption | refine ite_kept ?_ ?_
    | (extract_lets +onlyGivenNames t; refine step_kept (q := q) (t := t) ?_ (fun _ => ?_); rotate_left; clear_value t; rotate_right; unfold t; clear t)
    | (extract_lets +onlyGivenNames t; clear_value t) | extract_lets +onlyGivenNames t | apply contained_kept
    | apply kernelFault_kept | apply markNonrepl_kept | apply noteLedger_kept | apply notePartner_kept
    | apply stageFull_kept | apply atomAll_kept | split

theorem putStaged_kept {s p a stall cells} (h : Kept q s) : Kept q (putStaged s p a stall cells).1 := by
  unfold putStaged
  with_reducible repeat' first
    | assumption | refine ite_kept ?_ ?_
    | (extract_lets +onlyGivenNames t; refine step_kept (q := q) (t := t) ?_ (fun _ => ?_); rotate_left; clear_value t; rotate_right; unfold t; clear t)
    | extract_lets +onlyGivenNames t | apply contained_kept | apply lookUp_kept | apply markNonrepl_kept
    | apply stageFull_kept | apply writeCommitted_kept | apply writeUnit_kept | split

theorem finishWrl_kept {s p a ag cells} (h : Kept q s) : Kept q (finishWrl s p a ag cells) := by
  unfold finishWrl
  with_reducible repeat' first
    | assumption | apply send_kept | apply putStaged_kept | split | (refine fst_kept (by assumption) ?_)

theorem finishDisc_kept {s p a} (h : Kept q s) : Kept q (finishDisc s p a) := by
  unfold finishDisc
  with_reducible repeat' first
    | assumption | intro _ | refine ite_kept ?_ ?_
    | (extract_lets +onlyGivenNames t; refine step_kept (q := q) (t := t) ?_ (fun _ => ?_); rotate_left; clear_value t; rotate_right; unfold t; clear t)
    | extract_lets +onlyGivenNames t | apply modLine_kept | apply noteDead_kept | apply toSets_kept | split

theorem finish_kept {s p a r snap} (h : Kept q s) : Kept q (finish s p a r snap) := by
  unfold finish
  with_reducible repeat' first
    | assumption | intro _ | refine ite_kept ?_ ?_ | extract_lets +onlyGivenNames t | apply emit_kept
    | apply modLine_kept | apply deadRead_kept | apply finishDisc_kept | apply finishWrl_kept | apply grantM_kept
    | apply grantS_kept | apply send_kept | apply unDead_kept | apply writeCommitted_kept | apply performAtom_kept
    | apply putStaged_kept | split | (refine fst_kept (by assumption) ?_)

theorem askFor_kept {s p a r} (h : Kept q s) : Kept q (askFor s p a r) := by
  unfold askFor
  with_reducible repeat' first
    | assumption | apply askMemory_kept

theorem beginRequest_kept {s p a r} (h : Kept q s) : Kept q (beginRequest s p a r) := by
  unfold beginRequest
  with_reducible repeat' first
    | assumption | intro _ | refine ite_kept ?_ ?_
    | (extract_lets +onlyGivenNames t; refine step_kept (q := q) (t := t) ?_ (fun _ => ?_); rotate_left; clear_value t; rotate_right; unfold t; clear t)
    | extract_lets +onlyGivenNames t | refine foldl_kept (fun _ _ _ => ?_) ?_ | apply modLine_kept | apply access_kept
    | apply backInvalidate_kept | apply finish_kept | apply send_kept | apply spendRead_kept

theorem homeNext_kept {s p a a3} (h : Kept q s) : Kept q (homeNext s p a a3) := by
  induction a3 generalizing s p a with
  | zero =>
    unfold homeNext
    with_reducible repeat' first
      | assumption
  | succ n ih =>
    unfold homeNext
    with_reducible repeat' first
      | assumption | intro _ | refine ite_kept ?_ ?_ | extract_lets +onlyGivenNames t | apply modLine_kept
      | apply askFor_kept | apply beginRequest_kept | apply lookUp_kept | split | apply ih

theorem serveLine_kept {s p a} (h : Kept q s) : Kept q (serveLine s p a) := by
  unfold serveLine
  with_reducible repeat' first
    | assumption | apply homeNext_kept

theorem serveAll_kept {s p} (h : Kept q s) : Kept q (serveAll s p) := by
  unfold serveAll
  with_reducible repeat' first
    | assumption | intro _ | refine foldl_kept (fun _ _ _ => ?_) ?_ | apply serveLine_kept

theorem lineFree_kept {s p} (h : Kept q s) : Kept q (lineFree s p) := by
  unfold lineFree
  with_reducible repeat' first
    | assumption | refine ite_kept ?_ ?_ | apply runDiscards_kept

theorem askWindow_kept {s p a} (h : Kept q s) : Kept q (askWindow s p a) := by
  unfold askWindow
  with_reducible repeat' first
    | assumption | intro _ | refine foldl_kept (fun _ _ _ => ?_) ?_ | apply askFor_kept

theorem deliverWindow_kept {s p a} (h : Kept q s) : Kept q (deliverWindow s p a) := by
  unfold deliverWindow
  with_reducible repeat' first
    | assumption | intro _
    | (extract_lets +onlyGivenNames t; refine step_kept (q := q) (t := t) ?_ (fun _ => ?_); rotate_left; clear_value t; rotate_right; unfold t; clear t)
    | (extract_lets +onlyGivenNames t; clear_value t) | extract_lets +onlyGivenNames t
    | refine foldl_kept (fun _ _ _ => ?_) ?_ | apply modLine_kept | apply access_kept | apply deadRead_kept
    | apply finish_kept | apply grantS_kept | apply lineFree_kept | apply serveLine_kept | apply spendRead_kept
    | split

theorem serveWindow_kept {s p a} (h : Kept q s) : Kept q (serveWindow s p a) := by
  unfold serveWindow
  with_reducible repeat' first
    | assumption | intro _ | refine ite_kept ?_ ?_ | extract_lets +onlyGivenNames t | apply askWindow_kept
    | apply deliverWindow_kept

theorem closeWindow_kept {s p a} (h : Kept q s) : Kept q (closeWindow s p a) := by
  unfold closeWindow
  with_reducible repeat' first
    | assumption | intro _ | apply modLine_kept | apply serveWindow_kept

theorem arrive_kept {s p a r} (h : Kept q s) : Kept q (arrive s p a r) := by
  unfold arrive
  with_reducible repeat' first
    | assumption | intro _ | refine ite_kept ?_ ?_ | extract_lets +onlyGivenNames t | apply modLine_kept
    | apply askRemote_kept | apply askWindow_kept | apply closeWindow_kept | apply lookUp_kept | apply serveLine_kept
    | apply tallyAdd_kept | apply missed_kept

theorem answered_kept {s p a snap} (h : Kept q s) : Kept q (answered s p a snap) := by
  unfold answered
  with_reducible repeat' first
    | assumption | intro _ | refine ite_kept ?_ ?_
    | (extract_lets +onlyGivenNames t; refine step_kept (q := q) (t := t) ?_ (fun _ => ?_); rotate_left; clear_value t; rotate_right; unfold t; clear t)
    | (extract_lets +onlyGivenNames t; clear_value t) | extract_lets +onlyGivenNames t | apply modLine_kept
    | apply finish_kept | apply lineFree_kept | apply serveLine_kept | apply spendRead_kept | split

theorem settleEntry_kept {s p a l r} (h : Kept q s) : Kept q (settleEntry s p a l r) := by
  unfold settleEntry
  with_reducible repeat' first
    | assumption | intro _ | refine ite_kept ?_ ?_ | apply modLine_kept

theorem mergeDirty_kept {s p a cells} (h : Kept q s) : Kept q (mergeDirty s p a cells) := by
  unfold mergeDirty
  with_reducible repeat' first
    | assumption | refine ite_kept ?_ ?_ | apply kernelFault_kept | apply markNonrepl_kept | apply markStaged_kept
    | apply takeDirty_kept | split

theorem snoopAnswer_kept {s p a l cells present} (h : Kept q s) : Kept q (snoopAnswer s p a l cells present) := by
  unfold snoopAnswer
  with_reducible repeat' first
    | assumption | intro _ | refine ite_kept ?_ ?_
    | (extract_lets +onlyGivenNames t; refine step_kept (q := q) (t := t) ?_ (fun _ => ?_); rotate_left; clear_value t; rotate_right; unfold t; clear t)
    | (extract_lets +onlyGivenNames t; clear_value t) | extract_lets +onlyGivenNames t | apply modLine_kept
    | apply answered_kept | apply mergeDirty_kept | apply settleEntry_kept | split

theorem writebackArrives_kept {s p a l cells} (h : Kept q s) : Kept q (writebackArrives s p a l cells) := by
  unfold writebackArrives
  with_reducible repeat' first
    | assumption | intro _ | refine ite_kept ?_ ?_ | extract_lets +onlyGivenNames t | apply modLine_kept
    | apply answered_kept | apply mergeDirty_kept | apply send_kept

/-! ## Reset -/

theorem beginReset_kept {s p} (h : Kept q s) : Kept q (beginReset s p) := by
  unfold beginReset
  with_reducible repeat' first
    | assumption | intro _ | refine ite_kept ?_ ?_
    | (extract_lets +onlyGivenNames t; refine step_kept (q := q) (t := t) ?_ (fun _ => ?_); rotate_left; clear_value t; rotate_right; unfold t; clear t)
    | (extract_lets +onlyGivenNames t; clear_value t) | extract_lets +onlyGivenNames t | (apply kept_mk; assumption)
    | apply modFn_kept | apply modPart_kept | apply completeAll_kept | apply discardLines_kept | apply freeLedger_kept
    | apply sendAbandon_kept | apply stopJob_kept

theorem scrubMemory_kept {s p} (h : Kept q s) : Kept q (scrubMemory s p) := by
  unfold scrubMemory
  with_reducible repeat' first
    | assumption | intro _ | refine foldl_kept (fun _ _ _ => ?_) ?_ | (refine kept_mem (by assumption) ?_)
    | apply mzero_wf | apply foldl_mwrite_wf | exact Kept.mem (by assumption)

theorem scrubSpads_kept {s p} (h : Kept q s) : Kept q (scrubSpads s p) := by
  unfold scrubSpads
  with_reducible repeat' first
    | assumption | intro _ | refine foldl_kept (fun _ _ _ => ?_) ?_ | (refine kept_spad (by assumption) ?_)
    | apply mzero_wf | apply filter_wf | apply foldl_mwrite_wf | exact Kept.spad (by assumption)

theorem scrubSessions_kept {s base count} (h : Kept q s) : Kept q (scrubSessions s base count) := by
  unfold scrubSessions
  with_reducible repeat' first
    | assumption | (refine kept_mem (by assumption) ?_) | apply mzero_wf | exact Kept.mem (by assumption)

theorem scrub_kept {s p} (h : Kept q s) : Kept q (scrub s p) := by
  unfold scrub
  with_reducible repeat' first
    | assumption | intro _ | refine ite_kept ?_ ?_
    | (extract_lets +onlyGivenNames t; refine step_kept (q := q) (t := t) ?_ (fun _ => ?_); rotate_left; clear_value t; rotate_right; unfold t; clear t)
    | extract_lets +onlyGivenNames t | refine foldl_kept (fun _ _ _ => ?_) ?_ | (apply kept_mk; assumption)
    | apply modPart_kept | apply modStall_kept | apply dropEvidence_kept | apply purgeKeys_kept
    | apply scrubMemory_kept | apply scrubSessions_kept | apply scrubSpads_kept | apply wipeCache_kept

theorem release_kept {s p} (h : Kept q s) : Kept q (release s p) := by
  unfold release
  with_reducible repeat' first
    | assumption | intro _ | refine ite_kept ?_ ?_
    | (extract_lets +onlyGivenNames t; refine step_kept (q := q) (t := t) ?_ (fun _ => ?_); rotate_left; clear_value t; rotate_right; unfold t; clear t)
    | (extract_lets +onlyGivenNames t; clear_value t) | extract_lets +onlyGivenNames t
    | refine foldl_kept (fun _ _ _ => ?_) ?_ | (apply kept_mk; assumption) | apply modStall_kept

theorem finishReset_kept {s p} (h : Kept q s) : Kept q (finishReset s p) := by
  unfold finishReset
  with_reducible repeat' first
    | assumption | intro _ | refine ite_kept ?_ ?_ | extract_lets +onlyGivenNames t
    | refine foldl_kept (fun _ _ _ => ?_) ?_ | apply arrive_kept | apply completeAll_kept | apply release_kept
    | apply scrub_kept

theorem continueReset_kept {s p} (h : Kept q s) : Kept q (continueReset s p) := by
  unfold continueReset
  with_reducible repeat' first
    | assumption | refine ite_kept ?_ ?_ | apply finishReset_kept

theorem resetPart_kept {s p} (h : Kept q s) : Kept q (resetPart s p) := by
  unfold resetPart
  with_reducible repeat' first
    | assumption | refine ite_kept ?_ ?_ | apply beginReset_kept | apply continueReset_kept

end Sys2Proof.Machine
end

