-- ==== Sys2Proof/Laws/Kept3.lean ====
section
/-! SUPPORT. What every operation keeps (Laws/Kept): the definitions of Machine/HostCommands, PartitionCommands, L1,
Messages, HostPort. -/

set_option linter.tactic.unusedName false

namespace Sys2Proof.Machine

variable {q : Fixed}

/-! ## HostCommands -/

theorem execNop_kept {src s} (h : Kept q s) : KeptO q (execNop src s) := by
  unfold execNop
  with_reducible repeat' first
    | assumption | intro _ | apply next_kept | apply reply_kept | apply wait_kept | apply runVoted_kept
    | apply bodyOk_kept

theorem execGetInfo_kept {src s} (h : Kept q s) : KeptO q (execGetInfo src s) := by
  unfold execGetInfo
  with_reducible repeat' first
    | assumption | intro _ | refine ite_kept ?_ ?_ | apply next_kept | apply reply_kept | apply wait_kept
    | apply runVoted_kept | apply bodyParam_kept | split

theorem setRing_kept {s k fn n} (h : Kept q s) : Kept q (setRing s k fn n) := by
  unfold setRing
  with_reducible repeat' first
    | assumption | intro _
    | (extract_lets +onlyGivenNames t; refine step_kept (q := q) (t := t) ?_ (fun _ => ?_); rotate_left; clear_value t; rotate_right; unfold t; clear t)
    | (extract_lets +onlyGivenNames t; clear_value t) | extract_lets +onlyGivenNames t
    | refine foldl_kept (fun _ _ _ => ?_) ?_ | apply modFn_kept | apply postEntry_kept | apply replyNow_kept

theorem runRing_kept {s k fn} (h : Kept q s) : Kept q (runRing s k fn) := by
  unfold runRing
  with_reducible repeat' first
    | assumption | refine ite_kept ?_ ?_ | apply noRing_kept | apply replyNow_kept | apply setRing_kept | split

theorem execSetReplyRing_kept {src s} (h : Kept q s) : KeptO q (execSetReplyRing src s) := by
  unfold execSetReplyRing
  with_reducible repeat' first
    | assumption | refine ite_kept ?_ ?_
    | (extract_lets +onlyGivenNames t; refine step_kept (q := q) (t := t) ?_ (fun _ => ?_); rotate_left; clear_value t; rotate_right; unfold t; clear t)
    | extract_lets +onlyGivenNames t | apply next_kept | apply freeSlot_kept | apply noRing_kept
    | apply refusePacket_kept | apply runRing_kept | apply wakeBy_kept | split

theorem execInvalidOpcodePacket_kept {src s} (h : Kept q s) : KeptO q (execInvalidOpcodePacket src s) := by
  unfold execInvalidOpcodePacket
  with_reducible repeat' first
    | assumption | intro _ | apply next_kept | apply reply_kept | apply wait_kept | apply runVoted_kept
    | apply bodySay_kept

theorem execQueueSubmit_kept {src s} (h : Kept q s) : KeptO q (execQueueSubmit src s) := by
  unfold execQueueSubmit
  with_reducible repeat' first
    | assumption | intro _ | refine ite_kept ?_ ?_ | (extract_lets +onlyGivenNames t; clear_value t)
    | extract_lets +onlyGivenNames t | apply next_kept | apply reply_kept | apply wait_kept | apply modQueue_kept
    | apply runVoted_kept | apply bodyParam_kept | apply bodySay_kept | split

theorem haltQueues_kept {s p mask} (h : Kept q s) : Kept q (haltQueues s p mask) := by
  unfold haltQueues
  with_reducible repeat' first
    | assumption | intro _ | refine ite_kept ?_ ?_ | refine foldl_kept (fun _ _ _ => ?_) ?_ | apply modQueue_kept

theorem settleAllHalts_kept {s} (h : Kept q s) : Kept q (settleAllHalts s) := by
  unfold settleAllHalts
  with_reducible repeat' first
    | assumption | intro _ | refine foldl_kept (fun _ _ _ => ?_) ?_ | apply settleHalts_kept

theorem execQueueHalt_kept {src s} (h : Kept q s) : KeptO q (execQueueHalt src s) := by
  unfold execQueueHalt
  with_reducible repeat' first
    | assumption | intro _ | refine ite_kept ?_ ?_ | apply next_kept | apply reply_kept | apply wait_kept
    | apply haltQueues_kept | apply runVoted_kept | apply settleAllHalts_kept | apply bodyParam_kept | split

theorem execQueueFlush_kept {src s} (h : Kept q s) : KeptO q (execQueueFlush src s) := by
  unfold execQueueFlush
  with_reducible repeat' first
    | assumption | intro _ | refine ite_kept ?_ ?_ | apply next_kept | apply reply_kept | apply wait_kept
    | apply haltQueues_kept | apply runVoted_kept | apply settleAllHalts_kept | apply bodyParam_kept | split

theorem execQueueStatus_kept {src s} (h : Kept q s) : KeptO q (execQueueStatus src s) := by
  unfold execQueueStatus
  with_reducible repeat' first
    | assumption | intro _ | refine ite_kept ?_ ?_ | apply next_kept | apply reply_kept | apply wait_kept
    | apply runVoted_kept | apply bodyParam_kept | split

theorem execPinLines_kept {src s} (h : Kept q s) : KeptO q (execPinLines src s) := by
  unfold execPinLines
  with_reducible repeat' first
    | assumption | intro _ | refine ite_kept ?_ ?_ | (extract_lets +onlyGivenNames t; clear_value t)
    | extract_lets +onlyGivenNames t | apply next_kept | apply reply_kept | apply wait_kept
    | refine foldl_kept (fun _ _ _ => ?_) ?_ | apply pinLine_kept | apply runVoted_kept | apply bodyOk_kept
    | apply bodyParam_kept | apply bodySay_kept | split

theorem execUnpinLines_kept {src s} (h : Kept q s) : KeptO q (execUnpinLines src s) := by
  unfold execUnpinLines
  with_reducible repeat' first
    | assumption | intro _ | refine ite_kept ?_ ?_ | apply next_kept | apply reply_kept | apply wait_kept
    | refine foldl_kept (fun _ _ _ => ?_) ?_ | apply runVoted_kept | apply unpinLine_kept | apply bodyOk_kept
    | apply bodyParam_kept | apply bodySay_kept | split

theorem settleDiscards_kept {s} (h : Kept q s) : Kept q (settleDiscards s) := by
  unfold settleDiscards
  with_reducible repeat' first
    | assumption | intro _ | refine ite_kept ?_ ?_ | refine foldl_kept (fun _ _ _ => ?_) ?_ | apply runDiscards_kept

theorem execDiscardLines_kept {src s} (h : Kept q s) : KeptO q (execDiscardLines src s) := by
  unfold execDiscardLines
  with_reducible repeat' first
    | assumption | intro _ | refine ite_kept ?_ ?_ | apply next_kept | apply reply_kept | apply wait_kept
    | apply runVoted_kept | apply settleDiscards_kept | apply bodyParam_kept | apply bodySay_kept | split

/-! ## PartitionCommands -/

theorem convertModules_kept {s r} (h : Kept q s) : Kept q (convertModules s r) := by
  unfold convertModules
  with_reducible repeat' first
    | assumption | intro _ | refine ite_kept ?_ ?_ | extract_lets +onlyGivenNames t
    | refine foldl_kept (fun _ _ _ => ?_) ?_ | (apply kept_mk; assumption)

theorem zeroUnits_kept {s mem} (h : Kept q s) : Kept q (zeroUnits s mem) := by
  unfold zeroUnits
  with_reducible repeat' first
    | assumption | intro _ | refine ite_kept ?_ ?_ | refine foldl_kept (fun _ _ _ => ?_) ?_
    | (refine kept_mem (by assumption) ?_) | apply mzero_wf | apply foldl_mwrite_wf | exact Kept.mem (by assumption)
    | exact nil_wf | split

theorem createPart_kept {s p r} (h : Kept q s) : Kept q (createPart s p r) := by
  unfold createPart
  with_reducible repeat' first
    | assumption | intro _
    | (extract_lets +onlyGivenNames t; refine step_kept (q := q) (t := t) ?_ (fun _ => ?_); rotate_left; clear_value t; rotate_right; unfold t; clear t)
    | (extract_lets +onlyGivenNames t; clear_value t) | extract_lets +onlyGivenNames t
    | refine foldl_kept (fun _ _ _ => ?_) ?_ | (apply kept_mk; assumption) | apply modPart_kept | apply modStall_kept
    | apply convertModules_kept | apply scrubSessions_kept | apply scrubSpads_kept | apply sign_kept
    | apply zeroUnits_kept

theorem execPartitionCreate_kept {src s} (h : Kept q s) : KeptO q (execPartitionCreate src s) := by
  unfold execPartitionCreate
  with_reducible repeat' first
    | assumption | intro _ | (extract_lets +onlyGivenNames t; clear_value t) | extract_lets +onlyGivenNames t
    | apply next_kept | apply reply_kept | apply wait_kept | apply createPart_kept | apply runVoted_kept
    | apply bodySay_kept | split

theorem settleResets_kept {s} (h : Kept q s) : Kept q (settleResets s) := by
  unfold settleResets
  with_reducible repeat' first
    | assumption | intro _ | refine foldl_kept (fun _ _ _ => ?_) ?_ | apply continueReset_kept

theorem startReset_kept {s p} (h : Kept q s) : Kept q (startReset s p) := by
  unfold startReset
  with_reducible repeat' first
    | assumption | refine ite_kept ?_ ?_ | apply beginReset_kept

theorem execPartitionReset_kept {src s} (h : Kept q s) : KeptO q (execPartitionReset src s) := by
  unfold execPartitionReset
  with_reducible repeat' first
    | assumption | intro _ | apply next_kept | apply reply_kept | apply wait_kept | apply runVoted_kept
    | apply settleResets_kept | apply startReset_kept

theorem execPartitionDestroy_kept {src s} (h : Kept q s) : KeptO q (execPartitionDestroy src s) := by
  unfold execPartitionDestroy
  with_reducible repeat' first
    | assumption | intro _ | apply next_kept | apply reply_kept | apply wait_kept | apply runVoted_kept
    | apply settleResets_kept | apply startReset_kept

theorem settleAllLogs_kept {s} (h : Kept q s) : Kept q (settleAllLogs s) := by
  unfold settleAllLogs
  with_reducible repeat' first
    | assumption | intro _ | refine foldl_kept (fun _ _ _ => ?_) ?_ | apply settleLogs_kept

theorem execDirtyLogStart_kept {src s} (h : Kept q s) : KeptO q (execDirtyLogStart src s) := by
  unfold execDirtyLogStart
  with_reducible repeat' first
    | assumption | intro _ | refine ite_kept ?_ ?_ | (extract_lets +onlyGivenNames t; clear_value t)
    | extract_lets +onlyGivenNames t | apply next_kept | apply reply_kept | apply wait_kept | apply runVoted_kept
    | apply setLog_kept | apply bodyOk_kept | apply bodyParam_kept | apply bodySay_kept | split

theorem execDirtyLogCollect_kept {src s} (h : Kept q s) : KeptO q (execDirtyLogCollect src s) := by
  unfold execDirtyLogCollect
  with_reducible repeat' first
    | assumption | intro _ | refine ite_kept ?_ ?_ | apply next_kept | apply reply_kept | apply wait_kept
    | apply runVoted_kept | apply settleAllLogs_kept | apply bodySay_kept | split

theorem execDirtyLogStop_kept {src s} (h : Kept q s) : KeptO q (execDirtyLogStop src s) := by
  unfold execDirtyLogStop
  with_reducible repeat' first
    | assumption | intro _ | refine ite_kept ?_ ?_ | apply next_kept | apply reply_kept | apply wait_kept
    | apply runVoted_kept | apply settleAllLogs_kept | apply bodySay_kept | split

/-! ## L1 -/

theorem l1Evict_kept {s l a} (h : Kept q s) : Kept q (l1Evict s l a) := by
  unfold l1Evict
  with_reducible repeat' first
    | assumption | intro _ | (extract_lets +onlyGivenNames t; clear_value t) | extract_lets +onlyGivenNames t
    | apply modL1_kept | apply send_kept | split

theorem takePosition_kept {s p l a w} (h : Kept q s) : Kept q (takePosition s p l a w) := by
  unfold takePosition
  with_reducible repeat' first
    | assumption | intro _ | refine ite_kept ?_ ?_
    | (extract_lets +onlyGivenNames t; refine step_kept (q := q) (t := t) ?_ (fun _ => ?_); rotate_left; clear_value t; rotate_right; unfold t; clear t)
    | (extract_lets +onlyGivenNames t; clear_value t) | extract_lets +onlyGivenNames t
    | refine foldl_kept (fun _ _ _ => ?_) ?_ | apply modLine_kept

theorem l1Put_kept {s p l a st} (h : Kept q s) : Kept q (l1Put s p l a st) := by
  unfold l1Put
  with_reducible repeat' first
    | assumption | intro _
    | (extract_lets +onlyGivenNames t; refine step_kept (q := q) (t := t) ?_ (fun _ => ?_); rotate_left; clear_value t; rotate_right; unfold t; clear t)
    | (extract_lets +onlyGivenNames t; clear_value t) | extract_lets +onlyGivenNames t | apply modL1_kept
    | apply l1Evict_kept | apply takePosition_kept | split

theorem snoopReply_kept {s p l a k} (h : Kept q s) : Kept q (snoopReply s p l a k) := by
  unfold snoopReply
  with_reducible repeat' first
    | assumption | intro _ | refine ite_kept ?_ ?_
    | (extract_lets +onlyGivenNames t; refine step_kept (q := q) (t := t) ?_ (fun _ => ?_); rotate_left; clear_value t; rotate_right; unfold t; clear t)
    | (extract_lets +onlyGivenNames t; clear_value t) | extract_lets +onlyGivenNames t | apply modL1_kept
    | apply send_kept | split

theorem snoopArrives_kept {s p l a k} (h : Kept q s) : Kept q (snoopArrives s p l a k) := by
  unfold snoopArrives
  with_reducible repeat' first
    | assumption | intro _ | apply snoopReply_kept | apply takeMsg_kept | exact none_keptOP | split
    | (refine opt_kept (by assumption) ?_)

theorem fillArrives_kept {s p l a k st} (h : Kept q s) : Kept q (fillArrives s p l a k st) := by
  unfold fillArrives
  with_reducible repeat' first
    | assumption | intro _ | apply l1Put_kept | apply takeMsg_kept | exact none_keptOP | split
    | (refine opt_kept (by assumption) ?_)

theorem takeHome_kept {s p l a k} (h : Kept q s) : KeptOP q (takeHome s p l a k) := by
  unfold takeHome
  with_reducible repeat' first
    | assumption | intro _ | apply takeMsg_kept | exact none_keptOP | apply some_keptOP
    | refine map_keptOP (fun _ => ?_) | exact none_keptOP | split | (refine opt_kept (by assumption) ?_)

theorem takeAgent_kept {s p ag a k} (h : Kept q s) : KeptOP q (takeAgent s p ag a k) := by
  unfold takeAgent
  with_reducible repeat' first
    | assumption | intro _ | apply takeMsg_kept | exact none_keptOP | apply some_keptOP
    | refine map_keptOP (fun _ => ?_) | exact none_keptOP | split | (refine opt_kept (by assumption) ?_)

theorem fillData_kept {s p i a cells} (h : Kept q s) : Kept q (fillData s p i a cells) := by
  unfold fillData
  with_reducible repeat' first
    | assumption | intro _
    | (extract_lets +onlyGivenNames t; refine step_kept (q := q) (t := t) ?_ (fun _ => ?_); rotate_left; clear_value t; rotate_right; unfold t; clear t)
    | extract_lets +onlyGivenNames t | apply modStall_kept | apply spadPut_kept | split

theorem spillDone_kept {s p i a} (h : Kept q s) : Kept q (spillDone s p i a) := by
  unfold spillDone
  with_reducible repeat' first
    | assumption | intro _ | apply modStall_kept | split

/-! ## Messages -/

theorem hostAsks_kept {s f} (h : Kept q s) (hf : ∀ x0, Kept q x0 → Kept q (f x0)) : Kept q (hostAsks s f) := by
  unfold hostAsks
  with_reducible repeat' first
    | assumption | refine ite_kept ?_ ?_ | apply wakeBy_kept | apply hf

theorem execRdS_kept {p l1 line s} (h : Kept q s) : KeptO q (execRdS p l1 line s) := by
  unfold execRdS
  with_reducible repeat' first
    | assumption | refine ite_kept ?_ ?_ | apply next_kept | apply arrive_kept

theorem execRdU_kept {p l1 line s} (h : Kept q s) : KeptO q (execRdU p l1 line s) := by
  unfold execRdU
  with_reducible repeat' first
    | assumption | refine ite_kept ?_ ?_ | apply next_kept | apply arrive_kept

theorem execUpg_kept {p l1 line s} (h : Kept q s) : KeptO q (execUpg p l1 line s) := by
  unfold execUpg
  with_reducible repeat' first
    | assumption | refine ite_kept ?_ ?_ | apply next_kept | apply arrive_kept

theorem execRdNa_kept {p agent line sectors retain s} (h : Kept q s) :
    KeptO q (execRdNa p agent line sectors retain s) := by
  unfold execRdNa
  with_reducible repeat' first
    | assumption | refine ite_kept ?_ ?_ | apply next_kept | apply arrive_kept

theorem execWrl_kept {p agent line cells s} (h : Kept q s) : KeptO q (execWrl p agent line cells s) := by
  unfold execWrl
  with_reducible repeat' first
    | assumption | refine ite_kept ?_ ?_ | (extract_lets +onlyGivenNames t; clear_value t)
    | extract_lets +onlyGivenNames t | apply next_kept | apply arrive_kept

theorem execAtom_kept {req s} (h : Kept q s) : KeptO q (execAtom req s) := by
  unfold execAtom
  with_reducible repeat' first
    | assumption | apply next_kept | apply arrive_kept | split

theorem execDisc_kept {p agent line s} (h : Kept q s) : KeptO q (execDisc p agent line s) := by
  unfold execDisc
  with_reducible repeat' first
    | assumption | refine ite_kept ?_ ?_ | apply next_kept | apply arrive_kept

theorem execWb_kept {p l1 line s} (h : Kept q s) : KeptO q (execWb p l1 line s) := by
  unfold execWb
  with_reducible repeat' first
    | assumption | refine ite_kept ?_ ?_
    | (extract_lets +onlyGivenNames t; refine step_kept (q := q) (t := t) ?_ (fun _ => ?_); rotate_left; clear_value t; rotate_right; unfold t; clear t)
    | (extract_lets +onlyGivenNames t; clear_value t) | extract_lets +onlyGivenNames t | apply next_kept
    | apply l1Evict_kept | apply writebackArrives_kept | apply takeHome_kept | exact none_keptOP | split
    | (refine opt_kept (by assumption) ?_)

theorem execSnpInv_kept {p l1 line s} (h : Kept q s) : KeptO q (execSnpInv p l1 line s) := by
  unfold execSnpInv
  with_reducible repeat' first
    | assumption | apply next_kept | apply snoopArrives_kept

theorem execSnpDown_kept {p l1 line s} (h : Kept q s) : KeptO q (execSnpDown p l1 line s) := by
  unfold execSnpDown
  with_reducible repeat' first
    | assumption | apply next_kept | apply snoopArrives_kept

theorem execSnpSnap_kept {p l1 line s} (h : Kept q s) : KeptO q (execSnpSnap p l1 line s) := by
  unfold execSnpSnap
  with_reducible repeat' first
    | assumption | apply next_kept | apply snoopArrives_kept

theorem execRspAck_kept {p l1 line s} (h : Kept q s) : KeptO q (execRspAck p l1 line s) := by
  unfold execRspAck
  with_reducible repeat' first
    | assumption | apply next_kept | apply snoopAnswer_kept | apply takeHome_kept | exact none_keptOP | split
    | (refine opt_kept (by assumption) ?_)

theorem execRspData_kept {p l1 line s} (h : Kept q s) : KeptO q (execRspData p l1 line s) := by
  unfold execRspData
  with_reducible repeat' first
    | assumption | apply next_kept | apply snoopAnswer_kept | apply takeHome_kept | exact none_keptOP | split
    | (refine opt_kept (by assumption) ?_)

theorem execRspNp_kept {p l1 line s} (h : Kept q s) : KeptO q (execRspNp p l1 line s) := by
  unfold execRspNp
  with_reducible repeat' first
    | assumption | apply next_kept | apply snoopAnswer_kept | apply takeHome_kept | exact none_keptOP | split
    | (refine opt_kept (by assumption) ?_)

theorem execRspWbp_kept {p l1 line s} (h : Kept q s) : KeptO q (execRspWbp p l1 line s) := by
  unfold execRspWbp
  with_reducible repeat' first
    | assumption | apply next_kept | apply takeHome_kept | exact none_keptOP | split
    | (refine opt_kept (by assumption) ?_)

theorem execDataS_kept {p l1 line s} (h : Kept q s) : KeptO q (execDataS p l1 line s) := by
  unfold execDataS
  with_reducible repeat' first
    | assumption | apply next_kept | apply fillArrives_kept

theorem execDataE_kept {p l1 line s} (h : Kept q s) : KeptO q (execDataE p l1 line s) := by
  unfold execDataE
  with_reducible repeat' first
    | assumption | apply next_kept | apply fillArrives_kept

theorem execDataM_kept {p l1 line s} (h : Kept q s) : KeptO q (execDataM p l1 line s) := by
  unfold execDataM
  with_reducible repeat' first
    | assumption | apply next_kept | apply fillArrives_kept

theorem answerItem_kept {s i data lanes type1} (h : Kept q s) : Kept q (answerItem s i data lanes type1) := by
  unfold answerItem
  with_reducible repeat' first
    | assumption | apply queueItem_kept

theorem serveLater_kept {s j type1 i} (h : Kept q s) : Kept q (serveLater s j type1 i) := by
  unfold serveLater
  with_reducible repeat' first
    | assumption | (extract_lets +onlyGivenNames t; clear_value t) | extract_lets +onlyGivenNames t
    | (apply kept_mk; assumption)

theorem servedOne_kept {s j type1 a} (h : Kept q s) : KeptOP q (servedOne s j type1 a) := by
  unfold servedOne
  with_reducible repeat' first
    | assumption | intro _ | (extract_lets +onlyGivenNames t; clear_value t) | extract_lets +onlyGivenNames t
    | (apply kept_mk; assumption) | exact none_keptOP | apply some_keptOP | refine map_keptOP (fun _ => ?_)

theorem answerFailed_kept {s i} (h : Kept q s) : Kept q (answerFailed s i) := by
  unfold answerFailed
  with_reducible repeat' first
    | assumption | apply answerItem_kept

theorem answerRead_kept {s p i} (h : Kept q s) : Kept q (answerRead s p i) := by
  unfold answerRead
  with_reducible repeat' first
    | assumption | intro _ | refine ite_kept ?_ ?_ | extract_lets +onlyGivenNames t
    | refine foldl_kept (fun _ _ _ => ?_) ?_ | apply answerFailed_kept | apply answerItem_kept | apply spendRead_kept

theorem serveLate_kept {s p i} (h : Kept q s) : Kept q (serveLate s p i) := by
  unfold serveLate
  with_reducible repeat' first
    | assumption | intro _ | refine ite_kept ?_ ?_ | (extract_lets +onlyGivenNames t; clear_value t)
    | extract_lets +onlyGivenNames t | refine foldl_kept (fun _ _ _ => ?_) ?_ | apply answerRead_kept
    | apply askMemory_kept | apply lookUp_kept | split | apply kept_mk

theorem answerLate_kept {s p} (h : Kept q s) : Kept q (answerLate s p) := by
  unfold answerLate
  with_reducible repeat' first
    | assumption | intro _ | (extract_lets +onlyGivenNames t; clear_value t) | extract_lets +onlyGivenNames t
    | refine foldl_kept (fun _ _ _ => ?_) ?_ | (apply kept_mk; assumption) | apply serveLate_kept

theorem linkData_kept {s j a cells} (h : Kept q s) : Kept q (linkData s j a cells) := by
  unfold linkData
  with_reducible repeat' first
    | assumption | intro _ | refine ite_kept ?_ ?_ | apply answerFailed_kept | apply answerItem_kept
    | apply servedOne_kept | exact none_keptOP | split | (refine opt_kept (by assumption) ?_)

theorem linkAck_kept {s p j a cells} (h : Kept q s) : Kept q (linkAck s p j a cells) := by
  unfold linkAck
  with_reducible repeat' first
    | assumption | intro _ | apply answerItem_kept | apply servedOne_kept | exact none_keptOP | split
    | (refine opt_kept (by assumption) ?_)

theorem useData_kept {s p a agent cells} (h : Kept q s) : Kept q (useData s p a agent cells) := by
  unfold useData
  with_reducible repeat' first
    | assumption | apply fillData_kept | apply linkData_kept | split

theorem execDataNa_kept {p agent line s} (h : Kept q s) : KeptO q (execDataNa p agent line s) := by
  unfold execDataNa
  with_reducible repeat' first
    | assumption | apply next_kept | apply useData_kept | apply takeAgent_kept | exact none_keptOP | split
    | (refine opt_kept (by assumption) ?_)

theorem atomAck_kept {s l a cells} (h : Kept q s) : Kept q (atomAck s l a cells) := by
  unfold atomAck
  with_reducible repeat' first
    | assumption | intro _ | refine ite_kept ?_ ?_ | extract_lets +onlyGivenNames t | apply modStall_kept | split
    | apply kept_mk

theorem useAck_kept {s p a agent cells} (h : Kept q s) : Kept q (useAck s p a agent cells) := by
  unfold useAck
  with_reducible repeat' first
    | assumption | refine ite_kept ?_ ?_ | apply atomAck_kept | apply l1Put_kept | apply linkAck_kept
    | apply spillDone_kept | split

theorem execAck_kept {p agent line s} (h : Kept q s) : KeptO q (execAck p agent line s) := by
  unfold execAck
  with_reducible repeat' first
    | assumption | apply next_kept | apply useAck_kept | apply takeAgent_kept | exact none_keptOP | split
    | (refine opt_kept (by assumption) ?_)

theorem execWbAck_kept {p l1 line s} (h : Kept q s) : KeptO q (execWbAck p l1 line s) := by
  unfold execWbAck
  with_reducible repeat' first
    | assumption | intro _ | apply next_kept | apply modL1_kept | apply takeMsg_kept | exact none_keptOP | split
    | (refine opt_kept (by assumption) ?_)

theorem execCombiningWindowClose_kept {p line s} (h : Kept q s) : KeptO q (execCombiningWindowClose p line s) := by
  unfold execCombiningWindowClose
  with_reducible repeat' first
    | assumption | refine ite_kept ?_ ?_ | apply next_kept | apply closeWindow_kept

theorem execMemrd_kept {address metaValue s} (h : Kept q s) : KeptO q (execMemrd address metaValue s) := by
  unfold execMemrd
  with_reducible repeat' first
    | assumption | intro _ | refine ite_kept ?_ ?_ | (extract_lets +onlyGivenNames t; clear_value t)
    | extract_lets +onlyGivenNames t | apply next_kept | apply arrive_kept | apply hostAsks_kept
    | apply queueAccess_kept | split

theorem execMemwr_kept {address data s} (h : Kept q s) : KeptO q (execMemwr address data s) := by
  unfold execMemwr
  with_reducible repeat' first
    | assumption | intro _ | refine ite_kept ?_ ?_ | (extract_lets +onlyGivenNames t; clear_value t)
    | extract_lets +onlyGivenNames t | apply next_kept | apply emit_kept | apply arrive_kept | apply hostAsks_kept
    | apply queueAccess_kept | (refine kept_mem (by assumption) ?_) | apply mwrites_wf
    | exact Kept.mem (by assumption) | exact nil_wf | split

theorem execBirsp_kept {address s} (h : Kept q s) : KeptO q (execBirsp address s) := by
  unfold execBirsp
  with_reducible repeat' first
    | assumption | intro _ | refine ite_kept ?_ ?_ | (extract_lets +onlyGivenNames t; clear_value t)
    | extract_lets +onlyGivenNames t | apply next_kept | apply modLine_kept | apply answered_kept
    | apply runDiscards_kept | split

theorem execBiconflict_kept {address s} (h : Kept q s) : KeptO q (execBiconflict address s) := by
  unfold execBiconflict
  with_reducible repeat' first
    | assumption | intro _ | refine ite_kept ?_ ?_ | (extract_lets +onlyGivenNames t; clear_value t)
    | extract_lets +onlyGivenNames t | apply next_kept | apply modLine_kept | apply askFor_kept | apply finish_kept
    | apply spendRead_kept | split

theorem execHostSnoop_kept {hpa s} (h : Kept q s) : KeptO q (execHostSnoop hpa s) := by
  unfold execHostSnoop
  with_reducible repeat' first
    | assumption | intro _ | apply next_kept | apply emit_kept | apply hostAsks_kept

/-! ## HostPort -/

theorem execSlotWrite_kept {fn k offset data s} (h : Kept q s) : KeptO q (execSlotWrite fn k offset data s) := by
  unfold execSlotWrite
  with_reducible repeat' first
    | assumption | intro _ | refine ite_kept ?_ ?_ | (extract_lets +onlyGivenNames t; clear_value t)
    | extract_lets +onlyGivenNames t | apply next_kept | apply modFn_kept | apply hostAsks_kept

theorem msixWrite_kept {s fn w v} (h : Kept q s) : Kept q (msixWrite s fn w v) := by
  unfold msixWrite
  with_reducible repeat' first
    | assumption | intro _ | refine ite_kept ?_ ?_ | extract_lets +onlyGivenNames t | apply emit_kept
    | apply modFn_kept

theorem bar0Write_kept {s fn offset v} (h : Kept q s) : Kept q (bar0Write s fn offset v) := by
  unfold bar0Write
  with_reducible repeat' first
    | assumption | intro _ | refine ite_kept ?_ ?_ | apply modFn_kept | apply msixWrite_kept

theorem execRegisterWrite_kept {fn bar offset wide value s} (h : Kept q s) :
    KeptO q (execRegisterWrite fn bar offset wide value s) := by
  unfold execRegisterWrite
  with_reducible repeat' first
    | assumption | intro _ | refine ite_kept ?_ ?_ | (extract_lets +onlyGivenNames t; clear_value t)
    | extract_lets +onlyGivenNames t | apply next_kept | refine foldl_kept (fun _ _ _ => ?_) ?_ | apply modFn_kept
    | apply bar0Write_kept | apply hostAsks_kept | split

theorem execRingHeadWrite_kept {fn value s} (h : Kept q s) : KeptO q (execRingHeadWrite fn value s) := by
  unfold execRingHeadWrite
  with_reducible repeat' first
    | assumption | intro _ | refine ite_kept ?_ ?_
    | (extract_lets +onlyGivenNames t; refine step_kept (q := q) (t := t) ?_ (fun _ => ?_); rotate_left; clear_value t; rotate_right; unfold t; clear t)
    | (extract_lets +onlyGivenNames t; clear_value t) | extract_lets +onlyGivenNames t | apply next_kept
    | apply modFn_kept | apply drainRing_kept | apply hostAsks_kept

theorem execIntCtrlWrite_kept {fn value s} (h : Kept q s) : KeptO q (execIntCtrlWrite fn value s) := by
  unfold execIntCtrlWrite
  with_reducible repeat' first
    | assumption | intro _
    | (extract_lets +onlyGivenNames t; refine step_kept (q := q) (t := t) ?_ (fun _ => ?_); rotate_left; clear_value t; rotate_right; unfold t; clear t)
    | (extract_lets +onlyGivenNames t; clear_value t) | extract_lets +onlyGivenNames t | apply next_kept
    | refine foldl_kept (fun _ _ _ => ?_) ?_ | apply modFn_kept | apply hostAsks_kept | apply sendMsix_kept

theorem execIntCauseWrite_kept {fn value s} (h : Kept q s) : KeptO q (execIntCauseWrite fn value s) := by
  unfold execIntCauseWrite
  with_reducible repeat' first
    | assumption | intro _ | apply next_kept | apply modFn_kept | apply hostAsks_kept

theorem execHwinWrite_kept {p r host value s} (h : Kept q s) : KeptO q (execHwinWrite p r host value s) := by
  unfold execHwinWrite
  with_reducible repeat' first
    | assumption | intro _ | refine ite_kept ?_ ?_ | extract_lets +onlyGivenNames t | apply next_kept
    | apply modFn_kept | apply modPart_kept | apply hostAsks_kept

theorem execDpAddrWrite_kept {p value s} (h : Kept q s) : KeptO q (execDpAddrWrite p value s) := by
  unfold execDpAddrWrite
  with_reducible repeat' first
    | assumption | intro _ | extract_lets +onlyGivenNames t | apply next_kept | apply modFn_kept | apply modPart_kept
    | apply hostAsks_kept

theorem execDpCtrlWrite_kept {p value s} (h : Kept q s) : KeptO q (execDpCtrlWrite p value s) := by
  unfold execDpCtrlWrite
  with_reducible repeat' first
    | assumption | intro _ | refine ite_kept ?_ ?_ | (extract_lets +onlyGivenNames t; clear_value t)
    | extract_lets +onlyGivenNames t | apply next_kept | apply modFn_kept | apply hostAsks_kept

theorem dpFail_kept {s p va write} (h : Kept q s) : Kept q (dpFail s p va write) := by
  unfold dpFail
  with_reducible repeat' first
    | assumption | intro _ | refine ite_kept ?_ ?_ | extract_lets +onlyGivenNames t | apply modFn_kept
    | apply raiseCause_kept

theorem dpNote_kept {s p va d write} (h : Kept q s) : Kept q (dpNote s p va d write) := by
  unfold dpNote
  with_reducible repeat' first
    | assumption | refine ite_kept ?_ ?_ | apply recordFault_kept

theorem dpWritePart_kept {s p va bytes} (h : Kept q s) : Kept q (dpWritePart s p va bytes) := by
  unfold dpWritePart
  with_reducible repeat' first
    | assumption | intro _ | (extract_lets +onlyGivenNames t; clear_value t) | extract_lets +onlyGivenNames t
    | refine foldl_kept (fun _ _ _ => ?_) ?_ | apply arrive_kept | apply dpFail_kept | apply dpNote_kept
    | apply spadPut_kept | split

theorem dpAdvance_kept {s p n} (h : Kept q s) : Kept q (dpAdvance s p n) := by
  unfold dpAdvance
  with_reducible repeat' first
    | assumption | intro _ | refine ite_kept ?_ ?_ | apply modFn_kept

theorem dpWriteAll_kept {s p va span} (h : Kept q s) : Kept q (dpWriteAll s p va span) := by
  unfold dpWriteAll
  with_reducible repeat' first
    | assumption | intro _ | refine ite_kept ?_ ?_ | extract_lets +onlyGivenNames t
    | refine foldl_kept (fun _ _ _ => ?_) ?_ | apply modFn_kept | apply dpFail_kept | apply dpWritePart_kept

theorem dpReadPart_kept {s p va n} (h : Kept q s) : Kept q (dpReadPart s p va n).1 := by
  unfold dpReadPart
  with_reducible repeat' first
    | assumption | intro _ | refine ite_kept ?_ ?_
    | (extract_lets +onlyGivenNames t; refine step_kept (q := q) (t := t) ?_ (fun _ => ?_); rotate_left; clear_value t; rotate_right; unfold t; clear t)
    | (extract_lets +onlyGivenNames t; clear_value t) | extract_lets +onlyGivenNames t | apply access_kept
    | apply checkSpadAt_kept | apply dpFail_kept | apply dpNote_kept | apply spendRead_kept | split

theorem fillAhead_kept {s p} (h : Kept q s) : Kept q (fillAhead s p) := by
  unfold fillAhead
  with_reducible repeat' first
    | assumption | intro _ | (extract_lets +onlyGivenNames t; clear_value t) | extract_lets +onlyGivenNames t
    | apply modFn_kept

theorem dpReadAll_kept {s p a2} (h : Kept q s) : Kept q (dpReadAll s p a2).1 := by
  induction a2 generalizing s p with
  | nil =>
    unfold dpReadAll
    with_reducible repeat' first
      | assumption
  | cons x r ih =>
    unfold dpReadAll
    with_reducible repeat' first
      | assumption | extract_lets +onlyGivenNames t | apply answered_kept | apply dpReadPart_kept | split
      | (refine fst_kept (by assumption) ?_) | apply ih

theorem dpAnswer_kept {s p va count} (h : Kept q s) : Kept q (dpAnswer s p va count) := by
  unfold dpAnswer
  with_reducible repeat' first
    | assumption | extract_lets +onlyGivenNames t | apply emit_kept | apply fillAhead_kept | apply dpReadAll_kept

theorem dpLookUp_kept {s p va} (h : Kept q s) : Kept q (dpLookUp s p va) := by
  unfold dpLookUp
  with_reducible repeat' first
    | assumption | refine ite_kept ?_ ?_ | apply lookUp_kept | split

theorem dpLacks_kept {s p va count} (h : Kept q s) : Kept q (dpLacks s p va count).1 := by
  unfold dpLacks
  with_reducible repeat' first
    | assumption | intro _
    | (extract_lets +onlyGivenNames t; refine step_kept (q := q) (t := t) ?_ (fun _ => ?_); rotate_left; clear_value t; rotate_right; unfold t; clear t)
    | (extract_lets +onlyGivenNames t; clear_value t) | extract_lets +onlyGivenNames t
    | refine foldl_kept (fun _ _ _ => ?_) ?_ | refine foldl_fst_kept (fun _ _ _ => ?_) ?_ | apply dpLookUp_kept

theorem dpOnes_kept {s p va count} (h : Kept q s) : Kept q (dpOnes s p va count) := by
  unfold dpOnes
  with_reducible repeat' first
    | assumption | intro _ | refine ite_kept ?_ ?_
    | (extract_lets +onlyGivenNames t; refine step_kept (q := q) (t := t) ?_ (fun _ => ?_); rotate_left; clear_value t; rotate_right; unfold t; clear t)
    | extract_lets +onlyGivenNames t | refine foldl_kept (fun _ _ _ => ?_) ?_ | apply emit_kept | apply dpFail_kept

theorem dpNext_kept {p a1 a2} (h : Kept q a2) : Kept q (dpNext p a1 a2) := by
  induction a1 generalizing p a2 with
  | zero => exact h
  | succ n ih =>
    unfold dpNext
    with_reducible repeat' first
      | assumption | intro _ | refine ite_kept ?_ ?_
      | (extract_lets +onlyGivenNames t; have ht : ∀ s, Kept q s → Kept q (t s) := fun _ h => modFn_kept h; clear_value t)
      | refine foldl_kept (fun _ _ _ => ?_) ?_ | apply ih | apply emit_kept | apply askMemory_kept | apply dpAnswer_kept
      | apply dpOnes_kept | apply dpWriteAll_kept | apply dpLacks_kept
      | apply ht | split

theorem dpResume_kept {s p} (h : Kept q s) : Kept q (dpResume s p) := by
  unfold dpResume
  with_reducible repeat' first
    | assumption | apply dpNext_kept

theorem dpArrive_kept {s p x} (h : Kept q s) : Kept q (dpArrive s p x) := by
  unfold dpArrive
  with_reducible repeat' first
    | assumption | intro _ | apply modFn_kept | apply dpResume_kept

theorem execDpAddrRead_kept {p s} (h : Kept q s) : KeptO q (execDpAddrRead p s) := by
  unfold execDpAddrRead
  with_reducible repeat' first
    | assumption | intro _ | apply next_kept | apply dpArrive_kept | apply hostAsks_kept

theorem execDataPortWrite_kept {p data s} (h : Kept q s) : KeptO q (execDataPortWrite p data s) := by
  unfold execDataPortWrite
  with_reducible repeat' first
    | assumption | intro _ | refine ite_kept ?_ ?_
    | (extract_lets +onlyGivenNames t; refine step_kept (q := q) (t := t) ?_ (fun _ => ?_); rotate_left; clear_value t; rotate_right; unfold t; clear t)
    | (extract_lets +onlyGivenNames t; clear_value t) | extract_lets +onlyGivenNames t | apply next_kept
    | apply modFn_kept | apply dpAdvance_kept | apply dpArrive_kept | apply hostAsks_kept

theorem execDataPortRead_kept {p count s} (h : Kept q s) : KeptO q (execDataPortRead p count s) := by
  unfold execDataPortRead
  with_reducible repeat' first
    | assumption | intro _ | refine ite_kept ?_ ?_ | (extract_lets +onlyGivenNames t; clear_value t)
    | extract_lets +onlyGivenNames t | apply next_kept | apply emit_kept | apply dpAdvance_kept | apply dpArrive_kept
    | apply hostAsks_kept

theorem execConfigurationRequest_kept {fn write register value s} (h : Kept q s) :
    KeptO q (execConfigurationRequest fn write register value s) := by
  unfold execConfigurationRequest
  with_reducible repeat' first
    | assumption | intro _ | refine ite_kept ?_ ?_
    | (extract_lets +onlyGivenNames t; refine step_kept (q := q) (t := t) ?_ (fun _ => ?_); rotate_left; clear_value t; rotate_right; unfold t; clear t)
    | (extract_lets +onlyGivenNames t; clear_value t) | extract_lets +onlyGivenNames t | apply next_kept
    | apply emit_kept | apply modFn_kept | apply wakeBy_kept | apply draw_kept | split

theorem dropPackets_kept {s fn} (h : Kept q s) : Kept q (dropPackets s fn) := by
  unfold dropPackets
  with_reducible repeat' first
    | assumption | intro _ | (apply kept_mk; assumption)

theorem execFlrVf_kept {p s} (h : Kept q s) : KeptO q (execFlrVf p s) := by
  unfold execFlrVf
  with_reducible repeat' first
    | assumption | intro _ | refine ite_kept ?_ ?_
    | (extract_lets +onlyGivenNames t; refine step_kept (q := q) (t := t) ?_ (fun _ => ?_); rotate_left; clear_value t; rotate_right; unfold t; clear t)
    | (extract_lets +onlyGivenNames t; clear_value t) | extract_lets +onlyGivenNames t | apply next_kept
    | (apply kept_mk; assumption) | apply dropPackets_kept | apply hostAsks_kept | apply resetPart_kept

theorem execFlrPf0_kept {s} (h : Kept q s) : KeptO q (execFlrPf0 s) := by
  unfold execFlrPf0
  with_reducible repeat' first
    | assumption | intro _
    | (extract_lets +onlyGivenNames t; refine step_kept (q := q) (t := t) ?_ (fun _ => ?_); rotate_left; clear_value t; rotate_right; unfold t; clear t)
    | extract_lets +onlyGivenNames t | apply next_kept | refine foldl_kept (fun _ _ _ => ?_) ?_
    | (apply kept_mk; assumption) | apply modPart_kept | apply dropPackets_kept | apply hostAsks_kept

theorem execPerstNAssert_kept {s} (h : Kept q s) : KeptO q (execPerstNAssert s) := by
  unfold execPerstNAssert
  with_reducible repeat' first
    | assumption | intro _ | refine ite_kept ?_ ?_
    | (extract_lets +onlyGivenNames t; refine step_kept (q := q) (t := t) ?_ (fun _ => ?_); rotate_left; clear_value t; rotate_right; unfold t; clear t)
    | extract_lets +onlyGivenNames t | apply next_kept | refine foldl_kept (fun _ _ _ => ?_) ?_
    | (apply kept_mk; assumption) | apply modPart_kept | apply logContained_kept | apply resetPart_kept
    | apply settleResets_kept

theorem trainHost_kept {s} (h : Kept q s) : Kept q (trainHost s) := by
  unfold trainHost
  with_reducible repeat' first
    | assumption | (extract_lets +onlyGivenNames t; clear_value t) | extract_lets +onlyGivenNames t | apply draw_kept
    | split | (refine snd_kept (by assumption) ?_) | apply kept_mk

theorem execPerstNRelease_kept {s} (h : Kept q s) : KeptO q (execPerstNRelease s) := by
  unfold execPerstNRelease
  with_reducible repeat' first
    | assumption | refine ite_kept ?_ ?_ | apply next_kept | (apply kept_mk; assumption) | apply trainHost_kept

end Sys2Proof.Machine
end

