-- ==== Sys2Proof/Laws/Kept4.lean ====
section
/-! SUPPORT. What every operation keeps (Laws/Kept): the definitions of Machine/Queues, Memory, Access, Feeder, Engine,
Fabric, LinkEngine. -/

set_option linter.tactic.unusedName false

namespace Sys2Proof.Machine

variable {q : Fixed}

/-! ## Queues -/

theorem refuseHead_kept {s p k units status detail} (h : Kept q s) : Kept q (refuseHead s p k units status detail) := by
  unfold refuseHead
  with_reducible repeat' first
    | assumption | refine ite_kept ?_ ?_
    | (extract_lets +onlyGivenNames t; refine step_kept (q := q) (t := t) ?_ (fun _ => ?_); rotate_left; clear_value t; rotate_right; unfold t; clear t)
    | extract_lets +onlyGivenNames t | apply entryFail_kept | apply recordFault_kept

theorem runEntry_kept {s p k op needsJob body} (h :
    Kept q s) (hbody : ∀ x0 x1, Kept q x1 → Kept q (body x0 x1)) : Kept q (runEntry s p k op needsJob body) := by
  unfold runEntry
  with_reducible repeat' first
    | assumption | refine ite_kept ?_ ?_ | apply refuseHead_kept | apply hbody | split

theorem refuseField_kept {s p k} (h : Kept q s) : Kept q (refuseField s p k) := by
  unfold refuseField
  with_reducible repeat' first
    | assumption | refine ite_kept ?_ ?_ | apply entryFail_kept

theorem failAddress_kept {s p k units va write e} (h : Kept q s) : Kept q (failAddress s p k units va write e) := by
  unfold failAddress
  with_reducible repeat' first
    | assumption | refine ite_kept ?_ ?_ | apply entryFail_kept | apply noteQueueFault_kept

theorem beginWait_kept {s p k} (h : Kept q s) : Kept q (beginWait s p k) := by
  unfold beginWait
  with_reducible repeat' first
    | assumption | intro _ | apply modQueue_kept

theorem execSyncWait_kept {p s} (h : Kept q s) : KeptO q (execSyncWait p s) := by
  unfold execSyncWait
  with_reducible repeat' first
    | assumption | intro _ | refine ite_kept ?_ ?_ | apply next_kept | apply beginWait_kept | apply entryDone_kept
    | apply failAddress_kept | apply refuseField_kept | apply runEntry_kept | split

theorem syncWrite_kept {s p e f} (h : Kept q s) : Kept q (syncWrite s p e f) := by
  unfold syncWrite
  with_reducible repeat' first
    | assumption | refine ite_kept ?_ ?_ | apply entryDone_kept | apply entryFail_kept | apply failAddress_kept
    | apply refuseField_kept | apply semWrite_kept | split

theorem execSyncSignal_kept {p s} (h : Kept q s) : KeptO q (execSyncSignal p s) := by
  unfold execSyncSignal
  with_reducible repeat' first
    | assumption | intro _ | apply next_kept | apply runEntry_kept | apply syncWrite_kept

theorem execSyncAdd_kept {p s} (h : Kept q s) : KeptO q (execSyncAdd p s) := by
  unfold execSyncAdd
  with_reducible repeat' first
    | assumption | intro _ | apply next_kept | apply runEntry_kept | apply syncWrite_kept

theorem execSyncNotify_kept {p s} (h : Kept q s) : KeptO q (execSyncNotify p s) := by
  unfold execSyncNotify
  with_reducible repeat' first
    | assumption | intro _ | refine ite_kept ?_ ?_ | apply next_kept | apply entryDone_kept | apply partEvent_kept
    | apply refuseField_kept | apply runEntry_kept

theorem putPiece_kept {s p va bs} (h : Kept q s) : Kept q (putPiece s p va bs).1 := by
  unfold putPiece
  with_reducible repeat' first
    | assumption | refine ite_kept ?_ ?_ | apply recordFault_kept | apply spadPut_kept | apply writeCommitted_kept
    | split

theorem getPiece_kept {s p number va n} (h : Kept q s) : Kept q (getPiece s p number va n).1 := by
  unfold getPiece
  with_reducible repeat' first
    | assumption | intro _ | refine ite_kept ?_ ?_
    | (extract_lets +onlyGivenNames t; refine step_kept (q := q) (t := t) ?_ (fun _ => ?_); rotate_left; clear_value t; rotate_right; unfold t; clear t)
    | (extract_lets +onlyGivenNames t; clear_value t) | extract_lets +onlyGivenNames t | apply access_kept
    | apply askMemory_kept | apply checkSpad_kept | apply deadRead_kept | apply lookUp_kept | apply recordFault_kept
    | apply spendRead_kept | split

theorem stepCopy_kept {s p c} (h : Kept q s) : Kept q (stepCopy s p c).1 := by
  unfold stepCopy
  with_reducible repeat' first
    | assumption | intro _ | refine ite_kept ?_ ?_ | (extract_lets +onlyGivenNames t; clear_value t)
    | extract_lets +onlyGivenNames t | apply emit_kept | apply modPart_kept | apply getPiece_kept
    | apply putPiece_kept | split | (refine fst_kept (by assumption) ?_)

theorem driveCopy_kept {p a1 a2 a3} (h : Kept q a2) : Kept q (driveCopy p a1 a2 a3).1 := by
  induction a1 generalizing p a2 a3 with
  | zero =>
    unfold driveCopy
    with_reducible repeat' first
      | assumption
  | succ n ih =>
    unfold driveCopy
    with_reducible repeat' first
      | assumption | refine ite_kept ?_ ?_ | apply signal_kept | apply stepCopy_kept | split
      | (refine fst_kept (by assumption) ?_) | apply ih

theorem endCopy_kept {s p c e} (h : Kept q s) : Kept q (endCopy s p c e) := by
  unfold endCopy
  with_reducible repeat' first
    | assumption | intro _ | refine ite_kept ?_ ?_ | apply completeAll_kept | apply entryDone_kept
    | apply entryFail_kept | split

theorem signalCopy_kept {s p c} (h : Kept q s) : Kept q (signalCopy s p c).1 := by
  unfold signalCopy
  with_reducible repeat' first
    | assumption | refine ite_kept ?_ ?_ | apply noteQueueFault_kept | apply semWrite_kept | split

theorem pumpCopy_kept {s p c} (h : Kept q s) : Kept q (pumpCopy s p c).1 := by
  unfold pumpCopy
  with_reducible repeat' first
    | assumption | apply endCopy_kept | apply driveCopy_kept | apply signalCopy_kept | split
    | (refine fst_kept (by assumption) ?_)

theorem pumpAll_kept {p a1 a2} (h : Kept q a2) : Kept q (pumpAll p a1 a2) := by
  induction a1 generalizing p a2 with
  | nil =>
    unfold pumpAll
    with_reducible repeat' first
      | assumption
  | cons x r ih =>
    unfold pumpAll
    with_reducible repeat' first
      | assumption | intro _
      | (extract_lets +onlyGivenNames t; refine step_kept (q := q) (t := t) ?_ (fun _ => ?_); rotate_left; clear_value t; rotate_right; unfold t; clear t)
      | extract_lets +onlyGivenNames t | apply modPart_kept | apply pumpCopy_kept | split
      | (refine fst_kept (by assumption) ?_) | apply ih

theorem pumpCopies_kept {s p} (h : Kept q s) : Kept q (pumpCopies s p) := by
  unfold pumpCopies
  with_reducible repeat' first
    | assumption | intro _ | refine ite_kept ?_ ?_ | apply modPart_kept | apply pumpAll_kept

theorem startCopy_kept {s p c} (h : Kept q s) : Kept q (startCopy s p c) := by
  unfold startCopy
  with_reducible repeat' first
    | assumption | intro _ | apply modPart_kept

theorem execCopy_kept {p s} (h : Kept q s) : KeptO q (execCopy p s) := by
  unfold execCopy
  with_reducible repeat' first
    | assumption | intro _ | refine ite_kept ?_ ?_ | apply next_kept | apply modQueue_kept | apply pumpCopies_kept
    | apply refuseField_kept | apply runEntry_kept | apply startCopy_kept

theorem pumpEvery_kept {s} (h : Kept q s) : Kept q (pumpEvery s) := by
  unfold pumpEvery
  with_reducible repeat' first
    | assumption | intro _ | refine foldl_kept (fun _ _ _ => ?_) ?_ | apply pumpCopies_kept

theorem execPortCopy_kept {src s} (h : Kept q s) : KeptO q (execPortCopy src s) := by
  unfold execPortCopy
  with_reducible repeat' first
    | assumption | intro _ | refine ite_kept ?_ ?_ | (extract_lets +onlyGivenNames t; clear_value t)
    | extract_lets +onlyGivenNames t | apply next_kept | apply reply_kept | apply wait_kept | apply pumpEvery_kept
    | apply runVoted_kept | apply startCopy_kept | apply bodyParam_kept | split

theorem copyData_kept {s p data} (h : Kept q s) : Kept q (copyData s p data) := by
  unfold copyData
  with_reducible repeat' first
    | assumption | intro _
    | (extract_lets +onlyGivenNames t; refine step_kept (q := q) (t := t) ?_ (fun _ => ?_); rotate_left; clear_value t; rotate_right; unfold t; clear t)
    | extract_lets +onlyGivenNames t | apply modPart_kept | apply endCopy_kept | split

theorem execCxlIoCompletion_kept {p data s} (h : Kept q s) : KeptO q (execCxlIoCompletion p data s) := by
  unfold execCxlIoCompletion
  with_reducible repeat' first
    | assumption | intro _ | refine ite_kept ?_ ?_
    | (extract_lets +onlyGivenNames t; refine step_kept (q := q) (t := t) ?_ (fun _ => ?_); rotate_left; clear_value t; rotate_right; unfold t; clear t)
    | extract_lets +onlyGivenNames t | apply next_kept | apply modPart_kept | apply continueReset_kept
    | apply copyData_kept | apply pumpCopies_kept

theorem execQueueWaitTimeout_kept {p queue s} (h : Kept q s) : KeptO q (execQueueWaitTimeout p queue s) := by
  unfold execQueueWaitTimeout
  with_reducible repeat' first
    | assumption | refine ite_kept ?_ ?_ | apply next_kept | apply beginWait_kept | apply entryFail_kept | split

/-! ## Memory -/

theorem setAttempts_kept {s b write n} (h : Kept q s) : Kept q (setAttempts s b write n) := by
  unfold setAttempts
  with_reducible repeat' first
    | assumption | intro _ | refine ite_kept ?_ ?_ | extract_lets +onlyGivenNames t | apply modChan_kept

theorem countRetry_kept {s b} (h : Kept q s) : Kept q (countRetry s b) := by
  unfold countRetry
  with_reducible repeat' first
    | assumption | intro _
    | (extract_lets +onlyGivenNames t; refine step_kept (q := q) (t := t) ?_ (fun _ => ?_); rotate_left; clear_value t; rotate_right; unfold t; clear t)
    | (extract_lets +onlyGivenNames t; clear_value t) | extract_lets +onlyGivenNames t | apply modChan_kept
    | apply chkLog_kept | apply logCorrected_kept | split

theorem recordFailure_kept {s b write} (h : Kept q s) : Kept q (recordFailure s b write) := by
  unfold recordFailure
  with_reducible repeat' first
    | assumption | intro _
    | (extract_lets +onlyGivenNames t; refine step_kept (q := q) (t := t) ?_ (fun _ => ?_); rotate_left; clear_value t; rotate_right; unfold t; clear t)
    | (extract_lets +onlyGivenNames t; clear_value t) | extract_lets +onlyGivenNames t | (apply kept_mk; assumption)
    | apply modChan_kept

theorem ownFailure_kept {s p b} (h : Kept q s) : Kept q (ownFailure s p b) := by
  unfold ownFailure
  with_reducible repeat' first
    | assumption | intro _ | refine ite_kept ?_ ?_ | extract_lets +onlyGivenNames t | apply modPart_kept
    | apply contained_kept | apply unitError_kept | split

theorem landBurst_kept {s b x got failed} (h : Kept q s) : Kept q (landBurst s b x got failed) := by
  unfold landBurst
  with_reducible repeat' first
    | assumption | intro _ | refine ite_kept ?_ ?_ | apply modLine_kept

theorem hostBurst_kept {s x got failed} (h : Kept q s) : Kept q (hostBurst s x got failed) := by
  unfold hostBurst
  with_reducible repeat' first
    | assumption | refine ite_kept ?_ ?_ | apply emit_kept

theorem memoryCame_kept {s x} (h : Kept q s) : Kept q (memoryCame s x) := by
  unfold memoryCame
  with_reducible repeat' first
    | assumption
    | (extract_lets +onlyGivenNames t; refine step_kept (q := q) (t := t) ?_ (fun _ => ?_); rotate_left; clear_value t; rotate_right; unfold t; clear t)
    | (extract_lets +onlyGivenNames t; clear_value t) | extract_lets +onlyGivenNames t | apply answerLate_kept
    | apply dpResume_kept | apply fillPinned_kept | apply pumpCopies_kept | apply serveLine_kept
    | apply serveWindow_kept | split

theorem endBurst_kept {s b x got failed} (h : Kept q s) : Kept q (endBurst s b x got failed) := by
  unfold endBurst
  with_reducible repeat' first
    | assumption | refine ite_kept ?_ ?_
    | (extract_lets +onlyGivenNames t; refine step_kept (q := q) (t := t) ?_ (fun _ => ?_); rotate_left; clear_value t; rotate_right; unfold t; clear t)
    | extract_lets +onlyGivenNames t | apply burstEnds_kept | apply hostBurst_kept | apply landBurst_kept
    | apply memoryCame_kept | apply ownFailure_kept | apply recordFailure_kept | apply setAttempts_kept

theorem readBurst_kept {s b x flips} (h : Kept q s) : Kept q (readBurst s b x flips) := by
  unfold readBurst
  with_reducible repeat' first
    | assumption | refine ite_kept ?_ ?_ | extract_lets +onlyGivenNames t | apply countRetry_kept
    | apply endBurst_kept | apply setAttempts_kept

theorem firmwareBurst_kept {s b flips} (h : Kept q s) : Kept q (firmwareBurst s b flips) := by
  unfold firmwareBurst
  with_reducible repeat' first
    | assumption | intro _ | refine ite_kept ?_ ?_ | extract_lets +onlyGivenNames t | apply emit_kept
    | apply countRetry_kept | apply recordFailure_kept | apply setAttempts_kept

theorem execLsmReadReturn_kept {burst reader flips s} (h : Kept q s) :
    KeptO q (execLsmReadReturn burst reader flips s) := by
  unfold execLsmReadReturn
  with_reducible repeat' first
    | assumption | refine ite_kept ?_ ?_ | (extract_lets +onlyGivenNames t; clear_value t)
    | extract_lets +onlyGivenNames t | apply next_kept | apply firmwareBurst_kept | apply readBurst_kept | split

theorem persistentWrite_kept {s b} (h : Kept q s) : Kept q (persistentWrite s b) := by
  unfold persistentWrite
  with_reducible repeat' first
    | assumption | refine ite_kept ?_ ?_
    | (extract_lets +onlyGivenNames t; refine step_kept (q := q) (t := t) ?_ (fun _ => ?_); rotate_left; clear_value t; rotate_right; unfold t; clear t)
    | extract_lets +onlyGivenNames t | apply contained_kept | apply recordFailure_kept | apply setAttempts_kept
    | split

theorem writeEnds_kept {s b} (h : Kept q s) : Kept q (writeEnds s b) := by
  unfold writeEnds
  with_reducible repeat' first
    | assumption | apply burstEnds_kept | split

theorem execBaseDieWriteError_kept {burst s} (h : Kept q s) : KeptO q (execBaseDieWriteError burst s) := by
  unfold execBaseDieWriteError
  with_reducible repeat' first
    | assumption | refine ite_kept ?_ ?_ | (extract_lets +onlyGivenNames t; clear_value t)
    | extract_lets +onlyGivenNames t | apply next_kept | apply countRetry_kept | apply persistentWrite_kept
    | apply setAttempts_kept | apply writeEnds_kept

theorem execLsmWriteComplete_kept {burst s} (h : Kept q s) : KeptO q (execLsmWriteComplete burst s) := by
  unfold execLsmWriteComplete
  with_reducible repeat' first
    | assumption | refine ite_kept ?_ ?_ | (extract_lets +onlyGivenNames t; clear_value t)
    | extract_lets +onlyGivenNames t | apply next_kept | apply persistentWrite_kept | apply setAttempts_kept
    | apply writeEnds_kept

theorem execRefresh_kept {channel bank s} (h : Kept q s) : KeptO q (execRefresh channel bank s) := by
  unfold execRefresh
  with_reducible repeat' first
    | assumption | intro _ | apply next_kept | apply modChan_kept

theorem execChannelRecalibrate_kept {channel s} (h : Kept q s) : KeptO q (execChannelRecalibrate channel s) := by
  unfold execChannelRecalibrate
  with_reducible repeat' first
    | assumption | intro _ | refine ite_kept ?_ ?_ | apply next_kept | apply modChan_kept

theorem execChannelRetrain_kept {channel succeeds s} (h : Kept q s) :
    KeptO q (execChannelRetrain channel succeeds s) := by
  unfold execChannelRetrain
  with_reducible repeat' first
    | assumption | intro _ | refine ite_kept ?_ ?_ | (extract_lets +onlyGivenNames t; clear_value t)
    | extract_lets +onlyGivenNames t | apply next_kept | apply modChan_kept

theorem stackReport_kept {s stack t} (h : Kept q s) : Kept q (stackReport s stack t) := by
  unfold stackReport
  with_reducible repeat' first
    | assumption | intro _ | refine ite_kept ?_ ?_ | extract_lets +onlyGivenNames t | (apply kept_mk; assumption)

theorem execStackTempReport_kept {stack celsius s} (h : Kept q s) : KeptO q (execStackTempReport stack celsius s) := by
  unfold execStackTempReport
  with_reducible repeat' first
    | assumption | intro _ | refine ite_kept ?_ ?_
    | (extract_lets +onlyGivenNames t; refine step_kept (q := q) (t := t) ?_ (fun _ => ?_); rotate_left; clear_value t; rotate_right; unfold t; clear t)
    | extract_lets +onlyGivenNames t | apply next_kept | refine foldl_kept (fun _ _ _ => ?_) ?_ | apply arbitrate_kept
    | apply stackReport_kept

theorem execRefillTimeout_kept {p s} (h : Kept q s) : KeptO q (execRefillTimeout p s) := by
  unfold execRefillTimeout
  with_reducible repeat' first
    | assumption | refine ite_kept ?_ ?_ | apply next_kept | apply endJob_kept

/-! ## Access -/

theorem askHost_kept {s p hpa} (h : Kept q s) : Kept q (askHost s p hpa) := by
  unfold askHost
  with_reducible repeat' first
    | assumption | intro _ | refine ite_kept ?_ ?_ | (apply kept_mk; assumption) | apply emit_kept

theorem dropHost_kept {s p hs} (h : Kept q s) : Kept q (dropHost s p hs) := by
  unfold dropHost
  with_reducible repeat' first
    | assumption | intro _ | (apply kept_mk; assumption)

theorem readHost_kept {s p off n} (h : Kept q s) : Kept q (readHost s p off n).1 := by
  unfold readHost
  with_reducible repeat' first
    | assumption | intro _ | refine ite_kept ?_ ?_ | (extract_lets +onlyGivenNames t; clear_value t)
    | extract_lets +onlyGivenNames t | refine foldl_kept (fun _ _ _ => ?_) ?_
    | refine foldl_fst_kept (fun _ _ _ => ?_) ?_ | apply askHost_kept | apply dropHost_kept | split

theorem askSite_kept {s i p off write bs} (h : Kept q s) : Kept q (askSite s i p off write bs) := by
  unfold askSite
  with_reducible repeat' first
    | assumption | intro _ | apply emit_kept | apply modSite_kept

theorem readSite_kept {s p i off n} (h : Kept q s) : Kept q (readSite s p i off n).1 := by
  unfold readSite
  with_reducible repeat' first
    | assumption | intro _ | refine ite_kept ?_ ?_ | (extract_lets +onlyGivenNames t; clear_value t)
    | extract_lets +onlyGivenNames t | refine foldl_kept (fun _ _ _ => ?_) ?_
    | refine foldl_fst_kept (fun _ _ _ => ?_) ?_ | apply modSite_kept | apply askSite_kept | split

theorem readRemote_kept {s p a o n} (h : Kept q s) : Kept q (readRemote s p a o n).1 := by
  unfold readRemote
  with_reducible repeat' first
    | assumption | intro _ | refine ite_kept ?_ ?_ | apply askRemote_kept | split

theorem readSys_kept {s p sys n} (h : Kept q s) : Kept q (readSys s p sys n).1 := by
  unfold readSys
  with_reducible repeat' first
    | assumption | intro _ | refine ite_kept ?_ ?_ | (extract_lets +onlyGivenNames t; clear_value t)
    | extract_lets +onlyGivenNames t | apply readHost_kept | apply readRemote_kept | apply readSite_kept | split

theorem readVa_kept {s p agent va n} (h : Kept q s) : Kept q (readVa s p agent va n).1 := by
  unfold readVa
  with_reducible repeat' first
    | assumption | apply recordFault_kept | apply readSys_kept | split

/-! ## Feeder -/

theorem modFeeder_kept {s i mvu f} (h : Kept q s) : Kept q (modFeeder s i mvu f) := by
  unfold modFeeder
  with_reducible repeat' first
    | assumption | intro _ | refine ite_kept ?_ ?_ | extract_lets +onlyGivenNames t | apply modStall_kept

theorem modMunit_kept {s i mvu f} (h : Kept q s) : Kept q (modMunit s i mvu f) := by
  unfold modMunit
  with_reducible repeat' first
    | assumption | intro _ | refine ite_kept ?_ ?_ | extract_lets +onlyGivenNames t | apply modStall_kept

/-! ## Engine -/

theorem putRows_kept {s i off b vs} (h : Kept q s) : Kept q (putRows s i off b vs) := by
  unfold putRows
  with_reducible repeat' first
    | assumption | intro _ | refine ite_kept ?_ ?_ | (extract_lets +onlyGivenNames t; clear_value t)
    | extract_lets +onlyGivenNames t | refine foldl_kept (fun _ _ _ => ?_) ?_ | apply spadPut_kept

theorem putRun_kept {s i mvu w m r} (h : Kept q s) : Kept q (putRun s i mvu w m r) := by
  unfold putRun
  with_reducible repeat' first
    | assumption | intro _
    | (extract_lets +onlyGivenNames t; refine step_kept (q := q) (t := t) ?_ (fun _ => ?_); rotate_left; clear_value t; rotate_right; unfold t; clear t)
    | (extract_lets +onlyGivenNames t; clear_value t) | extract_lets +onlyGivenNames t
    | refine foldl_kept (fun _ _ _ => ?_) ?_ | apply modMunit_kept | apply putRows_kept | apply spadPut_kept

theorem putWord_kept {s i mvu inj o cols} (h : Kept q s) : Kept q (putWord s i mvu inj o cols) := by
  unfold putWord
  with_reducible repeat' first
    | assumption | intro _ | refine ite_kept ?_ ?_
    | (extract_lets +onlyGivenNames t; refine step_kept (q := q) (t := t) ?_ (fun _ => ?_); rotate_left; clear_value t; rotate_right; unfold t; clear t)
    | extract_lets +onlyGivenNames t | refine foldl_kept (fun _ _ _ => ?_) ?_ | apply modMunit_kept
    | apply putRows_kept | apply putRun_kept

theorem loadTick_kept {s i mvu n w t fabric} (h : Kept q s) : Kept q (loadTick s i mvu n w t fabric) := by
  unfold loadTick
  with_reducible repeat' first
    | assumption | intro _ | refine ite_kept ?_ ?_ | (extract_lets +onlyGivenNames t; clear_value t)
    | extract_lets +onlyGivenNames t | refine foldl_kept (fun _ _ _ => ?_) ?_ | apply modMunit_kept

theorem loadsTick_kept {s i mvu ops t fabric} (h : Kept q s) : Kept q (loadsTick s i mvu ops t fabric) := by
  unfold loadsTick
  with_reducible repeat' first
    | assumption | intro _ | (extract_lets +onlyGivenNames t; clear_value t) | extract_lets +onlyGivenNames t
    | refine foldl_kept (fun _ _ _ => ?_) ?_ | apply loadTick_kept

theorem injectWord_kept {s i mvu inj w t es ss f fabric half} (h : Kept q s) :
    Kept q (injectWord s i mvu inj w t es ss f fabric half) := by
  unfold injectWord
  with_reducible repeat' first
    | assumption | intro _ | refine ite_kept ?_ ?_ | (extract_lets +onlyGivenNames t; clear_value t)
    | extract_lets +onlyGivenNames t | apply modFeeder_kept | apply modMunit_kept

theorem moveWords_kept {s i mvu ops} (h : Kept q s) : Kept q (moveWords s i mvu ops) := by
  unfold moveWords
  with_reducible repeat' first
    | assumption | intro _ | refine ite_kept ?_ ?_ | (extract_lets +onlyGivenNames t; clear_value t)
    | extract_lets +onlyGivenNames t | apply modMunit_kept

/-! ## Fabric -/

theorem pushSidebands_kept {s} (h : Kept q s) : Kept q (pushSidebands s) := by
  unfold pushSidebands
  with_reducible repeat' first
    | assumption | intro _ | (apply kept_mk; assumption)

theorem moveStage_kept {s p d} (h : Kept q s) : Kept q (moveStage s p d) := by
  unfold moveStage
  with_reducible repeat' first
    | assumption | intro _ | refine ite_kept ?_ ?_
    | (extract_lets +onlyGivenNames t; refine step_kept (q := q) (t := t) ?_ (fun _ => ?_); rotate_left; clear_value t; rotate_right; unfold t; clear t)
    | (extract_lets +onlyGivenNames t; clear_value t) | extract_lets +onlyGivenNames t
    | refine foldl_kept (fun _ _ _ => ?_) ?_ | apply modDom_kept | apply modStall_kept

/-! ## LinkEngine -/

theorem pushCrossing_kept {s key a2 f} (h : Kept q s) : Kept q (pushCrossing s key a2 f) := by
  unfold pushCrossing
  with_reducible repeat' first
    | assumption | intro _ | extract_lets +onlyGivenNames t | (apply kept_mk; assumption)

theorem linkPort_kept {s rd t j} (h : Kept q s) : Kept q (linkPort s rd t j).1 := by
  unfold linkPort
  with_reducible repeat' first
    | assumption | intro _ | refine ite_kept ?_ ?_
    | (extract_lets +onlyGivenNames t; refine step_kept (q := q) (t := t) ?_ (fun _ => ?_); rotate_left; clear_value t; rotate_right; unfold t; clear t)
    | (extract_lets +onlyGivenNames t; clear_value t) | extract_lets +onlyGivenNames t | apply modPort_kept
    | apply pushCrossing_kept

theorem unitLine_kept {s p a cells} (h : Kept q s) : Kept q (unitLine s p a cells) := by
  unfold unitLine
  with_reducible repeat' first
    | assumption | intro _ | refine ite_kept ?_ ?_ | extract_lets +onlyGivenNames t | apply access_kept
    | apply arrive_kept | apply putStaged_kept

theorem unitWrite_kept {s p a bs} (h : Kept q s) : Kept q (unitWrite s p a bs) := by
  unfold unitWrite
  with_reducible repeat' first
    | assumption | intro _ | refine ite_kept ?_ ?_ | refine foldl_kept (fun _ _ _ => ?_) ?_ | apply contained_kept
    | apply spadPut_kept | apply unitLine_kept | split

theorem sendVector_kept {s p dev type1 a operand bs} (h : Kept q s) :
    Kept q (sendVector s p dev type1 a operand bs) := by
  unfold sendVector
  with_reducible repeat' first
    | assumption | intro _ | refine ite_kept ?_ ?_ | extract_lets +onlyGivenNames t
    | refine foldl_kept (fun _ _ _ => ?_) ?_ | apply contained_kept | apply queueItem_kept | apply unitItem_kept

theorem applyToken_kept {put s rd a tag bs} (hput : ∀ x0 x1 x2, Kept q x0 → Kept q (put x0 x1 x2)) (h1 :
    Kept q s) : Kept q (applyToken put s rd a tag bs) := by
  unfold applyToken
  with_reducible repeat' first
    | assumption | intro _
    | (extract_lets +onlyGivenNames t; refine step_kept (q := q) (t := t) ?_ (fun _ => ?_); rotate_left; clear_value t; rotate_right; unfold t; clear t)
    | (extract_lets +onlyGivenNames t; clear_value t) | extract_lets +onlyGivenNames t | apply hput | split

theorem applyCount_kept {put s rd a c} (hput : ∀ x0 x1 x2, Kept q x0 → Kept q (put x0 x1 x2)) (h1 : Kept q s) :
    Kept q (applyCount put s rd a c) := by
  unfold applyCount
  with_reducible repeat' first
    | assumption | intro _
    | (extract_lets +onlyGivenNames t; refine step_kept (q := q) (t := t) ?_ (fun _ => ?_); rotate_left; clear_value t; rotate_right; unfold t; clear t)
    | (extract_lets +onlyGivenNames t; clear_value t) | extract_lets +onlyGivenNames t
    | refine foldl_kept (fun _ _ _ => ?_) ?_ | apply hput | split

theorem sendToken_kept {s p rd dev a tag bs} (h : Kept q s) : Kept q (sendToken s p rd dev a tag bs) := by
  unfold sendToken
  with_reducible repeat' first
    | assumption | intro _ | refine ite_kept ?_ ?_ | apply applyToken_kept | apply sendVector_kept
    | apply unitWrite_kept

theorem sendCount_kept {s p rd dev a c} (h : Kept q s) : Kept q (sendCount s p rd dev a c) := by
  unfold sendCount
  with_reducible repeat' first
    | assumption | intro _ | refine ite_kept ?_ ?_ | apply applyCount_kept | apply sendVector_kept
    | apply unitWrite_kept

theorem sendResult_kept {s p dev a tag bs} (h : Kept q s) : Kept q (sendResult s p dev a tag bs) := by
  unfold sendResult
  with_reducible repeat' first
    | assumption | refine ite_kept ?_ ?_ | apply sendVector_kept | apply unitWrite_kept

theorem linkByte_kept {s p va} (h : Kept q s) : KeptEP q (linkByte s p va) := by
  unfold linkByte
  with_reducible repeat' first
    | assumption | refine ite_kept ?_ ?_ | extract_lets +onlyGivenNames t | apply emit_kept | apply draw_kept
    | exact error_keptEP | apply ok_keptEP | split

theorem linkBytes_kept {s p va a3} (h : Kept q s) : KeptEP q (linkBytes s p va a3) := by
  induction a3 generalizing s p va with
  | zero =>
    unfold linkBytes
    with_reducible repeat' first
      | assumption | apply reply_kept | apply wait_kept | apply bodyOk_kept | apply linkByte_kept | exact error_keptEP
      | apply ok_keptEP
  | succ n ih =>
    unfold linkBytes
    with_reducible repeat' first
      | assumption | apply reply_kept | apply wait_kept | apply bodyOk_kept | apply linkByte_kept | exact error_keptEP
      | apply ok_keptEP | split | (refine okP_kept (by assumption) ?_) | apply ih

theorem linkRead_kept {s p va n act} (h : Kept q s) (hact : ∀ x0 x1, Kept q x0 → Kept q (act x0 x1)) :
    Kept q (linkRead s p va n act) := by
  unfold linkRead
  with_reducible repeat' first
    | assumption | refine ite_kept ?_ ?_ | apply contained_kept | apply recordFault_kept | apply linkBytes_kept
    | apply hact | split | (refine okP_kept (by assumption) ?_)

theorem dispatchOne_kept {s p rd base x r i j} (h : Kept q s) : Kept q (dispatchOne s p rd base x r i j) := by
  unfold dispatchOne
  with_reducible repeat' first
    | assumption | intro _ | (extract_lets +onlyGivenNames t; clear_value t) | extract_lets +onlyGivenNames t
    | apply linkRead_kept | apply sendToken_kept

theorem dispatchChoice_kept {rd p route base r ij} (h : Kept q r.1) :
    Kept q (dispatchChoice rd p route base r ij).1 := by
  unfold dispatchChoice
  with_reducible repeat' first
    | assumption | intro _ | refine ite_kept ?_ ?_
    | (extract_lets +onlyGivenNames t; refine step_kept (q := q) (t := t) ?_ (fun _ => ?_); rotate_left; clear_value t; rotate_right; unfold t; clear t)
    | (extract_lets +onlyGivenNames t; clear_value t) | extract_lets +onlyGivenNames t | apply dispatchOne_kept
    | apply linkRead_kept | apply unitWrite_kept | apply linkBytes_kept | split

theorem dispatch_kept {s p rd w} (h : Kept q s) : Kept q (dispatch s p rd w) := by
  unfold dispatch
  with_reducible repeat' first
    | assumption | intro _ | (extract_lets +onlyGivenNames t; clear_value t) | extract_lets +onlyGivenNames t
    | refine foldl_kept (fun _ _ _ => ?_) ?_ | refine foldl_fst_kept (fun _ _ _ => ?_) ?_ | apply sendCount_kept
    | apply dispatchChoice_kept

theorem ownRead_kept {s p a n act} (h : Kept q s) (hact : ∀ x0 x1, Kept q x0 → Kept q (act x0 x1)) :
    Kept q (ownRead s p a n act) := by
  unfold ownRead
  with_reducible repeat' first
    | assumption | intro _ | refine ite_kept ?_ ?_ | apply contained_kept | apply hact | split

theorem combine_kept {s p rd w} (h : Kept q s) : Kept q (combine s p rd w) := by
  unfold combine
  with_reducible repeat' first
    | assumption | intro _ | refine ite_kept ?_ ?_ | (extract_lets +onlyGivenNames t; clear_value t)
    | extract_lets +onlyGivenNames t | refine foldl_kept (fun _ _ _ => ?_) ?_ | apply ownRead_kept
    | apply sendResult_kept

theorem putOp_kept {s p w} (h : Kept q s) : Kept q (putOp s p w) := by
  unfold putOp
  with_reducible repeat' first
    | assumption | intro _ | refine ite_kept ?_ ?_ | (extract_lets +onlyGivenNames t; clear_value t)
    | extract_lets +onlyGivenNames t | refine foldl_kept (fun _ _ _ => ?_) ?_ | apply linkRead_kept
    | apply sendVector_kept | apply unitWrite_kept

theorem linkStarts_kept {s p rd t j} (h : Kept q s) : Kept q (linkStarts s p rd t j) := by
  unfold linkStarts
  with_reducible repeat' first
    | assumption | intro _ | refine ite_kept ?_ ?_ | refine foldl_kept (fun _ _ _ => ?_) ?_ | apply combine_kept
    | apply dispatch_kept | apply putOp_kept

theorem linkTick_kept {s p d rd t} (h : Kept q s) : Kept q (linkTick s p d rd t).1 := by
  unfold linkTick
  with_reducible repeat' first
    | assumption | intro _ | (extract_lets +onlyGivenNames t; clear_value t) | extract_lets +onlyGivenNames t
    | refine foldl_kept (fun _ _ _ => ?_) ?_ | refine foldl_fst_kept (fun _ _ _ => ?_) ?_ | apply linkStarts_kept
    | apply linkPort_kept

end Sys2Proof.Machine
end

