-- ==== Sys2Proof/Laws/Kept5.lean ====
section
/-! SUPPORT. What every operation keeps (Laws/Kept): the definitions of Machine/Domain, SessionEngine, Budget, Plan, Held. -/

set_option linter.tactic.unusedName false

namespace Sys2Proof.Machine

variable {q : Fixed}

/-! ## Domain -/

theorem closeLost_kept {s p d} (h : Kept q s) : Kept q (closeLost s p d) := by
  unfold closeLost
  with_reducible repeat' first
    | assumption | intro _ | extract_lets +onlyGivenNames t | apply modDom_kept | apply modPart_kept | split

theorem loseTick_kept {s p d cause} (h : Kept q s) : Kept q (loseTick s p d cause) := by
  unfold loseTick
  with_reducible repeat' first
    | assumption | intro _ | refine ite_kept ?_ ?_ | apply modDom_kept | apply closeLost_kept | split

theorem recoveryEvent_kept {s p cause tick count} (h : Kept q s) : Kept q (recoveryEvent s p cause tick count) := by
  unfold recoveryEvent
  with_reducible repeat' first
    | assumption | intro _ | refine ite_kept ?_ ?_ | extract_lets +onlyGivenNames t | apply modPart_kept

theorem btdAdd_kept {s p k n} (h : Kept q s) : Kept q (btdAdd s p k n) := by
  unfold btdAdd
  with_reducible repeat' first
    | assumption | intro _ | extract_lets +onlyGivenNames t | apply modPart_kept

theorem withhold_kept {s p d cause mask} (h : Kept q s) : Kept q (withhold s p d cause mask) := by
  unfold withhold
  with_reducible repeat' first
    | assumption | intro _ | refine ite_kept ?_ ?_ | extract_lets +onlyGivenNames t | apply modDom_kept
    | apply modPart_kept | apply btdAdd_kept | apply closeLost_kept | apply loseTick_kept

theorem keyFault_kept {s p} (h : Kept q s) : Kept q (keyFault s p) := by
  unfold keyFault
  with_reducible repeat' first
    | assumption | apply contained_kept | apply zeroUnitRegs_kept

theorem packFault_kept {s p i mvu} (h : Kept q s) : Kept q (packFault s p i mvu) := by
  unfold packFault
  with_reducible repeat' first
    | assumption | intro _ | apply contained_kept | apply modFeeder_kept

theorem feederFault_kept {s p d rd desc t} (h : Kept q s) : KeptOS q (feederFault s p d rd desc t) := by
  unfold feederFault
  exact map_keptOS (fun _ => packFault_kept h)

theorem feederCycle_kept {s p d} (h : Kept q s) : Kept q (feederCycle s p d) := by
  unfold feederCycle
  with_reducible repeat' first
    | assumption | intro _ | refine ite_kept ?_ ?_ | extract_lets +onlyGivenNames t
    | refine foldl_kept (fun _ _ _ => ?_) ?_ | apply keyFault_kept | apply modFeeder_kept | apply packFault_kept
    | split

theorem startFill_kept {s i w} (h : Kept q s) : Kept q (startFill s i w) := by
  unfold startFill
  with_reducible repeat' first
    | assumption | intro _ | apply modStall_kept

theorem startSpill_kept {s p i w} (h : Kept q s) : Kept q (startSpill s p i w) := by
  unfold startSpill
  with_reducible repeat' first
    | assumption | intro _ | apply modStall_kept | apply checkSpad_kept

theorem readSpill_kept {s i used} (h : Kept q s) : Kept q (readSpill s i used) := by
  unfold readSpill
  with_reducible repeat' first
    | assumption | intro _ | refine ite_kept ?_ ?_ | extract_lets +onlyGivenNames t | apply modStall_kept | split

theorem readSpills_kept {s p d taken} (h : Kept q s) : Kept q (readSpills s p d taken) := by
  unfold readSpills
  with_reducible repeat' first
    | assumption | intro _ | refine ite_kept ?_ ?_ | (extract_lets +onlyGivenNames t; clear_value t)
    | extract_lets +onlyGivenNames t | refine foldl_kept (fun _ _ _ => ?_) ?_ | apply readSpill_kept

theorem startPort_kept {s p i ops t} (h : Kept q s) : Kept q (startPort s p i ops t) := by
  unfold startPort
  with_reducible repeat' first
    | assumption | intro _ | refine ite_kept ?_ ?_ | refine foldl_kept (fun _ _ _ => ?_) ?_ | apply startFill_kept
    | apply startSpill_kept

theorem unitReads_kept {s i mvu rd ops tab t len} (h : Kept q s) : Kept q (unitReads s i mvu rd ops tab t len) := by
  unfold unitReads
  with_reducible repeat' first
    | assumption | intro _ | refine ite_kept ?_ ?_
    | (extract_lets +onlyGivenNames t; refine step_kept (q := q) (t := t) ?_ (fun _ => ?_); rotate_left; clear_value t; rotate_right; unfold t; clear t)
    | (extract_lets +onlyGivenNames t; clear_value t) | extract_lets +onlyGivenNames t | apply injectWord_kept
    | apply loadsTick_kept | apply moveWords_kept | split

theorem unitWrites_kept {s p i mvu rd ops tab t len} (h : Kept q s) :
    Kept q (unitWrites s p i mvu rd ops tab t len).1 := by
  unfold unitWrites
  with_reducible repeat' first
    | assumption | intro _ | refine ite_kept ?_ ?_ | (extract_lets +onlyGivenNames t; clear_value t)
    | extract_lets +onlyGivenNames t | apply btdAdd_kept | apply modMunit_kept | apply putWord_kept | split

theorem portWrites_kept {s i ops t bs} (h : Kept q s) : Kept q (portWrites s i ops t bs) := by
  unfold portWrites
  with_reducible repeat' first
    | assumption | apply spadPut_kept | split

theorem stallTick_kept {s p i rd desc t len} (h : Kept q s) : Kept q (stallTick s p i rd desc t len) := by
  unfold stallTick
  with_reducible repeat' first
    | assumption | intro _
    | (extract_lets +onlyGivenNames t; refine step_kept (q := q) (t := t) ?_ (fun _ => ?_); rotate_left; clear_value t; rotate_right; unfold t; clear t)
    | (extract_lets +onlyGivenNames t; clear_value t) | extract_lets +onlyGivenNames t
    | refine foldl_kept (fun _ _ _ => ?_) ?_ | refine foldl_fst_kept (fun _ _ _ => ?_) ?_ | apply modStall_kept
    | apply modFeeder_kept | apply portWrites_kept | apply startPort_kept | apply unitReads_kept
    | apply unitWrites_kept | split

theorem sendModules_kept {s p d t} (h : Kept q s) : Kept q (sendModules s p d t) := by
  unfold sendModules
  with_reducible repeat' first
    | assumption | intro _ | refine ite_kept ?_ ?_
    | (extract_lets +onlyGivenNames t; refine step_kept (q := q) (t := t) ?_ (fun _ => ?_); rotate_left; clear_value t; rotate_right; unfold t; clear t)
    | (extract_lets +onlyGivenNames t; clear_value t) | extract_lets +onlyGivenNames t
    | refine foldl_kept (fun _ _ _ => ?_) ?_ | (apply kept_mk; assumption) | apply pushCrossing_kept | apply draw_kept
    | split | (refine snd_kept (by assumption) ?_)

theorem checkMarks_kept {s p d t} (h : Kept q s) : Kept q (checkMarks s p d t) := by
  unfold checkMarks
  with_reducible repeat' first
    | assumption | intro _ | refine ite_kept ?_ ?_
    | (extract_lets +onlyGivenNames t; refine step_kept (q := q) (t := t) ?_ (fun _ => ?_); rotate_left; clear_value t; rotate_right; unfold t; clear t)
    | extract_lets +onlyGivenNames t | refine foldl_kept (fun _ _ _ => ?_) ?_ | (apply kept_mk; assumption)
    | apply unitError_kept | split

theorem pruneModules_kept {s p d t} (h : Kept q s) : Kept q (pruneModules s p d t) := by
  unfold pruneModules
  with_reducible repeat' first
    | assumption | intro _ | refine ite_kept ?_ ?_ | extract_lets +onlyGivenNames t
    | refine foldl_kept (fun _ _ _ => ?_) ?_ | (apply kept_mk; assumption) | split | apply kept_mk

theorem routerMove_kept {s o} (h : Kept q s) : Kept q (routerMove s o) := by
  unfold routerMove
  with_reducible repeat' first
    | assumption | intro _ | apply modStall_kept

theorem routerErrors_kept {s p o} (h : Kept q s) : Kept q (routerErrors s p o) := by
  unfold routerErrors
  with_reducible repeat' first
    | assumption | refine ite_kept ?_ ?_ | extract_lets +onlyGivenNames t | apply unitError_kept

theorem checkParts_kept {s p d rd desc} (h : Kept q s) : Kept q (checkParts s p d rd desc) := by
  unfold checkParts
  with_reducible repeat' first
    | assumption | intro _ | refine ite_kept ?_ ?_ | refine foldl_kept (fun _ _ _ => ?_) ?_ | apply modStall_kept
    | apply hardwareError_kept | split

theorem checkReads_kept {s p d rd desc t} (h : Kept q s) : Kept q (checkReads s p d rd desc t) := by
  unfold checkReads
  with_reducible repeat' first
    | assumption | intro _ | refine ite_kept ?_ ?_ | refine foldl_kept (fun _ _ _ => ?_) ?_ | apply checkSpad_kept
    | split

theorem floodGroup_kept {s p v except} (h : Kept q s) : Kept q (floodGroup s p v except) := by
  unfold floodGroup
  with_reducible repeat' first
    | assumption | intro _ | refine foldl_kept (fun _ _ _ => ?_) ?_ | apply sendSymbol_kept

theorem syncTicks_kept {s p d old new} (h : Kept q s) : Kept q (syncTicks s p d old new) := by
  unfold syncTicks
  with_reducible repeat' first
    | assumption | refine ite_kept ?_ ?_ | apply floodGroup_kept

theorem takeTick_kept {s p d} (h : Kept q s) : Kept q (takeTick s p d) := by
  unfold takeTick
  with_reducible repeat' first
    | assumption | intro _ | refine ite_kept ?_ ?_
    | (extract_lets +onlyGivenNames t; refine step_kept (q := q) (t := t) ?_ (fun _ => ?_); rotate_left; clear_value t; rotate_right; unfold t; clear t)
    | (extract_lets +onlyGivenNames t; clear_value t) | extract_lets +onlyGivenNames t
    | refine foldl_kept (fun _ _ _ => ?_) ?_ | refine foldl_fst_kept (fun _ _ _ => ?_) ?_ | apply modDom_kept
    | apply checkMarks_kept | apply checkParts_kept | apply checkReads_kept | apply contained_kept
    | apply pruneModules_kept | apply routerErrors_kept | apply routerMove_kept | apply sendModules_kept
    | apply stallTick_kept | apply syncTicks_kept | apply unitError_kept | apply feederFault_kept
    | apply linkTick_kept | exact none_keptOS | split | (refine fst_kept (by assumption) ?_)
    | (refine some_kept (by assumption) ?_)

theorem fillOutside_kept {s p i f} (h : Kept q s) : Kept q (fillOutside s p i f) := by
  unfold fillOutside
  with_reducible repeat' first
    | assumption | intro _ | refine ite_kept ?_ ?_ | apply modStall_kept | apply contained_kept
    | apply recordFault_kept | apply spadPut_kept | apply readSys_kept | split | (refine fst_kept (by assumption) ?_)

theorem spillOutside_kept {s p i f} (h : Kept q s) : Kept q (spillOutside s p i f) := by
  unfold spillOutside
  with_reducible repeat' first
    | assumption | intro _ | refine ite_kept ?_ ?_ | extract_lets +onlyGivenNames t
    | refine foldl_kept (fun _ _ _ => ?_) ?_ | apply modStall_kept | apply askSite_kept | apply contained_kept
    | apply recordFault_kept | apply spadPut_kept | split

theorem pumpPorts_kept {s p d} (h : Kept q s) : Kept q (pumpPorts s p d) := by
  unfold pumpPorts
  with_reducible repeat' first
    | assumption | intro _ | refine ite_kept ?_ ?_
    | (extract_lets +onlyGivenNames t; refine step_kept (q := q) (t := t) ?_ (fun _ => ?_); rotate_left; clear_value t; rotate_right; unfold t; clear t)
    | extract_lets +onlyGivenNames t | refine foldl_kept (fun _ _ _ => ?_) ?_ | apply fillOutside_kept
    | apply spillOutside_kept

theorem bellWaitTick_kept {s p d} (h : Kept q s) : Kept q (bellWaitTick s p d) := by
  unfold bellWaitTick
  with_reducible repeat' first
    | assumption | intro _ | refine ite_kept ?_ ?_
    | (extract_lets +onlyGivenNames t; refine step_kept (q := q) (t := t) ?_ (fun _ => ?_); rotate_left; clear_value t; rotate_right; unfold t; clear t)
    | extract_lets +onlyGivenNames t | apply modDom_kept | apply modPart_kept | apply loseTick_kept

theorem idleBellTick_kept {s p d} (h : Kept q s) : Kept q (idleBellTick s p d) := by
  unfold idleBellTick
  with_reducible repeat' first
    | assumption | intro _ | refine ite_kept ?_ ?_ | extract_lets +onlyGivenNames t | apply modDom_kept
    | apply bellWaitTick_kept | apply closeLost_kept | apply syncTicks_kept

theorem closeStretch_kept {s p d} (h : Kept q s) : Kept q (closeStretch s p d) := by
  unfold closeStretch
  with_reducible repeat' first
    | assumption | intro _ | apply modDom_kept | apply recoveryEvent_kept | split

theorem stretchTicks_kept {s p d n} (h : Kept q s) : Kept q (stretchTicks s p d n) := by
  unfold stretchTicks
  with_reducible repeat' first
    | assumption | intro _
    | (extract_lets +onlyGivenNames t; refine step_kept (q := q) (t := t) ?_ (fun _ => ?_); rotate_left; clear_value t; rotate_right; unfold t; clear t)
    | extract_lets +onlyGivenNames t | apply modDom_kept | apply modPart_kept | apply btdAdd_kept

theorem stretchCycle_kept {s p d} (h : Kept q s) : Kept q (stretchCycle s p d) := by
  unfold stretchCycle
  with_reducible repeat' first
    | assumption | refine ite_kept ?_ ?_ | apply closeStretch_kept | apply stretchTicks_kept

theorem takenTick_kept {s p d} (h : Kept q s) : Kept q (takenTick s p d) := by
  unfold takenTick
  with_reducible repeat' first
    | assumption | intro _ | refine ite_kept ?_ ?_ | extract_lets +onlyGivenNames t | apply modDom_kept
    | apply bellWaitTick_kept | apply closeLost_kept | apply idleBellTick_kept | apply takeTick_kept

theorem execDomainTick_kept {p d s} (h : Kept q s) : KeptO q (execDomainTick p d s) := by
  unfold execDomainTick
  with_reducible repeat' first
    | assumption | intro _ | refine ite_kept ?_ ?_
    | (extract_lets +onlyGivenNames t; refine step_kept (q := q) (t := t) ?_ (fun _ => ?_); rotate_left; clear_value t; rotate_right; unfold t; clear t)
    | (extract_lets +onlyGivenNames t; clear_value t) | extract_lets +onlyGivenNames t | apply next_kept
    | apply modDom_kept | apply feederCycle_kept | apply moveStage_kept | apply pumpPorts_kept | apply readSpills_kept
    | apply stretchCycle_kept | apply takenTick_kept | apply withhold_kept | split

/-! ## SessionEngine -/

theorem readySessions_kept {s p} (h : Kept q s) : Kept q (readySessions s p).1 := by
  unfold readySessions
  with_reducible repeat' first
    | assumption | intro _ | refine ite_kept ?_ ?_ | refine foldl_kept (fun _ _ _ => ?_) ?_
    | refine foldl_fst_kept (fun _ _ _ => ?_) ?_ | apply sesUse_kept | split | (refine fst_kept (by assumption) ?_)

theorem stillReady_kept {s p is} (h : Kept q s) : Kept q (stillReady s p is).1 := by
  unfold stillReady
  with_reducible repeat' first
    | assumption | intro _ | refine ite_kept ?_ ?_ | refine foldl_kept (fun _ _ _ => ?_) ?_
    | refine foldl_fst_kept (fun _ _ _ => ?_) ?_ | apply sesUse_kept | split | (refine fst_kept (by assumption) ?_)

theorem sesToken_kept {s p e n} (h : Kept q s) : Kept q (sesToken s p e n).1 := by
  unfold sesToken
  with_reducible repeat' first
    | assumption | (extract_lets +onlyGivenNames t; clear_value t) | extract_lets +onlyGivenNames t
    | apply recordFault_kept | apply readSys_kept | split

theorem gatherOne_kept {p steps perPage r x} (h : Kept q r.1) : Kept q (gatherOne p steps perPage r x).1 := by
  unfold gatherOne
  with_reducible repeat' first
    | assumption | refine ite_kept ?_ ?_ | extract_lets +onlyGivenNames t | apply sesFail_kept | apply sesNote_kept
    | apply sesWrite_kept | apply sesToken_kept | split | (refine fst_kept (by assumption) ?_)

theorem gatherAll_kept {s p l} (h : Kept q s) : Kept q (gatherAll s p l).1 := by
  unfold gatherAll
  with_reducible repeat' first
    | assumption | intro _ | refine foldl_kept (fun _ _ _ => ?_) ?_ | refine foldl_fst_kept (fun _ _ _ => ?_) ?_
    | apply gatherOne_kept

theorem gatherWcet_kept {s p} (h : Kept q s) : Kept q (gatherWcet s p).1 := by
  unfold gatherWcet
  with_reducible repeat' first
    | assumption | intro _ | refine ite_kept ?_ ?_ | (extract_lets +onlyGivenNames t; clear_value t)
    | extract_lets +onlyGivenNames t | apply gatherAll_kept | apply readySessions_kept | apply stillReady_kept | split

theorem gatherDeadline_kept {s p} (h : Kept q s) : Kept q (gatherDeadline s p).1 := by
  unfold gatherDeadline
  with_reducible repeat' first
    | assumption | intro _ | refine ite_kept ?_ ?_ | (extract_lets +onlyGivenNames t; clear_value t)
    | extract_lets +onlyGivenNames t | apply gatherAll_kept | apply readySessions_kept | apply stillReady_kept | split
    | (refine fst_kept (by assumption) ?_)

theorem gather_kept {s p} (h : Kept q s) : Kept q (gather s p).1 := by
  unfold gather
  with_reducible repeat' first
    | assumption | refine ite_kept ?_ ?_ | apply gatherDeadline_kept | apply gatherWcet_kept | split

theorem keepGathered_kept {s p g} (h : Kept q s) : Kept q (keepGathered s p g) := by
  unfold keepGathered
  with_reducible repeat' first
    | assumption | intro _ | extract_lets +onlyGivenNames t | apply modPart_kept

theorem writeRecord_kept {s p bs} (h : Kept q s) : Kept q (writeRecord s p bs).1 := by
  unfold writeRecord
  with_reducible repeat' first
    | assumption | intro _ | refine foldl_kept (fun _ _ _ => ?_) ?_ | refine foldl_fst_kept (fun _ _ _ => ?_) ?_
    | apply queueWrite_kept | split

theorem markRunning_kept {s p is} (h : Kept q s) : Kept q (markRunning s p is) := by
  unfold markRunning
  with_reducible repeat' first
    | assumption | intro _ | refine ite_kept ?_ ?_ | refine foldl_kept (fun _ _ _ => ?_) ?_
    | refine foldl_fst_kept (fun _ _ _ => ?_) ?_ | apply sesWrite_kept | apply sesUse_kept | split
    | (refine fst_kept (by assumption) ?_)

theorem readRemotes_kept {s p sys n} (h : Kept q s) : Kept q (readRemotes s p sys n).1 := by
  unfold readRemotes
  with_reducible repeat' first
    | assumption | intro _ | refine foldl_kept (fun _ _ _ => ?_) ?_ | refine foldl_fst_kept (fun _ _ _ => ?_) ?_
    | apply readRemote_kept | split | (refine fst_kept (by assumption) ?_)

theorem readResults_kept {s p n} (h : Kept q s) : Kept q (readResults s p n).1 := by
  unfold readResults
  with_reducible repeat' first
    | assumption | refine ite_kept ?_ ?_ | (extract_lets +onlyGivenNames t; clear_value t)
    | extract_lets +onlyGivenNames t | apply recordFault_kept | apply readRemotes_kept | apply readSys_kept | split

theorem finishSession_kept {s p results slot i keep} (h : Kept q s) :
    Kept q (finishSession s p results slot i keep) := by
  unfold finishSession
  with_reducible repeat' first
    | assumption | intro _ | refine ite_kept ?_ ?_ | (extract_lets +onlyGivenNames t; clear_value t)
    | extract_lets +onlyGivenNames t | apply modPart_kept | apply completeAll_kept | apply sesClear_kept
    | apply sesFail_kept | apply sesNote_kept | apply sesWrite_kept | apply queueWrite_kept | apply sesUse_kept
    | split | (refine fst_kept (by assumption) ?_)

theorem finishBatch_kept {s p results} (h : Kept q s) : Kept q (finishBatch s p results) := by
  unfold finishBatch
  with_reducible repeat' first
    | assumption | intro _
    | (extract_lets +onlyGivenNames t; refine step_kept (q := q) (t := t) ?_ (fun _ => ?_); rotate_left; clear_value t; rotate_right; unfold t; clear t)
    | (extract_lets +onlyGivenNames t; clear_value t) | extract_lets +onlyGivenNames t
    | refine foldl_kept (fun _ _ _ => ?_) ?_ | apply modPart_kept | apply finishSession_kept

theorem endServe_kept {s p} (h : Kept q s) : Kept q (endServe s p) := by
  unfold endServe
  with_reducible repeat' first
    | assumption | intro _
    | (extract_lets +onlyGivenNames t; refine step_kept (q := q) (t := t) ?_ (fun _ => ?_); rotate_left; clear_value t; rotate_right; unfold t; clear t)
    | (extract_lets +onlyGivenNames t; clear_value t) | extract_lets +onlyGivenNames t | apply modPart_kept
    | apply entryDone_kept | apply entryFail_kept | apply signal_kept | split | (refine fst_kept (by assumption) ?_)

theorem useSessions_kept {s p} (h : Kept q s) : Kept q (useSessions s p) := by
  unfold useSessions
  with_reducible repeat' first
    | assumption | intro _ | refine foldl_kept (fun _ _ _ => ?_) ?_ | refine foldl_fst_kept (fun _ _ _ => ?_) ?_
    | apply sesUse_kept

theorem sendRecord_kept {s p} (h : Kept q s) : Kept q (sendRecord s p) := by
  unfold sendRecord
  with_reducible repeat' first
    | assumption | intro _ | refine ite_kept ?_ ?_
    | (extract_lets +onlyGivenNames t; refine step_kept (q := q) (t := t) ?_ (fun _ => ?_); rotate_left; clear_value t; rotate_right; unfold t; clear t)
    | (extract_lets +onlyGivenNames t; clear_value t) | extract_lets +onlyGivenNames t
    | refine foldl_kept (fun _ _ _ => ?_) ?_ | refine foldl_fst_kept (fun _ _ _ => ?_) ?_ | apply contained_kept
    | apply keepGathered_kept | apply recordFault_kept | apply sendVector_kept | apply unitWrite_kept
    | apply gather_kept | split | (refine fst_kept (by assumption) ?_)

/-! ## Budget -/

theorem allocate_kept {s pt} (h : Kept q s) : Kept q (allocate s pt) := by
  unfold allocate
  with_reducible repeat' first
    | assumption | intro _ | refine ite_kept ?_ ?_ | (extract_lets +onlyGivenNames t; clear_value t)
    | extract_lets +onlyGivenNames t | refine foldl_kept (fun _ _ _ => ?_) ?_ | apply modPart_kept

theorem learnPhase_kept {s p phase} (h : Kept q s) : Kept q (learnPhase s p phase) := by
  unfold learnPhase
  with_reducible repeat' first
    | assumption | intro _ | (extract_lets +onlyGivenNames t; clear_value t) | extract_lets +onlyGivenNames t
    | refine foldl_kept (fun _ _ _ => ?_) ?_ | apply modPart_kept

theorem startGlides_kept {s p} (h : Kept q s) : Kept q (startGlides s p) := by
  unfold startGlides
  with_reducible repeat' first
    | assumption | intro _ | refine ite_kept ?_ ?_ | extract_lets +onlyGivenNames t
    | refine foldl_kept (fun _ _ _ => ?_) ?_ | apply modPart_kept

theorem earlyExchange_kept {s p phase} (h : Kept q s) : Kept q (earlyExchange s p phase) := by
  unfold earlyExchange
  with_reducible repeat' first
    | assumption | intro _ | refine ite_kept ?_ ?_ | apply allocate_kept

/-! ## Plan -/

theorem reportLoad_kept {s p res status detail} (h : Kept q s) : Kept q (reportLoad s p res status detail) := by
  unfold reportLoad
  with_reducible repeat' first
    | assumption | apply queueWrite_kept

theorem refuseLoad_kept {s p res status detail} (h : Kept q s) : Kept q (refuseLoad s p res status detail) := by
  unfold refuseLoad
  with_reducible repeat' first
    | assumption | apply entryFail_kept | apply reportLoad_kept

theorem refuseImage_kept {s p res detail} (h : Kept q s) : Kept q (refuseImage s p res detail) := by
  unfold refuseImage
  with_reducible repeat' first
    | assumption | apply refuseLoad_kept

theorem clearPhases_kept {s p} (h : Kept q s) : Kept q (clearPhases s p) := by
  unfold clearPhases
  with_reducible repeat' first
    | assumption | intro _ | extract_lets +onlyGivenNames t | apply modPart_kept

theorem pageAll_kept {s p desc} (h : Kept q s) : Kept q (pageAll s p desc) := by
  unfold pageAll
  with_reducible repeat' first
    | assumption | intro _ | (extract_lets +onlyGivenNames t; clear_value t) | extract_lets +onlyGivenNames t
    | refine foldl_kept (fun _ _ _ => ?_) ?_ | apply modStall_kept

theorem holdImage_kept {s p va n res pages} (h : Kept q s) : Kept q (holdImage s p va n res pages) := by
  unfold holdImage
  with_reducible repeat' first
    | assumption | intro _
    | (extract_lets +onlyGivenNames t; refine step_kept (q := q) (t := t) ?_ (fun _ => ?_); rotate_left; clear_value t; rotate_right; unfold t; clear t)
    | (extract_lets +onlyGivenNames t; clear_value t) | extract_lets +onlyGivenNames t | apply modPart_kept
    | apply clearPhases_kept | apply entryDone_kept | apply pageAll_kept | apply refuseImage_kept
    | apply queueWrite_kept | split

theorem startPlanEntry_kept {s p} (h : Kept q s) : Kept q (startPlanEntry s p) := by
  unfold startPlanEntry
  with_reducible repeat' first
    | assumption | apply dropEvidence_kept | apply purgeKeys_kept

theorem loadImage_kept {s p va n res} (h : Kept q s) : Kept q (loadImage s p va n res) := by
  unfold loadImage
  with_reducible repeat' first
    | assumption | refine ite_kept ?_ ?_
    | (extract_lets +onlyGivenNames t; refine step_kept (q := q) (t := t) ?_ (fun _ => ?_); rotate_left; clear_value t; rotate_right; unfold t; clear t)
    | extract_lets +onlyGivenNames t | apply entryFail_kept | apply failAddress_kept | apply holdImage_kept
    | apply refuseImage_kept | apply reportLoad_kept | apply startPlanEntry_kept | split

theorem execPlanLoad_kept {p s} (h : Kept q s) : KeptO q (execPlanLoad p s) := by
  unfold execPlanLoad
  with_reducible repeat' first
    | assumption | intro _ | refine ite_kept ?_ ?_ | apply next_kept | apply loadImage_kept | apply refuseField_kept
    | apply refuseLoad_kept | apply runEntry_kept

theorem execPlanUnload_kept {p s} (h : Kept q s) : KeptO q (execPlanUnload p s) := by
  unfold execPlanUnload
  with_reducible repeat' first
    | assumption | intro _ | refine ite_kept ?_ ?_
    | (extract_lets +onlyGivenNames t; refine step_kept (q := q) (t := t) ?_ (fun _ => ?_); rotate_left; clear_value t; rotate_right; unfold t; clear t)
    | extract_lets +onlyGivenNames t | apply next_kept | refine foldl_kept (fun _ _ _ => ?_) ?_ | apply modPart_kept
    | apply modStall_kept | apply clearPhases_kept | apply entryDone_kept | apply entryFail_kept
    | apply refuseField_kept | apply runEntry_kept | apply startPlanEntry_kept

theorem keepParts_kept {s p} (h : Kept q s) : Kept q (keepParts s p) := by
  unfold keepParts
  with_reducible repeat' first
    | assumption | intro _ | (extract_lets +onlyGivenNames t; clear_value t) | extract_lets +onlyGivenNames t
    | refine foldl_kept (fun _ _ _ => ?_) ?_ | apply modStall_kept

theorem emptyModules_kept {s p} (h : Kept q s) : Kept q (emptyModules s p) := by
  unfold emptyModules
  with_reducible repeat' first
    | assumption | intro _ | refine ite_kept ?_ ?_ | (extract_lets +onlyGivenNames t; clear_value t)
    | extract_lets +onlyGivenNames t | (apply kept_mk; assumption)

theorem emptyCrossings_kept {s p} (h : Kept q s) : Kept q (emptyCrossings s p) := by
  unfold emptyCrossings
  with_reducible repeat' first
    | assumption | intro _
    | (extract_lets +onlyGivenNames t; refine step_kept (q := q) (t := t) ?_ (fun _ => ?_); rotate_left; clear_value t; rotate_right; unfold t; clear t)
    | extract_lets +onlyGivenNames t | refine foldl_kept (fun _ _ _ => ?_) ?_ | apply modPort_kept
    | apply emptyModules_kept

theorem beginEpoch_kept {s p} (h : Kept q s) : Kept q (beginEpoch s p) := by
  unfold beginEpoch
  with_reducible repeat' first
    | assumption | intro _ | refine ite_kept ?_ ?_ | extract_lets +onlyGivenNames t
    | refine foldl_kept (fun _ _ _ => ?_) ?_ | apply modDom_kept | apply modPart_kept | apply modStall_kept
    | apply emptyCrossings_kept | apply sendRecord_kept

theorem checkedEpoch_kept {s p} (h : Kept q s) : Kept q (checkedEpoch s p) := by
  unfold checkedEpoch
  with_reducible repeat' first
    | assumption | apply beginEpoch_kept | apply contained_kept | apply zeroUnitRegs_kept | split

theorem tryStart_kept {s p} (h : Kept q s) : Kept q (tryStart s p) := by
  unfold tryStart
  with_reducible repeat' first
    | assumption | refine ite_kept ?_ ?_ | apply checkedEpoch_kept | split

theorem startRun_kept {s p r} (h : Kept q s) : Kept q (startRun s p r) := by
  unfold startRun
  with_reducible repeat' first
    | assumption | intro _
    | (extract_lets +onlyGivenNames t; refine step_kept (q := q) (t := t) ?_ (fun _ => ?_); rotate_left; clear_value t; rotate_right; unfold t; clear t)
    | extract_lets +onlyGivenNames t | apply modPart_kept | apply applyKeys_kept | apply keepParts_kept
    | apply tryStart_kept

theorem execPlanRun_kept {p s} (h : Kept q s) : KeptO q (execPlanRun p s) := by
  unfold execPlanRun
  with_reducible repeat' first
    | assumption | intro _ | refine ite_kept ?_ ?_ | apply next_kept | apply modQueue_kept | apply beginWait_kept
    | apply entryFail_kept | apply failAddress_kept | apply refuseField_kept | apply runEntry_kept
    | apply startRun_kept | apply tryStart_kept | split

theorem execPartPaged_kept {p stall s} (h : Kept q s) : KeptO q (execPartPaged p stall s) := by
  unfold execPartPaged
  with_reducible repeat' first
    | assumption | intro _ | refine ite_kept ?_ ?_ | (extract_lets +onlyGivenNames t; clear_value t)
    | extract_lets +onlyGivenNames t | apply next_kept | apply modStall_kept | apply tryStart_kept | split

theorem sendRouted_kept {s dst v} (h : Kept q s) : Kept q (sendRouted s dst v) := by
  unfold sendRouted
  with_reducible repeat' first
    | assumption | apply sendSymbol_kept | split

theorem scheduleStart_kept {s p dia h1} (h : Kept q s) : Kept q (scheduleStart s p dia h1) := by
  unfold scheduleStart
  with_reducible repeat' first
    | assumption | intro _ | extract_lets +onlyGivenNames t | apply modPart_kept

theorem joinMember_kept {s p dev member} (h : Kept q s) : Kept q (joinMember s p dev member) := by
  unfold joinMember
  with_reducible repeat' first
    | assumption | intro _ | refine ite_kept ?_ ?_
    | (extract_lets +onlyGivenNames t; refine step_kept (q := q) (t := t) ?_ (fun _ => ?_); rotate_left; clear_value t; rotate_right; unfold t; clear t)
    | (extract_lets +onlyGivenNames t; clear_value t) | extract_lets +onlyGivenNames t | apply modPart_kept
    | apply flood_kept | apply scheduleStart_kept | split | apply kept_mk

theorem joinGroup_kept {s p} (h : Kept q s) : Kept q (joinGroup s p) := by
  unfold joinGroup
  with_reducible repeat' first
    | assumption | intro _ | refine ite_kept ?_ ?_ | (extract_lets +onlyGivenNames t; clear_value t)
    | extract_lets +onlyGivenNames t | (apply kept_mk; assumption) | apply modPart_kept | apply joinMember_kept
    | apply sendRouted_kept

theorem clearJob_kept {s p} (h : Kept q s) : Kept q (clearJob s p) := by
  unfold clearJob
  with_reducible repeat' first
    | assumption | intro _ | refine ite_kept ?_ ?_
    | (extract_lets +onlyGivenNames t; refine step_kept (q := q) (t := t) ?_ (fun _ => ?_); rotate_left; clear_value t; rotate_right; unfold t; clear t)
    | (extract_lets +onlyGivenNames t; clear_value t) | extract_lets +onlyGivenNames t
    | refine foldl_kept (fun _ _ _ => ?_) ?_ | (apply kept_mk; assumption) | apply modPart_kept | apply modStall_kept

theorem execJobStart_kept {src s} (h : Kept q s) : KeptO q (execJobStart src s) := by
  unfold execJobStart
  with_reducible repeat' first
    | assumption | intro _ | refine ite_kept ?_ ?_ | extract_lets +onlyGivenNames t | apply next_kept
    | apply reply_kept | apply wait_kept | apply clearJob_kept | apply joinGroup_kept | apply runVoted_kept
    | apply bodyOk_kept | apply bodySay_kept | apply draw_kept | split | (refine snd_kept (by assumption) ?_)

theorem execJobEnd_kept {src s} (h : Kept q s) : KeptO q (execJobEnd src s) := by
  unfold execJobEnd
  with_reducible repeat' first
    | assumption | intro _ | refine ite_kept ?_ ?_ | (extract_lets +onlyGivenNames t; clear_value t)
    | extract_lets +onlyGivenNames t | apply next_kept | apply reply_kept | apply wait_kept | apply modPart_kept
    | apply jobEnds_kept | apply runVoted_kept | apply bodyOk_kept | apply bodySay_kept | split

/-! ## Held -/

theorem committedPut_kept {p s a bs} (h : Kept q s) : Kept q (committedPut p s a bs) := by
  unfold committedPut
  with_reducible repeat' first
    | assumption | intro _ | refine foldl_kept (fun _ _ _ => ?_) ?_ | apply homeWrite_kept | apply spadPut_kept
    | split

theorem applyItem_kept {s p h1} (h : Kept q s) : Kept q (applyItem s p h1) := by
  unfold applyItem
  with_reducible repeat' first
    | assumption | refine ite_kept ?_ ?_ | extract_lets +onlyGivenNames t | apply applyCount_kept
    | apply applyToken_kept | apply committedPut_kept

theorem applyCommit_kept {s p t} (h : Kept q s) : Kept q (applyCommit s p t) := by
  unfold applyCommit
  with_reducible repeat' first
    | assumption | intro _ | refine ite_kept ?_ ?_ | extract_lets +onlyGivenNames t
    | refine foldl_kept (fun _ _ _ => ?_) ?_ | apply modPart_kept | apply applyItem_kept | apply freeLedger_kept
    | apply settleLoose_kept

theorem applyCommits_kept {s p} (h : Kept q s) : Kept q (applyCommits s p) := by
  unfold applyCommits
  with_reducible repeat' first
    | assumption | intro _ | refine foldl_kept (fun _ _ _ => ?_) ?_ | apply applyCommit_kept

theorem resumeReads_kept {s p} (h : Kept q s) : Kept q (resumeReads s p) := by
  unfold resumeReads
  with_reducible repeat' first
    | assumption | refine ite_kept ?_ ?_ | apply answerLate_kept | apply dpResume_kept | apply pumpCopies_kept
    | apply serveAll_kept

theorem afterCommit_kept {s p} (h : Kept q s) : Kept q (afterCommit s p) := by
  unfold afterCommit
  with_reducible repeat' first
    | assumption | intro _
    | (extract_lets +onlyGivenNames t; refine step_kept (q := q) (t := t) ?_ (fun _ => ?_); rotate_left; clear_value t; rotate_right; unfold t; clear t)
    | extract_lets +onlyGivenNames t | apply modFn_kept | apply modPart_kept | apply applyCommits_kept
    | apply resumeReads_kept | apply runDiscards_kept | apply serveAll_kept | apply settleLogs_kept

end Sys2Proof.Machine
end

