-- ==== Sys2Proof/Laws/Kept6.lean ====
section
/-! SUPPORT. What every operation keeps (Laws/Kept): the definitions of Machine/Bell, Sessions, Kernel, Cores. -/

set_option linter.tactic.unusedName false

namespace Sys2Proof.Machine

variable {q : Fixed}

/-! ## Bell -/

theorem domainBell_kept {s p n d} (h : Kept q s) : Kept q (domainBell s p n d) := by
  unfold domainBell
  with_reducible repeat' first
    | assumption | intro _ | refine ite_kept ?_ ?_ | (extract_lets +onlyGivenNames t; clear_value t)
    | extract_lets +onlyGivenNames t | apply modDom_kept | apply modPart_kept | apply btdAdd_kept
    | apply closeStretch_kept | apply recoveryEvent_kept | apply stretchTicks_kept | apply syncTicks_kept

theorem takeBellTicks_kept {s p} (h : Kept q s) : Kept q (takeBellTicks s p) := by
  unfold takeBellTicks
  with_reducible repeat' first
    | assumption | intro _ | refine foldl_kept (fun _ _ _ => ?_) ?_ | apply domainBell_kept | apply emptyModules_kept

theorem sumEvents_kept {s p} (h : Kept q s) : Kept q (sumEvents s p) := by
  unfold sumEvents
  with_reducible repeat' first
    | assumption | intro _
    | (extract_lets +onlyGivenNames t; refine step_kept (q := q) (t := t) ?_ (fun _ => ?_); rotate_left; clear_value t; rotate_right; unfold t; clear t)
    | (extract_lets +onlyGivenNames t; clear_value t) | extract_lets +onlyGivenNames t
    | refine foldl_kept (fun _ _ _ => ?_) ?_ | apply modPart_kept | apply closeLost_kept | apply closeStretch_kept
    | apply trace_kept

theorem traceBell_kept {s p replay} (h : Kept q s) : Kept q (traceBell s p replay) := by
  unfold traceBell
  with_reducible repeat' first
    | assumption | intro _ | (extract_lets +onlyGivenNames t; clear_value t) | extract_lets +onlyGivenNames t
    | refine foldl_kept (fun _ _ _ => ?_) ?_ | apply trace_kept

theorem checkWcet_kept {s p} (h : Kept q s) : Kept q (checkWcet s p) := by
  unfold checkWcet
  with_reducible repeat' first
    | assumption | intro _ | (extract_lets +onlyGivenNames t; clear_value t) | extract_lets +onlyGivenNames t
    | apply modPart_kept

theorem countBell_kept {s p} (h : Kept q s) : Kept q (countBell s p) := by
  unfold countBell
  with_reducible repeat' first
    | assumption | intro _ | extract_lets +onlyGivenNames t | apply modPart_kept

theorem finalCommit_kept {s p} (h : Kept q s) : Kept q (finalCommit s p) := by
  unfold finalCommit
  with_reducible repeat' first
    | assumption | intro _
    | (extract_lets +onlyGivenNames t; refine step_kept (q := q) (t := t) ?_ (fun _ => ?_); rotate_left; clear_value t; rotate_right; unfold t; clear t)
    | (extract_lets +onlyGivenNames t; clear_value t) | extract_lets +onlyGivenNames t | apply modPart_kept
    | apply afterCommit_kept | apply commitLines_kept

theorem setStage_kept {s p n} (h : Kept q s) : Kept q (setStage s p n) := by
  unfold setStage
  with_reducible repeat' first
    | assumption | intro _ | extract_lets +onlyGivenNames t | apply modPart_kept

theorem sendCommit_kept {s p} (h : Kept q s) : Kept q (sendCommit s p) := by
  unfold sendCommit
  with_reducible repeat' first
    | assumption | intro _ | extract_lets +onlyGivenNames t | apply modPart_kept | apply flood_kept

theorem splitJob_kept {s p} (h : Kept q s) : Kept q (splitJob s p) := by
  unfold splitJob
  with_reducible repeat' first
    | assumption | intro _
    | (extract_lets +onlyGivenNames t; refine step_kept (q := q) (t := t) ?_ (fun _ => ?_); rotate_left; clear_value t; rotate_right; unfold t; clear t)
    | extract_lets +onlyGivenNames t | apply modPart_kept | apply discardUnit_kept | apply logContained_kept
    | apply partEvent_kept | apply stopJob_kept

theorem linkLoss_kept {s p} (h : Kept q s) : KeptOS q (linkLoss s p) := by
  unfold linkLoss
  with_reducible repeat' first
    | assumption | intro _ | refine ite_kept ?_ ?_ | (extract_lets +onlyGivenNames t; clear_value t)
    | extract_lets +onlyGivenNames t | apply endJob_kept | apply splitJob_kept | exact none_keptOS | apply some_keptOS
    | split

theorem fenceSwitch_kept {s p} (h : Kept q s) : Kept q (fenceSwitch s p) := by
  unfold fenceSwitch
  with_reducible repeat' first
    | assumption | refine ite_kept ?_ ?_ | apply contained_kept

theorem groupMask_kept {s p k} (h : Kept q s) : Kept q (groupMask s p k) := by
  unfold groupMask
  with_reducible repeat' first
    | assumption | intro _
    | (extract_lets +onlyGivenNames t; refine step_kept (q := q) (t := t) ?_ (fun _ => ?_); rotate_left; clear_value t; rotate_right; unfold t; clear t)
    | (extract_lets +onlyGivenNames t; clear_value t) | extract_lets +onlyGivenNames t
    | refine foldl_kept (fun _ _ _ => ?_) ?_ | apply modPart_kept | apply flood_kept

theorem preparePower_kept {s p phase} (h : Kept q s) : Kept q (preparePower s p phase) := by
  unfold preparePower
  with_reducible repeat' first
    | assumption | intro _ | refine ite_kept ?_ ?_ | extract_lets +onlyGivenNames t | apply modPart_kept
    | apply earlyExchange_kept | apply groupMask_kept | apply startGlides_kept

theorem switchBank_kept {s p toggle} (h : Kept q s) : Kept q (switchBank s p toggle) := by
  unfold switchBank
  with_reducible repeat' first
    | assumption | intro _ | extract_lets +onlyGivenNames t | refine foldl_kept (fun _ _ _ => ?_) ?_
    | apply modStall_kept | apply emptyEngines_kept

theorem pageStage_kept {s p} (h : Kept q s) : Kept q (pageStage s p) := by
  unfold pageStage
  with_reducible repeat' first
    | assumption | intro _ | refine ite_kept ?_ ?_ | extract_lets +onlyGivenNames t | apply modPart_kept
    | apply tryStart_kept

theorem moveTo_kept {s p b} (h : Kept q s) : Kept q (moveTo s p b) := by
  unfold moveTo
  with_reducible repeat' first
    | assumption | intro _ | refine ite_kept ?_ ?_ | apply modPart_kept

theorem restEpoch_kept {s p} (h : Kept q s) : Kept q (restEpoch s p) := by
  unfold restEpoch
  with_reducible repeat' first
    | assumption | intro _ | extract_lets +onlyGivenNames t | apply modPart_kept

theorem linkedStep_kept {s p} (h : Kept q s) : Kept q (linkedStep s p) := by
  unfold linkedStep
  with_reducible repeat' first
    | assumption | intro _ | refine ite_kept ?_ ?_ | (extract_lets +onlyGivenNames t; clear_value t)
    | extract_lets +onlyGivenNames t | apply modPart_kept | apply markRunning_kept | apply stillReady_kept | split

theorem endStep_kept {s p results} (h : Kept q s) : Kept q (endStep s p results) := by
  unfold endStep
  with_reducible repeat' first
    | assumption | intro _ | refine ite_kept ?_ ?_ | extract_lets +onlyGivenNames t | apply modPart_kept
    | apply endServe_kept | apply finishBatch_kept | apply linkedStep_kept

theorem endRun_kept {s p r} (h : Kept q s) : Kept q (endRun s p r) := by
  unfold endRun
  with_reducible repeat' first
    | assumption | intro _
    | (extract_lets +onlyGivenNames t; refine step_kept (q := q) (t := t) ?_ (fun _ => ?_); rotate_left; clear_value t; rotate_right; unfold t; clear t)
    | extract_lets +onlyGivenNames t | apply modPart_kept | apply entryDone_kept | apply entryFail_kept
    | apply signal_kept | split | (refine fst_kept (by assumption) ?_)

theorem advanceRun_kept {s p results} (h : Kept q s) : Kept q (advanceRun s p results) := by
  unfold advanceRun
  with_reducible repeat' first
    | assumption | refine ite_kept ?_ ?_ | apply endRun_kept | apply endStep_kept | apply moveTo_kept | split

theorem bellPoint_kept {s p ok} (h : Kept q s) : Kept q (bellPoint s p ok) := by
  unfold bellPoint
  with_reducible repeat' first
    | assumption | refine ite_kept ?_ ?_ | apply haltAtPoint_kept | apply pointReached_kept

theorem nextEpoch_kept {s p} (h : Kept q s) : Kept q (nextEpoch s p) := by
  unfold nextEpoch
  with_reducible repeat' first
    | assumption | refine ite_kept ?_ ?_
    | (extract_lets +onlyGivenNames t; refine step_kept (q := q) (t := t) ?_ (fun _ => ?_); rotate_left; clear_value t; rotate_right; unfold t; clear t)
    | extract_lets +onlyGivenNames t | apply keepParts_kept | apply pageStage_kept | apply preparePower_kept
    | apply restEpoch_kept | apply setStage_kept | apply switchBank_kept | split

theorem stepResults_kept {s p} (h : Kept q s) : Kept q (stepResults s p).1 := by
  unfold stepResults
  with_reducible repeat' first
    | assumption | intro _ | refine ite_kept ?_ ?_ | (extract_lets +onlyGivenNames t; clear_value t)
    | extract_lets +onlyGivenNames t | apply readResults_kept | split

theorem settleWith_kept {s p results} (h : Kept q s) : Kept q (settleWith s p results) := by
  unfold settleWith
  with_reducible repeat' first
    | assumption | intro _ | refine ite_kept ?_ ?_
    | (extract_lets +onlyGivenNames t; refine step_kept (q := q) (t := t) ?_ (fun _ => ?_); rotate_left; clear_value t; rotate_right; unfold t; clear t)
    | (extract_lets +onlyGivenNames t; clear_value t) | extract_lets +onlyGivenNames t
    | refine foldl_kept (fun _ _ _ => ?_) ?_ | apply modStall_kept | apply advanceRun_kept | apply applyBoost_kept
    | apply applyKeys_kept | apply bellPoint_kept | apply checkWcet_kept | apply fenceSwitch_kept
    | apply nextEpoch_kept | apply sumEvents_kept | apply takeBellTicks_kept | apply traceBell_kept | split

theorem settleStage_kept {s p} (h : Kept q s) : Kept q (settleStage s p) := by
  unfold settleStage
  with_reducible repeat' first
    | assumption | intro _ | refine ite_kept ?_ ?_ | extract_lets +onlyGivenNames t | apply settleWith_kept
    | apply stepResults_kept

theorem beginRefill_kept {s p page} (h : Kept q s) : Kept q (beginRefill s p page) := by
  unfold beginRefill
  with_reducible repeat' first
    | assumption | intro _
    | (extract_lets +onlyGivenNames t; refine step_kept (q := q) (t := t) ?_ (fun _ => ?_); rotate_left; clear_value t; rotate_right; unfold t; clear t)
    | extract_lets +onlyGivenNames t | apply modPart_kept | apply partEvent_kept | apply restEpoch_kept

theorem replayBell_kept {s p} (h : Kept q s) : Kept q (replayBell s p) := by
  unfold replayBell
  with_reducible repeat' first
    | assumption | intro _ | refine ite_kept ?_ ?_
    | (extract_lets +onlyGivenNames t; refine step_kept (q := q) (t := t) ?_ (fun _ => ?_); rotate_left; clear_value t; rotate_right; unfold t; clear t)
    | extract_lets +onlyGivenNames t | refine foldl_kept (fun _ _ _ => ?_) ?_ | apply modPart_kept
    | apply applyBoost_kept | apply beginRefill_kept | apply closeLost_kept | apply closeStretch_kept
    | apply contained_kept | apply countBell_kept | apply discardChecked_kept | apply endJob_kept
    | apply fenceSwitch_kept | apply pageStage_kept | apply preparePower_kept | apply recoveryEvent_kept
    | apply runDiscards_kept | apply serveAll_kept | apply setStage_kept | apply settleLogs_kept
    | apply switchBank_kept | apply takeBellTicks_kept | apply traceBell_kept | split

theorem appliedStage_kept {s p} (h : Kept q s) : Kept q (appliedStage s p) := by
  unfold appliedStage
  with_reducible repeat' first
    | assumption | intro _ | refine ite_kept ?_ ?_ | apply setStage_kept | apply settleStage_kept

theorem makeFinal_kept {s p linked} (h : Kept q s) : Kept q (makeFinal s p linked) := by
  unfold makeFinal
  with_reducible repeat' first
    | assumption | intro _ | refine ite_kept ?_ ?_
    | (extract_lets +onlyGivenNames t; refine step_kept (q := q) (t := t) ?_ (fun _ => ?_); rotate_left; clear_value t; rotate_right; unfold t; clear t)
    | extract_lets +onlyGivenNames t | apply modPart_kept | apply appliedStage_kept | apply countBell_kept
    | apply finalCommit_kept | apply flood_kept | apply setStage_kept | apply settleStage_kept

theorem voteStage_kept {s p} (h : Kept q s) : Kept q (voteStage s p) := by
  unfold voteStage
  with_reducible repeat' first
    | assumption | intro _ | refine ite_kept ?_ ?_ | extract_lets +onlyGivenNames t | apply makeFinal_kept
    | apply replayBell_kept

theorem beginBell_kept {s p} (h : Kept q s) : Kept q (beginBell s p) := by
  unfold beginBell
  with_reducible repeat' first
    | assumption | intro _ | refine ite_kept ?_ ?_
    | (extract_lets +onlyGivenNames t; refine step_kept (q := q) (t := t) ?_ (fun _ => ?_); rotate_left; clear_value t; rotate_right; unfold t; clear t)
    | (extract_lets +onlyGivenNames t; clear_value t) | extract_lets +onlyGivenNames t | apply modPart_kept
    | apply contained_kept | apply flood_kept | apply learnPhase_kept | apply replayBell_kept | apply sendCommit_kept
    | apply sendStaged_kept | apply setStage_kept | apply voteStage_kept | split

theorem execBell_kept {p s} (h : Kept q s) : KeptO q (execBell p s) := by
  unfold execBell
  with_reducible repeat' first
    | assumption | refine ite_kept ?_ ?_ | (extract_lets +onlyGivenNames t; clear_value t)
    | extract_lets +onlyGivenNames t | apply next_kept | apply appliedStage_kept | apply beginBell_kept
    | apply pageStage_kept | apply settleStage_kept | apply voteStage_kept | apply linkLoss_kept | exact none_keptOS
    | split | (refine some_kept (by assumption) ?_)

theorem execStageBell_kept {p s} (h : Kept q s) : KeptO q (execStageBell p s) := by
  unfold execStageBell
  with_reducible repeat' first
    | assumption | intro _ | refine ite_kept ?_ ?_
    | (extract_lets +onlyGivenNames t; refine step_kept (q := q) (t := t) ?_ (fun _ => ?_); rotate_left; clear_value t; rotate_right; unfold t; clear t)
    | extract_lets +onlyGivenNames t | apply next_kept | refine foldl_kept (fun _ _ _ => ?_) ?_ | apply modPart_kept
    | apply closeLost_kept | apply closeStretch_kept | apply countBell_kept | apply discardChecked_kept
    | apply recoveryEvent_kept | apply runDiscards_kept | apply serveAll_kept | apply switchBank_kept
    | apply takeBellTicks_kept | apply tryStart_kept

/-! ## Sessions -/

theorem execSessionOpen_kept {src s} (h : Kept q s) : KeptO q (execSessionOpen src s) := by
  unfold execSessionOpen
  with_reducible repeat' first
    | assumption | intro _ | refine ite_kept ?_ ?_
    | (extract_lets +onlyGivenNames t; refine step_kept (q := q) (t := t) ?_ (fun _ => ?_); rotate_left; clear_value t; rotate_right; unfold t; clear t)
    | (extract_lets +onlyGivenNames t; clear_value t) | extract_lets +onlyGivenNames t | apply next_kept
    | apply reply_kept | apply wait_kept | apply runVoted_kept | apply sesWrite_kept | apply useSessions_kept
    | apply bodyOk_kept | apply bodyParam_kept | apply bodySay_kept | apply sesUse_kept | split
    | (refine fst_kept (by assumption) ?_)

theorem appendTo_kept {s k i e} (h : Kept q s) : KeptB q (appendTo s k i e) := by
  unfold appendTo
  with_reducible repeat' first
    | assumption | intro _ | refine ite_kept ?_ ?_ | (extract_lets +onlyGivenNames t; clear_value t)
    | extract_lets +onlyGivenNames t | apply reply_kept | apply wait_kept | apply modPart_kept | apply sesWrite_kept
    | apply bodyOk_kept | apply bodySay_kept | split

theorem execSessionAppend_kept {src s} (h : Kept q s) : KeptO q (execSessionAppend src s) := by
  unfold execSessionAppend
  with_reducible repeat' first
    | assumption | intro _ | refine ite_kept ?_ ?_ | (extract_lets +onlyGivenNames t; clear_value t)
    | extract_lets +onlyGivenNames t | apply next_kept | apply reply_kept | apply wait_kept | apply runVoted_kept
    | apply useSessions_kept | apply bodyParam_kept | apply bodySay_kept | apply appendTo_kept | apply sesUse_kept
    | split | (refine fst_kept (by assumption) ?_)

theorem execSessionClose_kept {src s} (h : Kept q s) : KeptO q (execSessionClose src s) := by
  unfold execSessionClose
  with_reducible repeat' first
    | assumption | intro _ | refine ite_kept ?_ ?_ | (extract_lets +onlyGivenNames t; clear_value t)
    | extract_lets +onlyGivenNames t | apply next_kept | apply reply_kept | apply wait_kept | apply runVoted_kept
    | apply sesClear_kept | apply bodyOk_kept | apply bodySay_kept | apply sesUse_kept | split
    | (refine fst_kept (by assumption) ?_)

theorem execSessionQuery_kept {src s} (h : Kept q s) : KeptO q (execSessionQuery src s) := by
  unfold execSessionQuery
  with_reducible repeat' first
    | assumption | intro _ | refine ite_kept ?_ ?_
    | (extract_lets +onlyGivenNames t; refine step_kept (q := q) (t := t) ?_ (fun _ => ?_); rotate_left; clear_value t; rotate_right; unfold t; clear t)
    | (extract_lets +onlyGivenNames t; clear_value t) | extract_lets +onlyGivenNames t | apply next_kept
    | apply reply_kept | apply wait_kept | apply runVoted_kept | apply bodyParam_kept | apply bodySay_kept
    | apply sesUse_kept | split

theorem execServe_kept {p s} (h : Kept q s) : KeptO q (execServe p s) := by
  unfold execServe
  with_reducible repeat' first
    | assumption | intro _ | refine ite_kept ?_ ?_ | extract_lets +onlyGivenNames t | apply next_kept
    | apply modPart_kept | apply modQueue_kept | apply entryFail_kept | apply refuseField_kept | apply runEntry_kept

theorem startStep_kept {s p n v batch} (h : Kept q s) : Kept q (startStep s p n v batch) := by
  unfold startStep
  with_reducible repeat' first
    | assumption | intro _
    | (extract_lets +onlyGivenNames t; refine step_kept (q := q) (t := t) ?_ (fun _ => ?_); rotate_left; clear_value t; rotate_right; unfold t; clear t)
    | (extract_lets +onlyGivenNames t; clear_value t) | extract_lets +onlyGivenNames t | apply modPart_kept
    | apply markRunning_kept | apply startRun_kept

theorem noBatch_kept {s p} (h : Kept q s) : Kept q (noBatch s p) := by
  unfold noBatch
  with_reducible repeat' first
    | assumption | intro _ | refine ite_kept ?_ ?_ | extract_lets +onlyGivenNames t | apply modPart_kept
    | apply endServe_kept | apply pointReached_kept

theorem serveFails_kept {s p e} (h : Kept q s) : Kept q (serveFails s p e) := by
  unfold serveFails
  with_reducible repeat' first
    | assumption | intro _ | extract_lets +onlyGivenNames t | apply modPart_kept | apply entryFail_kept

theorem runGathered_kept {s p g} (h : Kept q s) : Kept q (runGathered s p g) := by
  unfold runGathered
  with_reducible repeat' first
    | assumption | intro _
    | (extract_lets +onlyGivenNames t; refine step_kept (q := q) (t := t) ?_ (fun _ => ?_); rotate_left; clear_value t; rotate_right; unfold t; clear t)
    | (extract_lets +onlyGivenNames t; clear_value t) | extract_lets +onlyGivenNames t | apply keepGathered_kept
    | apply noBatch_kept | apply serveFails_kept | apply startStep_kept | apply writeRecord_kept | split
    | (refine fst_kept (by assumption) ?_)

theorem firstStep_kept {s p} (h : Kept q s) : Kept q (firstStep s p) := by
  unfold firstStep
  with_reducible repeat' first
    | assumption | apply serveFails_kept | apply startStep_kept | apply writeRecord_kept | split
    | (refine fst_kept (by assumption) ?_)

theorem execSessionStep_kept {p s} (h : Kept q s) : KeptO q (execSessionStep p s) := by
  unfold execSessionStep
  with_reducible repeat' first
    | assumption | refine ite_kept ?_ ?_ | extract_lets +onlyGivenNames t | apply next_kept | apply firstStep_kept
    | apply runGathered_kept | apply gather_kept

theorem execQueueResume_kept {src s} (h : Kept q s) : KeptO q (execQueueResume src s) := by
  unfold execQueueResume
  with_reducible repeat' first
    | assumption | intro _ | refine ite_kept ?_ ?_ | apply next_kept | apply reply_kept | apply wait_kept
    | refine foldl_kept (fun _ _ _ => ?_) ?_ | apply modQueue_kept | apply runVoted_kept | apply tryStart_kept
    | apply bodyOk_kept | apply bodyParam_kept | split

theorem resumeJob_kept {s p} (h : Kept q s) : Kept q (resumeJob s p) := by
  unfold resumeJob
  with_reducible repeat' first
    | assumption | intro _ | refine ite_kept ?_ ?_ | extract_lets +onlyGivenNames t
    | refine foldl_kept (fun _ _ _ => ?_) ?_ | apply modPart_kept | apply modStall_kept | apply contained_kept
    | apply partEvent_kept | apply pumpCopies_kept | apply tryStart_kept

theorem execPartitionSetLease_kept {src s} (h : Kept q s) : KeptO q (execPartitionSetLease src s) := by
  unfold execPartitionSetLease
  with_reducible repeat' first
    | assumption | intro _ | refine ite_kept ?_ ?_
    | (extract_lets +onlyGivenNames t; refine step_kept (q := q) (t := t) ?_ (fun _ => ?_); rotate_left; clear_value t; rotate_right; unfold t; clear t)
    | (extract_lets +onlyGivenNames t; clear_value t) | extract_lets +onlyGivenNames t | apply next_kept
    | apply reply_kept | apply wait_kept | apply modPart_kept | apply resumeJob_kept | apply runVoted_kept
    | apply bodyOk_kept | apply bodyParam_kept | apply bodySay_kept | split

theorem execLeaseExpiry_kept {p s} (h : Kept q s) : KeptO q (execLeaseExpiry p s) := by
  unfold execLeaseExpiry
  with_reducible repeat' first
    | assumption | intro _ | refine ite_kept ?_ ?_
    | (extract_lets +onlyGivenNames t; refine step_kept (q := q) (t := t) ?_ (fun _ => ?_); rotate_left; clear_value t; rotate_right; unfold t; clear t)
    | (extract_lets +onlyGivenNames t; clear_value t) | extract_lets +onlyGivenNames t | apply next_kept
    | apply modPart_kept | apply preempt_kept

theorem execGraceExpiry_kept {p s} (h : Kept q s) : KeptO q (execGraceExpiry p s) := by
  unfold execGraceExpiry
  with_reducible repeat' first
    | assumption | refine ite_kept ?_ ?_ | (extract_lets +onlyGivenNames t; clear_value t)
    | extract_lets +onlyGivenNames t | apply next_kept | apply logContained_kept | apply partEvent_kept
    | apply resetPart_kept

/-! ## Kernel -/

theorem startGroups_kept {s p} (h : Kept q s) : Kept q (startGroups s p) := by
  unfold startGroups
  with_reducible repeat' first
    | assumption | intro _
    | (extract_lets +onlyGivenNames t; refine step_kept (q := q) (t := t) ?_ (fun _ => ?_); rotate_left; clear_value t; rotate_right; unfold t; clear t)
    | (extract_lets +onlyGivenNames t; clear_value t) | extract_lets +onlyGivenNames t
    | refine foldl_kept (fun _ _ _ => ?_) ?_ | (apply kept_mk; assumption) | apply modPart_kept | apply modStall_kept

theorem endGroup_kept {s g} (h : Kept q s) : Kept q (endGroup s g) := by
  unfold endGroup
  with_reducible repeat' first
    | assumption | intro _ | refine ite_kept ?_ ?_ | (extract_lets +onlyGivenNames t; clear_value t)
    | extract_lets +onlyGivenNames t | apply modGroup_kept | apply modPart_kept | split | apply kept_mk

theorem startKernel_kept {s p k} (h : Kept q s) : Kept q (startKernel s p k) := by
  unfold startKernel
  with_reducible repeat' first
    | assumption | intro _
    | (extract_lets +onlyGivenNames t; refine step_kept (q := q) (t := t) ?_ (fun _ => ?_); rotate_left; clear_value t; rotate_right; unfold t; clear t)
    | (extract_lets +onlyGivenNames t; clear_value t) | extract_lets +onlyGivenNames t
    | refine foldl_kept (fun _ _ _ => ?_) ?_ | apply modPart_kept | apply modStall_kept | apply startGroups_kept

theorem execLaunch_kept {p s} (h : Kept q s) : KeptO q (execLaunch p s) := by
  unfold execLaunch
  with_reducible repeat' first
    | assumption | intro _ | refine ite_kept ?_ ?_ | apply next_kept | apply modQueue_kept | apply beginWait_kept
    | apply entryFail_kept | apply failAddress_kept | apply refuseField_kept | apply runEntry_kept
    | apply startKernel_kept | split

theorem endKernel_kept {s p} (h : Kept q s) : Kept q (endKernel s p) := by
  unfold endKernel
  with_reducible repeat' first
    | assumption | intro _
    | (extract_lets +onlyGivenNames t; refine step_kept (q := q) (t := t) ?_ (fun _ => ?_); rotate_left; clear_value t; rotate_right; unfold t; clear t)
    | (extract_lets +onlyGivenNames t; clear_value t) | extract_lets +onlyGivenNames t | apply modPart_kept
    | apply entryDone_kept | apply entryFail_kept | apply timeKernel_kept | apply queueWrite_kept | apply signal_kept
    | split | (refine fst_kept (by assumption) ?_)

theorem kernelPoint_kept {s p} (h : Kept q s) : Kept q (kernelPoint s p) := by
  unfold kernelPoint
  with_reducible repeat' first
    | assumption | refine ite_kept ?_ ?_ | extract_lets +onlyGivenNames t | apply applyBoost_kept
    | apply applyKeys_kept | apply contained_kept | apply pointReached_kept

theorem finalKernel_kept {s p} (h : Kept q s) : Kept q (finalKernel s p) := by
  unfold finalKernel
  with_reducible repeat' first
    | assumption | intro _
    | (extract_lets +onlyGivenNames t; refine step_kept (q := q) (t := t) ?_ (fun _ => ?_); rotate_left; clear_value t; rotate_right; unfold t; clear t)
    | extract_lets +onlyGivenNames t | apply modPart_kept | apply afterCommit_kept | apply commitLines_kept

theorem commitStage_kept {s p} (h : Kept q s) : Kept q (commitStage s p) := by
  unfold commitStage
  with_reducible repeat' first
    | assumption | intro _ | refine ite_kept ?_ ?_ | extract_lets +onlyGivenNames t | apply endKernel_kept
    | apply finalKernel_kept | apply kernelPoint_kept

theorem restartKernel_kept {s p} (h : Kept q s) : Kept q (restartKernel s p) := by
  unfold restartKernel
  with_reducible repeat' first
    | assumption | intro _
    | (extract_lets +onlyGivenNames t; refine step_kept (q := q) (t := t) ?_ (fun _ => ?_); rotate_left; clear_value t; rotate_right; unfold t; clear t)
    | extract_lets +onlyGivenNames t | apply modPart_kept | apply startGroups_kept

theorem replayKernel_kept {s p} (h : Kept q s) : Kept q (replayKernel s p) := by
  unfold replayKernel
  with_reducible repeat' first
    | assumption | intro _ | refine ite_kept ?_ ?_
    | (extract_lets +onlyGivenNames t; refine step_kept (q := q) (t := t) ?_ (fun _ => ?_); rotate_left; clear_value t; rotate_right; unfold t; clear t)
    | extract_lets +onlyGivenNames t | apply modPart_kept | apply modQueue_kept | apply contained_kept
    | apply discardChecked_kept | apply discardUnit_kept | apply endJob_kept | apply entryFail_kept
    | apply partEvent_kept | apply restartKernel_kept | apply runDiscards_kept | apply serveAll_kept
    | apply timeKernel_kept | apply queueWrite_kept | split

theorem execLaunchCommit_kept {p s} (h : Kept q s) : KeptO q (execLaunchCommit p s) := by
  unfold execLaunchCommit
  with_reducible repeat' first
    | assumption | intro _ | refine ite_kept ?_ ?_
    | (extract_lets +onlyGivenNames t; refine step_kept (q := q) (t := t) ?_ (fun _ => ?_); rotate_left; clear_value t; rotate_right; unfold t; clear t)
    | (extract_lets +onlyGivenNames t; clear_value t) | extract_lets +onlyGivenNames t | apply next_kept
    | apply modPart_kept | apply commitStage_kept | apply replayKernel_kept | apply sendCommit_kept
    | apply sendStaged_kept

theorem execWatchdogExpiry_kept {p s} (h : Kept q s) : KeptO q (execWatchdogExpiry p s) := by
  unfold execWatchdogExpiry
  with_reducible repeat' first
    | assumption | refine ite_kept ?_ ?_ | apply next_kept | apply kernelFault_kept

theorem execRefillDone_kept {p s} (h : Kept q s) : KeptO q (execRefillDone p s) := by
  unfold execRefillDone
  with_reducible repeat' first
    | assumption | intro _ | refine ite_kept ?_ ?_
    | (extract_lets +onlyGivenNames t; refine step_kept (q := q) (t := t) ?_ (fun _ => ?_); rotate_left; clear_value t; rotate_right; unfold t; clear t)
    | (extract_lets +onlyGivenNames t; clear_value t) | extract_lets +onlyGivenNames t | apply next_kept
    | apply modPart_kept | apply recoveryEvent_kept | apply restartKernel_kept | apply tryStart_kept

/-! ## Cores -/

theorem icFill_kept {s g line ws} (h : Kept q s) : Kept q (icFill s g line ws) := by
  unfold icFill
  with_reducible repeat' first
    | assumption | intro _ | extract_lets +onlyGivenNames t | apply modStall_kept

theorem fetchLine_kept {s p a reader} (h : Kept q s) : Kept q (fetchLine s p a reader).1 := by
  unfold fetchLine
  with_reducible repeat' first
    | assumption | refine ite_kept ?_ ?_
    | (extract_lets +onlyGivenNames t; refine step_kept (q := q) (t := t) ?_ (fun _ => ?_); rotate_left; clear_value t; rotate_right; unfold t; clear t)
    | extract_lets +onlyGivenNames t | apply askMemory_kept | apply lookUp_kept | split

theorem countFetch_kept {s p l t} (h : Kept q s) : Kept q (countFetch s p l t) := by
  unfold countFetch
  with_reducible repeat' first
    | assumption | refine ite_kept ?_ ?_ | extract_lets +onlyGivenNames t | apply access_kept | apply spendRead_kept

theorem readCode_kept {s p sys} (h : Kept q s) : Kept q (readCode s p sys).1 := by
  unfold readCode
  with_reducible repeat' first
    | assumption | refine ite_kept ?_ ?_ | (extract_lets +onlyGivenNames t; clear_value t)
    | extract_lets +onlyGivenNames t | apply fetchLine_kept | apply readSys_kept | split
    | (refine fst_kept (by assumption) ?_)

theorem checkIcache_kept {s g pc} (h : Kept q s) : Kept q (checkIcache s g pc) := by
  unfold checkIcache
  with_reducible repeat' first
    | assumption | refine ite_kept ?_ ?_ | apply icacheError_kept

theorem fetchWord_kept {s g w} (h : Kept q s) : Kept q (fetchWord s g w).1 := by
  unfold fetchWord
  with_reducible repeat' first
    | assumption | refine ite_kept ?_ ?_
    | (extract_lets +onlyGivenNames t; refine step_kept (q := q) (t := t) ?_ (fun _ => ?_); rotate_left; clear_value t; rotate_right; unfold t; clear t)
    | (extract_lets +onlyGivenNames t; clear_value t) | extract_lets +onlyGivenNames t | apply checkIcache_kept
    | apply countFetch_kept | apply icFill_kept | apply kernelFault_kept | apply recordFault_kept
    | apply readCode_kept | split | (refine fst_kept (by assumption) ?_)

theorem illegal_kept {s g} (h : Kept q s) : Kept q (illegal s g) := by
  unfold illegal
  with_reducible repeat' first
    | assumption | apply kernelFault_kept

theorem issued_kept {s g w act} (h : Kept q s) (hact : ∀ x0, Kept q x0 → Kept q (act x0)) :
    Kept q (issued s g w act) := by
  unfold issued
  with_reducible repeat' first
    | assumption | intro _ | refine ite_kept ?_ ?_ | extract_lets +onlyGivenNames t | apply modGroup_kept
    | apply registerError_kept | apply hact

theorem issue_kept {g w c act s} (hact : ∀ x0, Kept q x0 → Kept q (act x0)) (h1 : Kept q s) :
    KeptO q (issue g w c act s) := by
  unfold issue
  with_reducible repeat' first
    | assumption | refine ite_kept ?_ ?_ | apply next_kept | apply issued_kept | apply fetchWord_kept | apply hact
    | split | (refine fst_kept (by assumption) ?_)

theorem stepGroup_kept {s g f} (h : Kept q s) : Kept q (stepGroup s g f) := by
  unfold stepGroup
  with_reducible repeat' first
    | assumption | intro _ | refine ite_kept ?_ ?_ | apply modGroup_kept

theorem resume_kept {s g} (h : Kept q s) : Kept q (resume s g) := by
  unfold resume
  with_reducible repeat' first
    | assumption | intro _ | (extract_lets +onlyGivenNames t; clear_value t) | extract_lets +onlyGivenNames t
    | apply modGroup_kept | apply endGroup_kept | split

theorem pushThen_kept {s g e f} (h : Kept q s) : Kept q (pushThen s g e f) := by
  unfold pushThen
  with_reducible repeat' first
    | assumption | intro _ | refine ite_kept ?_ ?_ | extract_lets +onlyGivenNames t | apply modGroup_kept
    | apply kernelFault_kept

theorem execCtlNop_kept {g w s} (h : Kept q s) : KeptO q (execCtlNop g w s) := by
  unfold execCtlNop
  with_reducible repeat' first
    | assumption | intro _ | apply next_kept | apply stepGroup_kept | apply issue_kept

theorem execBra_kept {g w s} (h : Kept q s) : KeptO q (execBra g w s) := by
  unfold execBra
  with_reducible repeat' first
    | assumption | intro _ | apply next_kept | apply modGroup_kept | apply issue_kept

theorem execBru_kept {g w s} (h : Kept q s) : KeptO q (execBru g w s) := by
  unfold execBru
  with_reducible repeat' first
    | assumption | intro _ | refine ite_kept ?_ ?_ | apply next_kept | apply modGroup_kept | apply issue_kept

theorem execJset_kept {g w s} (h : Kept q s) : KeptO q (execJset g w s) := by
  unfold execJset
  with_reducible repeat' first
    | assumption | intro _ | (extract_lets +onlyGivenNames t; clear_value t) | extract_lets +onlyGivenNames t
    | apply next_kept | apply pushThen_kept | apply issue_kept

theorem execBrd_kept {g w s} (h : Kept q s) : KeptO q (execBrd g w s) := by
  unfold execBrd
  with_reducible repeat' first
    | assumption | intro _ | refine ite_kept ?_ ?_ | extract_lets +onlyGivenNames t | apply next_kept
    | apply modGroup_kept | apply pushThen_kept | apply stepGroup_kept | apply issue_kept

theorem leave_kept {s g} (h : Kept q s) : Kept q (leave s g) := by
  unfold leave
  with_reducible repeat' first
    | assumption | refine ite_kept ?_ ?_ | apply resume_kept | apply stepGroup_kept

theorem execBrk_kept {g w s} (h : Kept q s) : KeptO q (execBrk g w s) := by
  unfold execBrk
  with_reducible repeat' first
    | assumption | intro _ | apply next_kept | apply modGroup_kept | apply leave_kept | apply issue_kept

theorem execJoin_kept {g w s} (h : Kept q s) : KeptO q (execJoin g w s) := by
  unfold execJoin
  with_reducible repeat' first
    | assumption | intro _ | refine ite_kept ?_ ?_ | apply next_kept | apply illegal_kept | apply resume_kept
    | apply issue_kept

theorem execExit_kept {g w s} (h : Kept q s) : KeptO q (execExit g w s) := by
  unfold execExit
  with_reducible repeat' first
    | assumption | intro _ | apply next_kept | apply modGroup_kept | apply leave_kept | apply issue_kept

theorem execVectorInteger_kept {g w s} (h : Kept q s) : KeptO q (execVectorInteger g w s) := by
  unfold execVectorInteger
  with_reducible repeat' first
    | assumption | intro _ | apply next_kept | apply stepGroup_kept | apply issue_kept

theorem execVectorFloat_kept {g w s} (h : Kept q s) : KeptO q (execVectorFloat g w s) := by
  unfold execVectorFloat
  with_reducible repeat' first
    | assumption | intro _ | apply next_kept | apply stepGroup_kept | apply issue_kept

theorem execConversion_kept {g w s} (h : Kept q s) : KeptO q (execConversion g w s) := by
  unfold execConversion
  with_reducible repeat' first
    | assumption | intro _ | apply next_kept | apply stepGroup_kept | apply issue_kept

theorem execCompare_kept {g w s} (h : Kept q s) : KeptO q (execCompare g w s) := by
  unfold execCompare
  with_reducible repeat' first
    | assumption | intro _ | apply next_kept | apply stepGroup_kept | apply issue_kept

theorem execUniformInteger_kept {g w s} (h : Kept q s) : KeptO q (execUniformInteger g w s) := by
  unfold execUniformInteger
  with_reducible repeat' first
    | assumption | intro _ | apply next_kept | apply stepGroup_kept | apply issue_kept

theorem execSreg_kept {g w s} (h : Kept q s) : KeptO q (execSreg g w s) := by
  unfold execSreg
  with_reducible repeat' first
    | assumption | intro _ | apply next_kept | apply stepGroup_kept | apply issue_kept

theorem execClrf_kept {g w s} (h : Kept q s) : KeptO q (execClrf g w s) := by
  unfold execClrf
  with_reducible repeat' first
    | assumption | intro _ | apply next_kept | apply stepGroup_kept | apply issue_kept

theorem noteStore_kept {s g target address} (h : Kept q s) : Kept q (noteStore s g target address) := by
  unfold noteStore
  with_reducible repeat' first
    | assumption | intro _ | (extract_lets +onlyGivenNames t; clear_value t) | extract_lets +onlyGivenNames t
    | apply modPart_kept

theorem execFence_kept {g w s} (h : Kept q s) : KeptO q (execFence g w s) := by
  unfold execFence
  with_reducible repeat' first
    | assumption | intro _ | refine ite_kept ?_ ?_ | apply next_kept | apply stepGroup_kept | apply issue_kept

theorem leaveBarrier_kept {s g slots} (h : Kept q s) : Kept q (leaveBarrier s g slots) := by
  unfold leaveBarrier
  with_reducible repeat' first
    | assumption | intro _ | refine ite_kept ?_ ?_ | (apply kept_mk; assumption)

theorem setBarrier_kept {s g b v} (h : Kept q s) : Kept q (setBarrier s g b v) := by
  unfold setBarrier
  with_reducible repeat' first
    | assumption | intro _ | extract_lets +onlyGivenNames t | apply modStall_kept

theorem execBar_kept {g w s} (h : Kept q s) : KeptO q (execBar g w s) := by
  unfold execBar
  with_reducible repeat' first
    | assumption | intro _ | refine ite_kept ?_ ?_ | (extract_lets +onlyGivenNames t; clear_value t)
    | extract_lets +onlyGivenNames t | apply next_kept | apply modGroup_kept | apply kernelFault_kept
    | apply leaveBarrier_kept | apply setBarrier_kept | apply issue_kept

theorem execGmma_kept {g w s} (h : Kept q s) : KeptO q (execGmma g w s) := by
  unfold execGmma
  with_reducible repeat' first
    | assumption | intro _ | apply next_kept | apply stepGroup_kept | apply issue_kept

theorem execIllegalInstruction_kept {g w s} (h : Kept q s) : KeptO q (execIllegalInstruction g w s) := by
  unfold execIllegalInstruction
  with_reducible repeat' first
    | assumption | refine ite_kept ?_ ?_ | apply next_kept | apply illegal_kept | apply fetchWord_kept | split
    | (refine fst_kept (by assumption) ?_)

end Sys2Proof.Machine
end

