-- ==== Sys2Proof/Laws/Kept7.lean ====
section
/-! SUPPORT. What every operation keeps (Laws/Kept): the definitions of Machine/CoreMemory, LinkPorts, LinkItems. -/

set_option linter.tactic.unusedName false

namespace Sys2Proof.Machine

variable {q : Fixed}

/-! ## CoreMemory -/

theorem laneAccesses_kept {s p n align misDetail write memory a6} (h : Kept q s) :
    KeptEE q (laneAccesses s p n align misDetail write memory a6) := by
  induction a6 with
  | nil => exact ok_keptEE
  | cons x r ih =>
    unfold laneAccesses
    split
    · exact error_keptEE (kernelFault_kept h)
    · split
      · exact error_keptEE (kernelFault_kept (recordFault_kept h))
      · split
        · exact error_keptEE (kernelFault_kept h)
        · split
          · rename_i hr
            exact error_keptEE (ih _ hr)
          · exact ok_keptEE

theorem prepLine_kept {s p l a write} (h : Kept q s) : Kept q (prepLine s p l a write).1 := by
  unfold prepLine
  with_reducible repeat' first
    | assumption | refine ite_kept ?_ ?_ | (extract_lets +onlyGivenNames t; clear_value t)
    | extract_lets +onlyGivenNames t | apply arrive_kept | apply askRemote_kept | apply l1Error_kept
    | apply fetchLine_kept | split

theorem prepLines_kept {s p l write as} (h : Kept q s) : Kept q (prepLines s p l write as).1 := by
  unfold prepLines
  with_reducible repeat' first
    | assumption | intro _ | refine foldl_kept (fun _ _ _ => ?_) ?_ | refine foldl_fst_kept (fun _ _ _ => ?_) ?_
    | apply prepLine_kept | split | (refine fst_kept (by assumption) ?_)

theorem l1Last_kept {s l a} (h : Kept q s) : Kept q (l1Last s l a) := by
  unfold l1Last
  with_reducible repeat' first
    | assumption | intro _ | (apply kept_mk; assumption)

theorem loadLine_kept {s p l cls stream a} (h : Kept q s) : Kept q (loadLine s p l cls stream a) := by
  unfold loadLine
  with_reducible repeat' first
    | assumption | intro _ | refine ite_kept ?_ ?_ | extract_lets +onlyGivenNames t | apply modL1_kept
    | apply access_kept | apply deadRead_kept | apply downOwner_kept | apply enter_kept | apply l1Last_kept
    | apply l1Put_kept

theorem storeLine_kept {s p l cls stream a cells} (h : Kept q s) : Kept q (storeLine s p l cls stream a cells).1 := by
  unfold storeLine
  with_reducible repeat' first
    | assumption | intro _ | refine ite_kept ?_ ?_
    | (extract_lets +onlyGivenNames t; refine step_kept (q := q) (t := t) ?_ (fun _ => ?_); rotate_left; clear_value t; rotate_right; unfold t; clear t)
    | extract_lets +onlyGivenNames t | apply modL1_kept | apply modLine_kept | apply access_kept | apply dropL1s_kept
    | apply enter_kept | apply kernelFault_kept | apply l1Last_kept | apply l1Put_kept | apply markNonrepl_kept
    | apply markStaged_kept | apply noteTables_kept | apply unDead_kept | split

theorem askReads_kept {s p as} (h : Kept q s) : Kept q (askReads s p as) := by
  unfold askReads
  with_reducible repeat' first
    | assumption | intro _ | refine foldl_kept (fun _ _ _ => ?_) ?_ | refine foldl_fst_kept (fun _ _ _ => ?_) ?_
    | apply readSys_kept | split | (refine fst_kept (by assumption) ?_)

theorem takeReads_kept {s rs} (h : Kept q s) : Kept q (takeReads s rs) := by
  unfold takeReads
  with_reducible repeat' first
    | assumption | intro _ | (apply kept_mk; assumption)

theorem countHost_kept {s p as} (h : Kept q s) : Kept q (countHost s p as) := by
  unfold countHost
  with_reducible repeat' first
    | assumption | intro _ | refine ite_kept ?_ ?_ | extract_lets +onlyGivenNames t
    | refine foldl_kept (fun _ _ _ => ?_) ?_ | apply tallyAdd_kept

theorem checkSpads_kept {s p as} (h : Kept q s) : Kept q (checkSpads s p as) := by
  unfold checkSpads
  with_reducible repeat' first
    | assumption | intro _ | refine foldl_kept (fun _ _ _ => ?_) ?_ | apply checkSpadAt_kept

theorem loadAll_kept {s g w as} (h : Kept q s) : Kept q (loadAll s g w as) := by
  unfold loadAll
  with_reducible repeat' first
    | assumption | intro _ | refine ite_kept ?_ ?_
    | (extract_lets +onlyGivenNames t; refine step_kept (q := q) (t := t) ?_ (fun _ => ?_); rotate_left; clear_value t; rotate_right; unfold t; clear t)
    | (extract_lets +onlyGivenNames t; clear_value t) | extract_lets +onlyGivenNames t
    | refine foldl_kept (fun _ _ _ => ?_) ?_ | refine foldl_fst_kept (fun _ _ _ => ?_) ?_ | apply askReads_kept
    | apply checkSpads_kept | apply countHost_kept | apply kernelFault_kept | apply loadLine_kept
    | apply stepGroup_kept | apply takeReads_kept | apply prepLines_kept | split
    | (refine fst_kept (by assumption) ?_)

theorem execLd_kept {g w s} (h : Kept q s) : KeptO q (execLd g w s) := by
  unfold execLd
  with_reducible repeat' first
    | assumption | intro _ | (extract_lets +onlyGivenNames t; clear_value t) | extract_lets +onlyGivenNames t
    | apply next_kept | apply loadAll_kept | apply issue_kept | apply laneAccesses_kept | split
    | (refine err_kept (by assumption) ?_)

theorem storeHost_kept {s p g a cells} (h : Kept q s) : Kept q (storeHost s p g a cells).1 := by
  unfold storeHost
  with_reducible repeat' first
    | assumption | intro _
    | (extract_lets +onlyGivenNames t; refine step_kept (q := q) (t := t) ?_ (fun _ => ?_); rotate_left; clear_value t; rotate_right; unfold t; clear t)
    | (extract_lets +onlyGivenNames t; clear_value t) | extract_lets +onlyGivenNames t
    | refine foldl_kept (fun _ _ _ => ?_) ?_ | refine foldl_fst_kept (fun _ _ _ => ?_) ?_ | apply modLine_kept
    | apply kernelFault_kept | apply markNonrepl_kept | apply noteStore_kept | apply sendHost_kept
    | apply writeUnit_kept | split

theorem storeDirect_kept {s p g a cells} (h : Kept q s) : Kept q (storeDirect s p g a cells) := by
  unfold storeDirect
  with_reducible repeat' first
    | assumption | intro _ | refine foldl_kept (fun _ _ _ => ?_) ?_ | apply emit_kept | apply modSite_kept
    | apply noteStore_kept | apply spadPut_kept | split

theorem storeLines_kept {s p g x w as a6} (h : Kept q s) : Kept q (storeLines s p g x w as a6).1 := by
  induction a6 generalizing s p g x w as with
  | nil =>
    unfold storeLines
    with_reducible repeat' first
      | assumption
  | cons x r ih =>
    unfold storeLines
    with_reducible repeat' first
      | assumption | refine ite_kept ?_ ?_
      | (extract_lets +onlyGivenNames t; refine step_kept (q := q) (t := t.1) ?_ (fun _ => ?_); rotate_left; clear_value t; rotate_right; unfold t; clear t)
      | (extract_lets +onlyGivenNames t; clear_value t) | extract_lets +onlyGivenNames t | apply storeDirect_kept
      | apply storeHost_kept | apply storeLine_kept | split | (refine fst_kept (by assumption) ?_) | apply ih

theorem storeAll_kept {s g w as} (h : Kept q s) : Kept q (storeAll s g w as) := by
  unfold storeAll
  with_reducible repeat' first
    | assumption | refine ite_kept ?_ ?_ | (extract_lets +onlyGivenNames t; clear_value t)
    | extract_lets +onlyGivenNames t | apply countHost_kept | apply kernelFault_kept | apply stepGroup_kept
    | apply prepLines_kept | apply storeLines_kept | split | (refine fst_kept (by assumption) ?_)

theorem execSt_kept {g w s} (h : Kept q s) : KeptO q (execSt g w s) := by
  unfold execSt
  with_reducible repeat' first
    | assumption | intro _ | refine ite_kept ?_ ?_ | (extract_lets +onlyGivenNames t; clear_value t)
    | extract_lets +onlyGivenNames t | apply next_kept | apply storeAll_kept | apply issue_kept
    | apply laneAccesses_kept | split | (refine err_kept (by assumption) ?_)

theorem lineAccesses_kept {s g w} (h : Kept q s) : KeptEE q (lineAccesses s g w) := by
  unfold lineAccesses
  with_reducible repeat' first
    | assumption | (extract_lets +onlyGivenNames t; clear_value t) | extract_lets +onlyGivenNames t
    | apply laneAccesses_kept

theorem execPref_kept {g w s} (h : Kept q s) : KeptO q (execPref g w s) := by
  unfold execPref
  with_reducible repeat' first
    | assumption | intro _ | refine ite_kept ?_ ?_ | (extract_lets +onlyGivenNames t; clear_value t)
    | extract_lets +onlyGivenNames t | apply next_kept | refine foldl_kept (fun _ _ _ => ?_) ?_ | apply arrive_kept
    | apply stepGroup_kept | apply issue_kept | apply lineAccesses_kept | split | (refine err_kept (by assumption) ?_)

theorem discardNow_kept {s p l a} (h : Kept q s) : Kept q (discardNow s p l a) := by
  unfold discardNow
  with_reducible repeat' first
    | assumption | intro _
    | (extract_lets +onlyGivenNames t; refine step_kept (q := q) (t := t) ?_ (fun _ => ?_); rotate_left; clear_value t; rotate_right; unfold t; clear t)
    | extract_lets +onlyGivenNames t | apply access_kept | apply dropL1s_kept | apply finishDisc_kept

theorem prepDiscard_kept {s g a} (h : Kept q s) : Kept q (prepDiscard s g a).1 := by
  unfold prepDiscard
  with_reducible repeat' first
    | assumption | intro _ | refine ite_kept ?_ ?_ | (extract_lets +onlyGivenNames t; clear_value t)
    | extract_lets +onlyGivenNames t | apply modGroup_kept | apply arrive_kept | split

theorem execDiscard_kept {g w s} (h : Kept q s) : KeptO q (execDiscard g w s) := by
  unfold execDiscard
  with_reducible repeat' first
    | assumption | intro _ | (extract_lets +onlyGivenNames t; clear_value t) | extract_lets +onlyGivenNames t
    | apply next_kept | refine foldl_kept (fun _ _ _ => ?_) ?_ | refine foldl_fst_kept (fun _ _ _ => ?_) ?_
    | apply discardNow_kept | apply kernelFault_kept | apply stepGroup_kept | apply issue_kept
    | apply lineAccesses_kept | apply prepDiscard_kept | split | (refine fst_kept (by assumption) ?_)
    | (refine err_kept (by assumption) ?_)

theorem noteReply_kept {s g a cells} (h : Kept q s) : Kept q (noteReply s g a cells) := by
  unfold noteReply
  with_reducible repeat' first
    | assumption | intro _ | apply modGroup_kept

theorem noteAsked_kept {s g a} (h : Kept q s) : Kept q (noteAsked s g a) := by
  unfold noteAsked
  with_reducible repeat' first
    | assumption | intro _ | extract_lets +onlyGivenNames t | apply modGroup_kept | apply modStall_kept

theorem atomSend_kept {s g w r a} (h : Kept q s) : Kept q (atomSend s g w r a).1 := by
  unfold atomSend
  with_reducible repeat' first
    | assumption | intro _ | refine ite_kept ?_ ?_
    | (extract_lets +onlyGivenNames t; refine step_kept (q := q) (t := t) ?_ (fun _ => ?_); rotate_left; clear_value t; rotate_right; unfold t; clear t)
    | (extract_lets +onlyGivenNames t; clear_value t) | extract_lets +onlyGivenNames t | apply modGroup_kept
    | apply access_kept | apply arrive_kept | apply dropL1s_kept | apply kernelFault_kept | apply noteAsked_kept
    | apply noteReply_kept | apply queueItem_kept | apply spendRead_kept | apply fetchLine_kept
    | apply performAtom_kept | split | (refine fst_kept (by assumption) ?_)

theorem atomSends_kept {g w op as a4 a5 a6} (h : Kept q a6) : Kept q (atomSends g w op as a4 a5 a6).1 := by
  induction a4 generalizing g w op as a5 a6 with
  | nil =>
    unfold atomSends
    with_reducible repeat' first
      | assumption
  | cons x r ih =>
    unfold atomSends
    with_reducible repeat' first
      | assumption | apply atomSend_kept | split | (refine fst_kept (by assumption) ?_) | apply ih

theorem coreAtomic_kept {g w op s} (h : Kept q s) : Kept q (coreAtomic g w op s) := by
  unfold coreAtomic
  with_reducible repeat' first
    | assumption | intro _ | refine ite_kept ?_ ?_ | (extract_lets +onlyGivenNames t; clear_value t)
    | extract_lets +onlyGivenNames t | apply kernelFault_kept | apply stepGroup_kept | apply atomSends_kept
    | apply laneAccesses_kept | split | (refine fst_kept (by assumption) ?_) | (refine err_kept (by assumption) ?_)

theorem execAtomicAdd_kept {g w s} (h : Kept q s) : KeptO q (execAtomicAdd g w s) := by
  unfold execAtomicAdd
  with_reducible repeat' first
    | assumption | apply next_kept | apply coreAtomic_kept | apply issue_kept

theorem execAtomicMin_kept {g w s} (h : Kept q s) : KeptO q (execAtomicMin g w s) := by
  unfold execAtomicMin
  with_reducible repeat' first
    | assumption | apply next_kept | apply coreAtomic_kept | apply issue_kept

theorem execAtomicMax_kept {g w s} (h : Kept q s) : KeptO q (execAtomicMax g w s) := by
  unfold execAtomicMax
  with_reducible repeat' first
    | assumption | apply next_kept | apply coreAtomic_kept | apply issue_kept

theorem execAtomicAnd_kept {g w s} (h : Kept q s) : KeptO q (execAtomicAnd g w s) := by
  unfold execAtomicAnd
  with_reducible repeat' first
    | assumption | apply next_kept | apply coreAtomic_kept | apply issue_kept

theorem execAtomicOr_kept {g w s} (h : Kept q s) : KeptO q (execAtomicOr g w s) := by
  unfold execAtomicOr
  with_reducible repeat' first
    | assumption | apply next_kept | apply coreAtomic_kept | apply issue_kept

theorem execAtomicXor_kept {g w s} (h : Kept q s) : KeptO q (execAtomicXor g w s) := by
  unfold execAtomicXor
  with_reducible repeat' first
    | assumption | apply next_kept | apply coreAtomic_kept | apply issue_kept

theorem execAtomicExch_kept {g w s} (h : Kept q s) : KeptO q (execAtomicExch g w s) := by
  unfold execAtomicExch
  with_reducible repeat' first
    | assumption | apply next_kept | apply coreAtomic_kept | apply issue_kept

theorem execAtomicCas_kept {g w s} (h : Kept q s) : KeptO q (execAtomicCas g w s) := by
  unfold execAtomicCas
  with_reducible repeat' first
    | assumption | apply next_kept | apply coreAtomic_kept | apply issue_kept

/-! ## LinkPorts -/

theorem portEvent_kept {s j status detail} (h : Kept q s) : Kept q (portEvent s j status detail) := by
  unfold portEvent
  with_reducible repeat' first
    | assumption | apply partEvent_kept | apply postEvent_kept | split

theorem pushSymbol_kept {s j v} (h : Kept q s) : Kept q (pushSymbol s j v) := by
  unfold pushSymbol
  with_reducible repeat' first
    | assumption | intro _ | apply modPort_kept

theorem recallCommit_kept {s p} (h : Kept q s) : Kept q (recallCommit s p) := by
  unfold recallCommit
  with_reducible repeat' first
    | assumption | intro _ | refine ite_kept ?_ ?_ | extract_lets +onlyGivenNames t
    | refine foldl_kept (fun _ _ _ => ?_) ?_ | apply modPart_kept | apply modPort_kept | apply contained_kept
    | apply flood_kept | apply markError_kept

theorem unitErrorAt_kept {s p unit} (h : Kept q s) : Kept q (unitErrorAt s p unit) := by
  unfold unitErrorAt
  with_reducible repeat' first
    | assumption | refine ite_kept ?_ ?_ | apply endJob_kept | apply flood_kept | apply recallCommit_kept
    | apply unitError_kept

theorem sendUnitError_kept {s u} (h : Kept q s) : Kept q (sendUnitError s u) := by
  unfold sendUnitError
  with_reducible repeat' first
    | assumption | refine ite_kept ?_ ?_ | apply sendRouted_kept | apply unitErrorAt_kept

theorem frameLost_kept {s f} (h : Kept q s) : Kept q (frameLost s f) := by
  unfold frameLost
  with_reducible repeat' first
    | assumption | intro _ | refine foldl_kept (fun _ _ _ => ?_) ?_ | apply sendUnitError_kept

theorem newRoutes_kept {s} (h : Kept q s) : Kept q (newRoutes s) := by
  unfold newRoutes
  with_reducible repeat' first
    | assumption | (extract_lets +onlyGivenNames t; clear_value t) | extract_lets +onlyGivenNames t
    | (apply kept_mk; assumption)

theorem openReach_kept {s ps j} (h : Kept q s) : Kept q (openReach s ps j) := by
  unfold openReach
  with_reducible repeat' first
    | assumption | intro _
    | (extract_lets +onlyGivenNames t; refine step_kept (q := q) (t := t) ?_ (fun _ => ?_); rotate_left; clear_value t; rotate_right; unfold t; clear t)
    | (extract_lets +onlyGivenNames t; clear_value t) | extract_lets +onlyGivenNames t
    | refine foldl_kept (fun _ _ _ => ?_) ?_ | (apply kept_mk; assumption) | apply modPart_kept | apply flood_kept
    | apply newRoutes_kept

theorem portLeft_kept {s j} (h : Kept q s) : Kept q (portLeft s j) := by
  unfold portLeft
  with_reducible repeat' first
    | assumption | intro _ | apply openReach_kept

theorem dropOwed_kept {s j} (h : Kept q s) : Kept q (State.dropOwed s j) := by
  unfold State.dropOwed
  with_reducible repeat' first
    | assumption | (extract_lets +onlyGivenNames t; clear_value t) | extract_lets +onlyGivenNames t
    | (apply kept_mk; assumption)

theorem resendSymbol_kept {s v} (h : Kept q s) : Kept q (resendSymbol s v) := by
  unfold resendSymbol
  with_reducible repeat' first
    | assumption | refine ite_kept ?_ ?_ | extract_lets +onlyGivenNames t | apply sendRouted_kept | split

theorem leaveUp_kept {s j x} (h : Kept q s) : Kept q (leaveUp s j x) := by
  unfold leaveUp
  with_reducible repeat' first
    | assumption | intro _ | refine foldl_kept (fun _ _ _ => ?_) ?_ | apply frameLost_kept | apply portLeft_kept
    | apply queueItem_kept | apply resendSymbol_kept

theorem portFails_kept {s j status detail} (h : Kept q s) : Kept q (portFails s j status detail) := by
  unfold portFails
  with_reducible repeat' first
    | assumption | intro _ | refine ite_kept ?_ ?_
    | (extract_lets +onlyGivenNames t; refine step_kept (q := q) (t := t) ?_ (fun _ => ?_); rotate_left; clear_value t; rotate_right; unfold t; clear t)
    | (extract_lets +onlyGivenNames t; clear_value t) | extract_lets +onlyGivenNames t | apply dropOwed_kept
    | apply modPort_kept | apply leaveUp_kept | apply portEvent_kept

theorem beginTraining_kept {s j again} (h : Kept q s) : Kept q (beginTraining s j again) := by
  unfold beginTraining
  with_reducible repeat' first
    | assumption | intro _ | extract_lets +onlyGivenNames t | apply dropOwed_kept | apply modPort_kept
    | apply pushSymbol_kept

theorem retrain_kept {s j} (h : Kept q s) : Kept q (retrain s j) := by
  unfold retrain
  with_reducible repeat' first
    | assumption | intro _
    | (extract_lets +onlyGivenNames t; refine step_kept (q := q) (t := t) ?_ (fun _ => ?_); rotate_left; clear_value t; rotate_right; unfold t; clear t)
    | (extract_lets +onlyGivenNames t; clear_value t) | extract_lets +onlyGivenNames t | apply modPort_kept
    | apply beginTraining_kept | apply leaveUp_kept

theorem execHello_kept {j device group port s} (h : Kept q s) : KeptO q (execHello j device group port s) := by
  unfold execHello
  with_reducible repeat' first
    | assumption | intro _ | refine ite_kept ?_ ?_ | extract_lets +onlyGivenNames t | apply next_kept
    | apply modPort_kept | apply portFails_kept | apply pushSymbol_kept | apply draw_kept

theorem execEcho_kept {j _number turnaround roundTrip s} (h : Kept q s) :
    KeptO q (execEcho j _number turnaround roundTrip s) := by
  unfold execEcho
  with_reducible repeat' first
    | assumption | intro _ | refine ite_kept ?_ ?_ | extract_lets +onlyGivenNames t | apply next_kept
    | apply modPort_kept | apply portFails_kept | apply draw_kept

theorem execTrainTimeout_kept {j s} (h : Kept q s) : KeptO q (execTrainTimeout j s) := by
  unfold execTrainTimeout
  with_reducible repeat' first
    | assumption | refine ite_kept ?_ ?_ | apply next_kept | apply portFails_kept

theorem execPortSilenceTimeout_kept {j s} (h : Kept q s) : KeptO q (execPortSilenceTimeout j s) := by
  unfold execPortSilenceTimeout
  with_reducible repeat' first
    | assumption | refine ite_kept ?_ ?_ | apply next_kept | apply portFails_kept

theorem execFrameSend_kept {j s} (h : Kept q s) : KeptO q (execFrameSend j s) := by
  unfold execFrameSend
  with_reducible repeat' first
    | assumption | intro _ | refine ite_kept ?_ ?_ | extract_lets +onlyGivenNames t | apply next_kept
    | apply emit_kept | apply modPort_kept

theorem flitArrives_kept {s j mark bs} (h : Kept q s) : Kept q (flitArrives s j mark bs) := by
  unfold flitArrives
  with_reducible repeat' first
    | assumption | intro _ | apply modPort_kept | split

theorem lostHere_kept {s j seq} (h : Kept q s) : Kept q (lostHere s j seq) := by
  unfold lostHere
  with_reducible repeat' first
    | assumption | intro _ | refine ite_kept ?_ ?_ | extract_lets +onlyGivenNames t | apply modPort_kept
    | apply retrain_kept | apply sendSymbol_kept | apply draw_kept

theorem execFrame_kept {j frame s} (h : Kept q s) : KeptO q (execFrame j frame s) := by
  unfold execFrame
  with_reducible repeat' first
    | assumption | intro _ | refine ite_kept ?_ ?_
    | (extract_lets +onlyGivenNames t; refine step_kept (q := q) (t := t) ?_ (fun _ => ?_); rotate_left; clear_value t; rotate_right; unfold t; clear t)
    | (extract_lets +onlyGivenNames t; clear_value t) | extract_lets +onlyGivenNames t | apply next_kept
    | refine foldl_kept (fun _ _ _ => ?_) ?_ | (apply kept_mk; assumption) | apply modPort_kept
    | apply flitArrives_kept | apply lostHere_kept | apply sendSymbol_kept

theorem execLinkAck_kept {j seq s} (h : Kept q s) : KeptO q (execLinkAck j seq s) := by
  unfold execLinkAck
  with_reducible repeat' first
    | assumption | intro _ | refine ite_kept ?_ ?_ | apply next_kept | apply modPort_kept

theorem execLost_kept {j seq s} (h : Kept q s) : KeptO q (execLost j seq s) := by
  unfold execLost
  with_reducible repeat' first
    | assumption | intro _ | apply next_kept | apply modPort_kept | apply frameLost_kept | split

theorem execAckTimeout_kept {j s} (h : Kept q s) : KeptO q (execAckTimeout j s) := by
  unfold execAckTimeout
  with_reducible repeat' first
    | assumption | intro _ | refine ite_kept ?_ ?_ | apply next_kept | apply modPort_kept | apply frameLost_kept
    | split

theorem execCredit_kept {j count s} (h : Kept q s) : KeptO q (execCredit j count s) := by
  unfold execCredit
  with_reducible repeat' first
    | assumption | intro _ | refine ite_kept ?_ ?_ | apply next_kept | apply modPort_kept

theorem configPort_kept {s enable j} (h : Kept q s) : Kept q (configPort s enable j) := by
  unfold configPort
  with_reducible repeat' first
    | assumption | intro _ | refine ite_kept ?_ ?_ | extract_lets +onlyGivenNames t | apply dropOwed_kept
    | apply modPort_kept | apply beginTraining_kept | apply leaveUp_kept

theorem execLinkConfig_kept {src s} (h : Kept q s) : KeptO q (execLinkConfig src s) := by
  unfold execLinkConfig
  with_reducible repeat' first
    | assumption | intro _ | refine ite_kept ?_ ?_ | (extract_lets +onlyGivenNames t; clear_value t)
    | extract_lets +onlyGivenNames t | apply next_kept | apply reply_kept | apply wait_kept
    | refine foldl_kept (fun _ _ _ => ?_) ?_ | (apply kept_mk; assumption) | apply configPort_kept
    | apply runVoted_kept | apply bodyOk_kept | apply bodyParam_kept | apply bodySay_kept | split

theorem execLinkStatus_kept {src s} (h : Kept q s) : KeptO q (execLinkStatus src s) := by
  unfold execLinkStatus
  with_reducible repeat' first
    | assumption | intro _ | refine ite_kept ?_ ?_ | apply next_kept | apply reply_kept | apply wait_kept
    | apply runVoted_kept | apply bodyParam_kept | split

theorem settleRoutes_kept {s} (h : Kept q s) : Kept q (settleRoutes s) := by
  unfold settleRoutes
  with_reducible repeat' first
    | assumption | refine ite_kept ?_ ?_
    | (extract_lets +onlyGivenNames t; refine step_kept (q := q) (t := t) ?_ (fun _ => ?_); rotate_left; clear_value t; rotate_right; unfold t; clear t)
    | (extract_lets +onlyGivenNames t; clear_value t) | extract_lets +onlyGivenNames t | (apply kept_mk; assumption)
    | apply newRoutes_kept

theorem endVisit_kept {s e} (h : Kept q s) : Kept q (endVisit s e) := by
  unfold endVisit
  with_reducible repeat' first
    | assumption | intro _ | refine ite_kept ?_ ?_ | (extract_lets +onlyGivenNames t; clear_value t)
    | extract_lets +onlyGivenNames t | (apply kept_mk; assumption) | apply completeAll_kept | apply sendSymbol_kept
    | apply settleRoutes_kept | split

theorem visitFrom_kept {s e k} (h : Kept q s) : Kept q (visitFrom s e k) := by
  unfold visitFrom
  with_reducible repeat' first
    | assumption | (extract_lets +onlyGivenNames t; clear_value t) | extract_lets +onlyGivenNames t
    | (apply kept_mk; assumption) | apply endVisit_kept | apply sendSymbol_kept | split

theorem startWalk_kept {s} (h : Kept q s) : Kept q (startWalk s) := by
  unfold startWalk
  with_reducible repeat' first
    | assumption | refine ite_kept ?_ ?_ | apply visitFrom_kept | split

theorem execChainEnumerate_kept {src s} (h : Kept q s) : KeptO q (execChainEnumerate src s) := by
  unfold execChainEnumerate
  with_reducible repeat' first
    | assumption | intro _ | refine ite_kept ?_ ?_ | (extract_lets +onlyGivenNames t; clear_value t)
    | extract_lets +onlyGivenNames t | apply next_kept | apply reply_kept | apply wait_kept
    | (apply kept_mk; assumption) | apply runVoted_kept | apply startWalk_kept | apply bodyParam_kept
    | apply bodySay_kept | split

theorem enumAnswer_kept {s e j next} (h : Kept q s) : Kept q (enumAnswer s e j next) := by
  unfold enumAnswer
  with_reducible repeat' first
    | assumption | refine ite_kept ?_ ?_ | (extract_lets +onlyGivenNames t; clear_value t)
    | extract_lets +onlyGivenNames t | (apply kept_mk; assumption)

theorem execEnum_kept {j offered nextFree s} (h : Kept q s) : KeptO q (execEnum j offered nextFree s) := by
  unfold execEnum
  with_reducible repeat' first
    | assumption | intro _ | refine ite_kept ?_ ?_ | (extract_lets +onlyGivenNames t; clear_value t)
    | extract_lets +onlyGivenNames t | apply next_kept | (apply kept_mk; assumption) | apply dropOwed_kept
    | apply modPort_kept | apply enumAnswer_kept | apply sendSymbol_kept | apply visitFrom_kept | apply draw_kept
    | split | (refine snd_kept (by assumption) ?_) | apply kept_mk

/-! ## LinkItems -/

theorem floodIn_kept {s j source key forward act} (h :
    Kept q s) (hforward : ∀ x0, Kept q x0 → Kept q (forward x0)) (hact : ∀ x0, Kept q x0 → Kept q (act x0)) : Kept q (floodIn s j source key forward act) := by
  unfold floodIn
  with_reducible repeat' first
    | assumption | intro _ | refine ite_kept ?_ ?_ | (extract_lets +onlyGivenNames t; clear_value t)
    | extract_lets +onlyGivenNames t | (apply kept_mk; assumption) | apply hforward | apply hact

theorem onward_kept {v j s} (h : Kept q s) : Kept q (onward v j s) := by
  unfold onward
  with_reducible repeat' first
    | assumption | apply flood_kept

theorem unitFlood_kept {s j type1 t act} (h : Kept q s) (hact : ∀ x0 x1, Kept q x0 → Kept q (act x0 x1)) :
    Kept q (unitFlood s j type1 t act) := by
  unfold unitFlood
  with_reducible repeat' first
    | assumption | intro _ | (extract_lets +onlyGivenNames t; clear_value t) | extract_lets +onlyGivenNames t
    | refine foldl_kept (fun _ _ _ => ?_) ?_ | apply floodIn_kept | apply onward_kept | apply hact

theorem takeCommit_kept {t s p} (h : Kept q s) : Kept q (takeCommit t s p) := by
  unfold takeCommit
  with_reducible repeat' first
    | assumption | intro _ | refine ite_kept ?_ ?_ | extract_lets +onlyGivenNames t | apply modPart_kept
    | apply applyCommit_kept

theorem execCommit_kept {j token s} (h : Kept q s) : KeptO q (execCommit j token s) := by
  unfold execCommit
  with_reducible repeat' first
    | assumption | apply next_kept | apply takeCommit_kept | apply unitFlood_kept

theorem execReplay_kept {j token s} (h : Kept q s) : KeptO q (execReplay j token s) := by
  unfold execReplay
  with_reducible repeat' first
    | assumption | intro _ | extract_lets +onlyGivenNames t | apply next_kept | apply modPart_kept
    | apply unitFlood_kept

theorem execApplied_kept {j token s} (h : Kept q s) : KeptO q (execApplied j token s) := by
  unfold execApplied
  with_reducible repeat' first
    | assumption | intro _ | extract_lets +onlyGivenNames t | apply next_kept | apply modPart_kept
    | apply unitFlood_kept

theorem takeAbandon_kept {t s p} (h : Kept q s) : Kept q (takeAbandon t s p) := by
  unfold takeAbandon
  with_reducible repeat' first
    | assumption | intro _ | refine ite_kept ?_ ?_ | extract_lets +onlyGivenNames t | apply modPart_kept
    | apply endJob_kept | apply freeLedger_kept

theorem execAbandon_kept {j token s} (h : Kept q s) : KeptO q (execAbandon j token s) := by
  unfold execAbandon
  with_reducible repeat' first
    | assumption | apply next_kept | apply takeAbandon_kept | apply unitFlood_kept

theorem execUnitError_kept {j token s} (h : Kept q s) : KeptO q (execUnitError j token s) := by
  unfold execUnitError
  with_reducible repeat' first
    | assumption | refine ite_kept ?_ ?_ | apply next_kept | apply sendUnitError_kept

theorem execJoinSymbol_kept {j device member s} (h : Kept q s) : KeptO q (execJoinSymbol j device member s) := by
  unfold execJoinSymbol
  with_reducible repeat' first
    | assumption | refine ite_kept ?_ ?_ | (extract_lets +onlyGivenNames t; clear_value t)
    | extract_lets +onlyGivenNames t | apply next_kept | (apply kept_mk; assumption) | apply joinMember_kept
    | apply sendRouted_kept | split

theorem execStart_kept {j root diameter job s} (h : Kept q s) : KeptO q (execStart j root diameter job s) := by
  unfold execStart
  with_reducible repeat' first
    | assumption | intro _ | (extract_lets +onlyGivenNames t; clear_value t) | extract_lets +onlyGivenNames t
    | apply next_kept | refine foldl_kept (fun _ _ _ => ?_) ?_ | apply floodIn_kept | apply onward_kept
    | apply scheduleStart_kept

theorem execMask_kept {j device member share bells s} (h : Kept q s) :
    KeptO q (execMask j device member share bells s) := by
  unfold execMask
  with_reducible repeat' first
    | assumption | intro _ | (extract_lets +onlyGivenNames t; clear_value t) | extract_lets +onlyGivenNames t
    | apply next_kept | refine foldl_kept (fun _ _ _ => ?_) ?_ | apply modPart_kept | apply floodIn_kept
    | apply onward_kept

theorem syncOnward_kept {v j root s} (h : Kept q s) : Kept q (syncOnward v j root s) := by
  unfold syncOnward
  with_reducible repeat' first
    | assumption | intro _ | (extract_lets +onlyGivenNames t; clear_value t) | extract_lets +onlyGivenNames t
    | refine foldl_kept (fun _ _ _ => ?_) ?_ | apply sendSymbol_kept

theorem execTickSync_kept {j root ticks s} (h : Kept q s) : KeptO q (execTickSync j root ticks s) := by
  unfold execTickSync
  with_reducible repeat' first
    | assumption | intro _ | (extract_lets +onlyGivenNames t; clear_value t) | extract_lets +onlyGivenNames t
    | apply next_kept | (apply kept_mk; assumption) | apply floodIn_kept | apply syncOnward_kept | split

theorem execReach_kept {j device group hops reachSeq s} (h : Kept q s) :
    KeptO q (execReach j device group hops reachSeq s) := by
  unfold execReach
  with_reducible repeat' first
    | assumption | intro _ | refine ite_kept ?_ ?_
    | (extract_lets +onlyGivenNames t; refine step_kept (q := q) (t := t) ?_ (fun _ => ?_); rotate_left; clear_value t; rotate_right; unfold t; clear t)
    | (extract_lets +onlyGivenNames t; clear_value t) | extract_lets +onlyGivenNames t | apply next_kept
    | refine foldl_kept (fun _ _ _ => ?_) ?_ | apply modPart_kept | apply floodIn_kept | apply newRoutes_kept
    | apply onward_kept | apply openReach_kept

theorem execReachWindowExpiry_kept {p s} (h : Kept q s) : KeptO q (execReachWindowExpiry p s) := by
  unfold execReachWindowExpiry
  with_reducible repeat' first
    | assumption | intro _ | refine ite_kept ?_ ?_ | extract_lets +onlyGivenNames t | apply next_kept
    | apply modPart_kept

theorem execVoteTimeout_kept {p s} (h : Kept q s) : KeptO q (execVoteTimeout p s) := by
  unfold execVoteTimeout
  with_reducible repeat' first
    | assumption | refine ite_kept ?_ ?_ | apply next_kept | apply endJob_kept

theorem itemRefused_kept {s p} (h : Kept q s) : Kept q (itemRefused s p) := by
  unfold itemRefused
  with_reducible repeat' first
    | assumption | refine ite_kept ?_ ?_ | apply endJob_kept

theorem itemIn_kept {s j type1 i n act} (h : Kept q s) (hact : ∀ x0 x1, Kept q x0 → Kept q (act x0 x1)) :
    Kept q (itemIn s j type1 i n act) := by
  unfold itemIn
  with_reducible repeat' first
    | assumption | refine ite_kept ?_ ?_ | apply itemRefused_kept | apply queueItem_kept | apply hact | split

theorem holdItem_kept {kind i s p} (h : Kept q s) : Kept q (holdItem kind i s p) := by
  unfold holdItem
  with_reducible repeat' first
    | assumption | intro _ | refine ite_kept ?_ ?_ | extract_lets +onlyGivenNames t | apply modPart_kept
    | apply applyCommit_kept

theorem heldIn_kept {s j type1 i} (h : Kept q s) : Kept q (heldIn s j type1 i) := by
  unfold heldIn
  with_reducible repeat' first
    | assumption | apply holdItem_kept | apply itemIn_kept

theorem execWrite_kept {j item s} (h : Kept q s) : KeptO q (execWrite j item s) := by
  unfold execWrite
  with_reducible repeat' first
    | assumption | apply next_kept | apply heldIn_kept

theorem execToken_kept {j item s} (h : Kept q s) : KeptO q (execToken j item s) := by
  unfold execToken
  with_reducible repeat' first
    | assumption | apply next_kept | apply heldIn_kept

theorem execCount_kept {j item s} (h : Kept q s) : KeptO q (execCount j item s) := by
  unfold execCount
  with_reducible repeat' first
    | assumption | apply next_kept | apply heldIn_kept

theorem execResult_kept {j item s} (h : Kept q s) : KeptO q (execResult j item s) := by
  unfold execResult
  with_reducible repeat' first
    | assumption | apply next_kept | apply heldIn_kept

theorem readReqHere_kept {j i s p} (h : Kept q s) : Kept q (readReqHere j i s p) := by
  unfold readReqHere
  with_reducible repeat' first
    | assumption | intro _ | refine ite_kept ?_ ?_ | (extract_lets +onlyGivenNames t; clear_value t)
    | extract_lets +onlyGivenNames t | apply answerItem_kept | apply arrive_kept | apply checkSpad_kept
    | apply serveLate_kept | apply serveLater_kept | split

theorem execReadReq_kept {j item s} (h : Kept q s) : KeptO q (execReadReq j item s) := by
  unfold execReadReq
  with_reducible repeat' first
    | assumption | apply next_kept | apply itemIn_kept | apply readReqHere_kept

theorem execAtomReq_kept {j item s} (h : Kept q s) : KeptO q (execAtomReq j item s) := by
  unfold execAtomReq
  with_reducible repeat' first
    | assumption | intro _ | refine ite_kept ?_ ?_ | (extract_lets +onlyGivenNames t; clear_value t)
    | extract_lets +onlyGivenNames t | apply next_kept | apply arrive_kept | apply itemIn_kept | apply serveLater_kept

theorem remoteFailed_kept {s p a v} (h : Kept q s) : Kept q (remoteFailed s p a v) := by
  unfold remoteFailed
  with_reducible repeat' first
    | assumption | intro _ | refine ite_kept ?_ ?_ | extract_lets +onlyGivenNames t | apply modLine_kept
    | apply contained_kept | apply kernelFault_kept

theorem execReadRsp_kept {j item s} (h : Kept q s) : KeptO q (execReadRsp j item s) := by
  unfold execReadRsp
  with_reducible repeat' first
    | assumption | intro _ | refine ite_kept ?_ ?_ | apply next_kept | apply modLine_kept | apply queueItem_kept
    | apply remoteFailed_kept | apply serveLine_kept | split

theorem noteReport_kept {s p dev i} (h : Kept q s) : Kept q (noteReport s p dev i) := by
  unfold noteReport
  with_reducible repeat' first
    | assumption | intro _ | refine ite_kept ?_ ?_ | extract_lets +onlyGivenNames t | apply modPart_kept
    | apply markNonrepl_kept

theorem execAtomRsp_kept {j item s} (h : Kept q s) : KeptO q (execAtomRsp j item s) := by
  unfold execAtomRsp
  with_reducible repeat' first
    | assumption | intro _ | refine ite_kept ?_ ?_
    | (extract_lets +onlyGivenNames t; refine step_kept (q := q) (t := t) ?_ (fun _ => ?_); rotate_left; clear_value t; rotate_right; unfold t; clear t)
    | extract_lets +onlyGivenNames t | apply next_kept | (apply kept_mk; assumption) | apply noteReport_kept
    | apply queueItem_kept | split

end Sys2Proof.Machine
end

