-- ==== Sys2Proof/Laws/Kept8.lean ====
section
/-! SUPPORT. What every operation keeps (Laws/Kept): the definitions of Machine/Power, PowerStates, Boot, Sec, Debug. -/

set_option linter.tactic.unusedName false

namespace Sys2Proof.Machine

variable {q : Fixed}

/-! ## Power -/

theorem glideDie_kept {s p d} (h : Kept q s) : Kept q (glideDie s p d) := by
  unfold glideDie
  with_reducible repeat' first
    | assumption | intro _ | refine ite_kept ?_ ?_ | (extract_lets +onlyGivenNames t; clear_value t)
    | extract_lets +onlyGivenNames t | apply modPart_kept | split

theorem sampleDie_kept {s x p d} (h : Kept q s) : Kept q (sampleDie s x p d) := by
  unfold sampleDie
  with_reducible repeat' first
    | assumption | intro _ | refine ite_kept ?_ ?_
    | (extract_lets +onlyGivenNames t; refine step_kept (q := q) (t := t) ?_ (fun _ => ?_); rotate_left; clear_value t; rotate_right; unfold t; clear t)
    | (extract_lets +onlyGivenNames t; clear_value t) | extract_lets +onlyGivenNames t | apply modDom_kept
    | apply modPart_kept | apply glideDie_kept

theorem lockstepRise_kept {s p} (h : Kept q s) : Kept q (lockstepRise s p) := by
  unfold lockstepRise
  with_reducible repeat' first
    | assumption | intro _ | refine ite_kept ?_ ?_ | (extract_lets +onlyGivenNames t; clear_value t)
    | extract_lets +onlyGivenNames t | apply modPart_kept

theorem sampleVin_kept {s mv} (h : Kept q s) : Kept q (sampleVin s mv) := by
  unfold sampleVin
  with_reducible repeat' first
    | assumption | intro _ | refine ite_kept ?_ ?_
    | (extract_lets +onlyGivenNames t; refine step_kept (q := q) (t := t) ?_ (fun _ => ?_); rotate_left; clear_value t; rotate_right; unfold t; clear t)
    | (extract_lets +onlyGivenNames t; clear_value t) | extract_lets +onlyGivenNames t
    | refine foldl_kept (fun _ _ _ => ?_) ?_ | (apply kept_mk; assumption) | apply modDie_kept

theorem samplePackage_kept {s x} (h : Kept q s) : Kept q (samplePackage s x) := by
  unfold samplePackage
  with_reducible repeat' first
    | assumption | intro _ | (extract_lets +onlyGivenNames t; clear_value t) | extract_lets +onlyGivenNames t
    | refine foldl_kept (fun _ _ _ => ?_) ?_ | (apply kept_mk; assumption)

theorem fadeDroops_kept {s} (h : Kept q s) : Kept q (fadeDroops s) := by
  unfold fadeDroops
  with_reducible repeat' first
    | assumption | intro _ | refine foldl_kept (fun _ _ _ => ?_) ?_ | apply modDie_kept

theorem coreStays_kept {s d} (h : Kept q s) : Kept q (coreStays s d) := by
  unfold coreStays
  with_reducible repeat' first
    | assumption | intro _ | refine ite_kept ?_ ?_ | (extract_lets +onlyGivenNames t; clear_value t)
    | extract_lets +onlyGivenNames t | refine foldl_kept (fun _ _ _ => ?_) ?_ | apply modDie_kept | apply modPart_kept

theorem execPowerSample_kept {sample s} (h : Kept q s) : KeptO q (execPowerSample sample s) := by
  unfold execPowerSample
  with_reducible repeat' first
    | assumption | intro _ | refine ite_kept ?_ ?_
    | (extract_lets +onlyGivenNames t; refine step_kept (q := q) (t := t) ?_ (fun _ => ?_); rotate_left; clear_value t; rotate_right; unfold t; clear t)
    | extract_lets +onlyGivenNames t | apply next_kept | refine foldl_kept (fun _ _ _ => ?_) ?_ | apply coreStays_kept
    | apply fadeDroops_kept | apply lockstepRise_kept | apply sampleDie_kept | apply samplePackage_kept
    | apply sampleVin_kept

theorem closePeriod_kept {s p d} (h : Kept q s) : Kept q (closePeriod s p d) := by
  unfold closePeriod
  with_reducible repeat' first
    | assumption | intro _ | (extract_lets +onlyGivenNames t; clear_value t) | extract_lets +onlyGivenNames t
    | apply modPart_kept

theorem noteExchange_kept {s p} (h : Kept q s) : Kept q (noteExchange s p) := by
  unfold noteExchange
  with_reducible repeat' first
    | assumption | intro _ | (extract_lets +onlyGivenNames t; clear_value t) | extract_lets +onlyGivenNames t
    | refine foldl_kept (fun _ _ _ => ?_) ?_ | apply modPart_kept

theorem execBudgetExchange_kept {s} (h : Kept q s) : KeptO q (execBudgetExchange s) := by
  unfold execBudgetExchange
  with_reducible repeat' first
    | assumption | intro _ | refine ite_kept ?_ ?_
    | (extract_lets +onlyGivenNames t; refine step_kept (q := q) (t := t) ?_ (fun _ => ?_); rotate_left; clear_value t; rotate_right; unfold t; clear t)
    | (extract_lets +onlyGivenNames t; clear_value t) | extract_lets +onlyGivenNames t | apply next_kept
    | refine foldl_kept (fun _ _ _ => ?_) ?_ | (apply kept_mk; assumption) | apply modPart_kept | apply allocate_kept
    | apply closePeriod_kept | apply noteExchange_kept

theorem execExtraBubbleStart_kept {p s} (h : Kept q s) : KeptO q (execExtraBubbleStart p s) := by
  unfold execExtraBubbleStart
  with_reducible repeat' first
    | assumption | intro _ | refine ite_kept ?_ ?_ | extract_lets +onlyGivenNames t | apply next_kept
    | apply modPart_kept

theorem execCoreClockStep_kept {d s} (h : Kept q s) : KeptO q (execCoreClockStep d s) := by
  unfold execCoreClockStep
  with_reducible repeat' first
    | assumption | intro _ | refine ite_kept ?_ ?_ | (extract_lets +onlyGivenNames t; clear_value t)
    | extract_lets +onlyGivenNames t | apply next_kept | refine foldl_kept (fun _ _ _ => ?_) ?_ | apply modDie_kept
    | apply modPart_kept

theorem execDroopDetect_kept {d s} (h : Kept q s) : KeptO q (execDroopDetect d s) := by
  unfold execDroopDetect
  with_reducible repeat' first
    | assumption | intro _ | refine ite_kept ?_ ?_ | apply next_kept | apply modDie_kept

theorem execDroopClear_kept {d long s} (h : Kept q s) : KeptO q (execDroopClear d long s) := by
  unfold execDroopClear
  with_reducible repeat' first
    | assumption | intro _ | refine ite_kept ?_ ?_ | apply next_kept | apply modDie_kept

theorem execPwrAlertAssert_kept {s} (h : Kept q s) : KeptO q (execPwrAlertAssert s) := by
  unfold execPwrAlertAssert
  with_reducible repeat' first
    | assumption | intro _ | refine ite_kept ?_ ?_
    | (extract_lets +onlyGivenNames t; refine step_kept (q := q) (t := t) ?_ (fun _ => ?_); rotate_left; clear_value t; rotate_right; unfold t; clear t)
    | (extract_lets +onlyGivenNames t; clear_value t) | extract_lets +onlyGivenNames t | apply next_kept
    | refine foldl_kept (fun _ _ _ => ?_) ?_ | (apply kept_mk; assumption) | apply modPart_kept
    | apply alertManager_kept

theorem execPwrAlertRelease_kept {s} (h : Kept q s) : KeptO q (execPwrAlertRelease s) := by
  unfold execPwrAlertRelease
  with_reducible repeat' first
    | assumption | refine ite_kept ?_ ?_ | (extract_lets +onlyGivenNames t; clear_value t)
    | extract_lets +onlyGivenNames t | apply next_kept | (apply kept_mk; assumption)

theorem execDieTempRead_kept {d celsius s} (h : Kept q s) : KeptO q (execDieTempRead d celsius s) := by
  unfold execDieTempRead
  with_reducible repeat' first
    | assumption | intro _ | refine ite_kept ?_ ?_ | apply next_kept | apply modDie_kept

theorem execThermtrip_kept {s} (h : Kept q s) : KeptO q (execThermtrip s) := by
  unfold execThermtrip
  with_reducible repeat' first
    | assumption | intro _ | refine ite_kept ?_ ?_
    | (extract_lets +onlyGivenNames t; refine step_kept (q := q) (t := t) ?_ (fun _ => ?_); rotate_left; clear_value t; rotate_right; unfold t; clear t)
    | (extract_lets +onlyGivenNames t; clear_value t) | extract_lets +onlyGivenNames t | apply next_kept
    | refine foldl_kept (fun _ _ _ => ?_) ?_ | (apply kept_mk; assumption) | apply emit_kept | apply modPart_kept

theorem execVinIvrRemoval_kept {s} (h : Kept q s) : KeptO q (execVinIvrRemoval s) := by
  unfold execVinIvrRemoval
  with_reducible repeat' first
    | assumption | refine ite_kept ?_ ?_
    | (extract_lets +onlyGivenNames t; refine step_kept (q := q) (t := t) ?_ (fun _ => ?_); rotate_left; clear_value t; rotate_right; unfold t; clear t)
    | (extract_lets +onlyGivenNames t; clear_value t) | extract_lets +onlyGivenNames t | apply next_kept
    | (apply kept_mk; assumption) | apply emit_kept

theorem execVinLowTimeout_kept {s} (h : Kept q s) : KeptO q (execVinLowTimeout s) := by
  unfold execVinLowTimeout
  with_reducible repeat' first
    | assumption | refine ite_kept ?_ ?_ | apply next_kept | apply fatal_kept

theorem coolantStop_kept {s} (h : Kept q s) : Kept q (coolantStop s) := by
  unfold coolantStop
  with_reducible repeat' first
    | assumption | intro _
    | (extract_lets +onlyGivenNames t; refine step_kept (q := q) (t := t) ?_ (fun _ => ?_); rotate_left; clear_value t; rotate_right; unfold t; clear t)
    | (extract_lets +onlyGivenNames t; clear_value t) | extract_lets +onlyGivenNames t
    | refine foldl_kept (fun _ _ _ => ?_) ?_ | (apply kept_mk; assumption) | apply alertManager_kept

theorem wakeTick_kept {s} (h : Kept q s) : Kept q (wakeTick s) := by
  unfold wakeTick
  with_reducible repeat' first
    | assumption | intro _ | (apply kept_shared; assumption)

theorem execCoolantSample_kept {level s} (h : Kept q s) : KeptO q (execCoolantSample level s) := by
  unfold execCoolantSample
  with_reducible repeat' first
    | assumption | refine ite_kept ?_ ?_
    | (extract_lets +onlyGivenNames t; refine step_kept (q := q) (t := t) ?_ (fun _ => ?_); rotate_left; clear_value t; rotate_right; unfold t; clear t)
    | (extract_lets +onlyGivenNames t; clear_value t) | extract_lets +onlyGivenNames t | apply next_kept
    | (apply kept_mk; assumption) | apply coolantStop_kept | apply wakeTick_kept

theorem coolantEvents_kept {s} (h : Kept q s) : Kept q (coolantEvents s) := by
  unfold coolantEvents
  with_reducible repeat' first
    | assumption | intro _ | (extract_lets +onlyGivenNames t; clear_value t) | extract_lets +onlyGivenNames t
    | refine foldl_kept (fun _ _ _ => ?_) ?_ | apply recoveryEvent_kept

theorem coolantRestart_kept {s} (h : Kept q s) : Kept q (coolantRestart s) := by
  unfold coolantRestart
  with_reducible repeat' first
    | assumption | intro _
    | (extract_lets +onlyGivenNames t; refine step_kept (q := q) (t := t) ?_ (fun _ => ?_); rotate_left; clear_value t; rotate_right; unfold t; clear t)
    | (extract_lets +onlyGivenNames t; clear_value t) | extract_lets +onlyGivenNames t
    | refine foldl_kept (fun _ _ _ => ?_) ?_ | (apply kept_mk; assumption) | apply coolantEvents_kept
    | apply portFails_kept

theorem setCap_kept {s watt} (h : Kept q s) : Kept q (setCap s watt) := by
  unfold setCap
  with_reducible repeat' first
    | assumption | intro _
    | (extract_lets +onlyGivenNames t; refine step_kept (q := q) (t := t) ?_ (fun _ => ?_); rotate_left; clear_value t; rotate_right; unfold t; clear t)
    | (extract_lets +onlyGivenNames t; clear_value t) | extract_lets +onlyGivenNames t
    | refine foldl_kept (fun _ _ _ => ?_) ?_ | (apply kept_mk; assumption) | apply modPart_kept | apply allocate_kept

theorem execPowerSetCap_kept {src s} (h : Kept q s) : KeptO q (execPowerSetCap src s) := by
  unfold execPowerSetCap
  with_reducible repeat' first
    | assumption | intro _ | refine ite_kept ?_ ?_ | apply next_kept | apply reply_kept | apply wait_kept
    | apply runVoted_kept | apply setCap_kept | apply bodyParam_kept | apply bodySay_kept | split

theorem execPowerSetMode_kept {src s} (h : Kept q s) : KeptO q (execPowerSetMode src s) := by
  unfold execPowerSetMode
  with_reducible repeat' first
    | assumption | intro _ | refine ite_kept ?_ ?_ | (extract_lets +onlyGivenNames t; clear_value t)
    | extract_lets +onlyGivenNames t | apply next_kept | apply reply_kept | apply wait_kept | apply modPart_kept
    | apply runVoted_kept | apply bodyOk_kept | apply bodyParam_kept | apply bodySay_kept | split

theorem execTelemetryRead_kept {src s} (h : Kept q s) : KeptO q (execTelemetryRead src s) := by
  unfold execTelemetryRead
  with_reducible repeat' first
    | assumption | intro _ | refine ite_kept ?_ ?_ | (extract_lets +onlyGivenNames t; clear_value t)
    | extract_lets +onlyGivenNames t | apply next_kept | apply reply_kept | apply wait_kept | apply runVoted_kept
    | apply bodyParam_kept | apply bodySay_kept | split

/-! ## PowerStates -/

theorem leaveWork_kept {s} (h : Kept q s) : Kept q (leaveWork s) := by
  unfold leaveWork
  with_reducible repeat' first
    | assumption | intro _ | refine foldl_kept (fun _ _ _ => ?_) ?_ | apply dropEvidence_kept | apply flushCache_kept
    | apply purgeKeys_kept | apply zeroUnitRegs_kept

theorem offState_kept {s} (h : Kept q s) : Kept q (offState s) :=
  ⟨rfl, rfl, h.flash, rfl, h.queue, h.fuses, h.floor⟩

theorem deepState_kept {s mask} (h : Kept q s) : Kept q (deepState s mask) := by
  refine ⟨?_, filter_wf h.spad, h.flash, rfl, h.queue, h.fuses, h.floor⟩
  show Memory.wf (if decide (mask = 0xFF) then s.mem else []) = true
  split
  · exact h.mem
  · rfl

theorem enterState_kept {s target mask} (h : Kept q s) : Kept q (enterState s target mask) := by
  unfold enterState
  with_reducible repeat' first
    | assumption | intro _
    | (extract_lets +onlyGivenNames t; refine step_kept (q := q) (t := t) ?_ (fun _ => ?_); rotate_left; clear_value t; rotate_right; unfold t; clear t)
    | (extract_lets +onlyGivenNames t; clear_value t) | extract_lets +onlyGivenNames t
    | refine foldl_kept (fun _ _ _ => ?_) ?_ | (apply kept_mk; assumption) | apply modDie_kept | apply deepState_kept
    | apply leaveWork_kept | apply offState_kept | split

theorem runState_kept {s k} (h : Kept q s) : KeptB q (runState s k) := by
  unfold runState
  with_reducible repeat' first
    | assumption | refine ite_kept ?_ ?_ | apply reply_kept | apply wait_kept | apply coolantRestart_kept
    | apply wakeBy_kept | apply bodyOk_kept | apply bodySay_kept | split

theorem powerStateBody_kept {target k s} (h : Kept q s) : KeptB q (powerStateBody target k s) := by
  unfold powerStateBody
  with_reducible repeat' first
    | assumption | refine ite_kept ?_ ?_ | (extract_lets +onlyGivenNames t; clear_value t)
    | extract_lets +onlyGivenNames t | apply reply_kept | apply wait_kept | apply enterState_kept | apply bodyOk_kept
    | apply bodyParam_kept | apply bodySay_kept | apply runState_kept | split

theorem powerState_kept {s src target} (h : Kept q s) : Kept q (powerState s src target) := by
  unfold powerState
  with_reducible repeat' first
    | assumption | intro _ | apply runVoted_kept | apply powerStateBody_kept

theorem execPowerStateRun_kept {src s} (h : Kept q s) : KeptO q (execPowerStateRun src s) := by
  unfold execPowerStateRun
  with_reducible repeat' first
    | assumption | apply next_kept | apply powerState_kept

theorem execPowerStateIdle_kept {src s} (h : Kept q s) : KeptO q (execPowerStateIdle src s) := by
  unfold execPowerStateIdle
  with_reducible repeat' first
    | assumption | apply next_kept | apply powerState_kept

theorem execPowerStateSleep_kept {src s} (h : Kept q s) : KeptO q (execPowerStateSleep src s) := by
  unfold execPowerStateSleep
  with_reducible repeat' first
    | assumption | apply next_kept | apply powerState_kept

theorem execPowerStateDeep_kept {src s} (h : Kept q s) : KeptO q (execPowerStateDeep src s) := by
  unfold execPowerStateDeep
  with_reducible repeat' first
    | assumption | apply next_kept | apply powerState_kept

theorem execPowerStateOff_kept {src s} (h : Kept q s) : KeptO q (execPowerStateOff src s) := by
  unfold execPowerStateOff
  with_reducible repeat' first
    | assumption | apply next_kept | apply powerState_kept

theorem rediscover_kept {s i} (h : Kept q s) : Kept q (rediscover s i) := by
  unfold rediscover
  with_reducible repeat' first
    | assumption | intro _ | refine ite_kept ?_ ?_ | extract_lets +onlyGivenNames t | apply modSite_kept
    | apply draw_kept

theorem wakeDeep_kept {s cause} (h : Kept q s) : Kept q (wakeDeep s cause) := by
  unfold wakeDeep
  with_reducible repeat' first
    | assumption | intro _ | refine ite_kept ?_ ?_ | (extract_lets +onlyGivenNames t; clear_value t)
    | extract_lets +onlyGivenNames t | refine foldl_kept (fun _ _ _ => ?_) ?_ | (apply kept_mk; assumption)
    | apply modDie_kept | apply alertManager_kept | apply beginTraining_kept | apply coolantStop_kept
    | apply rediscover_kept | apply trainHost_kept

theorem aoWake_kept {s cause fromOff} (h : Kept q s) : Kept q (aoWake s cause fromOff) := by
  unfold aoWake
  with_reducible repeat' first
    | assumption | refine ite_kept ?_ ?_ | (extract_lets +onlyGivenNames t; clear_value t)
    | extract_lets +onlyGivenNames t | (apply kept_mk; assumption) | apply wakeBy_kept | apply wakeDeep_kept | split

theorem execWakeN_kept {s} (h : Kept q s) : KeptO q (execWakeN s) := by
  unfold execWakeN
  with_reducible repeat' first
    | assumption | refine ite_kept ?_ ?_ | (extract_lets +onlyGivenNames t; clear_value t)
    | extract_lets +onlyGivenNames t | apply next_kept | (apply kept_mk; assumption) | apply aoWake_kept

theorem freeWake_kept {s c} (h : Kept q s) : Kept q (freeWake s c) := by
  unfold freeWake
  with_reducible repeat' first
    | assumption | extract_lets +onlyGivenNames t | (apply kept_shared; assumption)

theorem execWakeTimerExpiry_kept {c s} (h : Kept q s) : KeptO q (execWakeTimerExpiry c s) := by
  unfold execWakeTimerExpiry
  with_reducible repeat' first
    | assumption | apply next_kept | apply aoWake_kept | apply freeWake_kept | split

theorem execManagementWake_kept {s} (h : Kept q s) : KeptO q (execManagementWake s) := by
  unfold execManagementWake
  with_reducible repeat' first
    | assumption | refine ite_kept ?_ ?_ | apply next_kept | apply emit_kept | apply aoWake_kept

/-! ## Boot -/

theorem bootState_kept {s cause env} (h : Kept q s) : Kept q (bootState s cause env) :=
  ⟨rfl, rfl, h.flash, rfl, h.queue, h.fuses, h.floor⟩

theorem bootFatal_kept {s detail} (h : Kept q s) : Kept q (bootFatal s detail) := by
  unfold bootFatal
  with_reducible repeat' first
    | assumption
    | (extract_lets +onlyGivenNames t; refine step_kept (q := q) (t := t) ?_ (fun _ => ?_); rotate_left; clear_value t; rotate_right; unfold t; clear t)
    | (extract_lets +onlyGivenNames t; clear_value t) | extract_lets +onlyGivenNames t | (apply kept_mk; assumption)
    | apply alertManager_kept | apply chkLog_kept

theorem startFirmware_kept {s} (h : Kept q s) : Kept q (startFirmware s) := by
  unfold startFirmware
  extract_lets rd hash svn raise
  refine kept_fuses h ?_ ?_
  · split <;> rfl
  · split
    · rename_i hr
      simp only [raise, Bool.and_eq_true, decide_eq_true_eq] at hr
      exact Nat.le_of_lt hr.2
    · exact Nat.le_refl _

theorem raiseDies_kept {s} (h : Kept q s) : Kept q (raiseDies s) := by
  unfold raiseDies
  with_reducible repeat' first
    | assumption | intro _ | refine ite_kept ?_ ?_
    | (extract_lets +onlyGivenNames t; refine step_kept (q := q) (t := t) ?_ (fun _ => ?_); rotate_left; clear_value t; rotate_right; unfold t; clear t)
    | (extract_lets +onlyGivenNames t; clear_value t) | extract_lets +onlyGivenNames t | (apply kept_mk; assumption)
    | apply chkLog_kept

theorem trainStacks_kept {s failed} (h : Kept q s) : Kept q (trainStacks s failed) := by
  unfold trainStacks
  with_reducible repeat' first
    | assumption | intro _ | (extract_lets +onlyGivenNames t; clear_value t) | extract_lets +onlyGivenNames t
    | (apply kept_mk; assumption)

theorem foundSite_kept {s i x} (h : Kept q s) : Kept q (foundSite s i x) := by
  unfold foundSite
  with_reducible repeat' first
    | assumption | intro _ | refine ite_kept ?_ ?_ | extract_lets +onlyGivenNames t | apply modSite_kept
    | apply draw_kept | split

theorem findSites_kept {s sites} (h : Kept q s) : Kept q (findSites s sites) := by
  unfold findSites
  with_reducible repeat' first
    | assumption | refine ite_kept ?_ ?_ | apply foundSite_kept

theorem beginUpdate_kept {s bytes} (h : Kept q s) : KeptEO q (beginUpdate s bytes) := by
  unfold beginUpdate
  split
  · exact error_keptEO
  · split
    · exact error_keptEO
    · split
      · exact error_keptEO
      · exact ok_keptEO (kept_mem h (mzero_wf h.mem))

theorem runBegin_kept {s o} (h : Kept q s) : Kept q (runBegin s o) := by
  unfold runBegin
  with_reducible repeat' first
    | assumption | intro _ | (extract_lets +onlyGivenNames t; clear_value t) | extract_lets +onlyGivenNames t
    | apply completeAll_kept | apply beginUpdate_kept | split | (refine exOk_kept (by assumption) ?_)

theorem runBegins_kept {s} (h : Kept q s) : Kept q (runBegins s) := by
  unfold runBegins
  with_reducible repeat' first
    | assumption | intro _ | refine foldl_kept (fun _ _ _ => ?_) ?_ | apply runBegin_kept

theorem finishBoot_kept {s cause env} (h : Kept q s) : Kept q (finishBoot s cause env) := by
  unfold finishBoot
  with_reducible repeat' first
    | assumption | refine ite_kept ?_ ?_
    | (extract_lets +onlyGivenNames t; refine step_kept (q := q) (t := t) ?_ (fun _ => ?_); rotate_left; clear_value t; rotate_right; unfold t; clear t)
    | (extract_lets +onlyGivenNames t; clear_value t) | extract_lets +onlyGivenNames t | (apply kept_mk; assumption)
    | apply alertManager_kept | apply bootFatal_kept | apply findSites_kept | apply raiseDies_kept
    | apply runBegins_kept | apply trainHost_kept | apply trainStacks_kept

theorem enterRecovery_kept {s} (h : Kept q s) : Kept q (enterRecovery s) := by
  unfold enterRecovery
  with_reducible repeat' first
    | assumption | (extract_lets +onlyGivenNames t; clear_value t) | extract_lets +onlyGivenNames t
    | (apply kept_mk; assumption)

theorem runBoot_kept {s cause env} (h : Kept q s) : Kept q (runBoot s cause env) := by
  unfold runBoot
  with_reducible repeat' first
    | assumption | refine ite_kept ?_ ?_ | extract_lets +onlyGivenNames t | apply alertManager_kept
    | apply bootFatal_kept | apply bootState_kept | apply enterRecovery_kept | apply finishBoot_kept
    | apply startFirmware_kept

theorem execColdBoot_kept {env s} (h : Kept q s) : KeptO q (execColdBoot env s) := by
  unfold execColdBoot
  with_reducible repeat' first
    | assumption | refine ite_kept ?_ ?_ | apply next_kept | apply finishBoot_kept | apply runBoot_kept | split

theorem heldReset_kept {s cause latched tripped} (h : Kept q s) : Kept q (heldReset s cause latched tripped) :=
  ⟨rfl, rfl, h.flash, rfl, h.queue, h.fuses, h.floor⟩

theorem execSysRstNAssert_kept {s} (h : Kept q s) : KeptO q (execSysRstNAssert s) := by
  unfold execSysRstNAssert
  with_reducible repeat' first
    | assumption | apply next_kept | apply heldReset_kept

theorem execAoPowerLoss_kept {s} (h : Kept q s) : KeptO q (execAoPowerLoss s) := by
  unfold execAoPowerLoss
  with_reducible repeat' first
    | assumption | apply next_kept | apply heldReset_kept

theorem execPllLockLoss_kept {d core s} (h : Kept q s) : KeptO q (execPllLockLoss d core s) := by
  unfold execPllLockLoss
  with_reducible repeat' first
    | assumption | intro _ | refine ite_kept ?_ ?_ | apply next_kept | apply modDie_kept

theorem execFwUpdateBegin_kept {src s} (h : Kept q s) : KeptO q (execFwUpdateBegin src s) := by
  unfold execFwUpdateBegin
  with_reducible repeat' first
    | assumption | intro _ | refine ite_kept ?_ ?_ | (extract_lets +onlyGivenNames t; clear_value t)
    | extract_lets +onlyGivenNames t | apply next_kept | apply reply_kept | apply wait_kept | apply runVoted_kept
    | apply bodyOk_kept | apply bodyParam_kept | apply bodySay_kept | apply beginUpdate_kept
    | (refine kept_image (by assumption) ?_) | exact Kept.flash (by assumption) | exact nil_wf | split
    | (refine exOk_kept (by assumption) ?_)

theorem execFwUpdateData_kept {src s} (h : Kept q s) : KeptO q (execFwUpdateData src s) := by
  unfold execFwUpdateData
  with_reducible repeat' first
    | assumption | intro _ | refine ite_kept ?_ ?_ | (extract_lets +onlyGivenNames t; clear_value t)
    | extract_lets +onlyGivenNames t | apply next_kept | apply reply_kept | apply wait_kept | apply runVoted_kept
    | apply bodyOk_kept | apply bodyParam_kept | apply bodySay_kept | (refine kept_mem (by assumption) ?_)
    | (refine kept_image (by assumption) ?_) | apply mwrites_wf | exact Kept.mem (by assumption)
    | exact Kept.flash (by assumption) | exact nil_wf | split

theorem recoveryCommit_kept {s} (h : Kept q s) : KeptB q (recoveryCommit s) := by
  unfold recoveryCommit
  with_reducible repeat' first
    | assumption | (extract_lets +onlyGivenNames t; clear_value t) | extract_lets +onlyGivenNames t | apply reply_kept
    | apply wait_kept | (apply kept_mk; assumption) | apply bodyOk_kept | apply bodySay_kept | split

theorem execFwUpdateCommit_kept {src s} (h : Kept q s) : KeptO q (execFwUpdateCommit src s) := by
  unfold execFwUpdateCommit
  with_reducible repeat' first
    | assumption | intro _ | refine ite_kept ?_ ?_ | (extract_lets +onlyGivenNames t; clear_value t)
    | extract_lets +onlyGivenNames t | apply next_kept | apply reply_kept | apply wait_kept | apply runVoted_kept
    | apply bodySay_kept | apply recoveryCommit_kept | (refine kept_image (by assumption) ?_)
    | exact Kept.flash (by assumption) | exact nil_wf | split

theorem execFlashWriteComplete_kept {readBackEqual s} (h : Kept q s) :
    KeptO q (execFlashWriteComplete readBackEqual s) := by
  unfold execFlashWriteComplete
  with_reducible repeat' first
    | assumption | extract_lets +onlyGivenNames t | apply next_kept | apply endProgramming_kept
    | (apply kept_flash; assumption) | split

theorem startBist_kept {s} (h : Kept q s) : Kept q (startBist s) := by
  unfold startBist
  with_reducible repeat' first
    | assumption | intro _ | extract_lets +onlyGivenNames t | refine foldl_kept (fun _ _ _ => ?_) ?_
    | apply modStall_kept | split

theorem queueBist_kept {s stalls kind} (h : Kept q s) : Kept q (queueBist s stalls kind) := by
  unfold queueBist
  with_reducible repeat' first
    | assumption | intro _ | refine ite_kept ?_ ?_ | extract_lets +onlyGivenNames t
    | refine foldl_kept (fun _ _ _ => ?_) ?_ | apply modStall_kept | apply startBist_kept | split | apply kept_mk

theorem execBistRun_kept {src s} (h : Kept q s) : KeptO q (execBistRun src s) := by
  unfold execBistRun
  with_reducible repeat' first
    | assumption | intro _ | (extract_lets +onlyGivenNames t; clear_value t) | extract_lets +onlyGivenNames t
    | apply next_kept | apply reply_kept | apply wait_kept | apply queueBist_kept | apply runVoted_kept
    | apply bodySay_kept | split

theorem bistTrace_kept {s i} (h : Kept q s) : Kept q (bistTrace s i) := by
  unfold bistTrace
  with_reducible repeat' first
    | assumption | intro _ | refine ite_kept ?_ ?_ | extract_lets +onlyGivenNames t
    | refine foldl_kept (fun _ _ _ => ?_) ?_ | apply tracePut_kept | apply draw_kept

theorem bistStall_kept {s kind r} (h : Kept q s) : Kept q (bistStall s kind r) := by
  unfold bistStall
  with_reducible repeat' first
    | assumption | intro _ | refine ite_kept ?_ ?_
    | (extract_lets +onlyGivenNames t; refine step_kept (q := q) (t := t) ?_ (fun _ => ?_); rotate_left; clear_value t; rotate_right; unfold t; clear t)
    | (extract_lets +onlyGivenNames t; clear_value t) | extract_lets +onlyGivenNames t | apply modStall_kept
    | apply bistTrace_kept | apply fenceStall_kept | apply unfenceStall_kept | (refine kept_spad (by assumption) ?_)
    | apply mzero_wf | apply filter_wf | exact Kept.spad (by assumption)

theorem execBistGroupComplete_kept {results s} (h : Kept q s) : KeptO q (execBistGroupComplete results s) := by
  unfold execBistGroupComplete
  with_reducible repeat' first
    | assumption | intro _ | refine ite_kept ?_ ?_
    | (extract_lets +onlyGivenNames t; refine step_kept (q := q) (t := t) ?_ (fun _ => ?_); rotate_left; clear_value t; rotate_right; unfold t; clear t)
    | extract_lets +onlyGivenNames t | apply next_kept | refine foldl_kept (fun _ _ _ => ?_) ?_
    | (apply kept_mk; assumption) | apply alertManager_kept | apply bistStall_kept | apply startBist_kept | split

theorem execBistResult_kept {src s} (h : Kept q s) : KeptO q (execBistResult src s) := by
  unfold execBistResult
  with_reducible repeat' first
    | assumption | intro _ | refine ite_kept ?_ ?_ | (extract_lets +onlyGivenNames t; clear_value t)
    | extract_lets +onlyGivenNames t | apply next_kept | apply reply_kept | apply wait_kept | apply runVoted_kept
    | apply bodyParam_kept | apply bodySay_kept | split

theorem sweepPitch_kept {s v} (h : Kept q s) : Kept q (sweepPitch s v) := by
  unfold sweepPitch
  with_reducible repeat' first
    | assumption | intro _ | refine ite_kept ?_ ?_ | extract_lets +onlyGivenNames t | apply modPart_kept
    | apply pitchOutcome_kept

theorem sweepFuses_kept {s v} (h : Kept q s) : Kept q (sweepFuses s v) := by
  unfold sweepFuses
  with_reducible repeat' first
    | assumption | (apply kept_mk; assumption) | apply fuseOutcome_kept

theorem execVoteSweep_kept {fuse pitch s} (h : Kept q s) : KeptO q (execVoteSweep fuse pitch s) := by
  unfold execVoteSweep
  with_reducible repeat' first
    | assumption | intro _ | refine ite_kept ?_ ?_
    | (extract_lets +onlyGivenNames t; refine step_kept (q := q) (t := t) ?_ (fun _ => ?_); rotate_left; clear_value t; rotate_right; unfold t; clear t)
    | extract_lets +onlyGivenNames t | apply next_kept | refine foldl_kept (fun _ _ _ => ?_) ?_
    | apply sweepFuses_kept | apply sweepPitch_kept | apply usePitch_kept

/-! ## Sec -/

theorem execGetMeasurements_kept {fn block s} (h : Kept q s) : KeptO q (execGetMeasurements fn block s) := by
  unfold execGetMeasurements
  with_reducible repeat' first
    | assumption | intro _ | refine ite_kept ?_ ?_ | (extract_lets +onlyGivenNames t; clear_value t)
    | extract_lets +onlyGivenNames t | apply next_kept | apply emit_kept

theorem execKeyExchange_kept {ownerProof s} (h : Kept q s) : KeptO q (execKeyExchange ownerProof s) := by
  unfold execKeyExchange
  with_reducible repeat' first
    | assumption | intro _ | refine ite_kept ?_ ?_
    | (extract_lets +onlyGivenNames t; refine step_kept (q := q) (t := t) ?_ (fun _ => ?_); rotate_left; clear_value t; rotate_right; unfold t; clear t)
    | (extract_lets +onlyGivenNames t; clear_value t) | extract_lets +onlyGivenNames t | apply next_kept
    | (apply kept_mk; assumption) | apply emit_kept | apply noteTraffic_kept | apply wakeBy_kept | split

theorem endSession_kept {s n} (h : Kept q s) : Kept q (endSession s n) := by
  unfold endSession
  with_reducible repeat' first
    | assumption | intro _ | refine ite_kept ?_ ?_ | (extract_lets +onlyGivenNames t; clear_value t)
    | extract_lets +onlyGivenNames t | (apply kept_mk; assumption)

theorem endSessions_kept {s} (h : Kept q s) : Kept q (endSessions s) := by
  unfold endSessions
  with_reducible repeat' first
    | assumption | intro _ | refine foldl_kept (fun _ _ _ => ?_) ?_ | apply endSession_kept

theorem execManagementSessionTimeout_kept {session s} (h : Kept q s) :
    KeptO q (execManagementSessionTimeout session s) := by
  unfold execManagementSessionTimeout
  with_reducible repeat' first
    | assumption | refine ite_kept ?_ ?_ | apply next_kept | apply endSession_kept

theorem execDynamicAddress_kept {address s} (h : Kept q s) : KeptO q (execDynamicAddress address s) := by
  unfold execDynamicAddress
  with_reducible repeat' first
    | assumption | refine ite_kept ?_ ?_ | apply next_kept | (apply kept_mk; assumption)

theorem setOwner_kept {s o} (h : Kept q s) : Kept q (setOwner s o) := by
  unfold setOwner
  with_reducible repeat' first
    | assumption | extract_lets +onlyGivenNames t | (apply kept_flash; assumption)

theorem execOwnerProvisionTake_kept {src s} (h : Kept q s) : KeptO q (execOwnerProvisionTake src s) := by
  unfold execOwnerProvisionTake
  with_reducible repeat' first
    | assumption | intro _ | refine ite_kept ?_ ?_ | apply next_kept | apply reply_kept | apply wait_kept
    | apply runVoted_kept | apply setOwner_kept | apply bodyOk_kept | apply bodyParam_kept | apply bodySay_kept
    | split

theorem execOwnerProvisionTransfer_kept {src s} (h : Kept q s) : KeptO q (execOwnerProvisionTransfer src s) := by
  unfold execOwnerProvisionTransfer
  with_reducible repeat' first
    | assumption | intro _ | refine ite_kept ?_ ?_ | apply next_kept | apply reply_kept | apply wait_kept
    | apply endSessions_kept | apply runVoted_kept | apply setOwner_kept | apply bodyOk_kept | apply bodySay_kept
    | split

theorem execOwnerProvisionRelease_kept {src s} (h : Kept q s) : KeptO q (execOwnerProvisionRelease src s) := by
  unfold execOwnerProvisionRelease
  with_reducible repeat' first
    | assumption | intro _ | refine ite_kept ?_ ?_ | apply next_kept | apply reply_kept | apply wait_kept
    | apply endSessions_kept | apply runVoted_kept | apply setOwner_kept | apply bodyOk_kept | apply bodySay_kept
    | split

theorem attest_kept {s p nonce} (h : Kept q s) : Kept q (attest s p nonce).1 := by
  unfold attest
  with_reducible repeat' first
    | assumption | intro _
    | (extract_lets +onlyGivenNames t; refine step_kept (q := q) (t := t) ?_ (fun _ => ?_); rotate_left; clear_value t; rotate_right; unfold t; clear t)
    | (extract_lets +onlyGivenNames t; clear_value t) | extract_lets +onlyGivenNames t | (apply kept_mk; assumption)
    | apply modPart_kept

theorem execAttestPartition_kept {src s} (h : Kept q s) : KeptO q (execAttestPartition src s) := by
  unfold execAttestPartition
  with_reducible repeat' first
    | assumption | intro _ | refine ite_kept ?_ ?_
    | (extract_lets +onlyGivenNames t; refine step_kept (q := q) (t := t.1) ?_ (fun _ => ?_); rotate_left; clear_value t; rotate_right; unfold t; clear t)
    | extract_lets +onlyGivenNames t | apply next_kept | apply reply_kept | apply wait_kept | apply runVoted_kept
    | apply bodyParam_kept | apply bodySay_kept | apply attest_kept | split

theorem takeKey_kept {s p slot key} (h : Kept q s) : Kept q (takeKey s p slot key) := by
  unfold takeKey
  with_reducible repeat' first
    | assumption | intro _ | refine ite_kept ?_ ?_ | extract_lets +onlyGivenNames t | apply modPart_kept
    | apply applyKeys_kept

theorem installKey_kept {s p slot keyId wrapped} (h : Kept q s) : KeptB q (installKey s p slot keyId wrapped) := by
  unfold installKey
  with_reducible repeat' first
    | assumption | intro _ | extract_lets +onlyGivenNames t | apply reply_kept | apply wait_kept | apply modPart_kept
    | apply takeKey_kept | apply bodyOk_kept | apply bodySay_kept | split

theorem execKeyInstall_kept {src s} (h : Kept q s) : KeptO q (execKeyInstall src s) := by
  unfold execKeyInstall
  refine next_kept (runVoted_kept h (fun k t ht => ?_))
  split
  · exact bodyParam_kept ht
  · exact installKey_kept ht

theorem execKeyPurge_kept {src s} (h : Kept q s) : KeptO q (execKeyPurge src s) := by
  unfold execKeyPurge
  with_reducible repeat' first
    | assumption | intro _ | refine ite_kept ?_ ?_
    | (extract_lets +onlyGivenNames t; refine step_kept (q := q) (t := t) ?_ (fun _ => ?_); rotate_left; clear_value t; rotate_right; unfold t; clear t)
    | (extract_lets +onlyGivenNames t; clear_value t) | extract_lets +onlyGivenNames t | apply next_kept
    | apply reply_kept | apply wait_kept | apply keyFault_kept | apply purgeKeys_kept | apply runVoted_kept
    | apply bodyOk_kept | apply bodyParam_kept | split

/-! ## Debug -/

theorem execTallyConfig_kept {src s} (h : Kept q s) : KeptO q (execTallyConfig src s) := by
  unfold execTallyConfig
  with_reducible repeat' first
    | assumption | intro _ | refine ite_kept ?_ ?_ | apply next_kept | apply reply_kept | apply wait_kept
    | apply modPart_kept | apply runVoted_kept | apply bodyOk_kept | apply bodyParam_kept | split

theorem sampleOne_kept {p s i} (h : Kept q s) : Kept q (sampleOne p s i) := by
  unfold sampleOne
  with_reducible repeat' first
    | assumption | apply trace_kept

theorem execCounterSample_kept {p s} (h : Kept q s) : KeptO q (execCounterSample p s) := by
  unfold execCounterSample
  with_reducible repeat' first
    | assumption | intro _ | refine ite_kept ?_ ?_ | extract_lets +onlyGivenNames t | apply next_kept
    | refine foldl_kept (fun _ _ _ => ?_) ?_ | apply modPart_kept | apply sampleOne_kept

theorem startTrace_kept {s} (h : Kept q s) : Kept q (startTrace s) := by
  unfold startTrace
  with_reducible repeat' first
    | assumption | refine ite_kept ?_ ?_ | extract_lets +onlyGivenNames t | (apply kept_shared; assumption)

theorem execTraceStop_kept {src s} (h : Kept q s) : KeptO q (execTraceStop src s) := by
  unfold execTraceStop
  with_reducible repeat' first
    | assumption | intro _ | refine ite_kept ?_ ?_ | extract_lets +onlyGivenNames t | apply next_kept
    | apply reply_kept | apply wait_kept | apply runVoted_kept | apply bodyOk_kept | apply bodyParam_kept
    | apply bodySay_kept | (apply kept_shared; assumption) | split

theorem execTraceStart_kept {src s} (h : Kept q s) : KeptO q (execTraceStart src s) := by
  unfold execTraceStart
  with_reducible repeat' first
    | assumption | intro _ | refine ite_kept ?_ ?_
    | (extract_lets +onlyGivenNames t; refine step_kept (q := q) (t := t) ?_ (fun _ => ?_); rotate_left; clear_value t; rotate_right; unfold t; clear t)
    | extract_lets +onlyGivenNames t | apply next_kept | apply reply_kept | apply wait_kept | apply runVoted_kept
    | apply startTrace_kept | apply bodyOk_kept | apply bodyParam_kept | apply bodySay_kept
    | (apply kept_shared; assumption) | split

theorem execTraceRead_kept {src s} (h : Kept q s) : KeptO q (execTraceRead src s) := by
  unfold execTraceRead
  with_reducible repeat' first
    | assumption | intro _ | refine ite_kept ?_ ?_ | (extract_lets +onlyGivenNames t; clear_value t)
    | extract_lets +onlyGivenNames t | apply next_kept | apply reply_kept | apply wait_kept | apply runVoted_kept
    | apply bodyParam_kept | split

theorem execTraceClear_kept {src s} (h : Kept q s) : KeptO q (execTraceClear src s) := by
  unfold execTraceClear
  with_reducible repeat' first
    | assumption | intro _ | refine ite_kept ?_ ?_ | (extract_lets +onlyGivenNames t; clear_value t)
    | extract_lets +onlyGivenNames t | apply next_kept | apply reply_kept | apply wait_kept | apply runVoted_kept
    | apply bodyOk_kept | apply bodyParam_kept | apply bodySay_kept | (refine kept_trace (by assumption) ?_)
    | exact Kept.trace (by assumption) | exact nil_wf | split

theorem claimResource_kept {s k} (h : Kept q s) : Kept q (claimResource s k) := by
  unfold claimResource
  with_reducible repeat' first
    | assumption | extract_lets +onlyGivenNames t | (apply kept_shared; assumption) | split

theorem releaseResource_kept {s k} (h : Kept q s) : Kept q (releaseResource s k) := by
  unfold releaseResource
  with_reducible repeat' first
    | assumption | extract_lets +onlyGivenNames t | (apply kept_shared; assumption) | split

theorem execResourceClaim_kept {src s} (h : Kept q s) : KeptO q (execResourceClaim src s) := by
  unfold execResourceClaim
  with_reducible repeat' first
    | assumption | intro _ | refine ite_kept ?_ ?_ | apply next_kept | apply reply_kept | apply wait_kept
    | apply claimResource_kept | apply runVoted_kept | apply bodyOk_kept | apply bodyParam_kept | apply bodySay_kept
    | split

theorem execResourceRelease_kept {src s} (h : Kept q s) : KeptO q (execResourceRelease src s) := by
  unfold execResourceRelease
  with_reducible repeat' first
    | assumption | intro _ | refine ite_kept ?_ ?_ | apply next_kept | apply reply_kept | apply wait_kept
    | apply releaseResource_kept | apply runVoted_kept | apply bodyOk_kept | apply bodyParam_kept | apply bodySay_kept
    | split

theorem tickEdge_kept {s} (h : Kept q s) : Kept q (tickEdge s) := by
  unfold tickEdge
  with_reducible repeat' first
    | assumption | (extract_lets +onlyGivenNames t; clear_value t) | extract_lets +onlyGivenNames t
    | (apply kept_mk; assumption) | split

theorem triggerEdge_kept {s} (h : Kept q s) : Kept q (triggerEdge s) := by
  have ht : ∀ t, Kept q t → Kept q (if traceOwned t && t.shared.stopOnTrigger then
      { t with shared := { t.shared with tracing := false } } else t) := fun t ht => by
    split
    · exact kept_shared ht
    · exact ht
  unfold triggerEdge
  apply ht
  apply trace_kept
  split
  · exact startTrace_kept h
  · exact h

theorem execSyncIoEdge_kept {s} (h : Kept q s) : KeptO q (execSyncIoEdge s) := by
  unfold execSyncIoEdge
  with_reducible repeat' first
    | assumption | apply next_kept | apply tickEdge_kept | apply triggerEdge_kept | split

theorem execDebugHalt_kept {src s} (h : Kept q s) : KeptO q (execDebugHalt src s) := by
  unfold execDebugHalt
  with_reducible repeat' first
    | assumption | intro _ | refine ite_kept ?_ ?_ | (extract_lets +onlyGivenNames t; clear_value t)
    | extract_lets +onlyGivenNames t | apply next_kept | apply reply_kept | apply wait_kept | apply modPart_kept
    | apply runVoted_kept | apply bodyOk_kept | apply bodyParam_kept | apply bodySay_kept | split

theorem resumePart_kept {s p} (h : Kept q s) : Kept q (resumePart s p) := by
  unfold resumePart
  with_reducible repeat' first
    | assumption | intro _ | refine ite_kept ?_ ?_
    | (extract_lets +onlyGivenNames t; refine step_kept (q := q) (t := t) ?_ (fun _ => ?_); rotate_left; clear_value t; rotate_right; unfold t; clear t)
    | extract_lets +onlyGivenNames t | apply modPart_kept | apply endJob_kept | apply pointReached_kept
    | apply pumpCopies_kept | apply tryStart_kept

theorem execDebugRelease_kept {src s} (h : Kept q s) : KeptO q (execDebugRelease src s) := by
  unfold execDebugRelease
  with_reducible repeat' first
    | assumption | intro _ | refine ite_kept ?_ ?_ | apply next_kept | apply reply_kept | apply wait_kept
    | apply resumePart_kept | apply runVoted_kept | apply bodyOk_kept | apply bodySay_kept | split

end Sys2Proof.Machine
end

