-- ==== Sys2Proof/Laws/Kept9.lean ====
section
/-! SUPPORT. What every operation keeps (Laws/Kept): the definitions of Machine/FeederEvents, Jtag, Package, Upsets, Clock. -/

set_option linter.tactic.unusedName false

namespace Sys2Proof.Machine

variable {q : Fixed}

/-! ## FeederEvents -/

theorem setBlock_kept {s i mvu b b'} (h : Kept q s) : Kept q (setBlock s i mvu b b') := by
  unfold setBlock
  with_reducible repeat' first
    | assumption | intro _ | refine ite_kept ?_ ?_ | apply modFeeder_kept

theorem memoryRead_kept {s p i b mvu a va n} (h : Kept q s) : Kept q (memoryRead s p i b mvu a va n).1 := by
  unfold memoryRead
  with_reducible repeat' first
    | assumption | intro _ | refine ite_kept ?_ ?_
    | (extract_lets +onlyGivenNames t; refine step_kept (q := q) (t := t) ?_ (fun _ => ?_); rotate_left; clear_value t; rotate_right; unfold t; clear t)
    | (extract_lets +onlyGivenNames t; refine step_kept (q := q) (t := t.1) ?_ (fun _ => ?_); rotate_left; clear_value t; rotate_right; unfold t; clear t)
    | (extract_lets +onlyGivenNames t; clear_value t) | extract_lets +onlyGivenNames t | apply access_kept
    | apply askMemory_kept | apply deadRead_kept | apply lookUp_kept | apply spendRead_kept | apply readVa_kept
    | split

theorem blockRead_kept {s p i b mvu va n} (h : Kept q s) : Kept q (blockRead s p i b mvu va n).1 := by
  unfold blockRead
  with_reducible repeat' first
    | assumption | intro _ | refine ite_kept ?_ ?_
    | (extract_lets +onlyGivenNames t; refine step_kept (q := q) (t := t.1) ?_ (fun _ => ?_); rotate_left; clear_value t; rotate_right; unfold t; clear t)
    | extract_lets +onlyGivenNames t | apply checkSpad_kept | apply memoryRead_kept | apply readVa_kept | split

theorem lineHere_kept {s p i mvu b bs poisoned} (h : Kept q s) : Kept q (lineHere s p i mvu b bs poisoned) := by
  unfold lineHere
  with_reducible repeat' first
    | assumption | refine ite_kept ?_ ?_ | extract_lets +onlyGivenNames t | apply setBlock_kept | apply unitError_kept

theorem execFeederLineArrival_kept {stall mvu poisoned s} (h : Kept q s) :
    KeptO q (execFeederLineArrival stall mvu poisoned s) := by
  unfold execFeederLineArrival
  with_reducible repeat' first
    | assumption | refine ite_kept ?_ ?_ | (extract_lets +onlyGivenNames t; clear_value t)
    | extract_lets +onlyGivenNames t | apply next_kept | apply contained_kept | apply lineHere_kept
    | apply setBlock_kept | apply blockRead_kept | split | (refine fst_kept (by assumption) ?_)

theorem execTagCheck_kept {stall mvu s} (h : Kept q s) : KeptO q (execTagCheck stall mvu s) := by
  unfold execTagCheck
  with_reducible repeat' first
    | assumption | intro _ | refine ite_kept ?_ ?_
    | (extract_lets +onlyGivenNames t; refine step_kept (q := q) (t := t) ?_ (fun _ => ?_); rotate_left; clear_value t; rotate_right; unfold t; clear t)
    | (extract_lets +onlyGivenNames t; clear_value t) | extract_lets +onlyGivenNames t | apply next_kept
    | apply keyFault_kept | apply modFeeder_kept | apply setBlock_kept | apply unitError_kept | split

theorem takeVerdict_kept {s i mvu} (h : Kept q s) : Kept q (takeVerdict s i mvu).2 := by
  unfold takeVerdict
  with_reducible repeat' first
    | assumption | intro _ | apply modMunit_kept | split

theorem verdictIn_kept {s i mvu fail} (h : Kept q s) : Kept q (verdictIn s i mvu fail) := by
  unfold verdictIn
  with_reducible repeat' first
    | assumption | intro _ | refine ite_kept ?_ ?_
    | (extract_lets +onlyGivenNames t; refine step_kept (q := q) (t := t) ?_ (fun _ => ?_); rotate_left; clear_value t; rotate_right; unfold t; clear t)
    | extract_lets +onlyGivenNames t | apply modMunit_kept | apply unitError_kept | split

theorem countParity_kept {s i error} (h : Kept q s) : Kept q (countParity s i error) := by
  unfold countParity
  with_reducible repeat' first
    | assumption | refine ite_kept ?_ ?_ | apply countFence_kept

theorem verdict_kept {s i mvu error} (h : Kept q s) : Kept q (verdict s i mvu error) := by
  unfold verdict
  with_reducible repeat' first
    | assumption | refine ite_kept ?_ ?_ | apply countParity_kept | apply verdictIn_kept | apply takeVerdict_kept
    | split | (refine snd_kept (by assumption) ?_)

theorem execChecksumVerdict_kept {stall error s} (h : Kept q s) : KeptO q (execChecksumVerdict stall error s) := by
  unfold execChecksumVerdict
  with_reducible repeat' first
    | assumption | apply next_kept | apply verdict_kept

theorem execResidueVerdict_kept {stall error s} (h : Kept q s) : KeptO q (execResidueVerdict stall error s) := by
  unfold execResidueVerdict
  with_reducible repeat' first
    | assumption | apply next_kept | apply verdict_kept

/-! ## Jtag -/

theorem capture_kept {s code v} (h : Kept q s) : Kept q (capture s code v) := by
  unfold capture
  with_reducible repeat' first
    | assumption | (apply kept_mk; assumption)

theorem bypass_kept {s code} (h : Kept q s) : Kept q (bypass s code) := by
  unfold bypass
  with_reducible repeat' first
    | assumption | apply capture_kept

theorem execBypass_kept {s} (h : Kept q s) : KeptO q (execBypass s) := by
  unfold execBypass
  with_reducible repeat' first
    | assumption | apply next_kept | apply bypass_kept

theorem execIdcode_kept {s} (h : Kept q s) : KeptO q (execIdcode s) := by
  unfold execIdcode
  with_reducible repeat' first
    | assumption | apply next_kept | apply capture_kept

theorem shiftOut_kept {s code} (h : Kept q s) : Kept q (shiftOut s code) := by
  unfold shiftOut
  with_reducible repeat' first
    | assumption | extract_lets +onlyGivenNames t | apply capture_kept | apply draw_kept

theorem execSamplePreload_kept {s} (h : Kept q s) : KeptO q (execSamplePreload s) := by
  unfold execSamplePreload
  with_reducible repeat' first
    | assumption | apply next_kept | apply shiftOut_kept

theorem execExtest_kept {s} (h : Kept q s) : KeptO q (execExtest s) := by
  unfold execExtest
  with_reducible repeat' first
    | assumption | refine ite_kept ?_ ?_ | apply next_kept | apply bypass_kept | apply shiftOut_kept

theorem execDebugRead_kept {address s} (h : Kept q s) : KeptO q (execDebugRead address s) := by
  unfold execDebugRead
  with_reducible repeat' first
    | assumption | refine ite_kept ?_ ?_ | apply next_kept | apply bypass_kept | apply capture_kept

theorem scanStall_kept {s i} (h : Kept q s) : Kept q (scanStall s i) := by
  unfold scanStall
  with_reducible repeat' first
    | assumption | intro _ | refine ite_kept ?_ ?_
    | (extract_lets +onlyGivenNames t; refine step_kept (q := q) (t := t) ?_ (fun _ => ?_); rotate_left; clear_value t; rotate_right; unfold t; clear t)
    | (extract_lets +onlyGivenNames t; clear_value t) | extract_lets +onlyGivenNames t | apply modPart_kept
    | apply modStall_kept | split

theorem execStallScan_kept {stall s} (h : Kept q s) : KeptO q (execStallScan stall s) := by
  unfold execStallScan
  with_reducible repeat' first
    | assumption | intro _ | refine ite_kept ?_ ?_ | apply next_kept | apply bypass_kept | apply scanStall_kept
    | apply shiftOut_kept

theorem scanHub_kept {s} (h : Kept q s) : Kept q (scanHub s) := by
  unfold scanHub
  with_reducible repeat' first
    | assumption | intro _
    | (extract_lets +onlyGivenNames t; refine step_kept (q := q) (t := t) ?_ (fun _ => ?_); rotate_left; clear_value t; rotate_right; unfold t; clear t)
    | (extract_lets +onlyGivenNames t; clear_value t) | extract_lets +onlyGivenNames t
    | refine foldl_kept (fun _ _ _ => ?_) ?_ | (apply kept_mk; assumption) | apply dropEvidence_kept
    | apply endJob_kept | apply purgeKeys_kept | apply zeroUnitRegs_kept

theorem execHubScan_kept {s} (h : Kept q s) : KeptO q (execHubScan s) := by
  unfold execHubScan
  with_reducible repeat' first
    | assumption | refine ite_kept ?_ ?_ | apply next_kept | apply bypass_kept | apply scanHub_kept
    | apply shiftOut_kept

/-! ## Package -/

theorem hostData_kept {s hpa bs} (h : Kept q s) : Kept q (hostData s hpa bs) := by
  unfold hostData
  with_reducible repeat' first
    | assumption | intro _ | (extract_lets +onlyGivenNames t; clear_value t) | extract_lets +onlyGivenNames t
    | (apply kept_mk; assumption) | apply continueReset_kept | split

theorem ackStore_kept {s p target address} (h : Kept q s) : Kept q (ackStore s p target address) := by
  unfold ackStore
  with_reducible repeat' first
    | assumption | intro _ | apply modPart_kept

theorem hostTook_kept {s hpa} (h : Kept q s) : Kept q (hostTook s hpa) := by
  unfold hostTook
  with_reducible repeat' first
    | assumption | intro _ | (apply kept_mk; assumption) | apply ackStore_kept | apply continueReset_kept
    | apply resumeReads_kept | split

theorem execCxlCacheResponse_kept {hpa data s} (h : Kept q s) : KeptO q (execCxlCacheResponse hpa data s) := by
  unfold execCxlCacheResponse
  with_reducible repeat' first
    | assumption | apply next_kept | apply hostData_kept | apply hostTook_kept | split

theorem freeLine_kept {s} (h : Kept q s) : Kept q (freeLine s).2 := by
  unfold freeLine
  with_reducible repeat' first
    | assumption | intro _ | (extract_lets +onlyGivenNames t; clear_value t) | extract_lets +onlyGivenNames t
    | (apply kept_mk; assumption)

theorem fetchTimeout_kept {s p} (h : Kept q s) : Kept q (fetchTimeout s p) := by
  unfold fetchTimeout
  with_reducible repeat' first
    | assumption | intro _ | refine ite_kept ?_ ?_ | extract_lets +onlyGivenNames t | (apply kept_mk; assumption)
    | apply freeLine_kept | split | (refine snd_kept (by assumption) ?_) | apply kept_mk

theorem copyTimeout_kept {s p} (h : Kept q s) : Kept q (copyTimeout s p) := by
  unfold copyTimeout
  with_reducible repeat' first
    | assumption | intro _ | apply modPart_kept | apply copyData_kept | apply pumpCopies_kept

theorem oneTimeout_kept {s p} (h : Kept q s) : Kept q (oneTimeout s p) := by
  unfold oneTimeout
  with_reducible repeat' first
    | assumption | intro _ | refine ite_kept ?_ ?_ | (apply kept_mk; assumption) | apply ackStore_kept
    | apply copyTimeout_kept | apply fetchTimeout_kept | apply resumeReads_kept | split

theorem execCompletionTimeout_kept {p s} (h : Kept q s) : KeptO q (execCompletionTimeout p s) := by
  unfold execCompletionTimeout
  with_reducible repeat' first
    | assumption | apply next_kept | apply continueReset_kept | apply oneTimeout_kept

theorem siteRead_kept {s i p off poison bs} (h : Kept q s) : Kept q (siteRead s i p off poison bs) := by
  unfold siteRead
  with_reducible repeat' first
    | assumption | intro _ | refine ite_kept ?_ ?_ | apply modSite_kept | apply unitError_kept

theorem execCompanionCompletion_kept {site poison data s} (h : Kept q s) :
    KeptO q (execCompanionCompletion site poison data s) := by
  unfold execCompanionCompletion
  with_reducible repeat' first
    | assumption | intro _ | refine ite_kept ?_ ?_ | extract_lets +onlyGivenNames t | apply next_kept
    | apply modSite_kept | apply ackStore_kept | apply siteRead_kept | split

theorem siteLost_kept {s p} (h : Kept q s) : Kept q (siteLost s p) := by
  unfold siteLost
  with_reducible repeat' first
    | assumption | intro _ | refine ite_kept ?_ ?_ | extract_lets +onlyGivenNames t | apply modPart_kept
    | apply contained_kept

theorem execCompanionDown_kept {site s} (h : Kept q s) : KeptO q (execCompanionDown site s) := by
  unfold execCompanionDown
  with_reducible repeat' first
    | assumption | intro _ | refine ite_kept ?_ ?_
    | (extract_lets +onlyGivenNames t; refine step_kept (q := q) (t := t) ?_ (fun _ => ?_); rotate_left; clear_value t; rotate_right; unfold t; clear t)
    | extract_lets +onlyGivenNames t | apply next_kept | refine foldl_kept (fun _ _ _ => ?_) ?_ | apply modPart_kept
    | apply modSite_kept | apply siteLost_kept

/-! ## Upsets -/

theorem upsetFlit_kept {s i lane b} (h : Kept q s) : Kept q (upsetFlit s i lane b) := by
  unfold upsetFlit
  with_reducible repeat' first
    | assumption | intro _ | extract_lets +onlyGivenNames t | apply modStall_kept

theorem upsetCrossing_kept {s key place b} (h : Kept q s) : Kept q (upsetCrossing s key place b) := by
  unfold upsetCrossing
  with_reducible repeat' first
    | assumption | intro _ | refine ite_kept ?_ ?_ | extract_lets +onlyGivenNames t | (apply kept_mk; assumption)

theorem upsetSideband_kept {s key b} (h : Kept q s) : Kept q (upsetSideband s key b) := by
  unfold upsetSideband
  with_reducible repeat' first
    | assumption | intro _ | refine ite_kept ?_ ?_ | extract_lets +onlyGivenNames t | (apply kept_mk; assumption)

theorem upsetModule_kept {s e m} (h : Kept q s) : Kept q (upsetModule s e m) := by
  unfold upsetModule
  with_reducible repeat' first
    | assumption | intro _ | refine ite_kept ?_ ?_ | extract_lets +onlyGivenNames t | (apply kept_mk; assumption)

theorem upsetRequest_kept {s place} (h : Kept q s) : Kept q (upsetRequest s place) := by
  unfold upsetRequest
  with_reducible repeat' first
    | assumption | refine ite_kept ?_ ?_ | (extract_lets +onlyGivenNames t; clear_value t)
    | extract_lets +onlyGivenNames t | (apply kept_mk; assumption) | apply logCorrected_kept | apply unitError_kept
    | split

theorem upsetRegister_kept {s i core slot reg} (h : Kept q s) : Kept q (upsetRegister s i core slot reg) := by
  unfold upsetRegister
  with_reducible repeat' first
    | assumption | intro _ | refine ite_kept ?_ ?_ | (extract_lets +onlyGivenNames t; clear_value t)
    | extract_lets +onlyGivenNames t | apply draw_kept | split | (refine snd_kept (by assumption) ?_) | apply kept_mk

theorem upsetL1_kept {s i core a} (h : Kept q s) : Kept q (upsetL1 s i core a) := by
  unfold upsetL1
  with_reducible repeat' first
    | assumption | intro _ | refine ite_kept ?_ ?_ | extract_lets +onlyGivenNames t | apply modL1_kept

theorem upsetIcache_kept {s i core line} (h : Kept q s) : Kept q (upsetIcache s i core line) := by
  unfold upsetIcache
  with_reducible repeat' first
    | assumption | intro _ | refine ite_kept ?_ ?_ | apply modStall_kept

theorem upsetSlice_kept {s p a} (h : Kept q s) : Kept q (upsetSlice s p a) := by
  unfold upsetSlice
  with_reducible repeat' first
    | assumption | intro _ | refine ite_kept ?_ ?_ | apply modLine_kept

theorem upsetFilter_kept {s p a} (h : Kept q s) : Kept q (upsetFilter s p a) := by
  unfold upsetFilter
  with_reducible repeat' first
    | assumption | intro _ | extract_lets +onlyGivenNames t | apply modLine_kept

theorem upsetSpad_kept {s byte b} (h : Kept q s) : Kept q (upsetSpad s byte b) := by
  unfold upsetSpad
  with_reducible repeat' first
    | assumption | intro _ | refine ite_kept ?_ ?_ | (extract_lets +onlyGivenNames t; clear_value t)
    | extract_lets +onlyGivenNames t | (refine kept_spad (by assumption) ?_) | apply mwrite_wf | apply filter_wf
    | exact Kept.spad (by assumption)

theorem upsetSchedule_kept {s i q1} (h : Kept q s) : Kept q (upsetSchedule s i q1) := by
  unfold upsetSchedule
  with_reducible repeat' first
    | assumption | intro _ | refine ite_kept ?_ ?_ | apply modStall_kept

theorem upsetLedger_kept {s i place} (h : Kept q s) : Kept q (upsetLedger s i place) := by
  unfold upsetLedger
  with_reducible repeat' first
    | assumption | intro _ | refine ite_kept ?_ ?_ | apply modStall_kept

theorem upsetPorter_kept {s p} (h : Kept q s) : Kept q (upsetPorter s p) := by
  unfold upsetPorter
  with_reducible repeat' first
    | assumption | intro _ | refine ite_kept ?_ ?_ | extract_lets +onlyGivenNames t | apply modPart_kept
    | apply endCopy_kept | apply logCorrected_kept | split

theorem upsetPitch_kept {s p copy} (h : Kept q s) : Kept q (upsetPitch s p copy) := by
  unfold upsetPitch
  with_reducible repeat' first
    | assumption | intro _ | refine ite_kept ?_ ?_ | apply modPart_kept

theorem upsetFuse_kept {s copy} (h : Kept q s) : Kept q (upsetFuse s copy) := by
  unfold upsetFuse
  with_reducible repeat' first
    | assumption | refine ite_kept ?_ ?_ | (apply kept_mk; assumption)

theorem upsetSession_kept {s entry b} (h : Kept q s) : Kept q (upsetSession s entry b) := by
  unfold upsetSession
  with_reducible repeat' first
    | assumption | (extract_lets +onlyGivenNames t; clear_value t) | extract_lets +onlyGivenNames t
    | (refine kept_mem (by assumption) ?_) | apply mwrite_wf | exact Kept.mem (by assumption)

theorem applyUpset_kept {s a1} (h : Kept q s) : Kept q (applyUpset s a1) := by
  unfold applyUpset
  with_reducible repeat' first
    | assumption | refine ite_kept ?_ ?_ | apply upsetCrossing_kept | apply upsetFilter_kept | apply upsetFlit_kept
    | apply upsetFuse_kept | apply upsetIcache_kept | apply upsetL1_kept | apply upsetLedger_kept
    | apply upsetModule_kept | apply upsetPitch_kept | apply upsetPorter_kept | apply upsetRegister_kept
    | apply upsetRequest_kept | apply upsetSchedule_kept | apply upsetSession_kept | apply upsetSideband_kept
    | apply upsetSlice_kept | apply upsetSpad_kept | split

theorem strike_kept {s} (h : Kept q s) : Kept q (strike s) := by
  unfold strike
  with_reducible repeat' first
    | assumption | extract_lets +onlyGivenNames t | apply applyUpset_kept | apply draw_kept | split
    | (refine snd_kept (by assumption) ?_)

/-! ## Clock -/

theorem startNear_kept {s p} (h : Kept q s) : Kept q (startNear s p) := by
  unfold startNear
  with_reducible repeat' first
    | assumption | intro _ | extract_lets +onlyGivenNames t | apply modPart_kept | apply tryStart_kept | split

theorem idleTick_kept {s} (h : Kept q s) : Kept q (idleTick s) := by
  unfold idleTick
  with_reducible repeat' first
    | assumption | intro _ | refine ite_kept ?_ ?_
    | (extract_lets +onlyGivenNames t; refine step_kept (q := q) (t := t) ?_ (fun _ => ?_); rotate_left; clear_value t; rotate_right; unfold t; clear t)
    | extract_lets +onlyGivenNames t | refine foldl_kept (fun _ _ _ => ?_) ?_ | (apply kept_mk; assumption)
    | apply dpResume_kept | apply pushSidebands_kept | apply startNear_kept | apply strike_kept

end Sys2Proof.Machine
end

