-- ==== Sys2Proof/Laws/Packets.lean ====
section
/-! SUPPORT. What a reply changes, and the course of an accepted packet (R377 to R384): the lemmas a claim about a packet
command cites in place of unfolding `runPacket`. -/

namespace Sys2Proof.Machine

/-! ## What only the ports see -/

theorem PortOnly.refl (s : State) : PortOnly s s := rfl

theorem PortOnly.trans {s t u : State} (h : PortOnly s t) (g : PortOnly t u) : PortOnly s u := by
  unfold PortOnly at *
  rw [g, h]

theorem modFn_portOnly {s : State} {fn : Nat} {f : FnState → FnState} : PortOnly s (s.modFn fn f) := rfl

theorem emit_portOnly {s : State} {o : Output} : PortOnly s (s.emit o) := rfl

theorem openPacket_portOnly {s : State} {k : Packet} {d : Option Deferred} : PortOnly s (openPacket s k d) := rfl

theorem dropOutstanding_portOnly {s : State} {port : ReplyPort} {tag : Nat} :
    PortOnly s (dropOutstanding s port tag) := rfl

theorem sendMsix_portOnly {s : State} {fn v : Nat} : PortOnly s (sendMsix s fn v) := by
  unfold sendMsix
  split
  · exact modFn_portOnly
  · exact emit_portOnly

theorem raiseCause_portOnly {s : State} {fn i : Nat} : PortOnly s (raiseCause s fn i) := by
  unfold raiseCause
  extract_lets f s'
  split
  · exact PortOnly.refl s
  · split
    · exact modFn_portOnly
    · exact modFn_portOnly.trans sendMsix_portOnly

theorem closePacket_portOnly {s : State} {fn : Nat} {e : RingEntry} : PortOnly s (closePacket s fn e) := by
  have h1 : PortOnly s (if h : fn < 65 then dropOutstanding s (.host ⟨fn, h⟩) e.tag else s) := by
    split
    · exact dropOutstanding_portOnly
    · exact PortOnly.refl s
  unfold closePacket
  extract_lets u
  cases e.slot with
  | none => exact h1
  | some i => exact h1.trans modFn_portOnly

/-- Closing a packet puts nothing out. -/
theorem out_closePacket {s : State} {fn : Nat} {e : RingEntry} : (closePacket s fn e).out = s.out := by
  have h1 : (if h : fn < 65 then dropOutstanding s (.host ⟨fn, h⟩) e.tag else s).out = s.out := by split <;> rfl
  unfold closePacket
  extract_lets u
  cases e.slot with
  | none => exact h1
  | some i => exact h1

theorem writeEntry_portOnly {s : State} {fn : Nat} {e : RingEntry} : PortOnly s (writeEntry s fn e) := by
  have h0 := (emit_portOnly (s := s) (o := .hostWrite fn
    ((s.fn fn).ringBase + 16 * ((s.fn fn).producer % ringSize (s.fn fn))) (entryBytes (s.fn fn) e))).trans
    (modFn_portOnly (fn := fn) (f := fun f => { f with producer := (f.producer + 1) % 2 ^ 32 }))
  unfold writeEntry
  extract_lets f s1 s2 s3
  have h3 : PortOnly s s3 := h0.trans closePacket_portOnly
  split
  · exact h0.trans raiseCause_portOnly
  · split
    · exact h3.trans raiseCause_portOnly
    · exact h3

theorem drainRing_portOnly {fn : Nat} {l : List RingEntry} {s : State} : PortOnly s (drainRing fn l s) := by
  induction l generalizing s with
  | nil => exact modFn_portOnly
  | cons e r ih =>
    unfold drainRing
    split
    · exact writeEntry_portOnly.trans ih
    · exact modFn_portOnly

theorem postEntry_portOnly {s : State} {fn : Nat} {e : RingEntry} : PortOnly s (postEntry s fn e) := by
  unfold postEntry
  extract_lets t
  split
  · exact drainRing_portOnly
  · exact drainRing_portOnly.trans raiseCause_portOnly

/-- A device event changes nothing but its function's ring and interrupt registers (R385). -/
theorem postEvent_portOnly {s : State} {fn source status detail tick : Nat} :
    PortOnly s (postEvent s fn source status detail tick) := by
  unfold postEvent
  extract_lets f
  split
  · exact modFn_portOnly
  · exact postEntry_portOnly

theorem noteTraffic_portOnly {s : State} {n : Nat} : PortOnly s (noteTraffic s n) := rfl

theorem postReply_portOnly {s : State} {who : ReplyTo} {part status detail : Nat} {block : List Byte} :
    PortOnly s (postReply s who part status detail block) := by
  unfold postReply
  split
  · exact postEntry_portOnly
  · extract_lets t
    split
    · exact dropOutstanding_portOnly
    · exact (dropOutstanding_portOnly.trans noteTraffic_portOnly).trans emit_portOnly

theorem writeOut_portOnly {s : State} {k : Packet} {out : Nat} {block : List Byte} :
    PortOnly s (writeOut s k out block) := by
  unfold writeOut
  split
  · split
    · exact PortOnly.refl s
    · exact emit_portOnly
  · exact PortOnly.refl s

/-- A reply changes nothing but the port's own registers, the packets outstanding, and what has left the device. -/
theorem replyNow_portOnly {s : State} {k : Packet} {status detail out : Nat} {block : List Byte} :
    PortOnly s (replyNow s k status detail out block) :=
  (openPacket_portOnly.trans writeOut_portOnly).trans postReply_portOnly

theorem noRing_portOnly {s : State} {k : Packet} {status : Nat} : PortOnly s (noRing s k status) := by
  unfold noRing
  split
  · exact modFn_portOnly
  · exact PortOnly.refl s

/-! ## The reply is made -/

theorem fn_emit (s : State) (o : Output) (n : Nat) : (s.emit o).fn n = s.fn n := rfl

theorem out_sendMsix {s : State} {fn v : Nat} {o : Output} (h : o ∈ s.out) : o ∈ (sendMsix s fn v).out := by
  unfold sendMsix
  split
  · exact h
  · exact List.mem_cons_of_mem _ h

theorem out_raiseCause {s : State} {fn i : Nat} {o : Output} (h : o ∈ s.out) : o ∈ (raiseCause s fn i).out := by
  unfold raiseCause
  extract_lets f s'
  split
  · exact h
  · split
    · exact h
    · exact out_sendMsix h

theorem waiting_sendMsix {s : State} {fn v n : Nat} : ((sendMsix s fn v).fn n).waiting = (s.fn n).waiting := by
  unfold sendMsix
  split
  · by_cases hn : n = fn
    · subst hn
      simp
    · rw [fn_modFn_other _ _ hn]
  · rfl

theorem waiting_raiseCause {s : State} {fn i n : Nat} : ((raiseCause s fn i).fn n).waiting = (s.fn n).waiting := by
  have hm : ∀ f : FnState → FnState, (∀ x, (f x).waiting = x.waiting) → ((s.modFn fn f).fn n).waiting = (s.fn n).waiting := by
    intro f hf
    by_cases hn : n = fn
    · subst hn
      simp [hf]
    · rw [fn_modFn_other _ _ hn]
  unfold raiseCause
  extract_lets f s'
  split
  · rfl
  · split
    · exact hm _ (fun _ => rfl)
    · exact waiting_sendMsix.trans (hm _ (fun _ => rfl))

theorem out_writeEntry {s : State} {fn : Nat} {e : RingEntry} {o : Output} (h : o ∈ s.out) :
    o ∈ (writeEntry s fn e).out := by
  unfold writeEntry
  extract_lets f s1 s2 s3
  have h2 : o ∈ s2.out := List.mem_cons_of_mem _ h
  have h3 : o ∈ s3.out := by rw [show s3.out = s2.out from out_closePacket]; exact h2
  split
  · exact out_raiseCause h2
  · split
    · exact out_raiseCause h3
    · exact h3

theorem entry_writeEntry {s : State} {fn : Nat} {e : RingEntry} :
    ∃ a f, Output.hostWrite fn a (entryBytes f e) ∈ (writeEntry s fn e).out := by
  refine ⟨(s.fn fn).ringBase + 16 * ((s.fn fn).producer % ringSize (s.fn fn)), s.fn fn, ?_⟩
  unfold writeEntry
  extract_lets f s1 s2 s3
  have h2 : Output.hostWrite fn (f.ringBase + 16 * (f.producer % ringSize f)) (entryBytes f e) ∈ s2.out :=
    List.mem_cons_self ..
  have h3 : Output.hostWrite fn (f.ringBase + 16 * (f.producer % ringSize f)) (entryBytes f e) ∈ s3.out := by
    rw [show s3.out = s2.out from out_closePacket]; exact h2
  split
  · exact out_raiseCause h2
  · split
    · exact out_raiseCause h3
    · exact h3

theorem out_drainRing {fn : Nat} {l : List RingEntry} {s : State} {o : Output} (h : o ∈ s.out) :
    o ∈ (drainRing fn l s).out := by
  induction l generalizing s with
  | nil => exact h
  | cons e r ih =>
    unfold drainRing
    split
    · exact ih (out_writeEntry h)
    · exact h

/-- Every entry that is drained is written or waits. -/
theorem drainRing_has {fn : Nat} {l : List RingEntry} {s : State} {e : RingEntry} (h : e ∈ l) :
    e ∈ ((drainRing fn l s).fn fn).waiting ∨ ∃ a f, Output.hostWrite fn a (entryBytes f e) ∈ (drainRing fn l s).out := by
  induction l generalizing s with
  | nil => exact nomatch h
  | cons x r ih =>
    unfold drainRing
    split
    · rcases List.mem_cons.1 h with rfl | h
      · obtain ⟨a, f, ho⟩ := entry_writeEntry (s := s) (fn := fn) (e := e)
        exact .inr ⟨a, f, out_drainRing ho⟩
      · exact ih h
    · exact .inl (by simpa using h)

/-- An entry that is ready is written to the ring or waits for room there (R385). -/
theorem postEntry_has {s : State} {fn : Nat} {e : RingEntry} :
    e ∈ ((postEntry s fn e).fn fn).waiting ∨ ∃ a f, Output.hostWrite fn a (entryBytes f e) ∈ (postEntry s fn e).out := by
  have h := drainRing_has (fn := fn) (s := s) (l := (s.fn fn).waiting ++ [e]) (e := e) (by simp)
  unfold postEntry
  extract_lets t
  split
  · exact h
  · rcases h with h | ⟨a, f, h⟩
    · exact .inl (by rw [waiting_raiseCause]; exact h)
    · exact .inr ⟨a, f, out_raiseCause h⟩

theorem out_dropOutstanding {s : State} {port : ReplyPort} {tag : Nat} : (dropOutstanding s port tag).out = s.out := rfl

theorem out_postEntry {s : State} {fn : Nat} {e : RingEntry} {o : Output} (h : o ∈ s.out) : o ∈ (postEntry s fn e).out := by
  unfold postEntry
  extract_lets t
  have ht : o ∈ t.out := out_drainRing h
  split
  · exact ht
  · exact out_raiseCause ht

theorem out_postReply {s : State} {who : ReplyTo} {part status detail : Nat} {block : List Byte} {o : Output}
    (h : o ∈ s.out) : o ∈ (postReply s who part status detail block).out := by
  unfold postReply
  split
  · exact out_postEntry h
  · extract_lets t
    split
    · exact h
    · exact List.mem_cons_of_mem _ h

/-- A refusal changes only what the port owns, whether or not its packet keeps its slot (R380, R381). -/
theorem refusePacket_portOnly {s : State} {src : PktSrc} {k : Packet} {status detail : Nat} :
    PortOnly s (refusePacket s src k status detail) := by
  unfold refusePacket
  cases src with
  | mgmt n ws => exact replyNow_portOnly
  | slot fn i =>
    simp only
    split
    · exact replyNow_portOnly
    · exact PortOnly.trans (by rfl) postReply_portOnly

/-! ## The course of an accepted packet -/

/-- Where a body ends: its reply is made, or its packet waits. -/
def bodyEnd (k : Packet) : Body → State
  | .reply s st d out block => replyNow s k st d out block
  | .wait s d => openPacket s k (some d)

/-- An accepted packet finds no copy that fails, so that the votes change nothing (R313). -/
theorem voted_accepted {s : State} {src : PktSrc} {op : Nat} {k : Packet} {mine : Packet → Bool} (h : Accepted s src op k) :
    voted s src mine = s := by
  unfold voted
  rw [h.stands]
  simp only
  split
  · simp [usePitch, useFuses, h.intact.1, h.intact.2]
  · rfl

/-- An accepted packet of the event's own row runs its body in the started state. -/
theorem runPacket_accepted {s : State} {src : PktSrc} {op : Nat} {k : Packet} {mine : Packet → Bool}
    {body : Packet → State → Body} (h : Accepted s src op k) (hm : mine k = true) :
    runPacket s src mine body = bodyEnd k (body k (started s src k)) := by
  have hr := h.ring
  have hc := h.checks
  unfold started at hr hc
  unfold runPacket
  rw [h.stands]
  simp only [hm, h.starts, hr, Bool.not_true, Bool.or_self, Bool.false_eq_true, if_false, if_true, startPacket, hc]
  unfold started
  cases body k (wakeBy (freeSlot s src) (wakeCauseOf k)) <;> rfl

theorem bodyEnd_ok {s : State} {k : Packet} : bodyEnd k (.ok s) = replyNow s k Status.ok 0 0 [] := rfl

theorem bodyEnd_say {s : State} {k : Packet} {st d : Nat} : bodyEnd k (.say s st d) = replyNow s k st d 0 [] := rfl

theorem bodyEnd_param {s : State} {k : Packet} :
    bodyEnd k (.param s) = replyNow s k Status.badState Detail.hstParam 0 [] := rfl

/-- The same for a command whose packet votes the copies it uses. -/
theorem runVoted_accepted {s : State} {src : PktSrc} {op : Nat} {k : Packet} {mine : Packet → Bool}
    {body : Packet → State → Body} (h : Accepted s src op k) (hm : mine k = true) :
    runVoted s src mine body = bodyEnd k (body k (started s src k)) := by
  unfold runVoted
  rw [voted_accepted h]
  exact runPacket_accepted h hm

/-- A command whose body replies completes with that reply. -/
theorem completes_reply {c : PktSrc → Instr} {op : Nat} {pre : State → Packet → Prop} {post : State → Packet → State → Prop}
    {mine : Packet → Bool} {body : Packet → State → Body} (hx : ∀ src s, exec (c src) s = .next (runVoted s src mine body))
    (hm : ∀ s k, k.op = op → pre s k → mine k = true)
    (hp : ∀ s k, k.op = op → pre s k → post s k (bodyEnd k (body k s))) : Completes c op pre post := by
  intro s src k h hpre
  refine ⟨_, hx src s, ?_⟩
  rw [runVoted_accepted h (hm _ k h.opcode hpre)]
  exact hp _ k h.opcode hpre

/-- An entry at a queue's head runs its body. -/
theorem runEntry_at {s : State} {p k op : Nat} {e : Entry} {needsJob : Bool} {body : Entry → State → State}
    (h : EntryAt s p k op e) (hj : needsJob = true → (s.part p).job.running = true) :
    runEntry s p k op needsJob body = body e s := by
  unfold runEntry
  rw [h.runs, h.active, h.head]
  cases needsJob
  · simp [h.opcode]
  · simp [h.opcode, hj rfl]

/-- An instruction fetched acts. -/
theorem issue_fetched {s s' : State} {g : GroupRef} {w : W64} {c : OpClass} {act : State → State}
    (h : Fetched s g w c s') : issue g w c act s = .next (act s') := by
  unfold issue
  rw [h.may, h.legal, h.fetch]
  simp [h.cls, h.still, issued, h.intact]

/-- A host access on a port that is up acts once the device is awake. -/
theorem hostAsks_up {s : State} {f : State → State} (h : hostUp s = true) : hostAsks s f = f (wakeBy s 1) := by
  simp [hostAsks, h]

/-- A refused packet is replied to with the first check it fails, and nothing else happens (R380). -/
theorem runPacket_refused {s : State} {src : PktSrc} {k : Packet} {mine : Packet → Bool} {body : Packet → State → Body}
    {st d : Nat} (ha : packetAt s src = some k) (hm : mine k = true) (hs : mayStart s k = true)
    (hr : hasRing (started s src k) k = true) (hc : checkPacket (started s src k) k = some (st, d)) :
    runPacket s src mine body = refusePacket (started s src k) src k st d := by
  unfold started at hr hc
  unfold runPacket
  rw [ha]
  simp only [hm, hs, hr, Bool.not_true, Bool.or_self, Bool.false_eq_true, if_false, if_true, startPacket, hc]
  rfl

end Sys2Proof.Machine
end

