-- ==== Sys2Proof/WellFormed.lean ====
section
/-! DEFINITION. Which commands are well formed: the bounds on their operands that the types do not carry (packet lengths,
cacheline and lane alignment, the shape of a frame, one value for each die, stall or site, no bit named twice). -/

namespace Sys2Proof

/-- Whether no number stands twice in a list. -/
def distinct : List Nat → Bool
  | [] => true
  | x :: r => !decide (x ∈ r) && distinct r

/-- Whether an address is that of a 64-byte cacheline (R369). -/
def lineAligned (a : Nat) : Bool := decide (a % 64 = 0)

/-- Whether a packet's source fits a command slot, or a management message holds a header and at most 1,020 parameter
words (R377, R379). -/
def srcOk : PktSrc → Bool
  | .slot _ _ => true
  | .mgmt _ words => decide (4 ≤ words.length) && decide (words.length ≤ 1024)

/-- Whether the lanes of an atomic stand in ascending order, each aligned to its type (R191, R192). -/
def lanesOk (t : AtomType) : List AtomLane → Bool
  | [] => true
  | l :: r =>
    let n := match t with | .u64 => 8 | .s64 => 8 | _ => 4
    decide (l.offset.val % n = 0) && r.all (fun x => decide (l.lane.val < x.lane.val)) && lanesOk t r

/-- Whether an item carries at most 32 lanes and 63 data slots of 64 bytes (Table ZLK-4). -/
def itemOk (i : Item) : Bool := decide (i.lanes.length ≤ 32) && decide (i.data.length ≤ 4032)

/-- Whether a frame has 25 slots of 64 bytes, each with its kind and mark (Table ZLK-2). -/
def frameOk (f : Frame) : Bool :=
  decide (f.kinds.length = 25) && decide (f.marks.length = 25) && decide (f.slots.length = 25) &&
    f.slots.all (fun b => decide (b.length = 64))

/-- Whether a command is well formed. -/
def Instr.wellFormed (i : Instr) : Bool :=
  match i with
  | .nop src | .getInfo src | .setReplyRing src | .invalidOpcodePacket src | .queueSubmit src | .queueHalt src
  | .queueResume src | .queueFlush src | .queueStatus src | .jobStart src | .jobEnd src | .portCopy src
  | .pinLines src | .unpinLines src | .discardLines src | .sessionOpen src | .sessionAppend src | .sessionClose src
  | .sessionQuery src | .partitionCreate src | .partitionDestroy src | .partitionReset src | .partitionSetLease src
  | .dirtyLogStart src | .dirtyLogCollect src | .dirtyLogStop src | .powerSetCap src | .powerSetMode src
  | .powerStateRun src | .powerStateIdle src | .powerStateSleep src | .powerStateDeep src | .powerStateOff src
  | .telemetryRead src | .attestPartition src | .keyInstall src | .keyPurge src | .ownerProvisionTake src
  | .ownerProvisionTransfer src | .ownerProvisionRelease src | .bistRun src | .bistResult src | .fwUpdateBegin src
  | .fwUpdateData src | .fwUpdateCommit src | .tallyConfig src | .traceStop src | .traceStart src | .traceRead src
  | .traceClear src | .debugHalt src | .debugRelease src | .linkConfig src | .linkStatus src | .chainEnumerate src
  | .resourceClaim src | .resourceRelease src => srcOk src
  | .slotWrite _ _ offset data => !data.isEmpty && decide (offset.toNat + data.length ≤ 4096)
  | .dataPortWrite _ data => decide (1 ≤ data.length) && decide (data.length ≤ 512)
  | .dataPortRead _ n => decide (1 ≤ n) && decide (n ≤ 4096)
  | .memrd address _ => lineAligned address.toNat
  | .memwr address data => lineAligned address.toNat && decide (data.length = 64)
  | .birsp address => lineAligned address.toNat
  | .biconflict address => lineAligned address.toNat
  | .hostSnoop hpa => lineAligned hpa.toNat
  | .cxlCacheResponse hpa data => lineAligned hpa.toNat && data.all (fun bs => decide (bs.length = 64))
  | .cxlIoCompletion _ data => data.all (fun bs => decide (1 ≤ bs.length) && decide (bs.length ≤ 4096))
  | .wrl _ _ _ cells => !cells.isEmpty && distinct (cells.map (fun c => c.1.val))
  | .atom req => lanesOk req.type req.lanes
  | .frame _ f => frameOk f
  | .lsmReadReturn _ _ flips => distinct (flips.map (fun x => 18 * x.1.val + x.2.val))
  | .powerSample sample =>
    decide (sample.dieMilliwatt.length = 4) && decide (sample.stallMilliwatt.length = 64) && decide (sample.lsmMilliwatt.length = 256)
  | .coldBoot env => decide (env.sites.length = 2)
  | .voteSweep _ pitch => distinct (pitch.map (fun x => x.1.val))
  | .bistGroupComplete results => decide (results.length ≤ 16) && distinct (results.map (fun r => r.stall.val))
  | .companionCompletion _ _ data => decide (data.length ≤ 64)
  | .write _ item => itemOk item
  | .readReq _ item => itemOk item
  | .readRsp _ item => itemOk item
  | .atomReq _ item => itemOk item
  | .atomRsp _ item => itemOk item
  | .token _ item => itemOk item
  | .count _ item => itemOk item
  | .result _ item => itemOk item
  | .planLoad _ | .planUnload _ | .planRun _ | .launch _ | .copy _ | .serve _ | .syncWait _ | .syncSignal _
  | .syncAdd _ | .syncNotify _ | .queueWaitTimeout _ _ | .registerWrite _ _ _ _ _ | .ringHeadWrite _ _
  | .intCtrlWrite _ _ | .intCauseWrite _ _ | .hwinWrite _ _ _ _ | .dpAddrWrite _ _ | .dpAddrRead _ | .dpCtrlWrite _ _
  | .refillDone _ | .configurationRequest _ _ _ _ | .flrVf _ | .flrPf0 | .perstNAssert | .getMeasurements _ _
  | .keyExchange _ | .managementSessionTimeout _ | .rdS _ _ _ | .rdU _ _ _ | .upg _ _ _ | .rdNa _ _ _ _ _
  | .disc _ _ _ | .wb _ _ _ | .snpInv _ _ _ | .snpDown _ _ _ | .snpSnap _ _ _ | .rspAck _ _ _ | .rspData _ _ _
  | .rspNp _ _ _ | .rspWbp _ _ _ | .dataS _ _ _ | .dataE _ _ _ | .dataM _ _ _ | .dataNa _ _ _ | .ack _ _ _
  | .wbAck _ _ _ | .combiningWindowClose _ _ | .baseDieWriteError _ | .refresh _ _
  | .channelRecalibrate _ | .channelRetrain _ _ | .stackTempReport _ _ | .refillTimeout _ | .domainTick _ _
  | .feederLineArrival _ _ _ | .tagCheck _ _ | .checksumVerdict _ _ | .residueVerdict _ _ | .partPaged _ _ | .bell _
  | .stageBell _ | .sessionStep _ | .ctlNop _ _ | .bra _ _ | .bru _ _ | .jset _ _ | .brd _ _ | .brk _ _ | .join _ _
  | .exit _ _ | .vectorInteger _ _ | .vectorFloat _ _ | .conversion _ _ | .compare _ _ | .uniformInteger _ _
  | .sreg _ _ | .clrf _ _ | .ld _ _ | .st _ _ | .pref _ _ | .discard _ _ | .atomicAdd _ _ | .atomicMin _ _
  | .atomicMax _ _ | .atomicAnd _ _ | .atomicOr _ _ | .atomicXor _ _ | .atomicExch _ _ | .atomicCas _ _ | .fence _ _
  | .bar _ _ | .gmma _ _ | .illegalInstruction _ _ | .launchCommit _ | .watchdogExpiry _ | .linkAck _ _ | .lost _ _
  | .credit _ _ | .hello _ _ _ _ | .echo _ _ _ _ | .enum _ _ _ | .joinSymbol _ _ _ | .start _ _ _ _ | .commit _ _
  | .replay _ _ | .applied _ _ | .abandon _ _ | .unitError _ _ | .mask _ _ _ _ _ | .tickSync _ _ _ | .reach _ _ _ _ _
  | .ackTimeout _ | .portSilenceTimeout _ | .trainTimeout _ | .reachWindowExpiry _ | .voteTimeout _ | .budgetExchange
  | .extraBubbleStart _ | .coreClockStep _ | .droopDetect _ | .droopClear _ _ | .pwrAlertAssert | .pwrAlertRelease
  | .dieTempRead _ _ | .thermtrip | .coolantSample _ | .vinLowTimeout | .leaseExpiry _ | .graceExpiry _ | .wakeN
  | .wakeTimerExpiry _ | .managementWake | .aoPowerLoss | .syncIoEdge | .companionDown _ | .bypass | .idcode
  | .samplePreload | .extest | .debugRead _ | .stallScan _ | .hubScan | .sysRstNAssert | .perstNRelease
  | .pllLockLoss _ _ | .vinIvrRemoval | .completionTimeout _ | .counterSample _ | .flashWriteComplete _
  | .lsmWriteComplete _ | .frameSend _ | .dynamicAddress _ => true

end Sys2Proof
end

