-- ==== Sys2Proof/Tests/Slice0.lean ====
section
/-! SUPPORT. Tests: ill-formed commands that WellFormed refuses, for every statement with hypotheses a concrete state and
operands that meet them clause by clause (`witness_…`), and single steps on small states (`test_…`). Expected values
come from the manual's rules and tables. -/

namespace Sys2Proof.Tests

open Sys2Proof.Machine

set_option Elab.async false

/-! ## Small states -/

/-- A device that has booted: it runs, is owned, and has management session 0 open. -/
def ready : State := { State.reset with
  perst := false, boot := { stage := .ready, reached := true, due := none }
  power := { halted := false, coolantOk := true }
  sec := { ownerKey := some 1, aliasValid := true, sessions := [(0, true)] } }

/-- Page tables at 1000H, 2000H and 3000H: 2 MiB pages of LSM (virtual 0), of the scratchpad of stall 0 (20_0000H), of the
host window (40_0000H), a read-only one of LSM (60_0000H), and of companion site 0 (80_0000H). -/
def tables : List Host.Cell :=
  mwrites (mwrites (mwrites [] 0x1000 (natLe 8 0x2001)) 0x2000 (natLe 8 0x3001)) 0x3000
    (natLe 8 0x200007 ++ natLe 8 0x80000000007 ++ natLe 8 0xA0000000007 ++ natLe 8 0x400003 ++ natLe 8 0xC0000000007)

/-- Partition 0: stall 0, the first memory unit, ELASTIC, no job. -/
def part0 : Part :=
  { present := true, state := .idle
    record := { stalls := 1, root := 0x1000, timing := 2, check := 2, session := 2, mem := 1, sesCount := 4, pinQuota := 8,
                stageQuota := 8, stageWays := 4 }
    cache := { sliceList := [0] } }

/-- The device with partition 0. -/
def dev : State := { ready with parts := [(0, part0)], mem := tables }

/-- `dev` with partition 0 changed. -/
def devWith (f : Part → Part) : State := { dev with parts := [(0, f part0)] }

/-- `dev` with bytes written to memory. -/
def devMem (a : Nat) (bs : List Byte) : State := { dev with mem := mwrites dev.mem a bs }

/-- The words of a packet with its CRC (Table HST-5). -/
def pkt (op part : Nat) (params : List Nat) : List W32 :=
  let head := fun (crc : Nat) => [BitVec.ofNat 32 (op + 2 ^ 24), 7, BitVec.ofNat 32 (params.length + 65536 * part), BitVec.ofNat 32 crc]
  let body := params.map (BitVec.ofNat 32)
  head (crc32c (wordBytes (head 0 ++ body))) ++ body

/-- A packet on management session 0. -/
def mg (op part : Nat) (params : List Nat) : PktSrc := .mgmt 0 (pkt op part params)

/-- A state with a packet committed in slot 0 of a function that has a ring. -/
def host (s : State) (fn op part : Nat) (params : List Nat) : State :=
  s.modFn fn (fun f => { f with
    ringLog2 := 13, order := [0]
    slots := [(0, { committed := true, words := (List.range 1024).zip (pkt op part params) })] })

/-- Whether a packet of an opcode is accepted, and a premise holds once it has started. -/
def meets (s : State) (src : PktSrc) (op : Nat) (pre : State → Packet → Bool) : Bool :=
  match packetAt s src with
  | none => false
  | some k =>
    decide (k.op = op) && mayStart s k && hasRing (started s src k) k && (checkPacket (started s src k) k).isNone &&
      decide (s.fuseOdd = [] ∧ (s.part k.part).pitchOdd = []) && pre (started s src k) k

/-- What `meets` says. -/
theorem accepted_of_meets {s : State} {src : PktSrc} {op : Nat} {pre : State → Packet → Bool} (h : meets s src op pre = true) :
    ∃ k, Accepted s src op k ∧ pre (started s src k) k = true := by
  unfold meets at h
  split at h
  · cases h
  · rename_i k hk
    simp only [Bool.and_eq_true, decide_eq_true_eq, Option.isNone_iff_eq_none] at h
    exact ⟨k, ⟨hk, h.1.1.1.1.1, h.1.1.1.1.2, h.1.1.1.2, h.1.2, h.1.1.2⟩, h.2⟩

/-- Whether a host command's premise holds once the device is awake. -/
def onHost (s : State) (pre : State → Bool) : Bool := hostUp s && pre (wakeBy s 1)

/-- The accepted packet of VF 1. -/
def vf (op part : Nat) (params : List Nat) (pre : State → Packet → Bool) : Bool := meets (host dev 1 op part params) (.slot 1 0) op pre

/-! ## Witnesses: what the statements assume can be met -/

theorem witness_StepTakesTheFrontCommand : State.reset.pending = [] := by decide +kernel

theorem witness_EveryStepKeepsMemoriesAndFuses : Memory.wf dev.mem = true ∧ answersNext (step { dev with pending := [.idcode] }) = true := by decide +kernel

theorem witness_NumberingNeverChanges : answersNext (core.run 2 { dev with pending := [.idcode, .bypass] }) = true := by decide +kernel

theorem witness_CommandsLeaveTheQueueAlone : answersNext (exec .bypass dev) = true := by decide +kernel

theorem witness_PacketIsRefusedAtTheFirstFailingCheck :
    ([0x0001, 0x0002, 0x0012, 0x0050, 0x0053, 0x0090, 0x0091].all (fun op =>
      match packetAt dev (mg op 0 [0, 0, 0, 0, 0, 0, 0, 0]) with
      | none => false
      | some k => mayStart dev k && hasRing (started dev (mg op 0 [0, 0, 0, 0, 0, 0, 0, 0]) k) k &&
          (checkPacket (started dev (mg op 0 [0, 0, 0, 0, 0, 0, 0, 0]) k) k).isSome) &&
     (let f := dev.fn 1
      !ringRoom f && decide (f.waiting = []) && decide (dev.outstanding = []) && ringRoom ((host dev 1 1 0 []).fn 1))) = true := by
  decide +kernel

/-- One packet for each clause of R380's first checks, and one that passes them all. -/
theorem witness_ChecksOfAPacketStandInTheirOrder :
    (let k := fun (ws : List W32) => ({ port := .mgmt 0, words := ws } : Packet)
     decide (1020 < (k [0, 0, 1021]).length) && !(k [0x01000001, 7, 0, 1]).crcOk &&
       decide ((k (pkt (0x0001 + 2 ^ 20) 0 [])).reservedOk = false) && (k (pkt (0x0001 + 2 ^ 20) 0 [])).crcOk &&
       (k (pkt 0x0FFF 0 [])).row.isNone && (k (pkt 0x0FFF 0 [])).crcOk && (checkPacket dev (k (pkt 0x0001 0 []))).isNone) = true := by
  decide +kernel

theorem witness_UnknownOpcodeIsRefused :
    (match packetAt dev (mg 0x0FFF 0 []) with
     | none => false
     | some k => k.row.isNone && k.crcOk && k.reservedOk && mayStart dev k && decide (k.version = 1)) = true := by decide +kernel

theorem witness_QueryPacketsReplyWithTheirBlock :
    [meets dev (mg 0x0001 0 []) 0x0001 (fun _ _ => true),
     meets dev (mg 0x0002 0 [0, 0]) 0x0002 (fun _ k => outOk k (k.param64 0)),
     vf 0x0012 0 [4, 64, 0] (fun _ k => decide (k.param 0 < 5) && outOk k (k.param64 1)),
     meets dev (mg 0x0091 0 [0, 0]) 0x0091 (fun _ k => outOk k (k.param64 0)),
     meets dev (mg 0x0053 0 [0, 0, 0]) 0x0053 (fun _ k => decide (k.param 2 ≤ 1) && outOk k (k.param64 0) &&
       !(decide (k.param 2 = 0) && k.port.isVf)),
     meets dev (mg 0x0071 0 [0]) 0x0071 (fun s k => decide (k.param 0 < 64) && !harvested s (k.param 0)),
     meets dev (mg 0x0081 0 [2, 0, 0, 0, 0]) 0x0081 (fun _ k => decide (k.word 4 = 2) && decide (5 ≤ k.length) &&
       decide (k.param 2 % 1024 = 0) && decide (k.param 2 < traceBytes) && outOk k (k.param64 3))].all id = true := by decide +kernel

theorem witness_SetReplyRingStartsAnEmptyRing :
    [meets (host dev 1 0x0003 0 [0x4000, 0, 8192]) (.slot 1 0) 0x0003 (fun s k =>
       match ringCheck s k with | .ok _ => true | .error _ => false),
     meets (host dev 1 0x0003 0 [0x4000, 0, 8191]) (.slot 1 0) 0x0003 (fun s k =>
       match ringCheck s k with | .ok _ => false | .error _ => true)].all id = true := by decide +kernel

theorem witness_QueuePacketsActOnTheirQueues :
    [vf 0x0010 0 [4, 0x40, 0, 65536] (fun s k => decide (k.param 0 < 5) && isVa (k.param64 1) && decide (k.param64 1 % 64 = 0) &&
       decide (k.param 3 ≠ 0) && decide (k.param 3 ≤ 65536) && decide ((s.queue k.part (k.param 0)).lists.length < 64)),
     vf 0x0011 0 [31, 0] (fun _ k => decide (k.param 0 < 32) && decide (k.param 1 = 0)),
     vf 0x0011 0 [31, 2] (fun _ k => decide (k.param 0 < 32) && decide (k.param 1 = 2)),
     vf 0x0011 0 [31, 1] (fun _ k => decide (k.param 0 < 32) && decide (k.param 1 = 1))].all id = true := by decide +kernel

theorem witness_LinePacketsPinUnpinAndDiscard :
    [vf 0x0022 0 [0x400, 0, 0x800, 0] (fun s k => lineParams k && (match grantLines s k.part (k.param64 0) (k.param64 2 / 1024) with
       | none => false
       | some as => !homeless s k.part && !pinWaysBad s k.part (as.eraseDups.filter (fun a => !(s.line k.part a).pinned)) &&
           decide (pinnedCount s k.part + (as.eraseDups.filter (fun a => !(s.line k.part a).pinned)).length ≤
             (s.part k.part).record.pinQuota))),
     vf 0x0023 0 [0x400, 0, 0x800, 0] (fun s k => lineParams k && (grantLines s k.part (k.param64 0) (k.param64 2 / 1024)).isSome),
     vf 0x0024 0 [0x400, 0, 0x800, 0] (fun s k => lineParams k && !homeless s k.part &&
       (grantLines s k.part (k.param64 0) (k.param64 2 / 1024)).isSome)].all id = true := by decide +kernel

/-- Session entries of partition 0: 0 free, 1 READY, 2 RUNNING, 3 IDLE. -/
def sesDev : State :=
  [(1, 2), (2, 3), (3, 1)].foldl (fun s e => { s with
    mem := mwrites s.mem (sesAddr dev 0 e.1 + 32) (sesCopy e.2 5 ++ sesCopy e.2 5) }) dev

/-- Whether the entry a packet names is in range, intact and unrepaired. -/
def entryWhole (s : State) (k : Packet) : Bool :=
  !outOfRange s k.part (k.param 0) &&
    decide (sesVote (sesRead s k.part (k.param 0)) = some ((sesRead s k.part (k.param 0)).take 40 |>.drop 32, false))

theorem witness_SessionPacketsKeepTheTable :
    [meets (host sesDev 1 0x0030 0 [0, 0, 0, 0, 0, 0, 1, 0]) (.slot 1 0) 0x0030 (fun s k => openOk k && entryWhole s k &&
       decide (sesState (sesRead s k.part (k.param 0)) = 0) && decide ((s.part k.part).record.session ≠ 1)),
     meets (host sesDev 1 0x0031 0 [1, 0, 0, 0, 0]) (.slot 1 0) 0x0031 (fun s k => appendOk k && entryWhole s k &&
       decide (pendingAppend s k.part (k.param 0) = none) && decide (sesState (sesRead s k.part (k.param 0)) = sesReady) &&
       !appendBad (sesRead s k.part (k.param 0)) (k.param 1) (k.param 2) (k.param 3) && decide ((s.part k.part).record.session ≠ 1)),
     meets (host sesDev 1 0x0032 0 [2]) (.slot 1 0) 0x0032 (fun s k => entryWhole s k &&
       decide (sesState (sesRead s k.part (k.param 0)) = sesRunning)),
     meets (host sesDev 1 0x0032 0 [3]) (.slot 1 0) 0x0032 (fun s k => entryWhole s k &&
       decide (sesState (sesRead s k.part (k.param 0)) = 1)),
     meets (host sesDev 1 0x0033 0 [3, 0, 0]) (.slot 1 0) 0x0033 (fun s k => entryWhole s k &&
       outOk k (k.param64 1))].all id = true := by decide +kernel

/-- The packet PARTITION_CREATE with the 128 words of a pitch record: stall 1, root at the base of memory unit 1, LOCKSTEP,
STRICT, standard sessions; its CRC word is that of Table HST-5. -/
def createPacket : Packet :=
  { port := .mgmt 0
    words := ([0x01000040, 7, 129, 1634274358, 0x7F, 2, 0, 0x10000000, 0, 0x01020101, 0x0000_0101, 0, 0, 0, 0] ++ List.replicate 6 0 ++ [2] ++
      List.replicate 111 0).map (BitVec.ofNat 32) }

set_option maxRecDepth 100000 in
theorem witness_PartitionPacketsCreateResetAndLease_create :
    meets dev (.mgmt 0 createPacket.words) 0x0040 (fun s k =>
      (createCheck s (k.param 0) (recordOf (padTo 512 (k.paramBytes 1)))).isNone &&
        (requestedPart s (k.param 0 % 128)).isSome) = true := by decide +kernel

theorem witness_PartitionPacketsCreateResetAndLease :
    [meets dev (mg 0x0042 0 []) 0x0042 (fun _ _ => true), meets dev (mg 0x0041 0 []) 0x0041 (fun _ _ => true),
     meets dev (mg 0x0043 0 [0, 0, 1000000]) 0x0043 (fun s k => decide (k.param64 0 < 2 ^ 40) && decide (k.param 2 ≤ 1000000) &&
       decide ((s.part k.part).record.zlPorts = 0) && !bit s.shared.wakeOwned k.part),
     meets (devWith (fun q => { q with state := .preempted })) (mg 0x0043 0 [9, 0, 0]) 0x0043 (fun s k =>
       decide (k.param64 0 < 2 ^ 40) && decide (k.param 2 ≤ 1000000) && decide ((s.part k.part).state = .preempted))].all id = true := by
  decide +kernel

theorem witness_DirtyLogPacketsStartCollectAndStop :
    [meets dev (mg 0x0044 0 [1, 0, 0, 0, 0, 4096, 0]) 0x0044 (fun s k => logWordOk k && decide (logAction k = 1) &&
       decide (logOf s k.part (logHostSpace k) = none) && decide (k.param64 1 % 64 = 0) &&
       decide (k.param64 3 % logPage (logHostSpace k) = 0) && decide (k.param64 5 % logPage (logHostSpace k) = 0)),
     meets (devWith (fun q => { q with logDevice := some {} })) (mg 0x0044 0 [6, 64, 0, 0, 0, 0, 0]) 0x0044 (fun s k =>
       logWordOk k && decide (logAction k = 2) && (logOf s k.part (logHostSpace k)).isSome && decide (k.param64 1 % 64 = 0)),
     meets (devWith (fun q => { q with logHost := some {} })) (mg 0x0044 0 [0, 0, 0, 0, 0, 0, 0]) 0x0044 (fun s k =>
       logWordOk k && decide (logAction k = 0) && (logOf s k.part (logHostSpace k)).isSome)].all id = true := by decide +kernel

/-- Words of a list of bytes. -/
def wordsOf (bs : List Byte) : List Nat := (List.range (bs.length / 4)).map (fun i => leNat ((bs.drop (4 * i)).take 4))

/-- Partition 0 with a plan held whose image is zero but for the FLAGS word of its header. -/
def planDev (flags : Nat) : State :=
  { devMem (0x100000 + 20) (natLe 4 flags) with parts := [(0, { part0 with plan := some { pages := [0x10] } })] }

/-- Partition 0 with its job running. -/
def jobDev : State := devWith (fun q => { q with state := .running, job := { running := true } })

/-- The words of a COPY of 64 bytes within the device. -/
def copyWords : List Nat := [0, 0, 64, 0, 64, 0, 2, 0, 0, 0, 0, 0]

theorem witness_JobAndCopyPacketsStartAndEndWork :
    [meets (host (planDev 0) 1 0x0013 0 []) (.slot 1 0) 0x0013 (fun s k => !planLinked (imageOf s k.part) &&
       decide (jobRefusal s k.part false = none)),
     meets (host (planDev 4) 1 0x0013 0 []) (.slot 1 0) 0x0013 (fun s k => planLinked (imageOf s k.part) &&
       decide (jobRefusal s k.part false = none)),
     meets (host jobDev 1 0x0014 0 []) (.slot 1 0) 0x0014 (fun s k => (s.part k.part).job.running),
     vf 0x0020 0 copyWords (fun _ k => copyOk { bytes := natLe 8 0 ++ padTo 48 (k.paramBytes 0) ++ natLe 8 0 })].all id = true := by
  decide +kernel

/-- The base point of P-256 as an owner key. -/
def ownerWords : List Nat := wordsOf ((natLe 32 p256g.1).reverse ++ (natLe 32 p256g.2).reverse)

theorem witness_OwnerAndKeyPacketsActOnTheirSecrets :
    [meets { ready with sec := { ready.sec with ownerKey := none } } (mg 0x0063 0 (0 :: ownerWords)) 0x0063 (fun s k =>
       decide (k.word 4 = 0) && decide (k.length = 17) && decide (s.sec.ownerKey = none) && ownerOnCurve k),
     meets ready (mg 0x0063 0 (1 :: ownerWords)) 0x0063 (fun _ k =>
       decide (k.word 4 = 1) && decide (k.length = 17) && ownerOnCurve k),
     meets ready (mg 0x0063 0 [2]) 0x0063 (fun s k => decide (k.word 4 = 2) && decide (k.length = 1) && decide (partsOf s = [])),
     vf 0x0060 0 (List.replicate 10 0) (fun s k => outOk k (k.param64 0) && s.sec.aliasValid),
     meets (host (devWith (fun q => { q with sec := { q.sec with evidence := some (0, 0, some 0, true) } })) 1 0x0061 0
       (List.replicate 17 0)) (.slot 1 0) 0x0061 (fun s k => decide (k.param 0 < 8) &&
         (match (s.part k.part).sec.evidence with | some (_, _, some _, true) => true | _ => false)),
     vf 0x0062 0 [255] (fun _ k => decide (k.param 0 < 256))].all id = true := by decide +kernel

theorem witness_ManagementSessionsOpenAndEnd :
    (mgmtUp dev && decide (tget dev.sec.sessions 1 = false) && ((List.range 1).all (fun m => tget dev.sec.sessions m)) &&
       canSign (wakeBy dev 2) && tget dev.sec.sessions ((0 : Fin 4).val) && hostUp dev && dev.sec.aliasValid &&
       !dev.power.halted && !(measureBlocks dev 0).isEmpty) = true ∧
    (let s := { ready with sec := { ready.sec with sessions := [(0, true), (1, true), (2, true), (3, true)], aliasValid := false } }
     mgmtUp s && hostUp s && (List.range 4).all (fun n => tget s.sec.sessions n) && !canSign (wakeBy s 2)) = true ∧
    (let s := { ready with devTime := 297000000000 }
     tget s.sec.sessions 0 && decide (tget s.sec.traffic 0 + 297000000000 ≤ s.devTime)) = true := by decide +kernel

theorem witness_PowerPacketsSetCapAndMode :
    [meets dev (mg 0x0050 0 [800]) 0x0050 (fun s k => decide (800 ≤ k.param 0) && decide (k.param 0 ≤ 2700) && decide (lockstepJobs s = [])),
     meets { jobDev with parts := [(0, { part0 with state := .running, job := { running := true }, record := { part0.record with timing := 1 } })] }
       (mg 0x0050 0 [2700]) 0x0050 (fun s k => decide (800 ≤ k.param 0) && decide (k.param 0 ≤ 2700) && decide (lockstepJobs s ≠ [])),
     meets dev (mg 0x0051 0 [1]) 0x0051 (fun s k => decide (k.param 0 ≤ 1) && !(decide (k.param 0 = 1) && isLockstep s k.part) &&
       !(s.part k.part).job.running),
     meets jobDev (mg 0x0051 0 [1]) 0x0051 (fun s k => decide (k.param 0 ≤ 1) && !(decide (k.param 0 = 1) && isLockstep s k.part) &&
       (s.part k.part).job.running)].all id = true := by decide +kernel

/-- The target state of a POWER_STATE packet. -/
def targetOf (n : Nat) : PowerState := [PowerState.run, .idle, .sleep, .deep].getD n .off

theorem witness_PowerStatePacketsEnterTheirState :
    ([(0, 0), (1, 0), (2, 0), (3, 0), (3, 0xFF), (4, 0)].all (fun e => meets ready (mg 0x0052 0 [e.1, e.2]) 0x0052 (fun s k =>
       decide (k.param 0 = e.1) && decide (k.param 1 < 256) && decide (stateCheck s (targetOf e.1) (k.param 1) = none) &&
         !s.power.coolantStop)) &&
     meets { ready with power := { ready.power with coolantStop := true } } (mg 0x0052 0 [0, 0]) 0x0052 (fun s k =>
       decide (stateCheck s .run (k.param 1) = none) && s.power.coolantStop)) = true := by decide +kernel

/-- A device in recovery mode, and one whose firmware boots. -/
def inStage (t : Stage) : State := { ready with boot := { ready.boot with stage := t } }
def updating (t : Stage) : State := { ready with boot := { ready.boot with stage := t, update := some (8192, 3) } }

theorem witness_FirmwareUpdateTakesAnImage :
    [meets (inStage .recovery) (mg 0x0072 0 [8192, 0]) 0x0072 (fun s k => imgLengthOk (k.param64 0) && decide (s.boot.stage = .recovery)),
     meets ready (mg 0x0072 0 [2 ^ 24, 0]) 0x0072 (fun s k => imgLengthOk (k.param64 0) && decide (s.boot.stage = .ready)),
     meets (inStage .firmware) (mg 0x0072 0 [4096 * 3, 0]) 0x0072 (fun s k => imgLengthOk (k.param64 0) && decide (s.boot.stage = .firmware)),
     meets (updating .recovery) (mg 0x0073 0 [4, 1, 2]) 0x0073 (fun s k => decide (s.boot.update = some (8192, 3)) &&
       !s.boot.programming && decide (k.param 0 % 4 = 0) && decide (k.param 0 + (k.paramBytes 1).length ≤ 8192)),
     meets (updating .ready) (mg 0x0073 0 [8188, 1]) 0x0073 (fun s k => decide (s.boot.update = some (8192, 3)) &&
       !s.boot.programming && decide (k.param 0 % 4 = 0) && decide (k.param 0 + (k.paramBytes 1).length = 8192)),
     meets (updating .ready) (mg 0x0074 0 []) 0x0074 (fun s _ => s.boot.update.isSome && !s.boot.programming && decide (s.boot.stage ≠ .recovery)),
     meets (updating .recovery) (mg 0x0074 0 []) 0x0074 (fun s _ => s.boot.update.isSome && !s.boot.programming && decide (s.boot.stage = .recovery)),
     (let s : State := { ready with flash := { fenceWrite := some 1 } }
      decide (s.flash.fenceWrite = some 1)),
     (let s : State := { ready with boot := { ready.boot with update := some (8192, 3), programming := true } }
      decide (s.flash.fenceWrite = none) && decide (s.boot.update = some (8192, 3)) && s.boot.programming)].all id = true := by decide +kernel

theorem witness_SelfTestRunsAndReports :
    [meets ready (mg 0x0070 0 [3, 0, 2]) 0x0070 (fun s k => decide (k.param64 0 ≠ 0) && decide (k.param 2 ≤ 2) &&
       (setBits (k.param64 0) 64).all (fun i => !harvested s i && decide (ownerOfStall s i = none) && !inBist s i)),
     (let g : BistGroup := { stalls := [0, 63], kind := 2, last := true }
      let s := { ready with bistQueue := [g] }
      let results : List BistOutcome := [⟨63, 0, 0, 0, 0⟩, ⟨0, 0, 0, 0, 0⟩]
      decide (s.bistQueue = [g]) && clocksRun s && g.stalls.all (fun i => (results.find? (fun r => decide (r.stall.val = i))).isSome))].all
      id = true := by decide +kernel

/-- A device whose trace and wake timer 3 the management port has claimed. -/
def claimed : State := { dev with shared := { trace := 1, traceMgmt := true, wake := [(3, true, 9)] } }

theorem witness_DebugPacketsTraceClaimAndHalt :
    [vf 0x0080 0 [3, 10] (fun _ k => tallyOk k),
     meets claimed (mg 0x0081 0 [0]) 0x0081 (fun s k => decide (k.word 4 = 0) && traceOwned s),
     meets claimed (mg 0x0081 0 [1, 7, 0, 0, 0]) 0x0081 (fun s k => decide (k.word 4 = 1) && decide (k.param 1 < 8) && traceOwned s),
     meets claimed (mg 0x0081 0 [3]) 0x0081 (fun s k => decide (k.word 4 = 3) && traceOwned s),
     meets dev (mg 0x00A0 0 [5 + 2 ^ 14, 0]) 0x00A0 (fun s k => decide (k.word 5 = 0) && resourceOk k && !decide (wakeSeconds k = 0) &&
       decide (holderOf s k = none) && !channelLeased s k),
     meets dev (mg 0x00A0 0 [1, 0]) 0x00A0 (fun s k => decide (k.word 5 = 0) && resourceOk k && !decide (bits (k.param 0) 7 0 = 5) &&
       decide (holderOf s k = none) && !channelLeased s k),
     meets claimed (mg 0x00A0 0 [3, 1]) 0x00A0 (fun s k => decide (k.word 5 = 1) && resourceOk k && decide (holderOf s k = some k.port.isMgmt)),
     meets dev (mg 0x00A0 0 [2, 1]) 0x00A0 (fun s k => decide (k.word 5 = 1) && resourceOk k && decide (holderOf s k = none)),
     meets jobDev (mg 0x0082 0 [0]) 0x0082 (fun s k => decide (k.word 4 = 0) && (s.part k.part).job.running),
     meets (devWith (fun q => { q with halted := true })) (mg 0x0082 0 [1]) 0x0082 (fun s k => decide (k.word 4 = 1) && (s.part k.part).halted)].all id =
      true := by decide +kernel

theorem witness_LinkPacketsConfigureAndEnumerate :
    [meets dev (mg 0x0090 0 [4095, 65535]) 0x0090 (fun s k => decide (k.param 0 < 4096) && decide (k.param 1 < 65536) &&
       !configBusy s (k.param 0) (k.param 1)),
     meets dev (mg 0x0092 0 [4095]) 0x0092 (fun s k => decide (k.param 0 < 4096) && !groupRuns s && s.links.enumeration.isNone)].all id = true := by
  decide +kernel

/-- `dev` with slot 3 of VF 1 committed and not yet taken. -/
def heldSlot : State := dev.modFn 1 (fun f => { f with slots := [(3, { committed := true, words := [(0, 7)] })], order := [3] })

theorem witness_SlotWritesFillAndCommitASlot :
    [onHost heldSlot (fun s => (tget (s.fn 1).slots 3).committed), onHost dev (fun s => !(tget (s.fn 64).slots 7).committed),
     onHost dev (fun s => !(tget (s.fn 0).slots 0).committed)].all id = true := by decide +kernel

theorem witness_SlotsThatAreNotFreeIgnoreWrites :
    onHost heldSlot (fun s => (tget (s.fn 1).slots 3).committed) = true := by decide +kernel

/-- `dev` with a ring of 8,192 bytes at VF 1. -/
def ringDev : State := dev.modFn 1 (fun f => { f with ringLog2 := 13, producer := 8192 })

theorem witness_HostWritesReachTheirRegisters :
    [onHost dev (fun _ => true),
     decide ((0x804 : BitVec 28).toNat % 4 = 0) && decide (0x800 ≤ (0x804 : BitVec 28).toNat) && decide ((0x87C : BitVec 28).toNat < 0x880),
     decide ((0x880 : BitVec 28).toNat ≠ 0) && decide (0x880 ≤ (0x880 : BitVec 28).toNat),
     hostUp dev && decide ((0x7F8 : BitVec 28).toNat % 8 = 0),
     decide ((0xFFFC : BitVec 28).toNat < 65536) && decide ((0xFFFC : BitVec 28).toNat % 4 = 0),
     decide ((4 : BitVec 28).toNat % (if true then 8 else 4) ≠ 0) && decide ((2 : BitVec 28).toNat % (if false then 8 else 4) ≠ 0),
     onHost ringDev (fun s => decide (((s.fn 1).producer + 2 ^ 32 - 8193) % 2 ^ 32 > ringSize (s.fn 1))),
     onHost ringDev (fun s => decide (((s.fn 1).producer + 2 ^ 32 - 8192) % 2 ^ 32 ≤ ringSize (s.fn 1)) &&
       decide (((s.fn 1).producer + 2 ^ 32 - 0) % 2 ^ 32 ≤ ringSize (s.fn 1))),
     onHost (dev.modFn 1 (fun f => { f with intCause := 5, intMask := 5 })) (fun s =>
       decide ((s.fn 1).intCause &&& (s.fn 1).intMask &&& ~~~ ((0xF : W64).setWidth 4) = 0)),
     onHost jobDev (fun s => (s.part 0).job.running),
     onHost (devWith (fun q => { q with hwin := [(0, { enable := true, size := 1, hpa := 4 })] })) (fun s =>
       (tget (s.part 0).hwin 0).enable && decide ((tget (s.part 0).hwin 0).size ≠ ((2 : W64).setWidth 21)) &&
         hwinOverlaps s 0 1 { tget (s.part 0).hwin 1 with enable := true, size := 1, offset := 0 }),
     onHost (devWith (fun q => { q with hwin := [(0, { enable := true, size := 1 }), (1, { size := 1 })] })) (fun s =>
       ((1 : W64).getLsbD 0) && hwinOverlaps s 0 1 { tget (s.part 0).hwin 1 with enable := true, offset := (1 : W64).extractLsb' 21 20 }),
     onHost dev (fun s => !(s.part 0).job.running && !(tget (s.part 0).hwin 7).enable),
     onHost (devWith (fun q => { q with hwin := [(0, { enable := true, size := 1, hpa := 4 })] })) (fun s =>
       !(s.part 0).job.running && !hwinOverlaps s 0 1 { tget (s.part 0).hwin 1 with enable := true, offset := 1 })].all id = true := by
  decide +kernel

/-- `dev` with DP_ADDR of VF 1 at the last 8 bytes of the first line of the scratchpad of stall 0. -/
def dpDev : State := dev.modFn 1 (fun f => { f with dpAddr := 0x2003F8 })

/-- `dev` with one line of partition 0's own memory, all of it read from memory. -/
def lineDev (l : Line) : State := devWith (fun q => { q with cache := { q.cache with lines := [(0x800, { l with here := 255 })] } })

/-- Whether line 800H is held without an error at a home of partition 0. -/
def homed0 (s : State) : Bool :=
  (homeOf s 0 0x800).isSome && isLsmLine 0x800 && granted s 0 (linePhys 0x800) && !(s.line 0 0x800).odd &&
    (s.line 0 0x800).filter.all (fun f => !f.odd)

/-- Whether it is resident and free there. -/
def resident0 (s : State) : Bool :=
  homed0 s && decide ((s.line 0 0x800).state ≠ .absent) && !(s.line 0 0x800).streamed &&
    !lineBusy (s.line 0 0x800) && decide ((s.line 0 0x800).waiting = [])

theorem homed0_of {s : State} (h : homed0 s = true) : Homed s 0 0x800 := by
  simp only [homed0, Bool.and_eq_true, Bool.not_eq_true', List.all_eq_true] at h
  exact ⟨h.1.1.1.1, h.1.1.1.2, h.1.1.2, h.1.2, h.2⟩

theorem resident0_of {s : State} (h : resident0 s = true) : Resident s 0 0x800 := by
  simp only [resident0, Bool.and_eq_true, decide_eq_true_eq, Bool.not_eq_true'] at h
  exact ⟨homed0_of h.1.1.1.1, h.1.1.1.2, h.1.1.2, h.1.2, h.2⟩

/-- Whether the data port of VF 1 is free, and answers a read of `n` bytes, and where it reads. -/
def portFree (s : State) : Bool := portIdle s 0 && decide ((s.fn 1).dpHeld = [])
def portReads (s : State) (n : Nat) : Bool :=
  decide ((s.part 0).state ≠ .resetting) && (s.part 0).present && !readsWait s 0 && decide ((s.fn 1).dpAddr.toNat % 1024 + n ≤ 1024)
def portAt (s : State) (write : Bool) : Nat :=
  match dpReach s 0 (s.fn 1).dpAddr.toNat write with | .error _ => 0 | .ok a => a

/-- A span of nine bytes, two of them not enabled. -/
def span0 : List (Option Byte) := [none, some 1, none, some 2, some 3, some 4, some 5, some 6, some 7, none]

theorem witness_DataPortMovesBytesAtItsAddress :
    [onHost (lineDev { cur := some (.port 0 []) }) (fun s => !portIdle s 0),
     onHost dev portFree,
     onHost dev (fun s => portIdle s 5 && decide ((s.fn 6).dpHeld = []) && decide ((s.part 5).state ≠ .resetting) && !(s.part 5).present),
     onHost (devWith (fun q => { q with state := .resetting })) (fun s => portFree s && decide ((s.part 0).state = .resetting)),
     onHost dpDev (fun s => portFree s && decide ((s.fn 1).readAhead = []) && portReads s 8 && decide (s.spadOdd = []) &&
       decide (regionOf (portAt s false) = .spad 0 0x3F8) && decide (0x3F8 + 8 ≤ spadBytes)),
     ([LineState.clean, .dirty].all (fun st => onHost ((lineDev { state := st }).modFn 1 (fun f => { f with dpAddr := 0x3F8 })) (fun s =>
       portFree s && decide ((s.fn 1).readAhead = []) && portReads s 8 && decide (portAt s false = 0x2003F8) && decide (0x2003F8 < lsmTop) &&
         resident0 s && decide ((s.line 0 0x800).state = st)))),
     decide (dpSpan span0 ≠ []) && decide ((dpSpan span0).length ≤ 512),
     onHost dpDev (fun s => portFree s && portReads s (dpSpan span0).length && decide (regionOf (portAt s true) = .spad 0 0x3F8)),
     ([LineState.clean, .dirty].all (fun st => onHost ((lineDev { state := st }).modFn 1 (fun f => { f with dpAddr := 0x3F8 })) (fun s =>
       portFree s && portReads s (dpSpan span0).length && decide (portAt s true = 0x2003F8) && decide (0x2003F8 < lsmTop) &&
         resident0 s && decide ((s.line 0 0x800).filter = []) && !(s.line 0 0x800).host && decide ((s.line 0 0x800).bad = 0) &&
         decide ((s.line 0 0x800).state = st))))].all id = true := by decide +kernel

theorem witness_FunctionsAndHostPortReset :
    [decide (dev.perst = false) && !dev.power.halted && !dev.power.tripped && !dev.power.coolantStop && decide (dev.power.state = .run) &&
       decide (({ dev with boot := { dev.boot with reached := false } } : State).boot.reached = false),
     ready.boot.reached && decide (partsOf ready = []) &&
       decide (tget? ((ready.modFn 0 (fun f => { f with config := [(1, 9)] })).fn 0).config 1 = some 9),
     onHost dev (fun _ => true), decide (State.reset.perst = true), decide (dev.perst = false)].all id = true := by decide +kernel

/-! Lines of partition 0: 800H lies in its grant and is resident; an L1 of its stall reads it. -/

def core0 : L1Id := { stall := 0, core := 0 }
def core1 : L1Id := { stall := 0, core := 11 }
theorem witness_RequestsWaitAtABusyLine :
    [(let s := lineDev { state := .clean, cur := some (.rdS core1), awaiting := [core1] }
      l1Of s 0 core0 && homed0 s && !(s.line 0 0x800).windowOpen && (s.line 0 0x800).cur.isSome),
     l1Of dev 0 core0 && isLsmLine 0x1000000 && !granted dev 0 (linePhys 0x1000000),
     (let s := devWith (fun q => { q with cache := {} })
      l1Of s 0 core0 && !(homeOf s 0 0x800).isSome),
     onHost (lineDev { state := .clean, cur := some (.rdS core1), awaiting := [core1] }) (fun s => decide (s.boot.stage ≠ .fatal) &&
       decide (homeOwner s (0x2003FF / 64 * 64) = some 0) && !inHeldImage s (0x2003FF / 64 * 64) && homed0 s &&
       !(s.line 0 0x800).windowOpen && (s.line 0 0x800).cur.isSome)].all id = true := by decide +kernel

theorem witness_ReadsForSAtTheHome :
    [(let s := dev
      l1Of s 0 core0 && homed0 s && !lineBusy (s.line 0 0x800) &&
        decide ((s.line 0 0x800).waiting = []) && decide ((s.line 0 0x800).state = .absent) && (s.line 0 0x800).filter.all (fun f => !f.owner)),
     (let s := lineDev { state := .clean, filter := [{ l1 := core1, owner := false }] }
      l1Of s 0 core0 && resident0 s && !blocked s 0 0x800 (.rdS core0) &&
        (s.line 0 0x800).filter.all (fun f => !f.owner || decide (f.l1 = core0))),
     (let s := lineDev { state := .staged, filter := [{ l1 := core1, owner := true }] }
      l1Of s 0 core0 && resident0 s && !blocked s 0 0x800 (.rdS core0) && decide (core1 ≠ core0))].all id = true := by decide +kernel

theorem witness_ClaimsAtTheHome :
    [([HomeRequest.rdU core0, .upg core0].all (fun r =>
      let s := lineDev { state := .dirty, data := [(0, 5)], filter := [{ l1 := core0, owner := false }] }
      l1Of s 0 core0 && resident0 s && !blocked s 0 0x800 r && (s.line 0 0x800).filter.all (fun f => decide (f.l1 = core0)) &&
        decide (stageCheck s 0 0x800 = .staged) && !(s.line 0 0x800).host && decide ((s.line 0 0x800).filter ≠ []))),
     ([HomeRequest.rdU core0, .upg core0].all (fun r =>
      let s := lineDev { state := .clean, filter := [{ l1 := core1, owner := true }] }
      l1Of s 0 core0 && resident0 s && !blocked s 0 0x800 r && !(s.line 0 0x800).host)),
     (let s := lineDev { state := .clean, host := true }
      l1Of s 0 core0 && resident0 s && !blocked s 0 0x800 (.rdU core0) && (s.line 0 0x800).host && decide ((s.line 0 0x800).filter = []))].all
      id = true := by decide +kernel

/-- ATOM ADD of 1 by two lanes at offset 1020 of the line. -/
def atom0 : AtomRequest :=
  { home := 0, line := 0x800, op := .add, type := .u32, lanes := [⟨0, 1020, 1, 0⟩, ⟨31, 1020, 1, 0⟩], agent := .core core0, srcDevice := 0
    srcPartition := 0, unit := 0, kernel := true, seq := 0 }

def entry0 : LedgerEntry :=
  let e : LedgerEntry :=
    { address := 0x200000 + 1020, size8 := false, srcDevice := 0, srcPartition := 0, seq := 0, unit := 0, kernel := true, homeDone := true
      before := 4, after := 6 }
  { e with parity := ledgerParity (ledgerBytes e) }

/-- Whether nobody holds the line. -/
def heldByNone (s : State) : Bool := decide ((s.line 0 0x800).filter = []) && !(s.line 0 0x800).host

theorem witness_AgentsWithoutAnL1AtTheHome :
    [(let s := lineDev { state := .staged, data := [(3, 1)] }
      (s.part 0).present && resident0 s && heldByNone s && decide ((s.line 0 0x800).bad = 0) &&
        !blocked s 0 0x800 (.rdNa (.porter 0 0) 0xF false)),
     (let s := lineDev { state := .clean }
      !isOutside (.feeder 0 false) && (s.part 0).present && !(wrlCells s 0 0x800 (.feeder 0 false) [(1023, 9)]).isEmpty && resident0 s &&
        heldByNone s && !inHeldImage s (linePhys 0x800) && decide (stageCheck s 0 0x800 = .staged)),
     ([LineState.clean, .staged, .dirty].all (fun st => let s := lineDev { state := st }
       (s.part 0).present && resident0 s && heldByNone s)),
     (let s := lineDev { state := .clean }
      decide (atomOwner s atom0 = some 0) && resident0 s && heldByNone s && !blocked s 0 0x800 (.atom atom0) &&
        !inHeldImage s (linePhys 0x800) && canStage s 0 0x800 && (ledgerMatch s atom0 (linePhys 0x800 + 1020)).isNone &&
        decide ((s.stall 0).ledger.length < 4096)),
     (let s := { lineDev { state := .clean } with stalls := [(0, { ledger := [entry0] })] }
      decide (atomOwner s atom0 = some 0) && resident0 s && heldByNone s && !blocked s 0 0x800 (.atom atom0) &&
        !inHeldImage s (linePhys 0x800) && decide ((s.stall 0).ledger.length ≤ 4096) && entryGood entry0 &&
        decide (ledgerMatch s atom0 (linePhys 0x800 + 1020) = some entry0))].all id = true := by decide +kernel

/-- `dev` with messages on their way. -/
def noc (ms : List NocMsg) : State := { lineDev { state := .staged, cur := some (.rdU core0), awaiting := [core1, core0] } with noc := ms }

/-- A line that core 0 owns, read for S by core 1, with the answer to the snoop on its way, while an epoch runs. -/
def ownedNoc : State :=
  let l : Line := { state := .clean, cur := some (.rdS core1), awaiting := [core0], filter := [{ l1 := core0, owner := true }], here := 255 }
  { devWith (fun q => { q with epoch := { running := true }, cache := { q.cache with lines := [(0x800, l)] } }) with
    noc := [.toHome mRspAck 0 core0 0x800 []] }

/-- A writeback of core 5 on its way to a line as `l` has it, under a kernel that runs and can replay. -/
def wbNoc (l : Line) : State :=
  { devWith (fun q => { q with kernel := { running := true }, cache := { q.cache with lines := [(0x800, { l with here := 255 })] } }) with
    noc := [.toHome mWb 0 { stall := 0, core := 5 } 0x800 [(1, 2)]] }

/-- Whether a line takes bytes where it lies. -/
def mergesAt (s : State) : Bool :=
  decide ((s.line 0 0x800).state ≠ .absent) && !(s.line 0 0x800).streamed && decide ((s.line 0 0x800).bad = 0)

theorem witness_SnoopsAtAnL1 :
    ([mSnpInv, mSnpDown, mSnpSnap].all (fun m => decide (NocMsg.toL1 m 0 core0 0x800 ∈ (noc [.toL1 m 0 core0 0x800]).noc))) = true := by
  decide +kernel

theorem witness_ResponsesAtTheHome :
    [(takeHome (noc [.toHome mRspWbp 0 core0 0x800 []]) 0 core0 0x800 mRspWbp).isSome,
     ([mRspAck, mRspData, mRspNp].all (fun m => match takeHome (noc [.toHome m 0 core0 0x800 [(1, 2)]]) 0 core0 0x800 m with
       | none => false
       | some (_, u) => decide ((u.line 0 0x800).cur = some (.rdU core0)) && decide (core0 ∈ (u.line 0 0x800).awaiting) &&
           decide (core1 ∈ (u.line 0 0x800).awaiting) && decide (core1 ≠ core0) && mergesAt u && decide (stageCheck u 0 0x800 ≠ .full))),
     (match takeHome ownedNoc 0 core0 0x800 mRspAck with
      | none => false
      | some (_, u) => decide ((u.line 0 0x800).cur = some (.rdS core1)) && decide ((u.line 0 0x800).awaiting = [core0]) &&
          decide ((u.line 0 0x800).awaitHost = []) && decide ((u.line 0 0x800).waiting = []) && decide ((u.line 0 0x800).filter.length = 1) &&
          (u.line 0 0x800).filter.all (fun f => decide (f.l1 = core0)) && unitLive ownedNoc 0),
     (let s := noc [.toHome mWb 0 { stall := 0, core := 5 } 0x800 [(1, 2)]]
      match takeHome s 0 { stall := 0, core := 5 } 0x800 mWb with
      | none => false
      | some (cs, u) => !cs.isEmpty && !decide (({ stall := 0, core := 5 } : L1Id) ∈ (u.line 0 0x800).awaiting) && mergesAt u &&
          !(s.part 0).kernel.running && isStagedLine (u.line 0 0x800)),
     ([LineState.clean, .dirty].all (fun st => let s := wbNoc { state := st }
      match takeHome s 0 { stall := 0, core := 5 } 0x800 mWb with
      | none => false
      | some (cs, u) => !cs.isEmpty && !decide (({ stall := 0, core := 5 } : L1Id) ∈ (u.line 0 0x800).awaiting) && mergesAt u && isLsmLine 0x800 &&
          (s.part 0).kernel.running && !(s.part 0).kernel.nonrepl && decide (stageCheck u 0 0x800 = .staged) && !isStagedLine (u.line 0 0x800))),
     decide (NocMsg.toL1 mWbAck 0 core0 0x800 ∈ (noc [.toL1 mWbAck 0 core0 0x800]).noc),
     (let s := lineDev { state := .clean, host := true, cur := some (.rdU core0), awaitHost := [0x200000, 0x2003C0] }
      decide (homeOwner s 0x200000 = some 0) && decide (0x200000 ∈ (s.line 0 0x800).awaitHost) && decide (0x2003C0 ∈ (s.line 0 0x800).awaitHost))].all
      id = true := by decide +kernel

theorem witness_ResponsesAtTheHome_block : 0x2003C0 ∉ backAnswered 0x200000 := by
  unfold backAnswered backSize
  split <;> decide +kernel

theorem witness_FillsAndAcknowledgementsArrive :
    [([mDataS, mDataE, mDataM].all (fun m => let s := noc [.toL1 m 0 core0 0x800]
       decide (NocMsg.toL1 m 0 core0 0x800 ∈ s.noc) && decide ((l1Set s core0 0x800).length < 8))),
     (takeAgent (noc [.toAgent mDataNa 0 (.porter 0 1) 0x800 []]) 0 (.porter 0 1) 0x800 mDataNa).isSome,
     (takeAgent (noc [.toAgent mDataNa 0 (.core core0) 0x800 []]) 0 (.core core0) 0x800 mDataNa).isSome,
     (takeAgent (noc [.toAgent mDataNa 0 (.loader 0) 0x800 []]) 0 (.loader 0) 0x800 mDataNa).isSome,
     (match takeAgent (noc [.toAgent mAck 0 (.loader 0) 0x800 []]) 0 (.loader 0) 0x800 mAck with | some ([], _) => true | _ => false),
     (let s := { noc [.toAgent mAck 0 (.core core0) 0x800 []] with l1s := [(l1Key core0, [(0x800, { state := .s })])] }
      (match takeAgent s 0 (.core core0) 0x800 mAck with | some ([], _) => true | _ => false) && decide ((s.l1Line core0 0x800).state = .s)),
     (let l : Line := { state := .clean, windowOpen := true, window := [.rdS core0, .rdS core1, .rdNa (.porter 0 1) 1 true], here := 255 }
      let s := devWith (fun q => { q with epoch := { running := true }, cache := { q.cache with lines := [(0x800, l)] } })
      (s.line 0 0x800).windowOpen && decide ((s.line 0 0x800).waiting = []) && decide ((s.line 0 0x800).cur = none) && unitLive s 0 &&
        !(s.line 0 0x800).window.isEmpty && (s.line 0 0x800).window.all (fun r => isRead r && memoryHere s 0 0x800 r)),
     (let s := devWith (fun q => { q with cache := { q.cache with lines := [(0x800, { windowOpen := true, window := [.rdS core0] })] } })
      (s.line 0 0x800).windowOpen && (s.line 0 0x800).window.any (fun r => !memoryHere s 0 0x800 r))].all id = true := by decide +kernel

theorem witness_HostAccessesThroughCxlMem :
    [onHost ready (fun s => decide (homeOwner s (64 / 64 * 64) = none) && decide ((64 : Nat) < lsmTop)),
     onHost (lineDev { state := .dirty, data := [(0, 5)] }) (fun s => decide (homeOwner s 0x2003C0 = some 0) && resident0 s &&
       (s.line 0 0x800).filter.all (fun f => !f.owner) && [true, false].all (fun g => !blocked s 0 0x800 (.memRd 0x2003C0 g))),
     onHost ready (fun s => decide (s.boot.stage ≠ .fatal) && decide (homeOwner s (lsmTop - 64) = none) &&
       decide (sesTable ≤ (lsmTop - 64) / 64 * 64)),
     onHost ready (fun s => decide (s.boot.stage ≠ .fatal) && decide (homeOwner s (sesTable - 64) = none) &&
       decide ((sesTable - 64) / 64 * 64 < sesTable)),
     onHost (devWith (fun q => { q with plan := some { pages := [0x20] } })) (fun s => decide (s.boot.stage ≠ .fatal) &&
       decide (homeOwner s 0x2003C0 = some 0) && inHeldImage s 0x2003C0),
     onHost (lineDev { state := .clean }) (fun s => decide (s.boot.stage ≠ .fatal) && decide (homeOwner s 0x2003C0 = some 0) &&
       !inHeldImage s 0x2003C0 && resident0 s && heldByNone s && decide ((s.line 0 0x800).bad = 0) &&
       !isStagedLine (s.line 0 0x800) && decide ((s.part 0).state ≠ .resetting)),
     onHost dev (fun _ => true),
     (let s := lineDev { state := .clean, host := true, cur := some (.rdU core0), awaitHost := [0x200000], waiting := [.memRd 0x200000 true] }
      decide (homeOwner s 0x200000 = some 0) && decide (0x200000 ∈ (s.line 0 0x800).awaitHost) &&
        decide ((s.line 0 0x800).waiting.find? (isHostRequest 0x200000) = some (.memRd 0x200000 true)))].all id = true := by decide +kernel

/-- Partition 0 with one entry at the head of queue `k`, at virtual address 0 (20_0000H), its job running or not. -/
def entryDev (k : Nat) (bs : List Byte) (running : Bool) (f : Part → Part) : State :=
  { devMem 0x200000 bs with parts := [(0, f { part0 with
    state := if running then .running else .idle, job := { running := running }
    queues := [(k, { lists := [{ address := 0, units := bs.length / 64 }] })] })] }

/-- The bytes of an entry: opcode, units, and the fields from byte 8. -/
def entryBytes0 (op units : Nat) (fields : List Byte) : List Byte :=
  padTo (64 * units) (natLe 4 op ++ natLe 4 units ++ fields)

/-- Whether an entry of an opcode stands at the head, and what holds of it. -/
def atHead (s : State) (k op : Nat) (pre : Entry → Bool) : Bool :=
  partRuns s 0 && !(s.queue 0 k).halted && (match headOf s 0 k with | .entry e => decide (e.op = op) && pre e | _ => false)

/-- Whether a semaphore is reached at a physical address. -/
def semAt (s : State) (va : Nat) (write : Bool) (a : Nat) : Bool :=
  match semPhys s 0 va write with | .ok x => decide (x = a) | .error _ => false

/-- A SYNC entry whose job runs, and what holds of it at the head. -/
def syncAt (op : Nat) (fields : List Byte) (f : Part → Part) (pre : State → Entry → Bool) : Bool :=
  let s := entryDev 4 (entryBytes0 op 1 fields) true f
  atHead s 4 op (pre s) && (s.part 0).job.running

theorem witness_SyncEntriesActOnTheirSemaphore :
    [syncAt 1 (natLe 8 0x1FFFF8 ++ natLe 8 0) id (fun s e =>
       syncWaitOk e && syncCond e (semValue s 0x3FFFF8) && semAt s (e.get 8 8) false 0x3FFFF8 && !readsWait s 0),
     syncAt 1 (natLe 8 0x1FFFF8 ++ natLe 8 1 ++ natLe 4 1) id (fun s e =>
       syncWaitOk e && !syncCond e (semValue s 0x3FFFF8) && semAt s (e.get 8 8) false 0x3FFFF8),
     ([2, 3].all (fun op => syncAt op (natLe 8 64 ++ natLe 8 (2 ^ 64 - 1)) id (fun s e =>
       syncWriteOk e && semAt s (e.get 8 8) true 0x200040 && !inHeldImage s 0x200040 && !semBusy s 0 0x200040))),
     ([2, 3].all (fun op => syncAt op (natLe 8 64) (fun q => { q with plan := some { pages := [0x20] } }) (fun s e =>
       syncWriteOk e && semAt s (e.get 8 8) true 0x200040 && inHeldImage s 0x200040))),
     ([2, 3].all (fun op => syncAt op (natLe 8 64) (fun q => { q with cache := { q.cache with lines := [(0x800, { state := .staged })] } }) (fun s e =>
       syncWriteOk e && semAt s (e.get 8 8) true 0x200040 && !inHeldImage s 0x200040 && semBusy s 0 0x200040))),
     syncAt 4 (natLe 8 (2 ^ 24 - 1)) id (fun _ e => decide (e.get 8 8 < 2 ^ 24) && e.zero 16 48),
     syncAt 1 (natLe 8 4) id (fun _ e => !syncWaitOk e), syncAt 2 (natLe 8 4) id (fun _ e => !syncWriteOk e),
     syncAt 3 (natLe 8 4) id (fun _ e => !syncWriteOk e), syncAt 4 (natLe 8 (2 ^ 24)) id (fun _ e => !decide (e.get 8 8 < 2 ^ 24)),
     ([(0, none), (1, none), (1, some 0)].all (fun x => syncAt 1 (natLe 8 0x1FFFF8 ++ natLe 8 x.1 ++ natLe 4 1)
         (fun q => { q with timers := 3300, queues := q.queues.map (fun y => (y.1, { y.2 with waitFrom := x.2 })) }) (fun s e =>
       match waitFields 4 e with
       | none => false
       | some w => !(s.queue 0 4).inProgress && (entryMet s 0 4 e w == decide (x.1 = 0)) && decide ((s.queue 0 4).waitFrom = x.2) &&
           decide (w.2.2 ≠ 0 ∧ 0 + 3300 * w.2.2 ≤ (s.part 0).timers))))].all id = true := by decide +kernel

theorem witness_EntriesEndAtTheHeadOfTheirQueue : dev.outstanding = [] := by decide +kernel

theorem witness_CopiesMoveBytesThroughThePorters :
    [(let s := entryDev 2 (entryBytes0 1 1 (natLe 8 0 ++ natLe 8 64 ++ natLe 8 64 ++ natLe 8 2)) false id
      atHead s 2 1 (fun e => copyOk e && e.zero 56 8) && !(s.queue 0 2).inProgress),
     decide (((devWith (fun q => { q with ioOut := 1 })).part 0).ioOut ≠ 0),
     (let s := { dev with hostFetch := [(0, 128, some []), (0, 64, none)] }
      decide (s.hostFetch.find? (fun h => fetchWaits h && decide (h.2.1 = 64)) = some (0, 64, none)) && decide ((s.part 0).state ≠ .resetting) &&
        s.hostFetch.any (fun h => decide (h.1 = 0) && h.2.2.isNone)),
     (let s := { dev with hostCommit := [(0, 64)] }
      decide (s.hostCommit.find? (fun h => h.2 = 64) = some (0, 64)) && decide ((s.part 0).state ≠ .resetting)),
     (let s := devWith (fun q => { q with ioOut := 1 })
      s.hostFetch.all (fun h => !decide (h.1 = 0) || h.2.2.isSome) && s.hostCommit.all (fun h => decide (h.1 ≠ 0)) &&
        decide ((s.part 0).ioOut ≠ 0))].all id = true := by
  decide +kernel

theorem witness_CompanionSitesCompleteAndFail :
    [(let s := { dev with sites := [(1, { state := 1, pending := [(0, 64, true)] })] }
      decide ((s.site 1).pending = [(0, 64, true)])),
     (let s := { dev with sites := [(1, { state := 1, pending := [(0, 64, false)] })] }
      decide ((s.site 1).pending = [(0, 64, false)]) && (s.part 0).present),
     (let s := { dev with sites := [(0, { state := 1 })] }
      decide ((s.site 0).state = 1) && (partsOf s).all (fun p => !bit (s.part p).record.companion 0 || !(s.part p).job.running))].all id = true := by
  decide +kernel

/-- The state with a plan image at 100_0000H: a descriptor of 320 bytes, two bell entries, and one step over both. -/
def withImage (s : State) : State :=
  { s.modPart 0 (fun q => { q with plan := some { pages := [0x100] } }) with
    mem := mwrites (mwrites (mwrites s.mem 0x1000010 (natLe 4 3 ++ natLe 4 1)) 0x1000048 (natLe 8 0x100)) 0x1000100
      ([(1, 0x200, 320), (2, 0x400, 16), (8, 0x500, 64)].flatMap (fun e => natLe 8 e.1 ++ natLe 8 e.2.1 ++ natLe 8 e.2.2 ++ natLe 8 0)) }

/-- The fields of a LAUNCH: code 0, 3 groups, 32 threads, 2 slots, core 0 of stall 0. -/
def launchFields : List Byte :=
  natLe 8 0 ++ natLe 8 0 ++ natLe 4 3 ++ natLe 1 32 ++ natLe 1 2 ++ natLe 2 1 ++ natLe 8 1

theorem witness_PlanEntriesLoadRunAndUnload :
    [(let s := entryDev 0 (entryBytes0 1 1 (natLe 8 0 ++ natLe 8 65536 ++ natLe 8 64)) false id
      atHead s 0 1 (fun e => isVa (e.get 8 8) && isVa (e.get 24 8) && decide (e.get 24 8 % 64 = 0) && e.zero 32 32) &&
        !(s.part 0).job.running && (s.part 0).plan.isNone),
     (let s := withImage (entryDev 0 (entryBytes0 2 1 []) false id)
      atHead s 0 2 (fun e => e.zero 8 56) && !(s.part 0).job.running),
     (let s := withImage (entryDev 0 (entryBytes0 3 1 (natLe 2 0 ++ natLe 2 1 ++ natLe 4 1)) true id)
      atHead s 0 3 (fun e => planRunOk e && decide (e.get 8 2 ≤ e.get 10 2) && decide (e.get 10 2 < bellCount (imageOf s 0)) &&
        (match waitMet s 0 (e.get 16 8) (e.get 24 8) with | .ok true => true | _ => false)) && !(s.queue 0 0).inProgress &&
        (s.part 0).job.running && !unitBusy s 0 && !serveFirst s 0 && !(s.part 0).job.awaitStart && decide ((s.part 0).state = .running)),
     (let s := entryDev 1 (entryBytes0 0x10 2 launchFields) true id
      atHead s 1 0x10 (fun e => launchOk e && !launchStallsBad s 0 (e.get 32 8) &&
        (match waitMet s 0 (e.get 64 8) (e.get 72 8) with | .ok true => true | _ => false)) && !(s.queue 0 1).inProgress &&
        (s.part 0).job.running && !unitBusy s 0 && !serveFirst s 0 && !unitReady s 0 && !(s.part 0).job.awaitStart && decide ((s.part 0).state = .running)),
     (let s := withImage (entryDev 0 [] true (fun q => { q with epoch := { running := true }, run := some { first := 0, last := 1, repeatLeft := 1 } }))
      bit (s.part 0).record.stalls 0 && (s.part 0).plan.isSome && (s.part 0).epoch.running && decide ((s.part 0).epoch.stage ≠ 4) &&
        !(s.stall 0).repage && decide (nextEntry s 0 = some 1) && decide (partAt s (imageOf s 0) (bellAt (imageOf s 0) 1).epoch 0 = some 0)),
     (let s := withImage (entryDev 0 [] true (fun q => { q with run := some { first := 0, last := 1, repeatLeft := 1 } }))
      bit (s.part 0).record.stalls 0 && (s.part 0).plan.isSome && !(s.part 0).epoch.running && (s.part 0).run.isSome &&
        decide (partAt s (imageOf s 0) (bellAt (imageOf s 0) (s.part 0).epoch.entry).epoch 0 = some 0))].all id = true := by
  decide +kernel

theorem witness_SessionsServeStepByStep :
    [(let s := withImage (entryDev 3 (entryBytes0 1 1 (natLe 8 0 ++ natLe 8 0 ++ natLe 4 64)) true id)
      atHead s 3 1 (fun e => serveOk e) && !(s.queue 0 3).inProgress && (s.part 0).job.running && servePlan s 0),
     mayStep (withImage (entryDev 3 [] true (fun q => { q with ses := { q.ses with serving := true } }))) 0,
     (let s := devWith (fun q => { q with state := .running, job := { running := true }, lease := { set := true, grace := 7 } })
      (s.part 0).lease.set && decide ((s.part 0).lease.remain = 0) && (s.part 0).job.running && decide ((s.part 0).state = .running)),
     (let s := devWith (fun q => { q with state := .preempting })
      decide ((s.part 0).state = .preempting) && decide ((s.part 0).lease.graceLeft = 0))].all id = true := by decide +kernel

theorem witness_PowerEventsSteerTheDies :
    [scalesRun dev,
     (let s := devWith (fun q => { q with job := { running := true }, record := { q.record with timing := 1 }, pwr := { q.pwr with pendingShare := true, pendingFor := 200 } })
      isLockstep s 0 && (s.part 0).job.running && (s.part 0).pwr.pendingShare && decide (200 ≤ (s.part 0).pwr.pendingFor) && scalesRun s),
     decide ((dev.part 0).pwr.pendingFor < 200),
     (let s := devWith (fun q => { q with pwr := { q.pwr with coreHigh := [(0, 100)] } })
      scalesRun s && (partsOf s).any (fun p => decide (0 ∈ diesOf s p) && decide (100 ≤ tget (s.part p).pwr.coreHigh 0))),
     scalesRun dev && (partsOf dev).all (fun p => decide (tget (dev.part p).pwr.coreHigh 0 < 100)),
     (let s := { dev with dies := [(3, { droop := true })] }
      (s.die 3).droop),
     !dev.power.alert && !dev.power.halted,
     (let s := { dev with power := { dev.power with alert := true } }
      s.power.alert)].all id = true := by decide +kernel

theorem witness_TripsAndStopsOfTheDevice :
    [!dev.power.tripped, decide (dev.power.state ≠ .off),
     (let s := { dev with power := { dev.power with tripped := true, vinLow := 1 } }
      s.power.tripped),
     (let s := { dev with power := { dev.power with vinLow := 100 } }
      decide (100 ≤ s.power.vinLow) && !s.power.halted && !s.power.tripped && decide (s.boot.stage ≠ .fatal)),
     (let s := { dev with power := { dev.power with coolantLow := 1 } }
      decide (s.power.coolantLow = 1) && mayStop s),
     decide (dev.power.state = .run) && !dev.power.halted].all id = true := by decide +kernel

/-- What a boot finds: both straps low, the flash and the PLLs well, no site taken. -/
def env0 : BootInputs :=
  { strap := 0, flashResponds := true, pllsLock := true, fuseMajority := true, failedChannels := [], sites := [none, none] }

theorem witness_ResetsWakesAndBoot :
    [(let s := { dev with power := { dev.power with state := .idle } }
      !s.power.halted && !s.power.tripped && !s.power.coolantStop && decide (s.power.state = .idle)),
     (let s := { dev with power := { dev.power with wakeCause := 4, wokeAt := dev.aoCount } }
      decide (s.power.state = .run) && decide (s.power.wakeCause = 4) && decide (s.power.wokeAt = s.aoCount)),
     (let s := { dev with power := { dev.power with state := .off } }
      !s.power.halted && !s.power.tripped && decide (s.power.state = .off)),
     (let s := { dev with boot := { dev.boot with stage := .firmware, due := some 3 }, power := { dev.power with coolantLow := 1 } }
      decide (s.boot.due = some 3) && !s.power.tripped && !s.power.halted && decide (s.boot.stage = .firmware) && decide (s.power.coolantLow ≠ 0)),
     (let s := { dev with power := { dev.power with state := .idle }, shared := { wake := [(63, false, 0)] } }
      decide (tget? s.shared.wake 63 = some (false, 0)) && !s.power.halted && !s.power.tripped && !s.power.coolantStop &&
        decide (s.power.state = .idle)),
     (let s := State.reset
      decide (s.boot.due = some 0) && !s.power.tripped && s.power.halted && env0.fuseMajority && env0.flashResponds && !env0.strap.getLsbD 2 &&
        !env0.strap.getLsbD 3 && decide (s.power.coolantLow = 0) && env0.pllsLock),
     decide (voteCopies ⟨true, true, true, true, true, true⟩ = .used) && decide (dev.boot.stage = .ready) && !dev.power.halted &&
       !dev.power.coolantStop && decide (dev.fuseOdd = []) && (partsOf dev).all (fun p => decide ((dev.part p).pitchOdd = [])) &&
       (dev.part 0).present && !(dev.part 0).pitchLost].all id = true := by decide +kernel

theorem witness_JtagInstructionsAndTheTrace :
    [decide (partsOf ready = []), decide (partsOf dev ≠ []), hubRuns dev && decide ((lsmTop - 1 : Nat) < lsmTop),
     decide (regionOf 0x80000000010 = .spad 0 16),
     decide (ownerOfStall dev 63 = none), (partsOf dev).all (fun p => !(dev.part p).job.running),
     sampleDue { devWith (fun q => { q with tally := { q.tally with sampleUs := 10 } }) with devTime := 33000 } 0,
     decide (({ dev with shared := { syncIo := 2 } } : State).shared.syncIo = 2), decide (dev.shared.syncIo = 0)].all id = true := by decide +kernel

/-- `dev` with the channel of burst 4000H, of line 800H, serving an access. -/
def serving (write : Bool) (r : BurstReader) (requester : Nat) (f : Chan → Chan) : State :=
  dev.modChan (burstChan 0x4000) (fun c => f { c with
    serving := some { requester := requester, line := 0x800, mask := 1, write := write, reader := r, address := 0x200000 } })

/-- Whether the access in service reads burst 4000H, and for whom. -/
def reads (s : State) (r : BurstReader) (requester : Nat) : Bool :=
  match servingBurst s 0x4000 false with
  | none => false
  | some x => decide (x.reader = r) && decide (x.requester = requester)

/-- One bit of burst 4000H flipped on its way: a check bit. -/
def flip0 : List (Fin 64 × Fin 18) := [(5, 16)]

/-- Whether the check of burst 4000H fails with that bit flipped. -/
def checkFails (s : State) : Bool :=
  !(received (s.chan (burstChan 0x4000)).seed 0x4000 (mreads s.mem (burstAddr 0x4000) 128) flip0).2

/-- `n` reissues so far of burst 4000H. -/
def tries (write : Bool) (n : Nat) (c : Chan) : Chan := { c with attempts := [(0x4000, write, n)] }

theorem witness_BurstsOfStackedMemory :
    [decide (BurstReader.host ≠ .firmware) && (servingBurst dev 0x4000 false).isNone,
     (let s := serving false .host deviceTraffic id
      reads s .host deviceTraffic && !(s.chan (burstChan 0x4000)).failed),
     (let s := serving false (.insider 0) 0 id
      reads s (.insider 0) 0 && decide ((0 : Nat) ≠ deviceTraffic) && !(s.chan (burstChan 0x4000)).failed),
     (let s := serving false (.insider 0) 0 (tries false 3)
      reads s (.insider 0) 0 && !(s.chan (burstChan 0x4000)).failed && checkFails s &&
        decide (attemptsOf (s.chan (burstChan 0x4000)) 0x4000 false < 4)),
     (let s := serving true (.insider 0) 0 (tries true 3)
      writing s 0x4000 && !(s.chan (burstChan 0x4000)).failed && decide (attemptsOf (s.chan (burstChan 0x4000)) 0x4000 true < 4)),
     ([(BurstReader.host, deviceTraffic), (.insider 0, 0)].all (fun e =>
       (let s := serving false e.1 e.2 (tries false 4)
        reads s e.1 e.2 && checkFails s && decide (4 ≤ attemptsOf (s.chan (burstChan 0x4000)) 0x4000 false)) &&
       (let s := serving false e.1 e.2 (fun c => { c with failed := true })
        reads s e.1 e.2 && (s.chan (burstChan 0x4000)).failed))),
     (reloadPage dev 0 (burstAddr 0x4000)).isNone,
     (let s := devWith (fun q => { q with kernel := { running := true }, plan := some { pages := [0x100], reloadable := [(0, 1024)] } })
      decide (reloadPage s 0 (burstAddr 0x4000) = some 0) && replayable s 0 && decide (0x4000 ∉ (s.part 0).refill.failed) &&
        (s.part 0).refill.waitsFor.isNone && decide (unitRefills s 0 < 4)),
     (let s := serving true (.insider 0) 0 id
      writing s 0x4000 && !(s.chan (burstChan 0x4000)).failed),
     (let s := serving true (.insider 0) 0 (fun c => { c with failed := true })
      writing s 0x4000 && (s.chan (burstChan 0x4000)).failed),
     (let s := serving true (.insider 0) 0 (tries true 4)
      writing s 0x4000 && decide (4 ≤ attemptsOf (s.chan (burstChan 0x4000)) 0x4000 true)),
     ([true, false].all (fun b => let s := { dev with hbm := [(stackOfChan (channelOf 0x800), { stopped := b })] }
       decide ((s.chan (channelOf 0x800)).serving = none) && decide ((s.chan (channelOf 0x800)).queue = []) &&
         decide ((tget s.hbm (stackOfChan (channelOf 0x800))).stopped = b))),
     decide (dev.power.state = .run),
     (let s := { dev with chans := [(511, { recent := List.replicate 16 0 })] }
      decide (16 ≤ ((s.chan 511).recent.filter (fun x => decide (s.devTime < x + msTicks))).length)),
     (let s := devWith (fun q => { q with refill := { q.refill with pending := true } })
      (s.part 0).refill.pending)].all id = true := by decide +kernel

/-! A kernel of partition 0 with one group, at stall 0 and core 0, whose next word lies in its core's instruction cache. -/

def g0 : GroupRef := { stall := 0, core := 0, slot := 0 }

/-- Partition 0 with a kernel in progress. -/
def kpart (f : Part → Part) : Part :=
  f { part0 with
    state := .running, job := { running := true }
    kernel := { running := true, groups := 1, threadsLast := 32, slots := 1, cores := 1, stalls := 1, nextGroup := 1, limit := 9 } }

def kdev (w : W64) (f : Group → Group) : State :=
  { dev with
    parts := [(0, kpart id)], stalls := [(0, { cores := [(0, { icache := [(0x1800, [w])] })] })]
    groups := [(groupKey 0 0 0, f { live := true, pc := 0x600000, active := 0xFFFFFFFF })] }

/-- Whether a word stands fetched for the group. -/
def fetched (s : State) (w : W64) (c : OpClass) : Bool :=
  mayIssue s g0 && wordLegal w && decide (wClass w = c) && decide (icLook s g0 (s.group g0).pc = some w) &&
    decide ((s.group g0).pc / 1024 ∉ (tget (s.stall g0.stall).cores g0.core).icacheOdd) && !operandsOdd (s.group g0) w

theorem fetched_of (s : State) (w : W64) (c : OpClass) (h : fetched s w c = true) : Fetched s g0 w c s := by
  simp only [fetched, Bool.and_eq_true, decide_eq_true_eq, Bool.not_eq_true'] at h
  exact ⟨h.1.1.1.1.1, h.1.1.1.1.2, h.1.1.1.2, by simp [fetchWord, checkIcache, h.1.2, h.1.1.2], h.1.1.1.1.1, h.2⟩

/-- Whether a word stands fetched in a state whose group is as `f` has it, and what holds of that group. -/
def runs (w : W64) (c : OpClass) (f : Group → Group) (pre : Group → Bool) : Bool :=
  fetched (kdev w f) w c && pre ((kdev w f).group g0)

/-- A guarded control word: enabled, predicate 0. -/
def guarded (op : Nat) : W64 := BitVec.ofNat 64 (op + 2 ^ 11)

/-- Whether every lane of some stack entries has exited. -/
def goneAll (exited : W32) (st : List (Bool × Nat × W32)) : Bool := st.all (fun e => decide (e.2.2 &&& ~~~ exited = 0))

theorem witness_InstructionsSteerTheirGroup :
    [runs 0 (.control 0) id (fun _ => true), runs 0x0000040000000001 (.control 1) id (fun _ => true),
     runs 2 (.control 2) id (fun x => decide (uGet x (wA 2) = 0)),
     runs 2 (.control 2) (fun x => { x with u := [(0, 5)] }) (fun x => decide (uGet x (wA 2) ≠ 0)),
     runs 3 (.control 3) (fun x => { x with stack := List.replicate 31 (true, 0, 1) }) (fun x => decide (x.stack.length < 32)),
     runs 3 (.control 3) (fun x => { x with stack := List.replicate 32 (true, 0, 1) }) (fun x => decide (32 ≤ x.stack.length)),
     runs (guarded 4) (.control 4) id (fun x => decide (x.active &&& guardMask x (guarded 4) = 0)),
     runs (guarded 4) (.control 4) (fun x => { x with preds := [(0, 0xFFFFFFFF)] }) (fun x =>
       decide (x.active &&& guardMask x (guarded 4) ≠ 0) && decide (x.active &&& ~~~ guardMask x (guarded 4) = 0)),
     runs (guarded 4) (.control 4) (fun x => { x with preds := [(0, 1)] }) (fun x =>
       decide (x.active &&& guardMask x (guarded 4) ≠ 0) && decide (x.active &&& ~~~ guardMask x (guarded 4) ≠ 0) && decide (x.stack.length < 32)),
     runs (guarded 5) (.control 5) id (fun x => decide (x.active &&& ~~~ guardMask x (guarded 5) ≠ 0)),
     runs (guarded 7) (.control 7) (fun x => { x with preds := [(0, 0x7FFFFFFF)] }) (fun x =>
       decide (x.active &&& ~~~ guardMask x (guarded 7) ≠ 0)),
     ([([], 0), ([(true, 0, 0)], 0), ([(true, 0, 2), (false, 4, 2)], 2)].all (fun (e : List (Bool × Nat × W32) × W32) =>
       runs (guarded 5) (.control 5) (fun x => { x with preds := [(0, 0xFFFFFFFF)], stack := e.1 ++ (true, 8, 1) :: [], exited := e.2 }) (fun x =>
         decide (x.active &&& ~~~ guardMask x (guarded 5) = 0) && goneAll x.exited e.1 && decide ((1 : W32) &&& ~~~ x.exited ≠ 0)) &&
       runs 6 (.control 6) (fun x => { x with stack := e.1 ++ (false, 8, 1) :: [], exited := e.2 }) (fun x =>
         goneAll x.exited e.1 && decide ((1 : W32) &&& ~~~ x.exited ≠ 0)) &&
       runs (guarded 7) (.control 7) (fun x => { x with active := 2, preds := [(0, 2)], stack := e.1 ++ (true, 8, 1) :: [], exited := e.2 }) (fun x =>
         decide (x.active &&& ~~~ guardMask x (guarded 7) = 0) && goneAll (x.exited ||| actsOn x (guarded 7)) e.1 &&
           decide ((1 : W32) &&& ~~~ (x.exited ||| actsOn x (guarded 7)) ≠ 0)))),
     runs 6 (.control 6) id (fun x => decide (x.stack = [])),
     ([[], [(true, 8, 1)]].all (fun (st : List (Bool × Nat × W32)) =>
       runs (guarded 7) (.control 7) (fun x => { x with preds := [(0, 0xFFFFFFFF)], stack := st }) (fun x =>
         decide (x.active &&& ~~~ guardMask x (guarded 7) = 0) && goneAll (x.exited ||| actsOn x (guarded 7)) x.stack) &&
       runs (guarded 5) (.control 5) (fun x => { x with preds := [(0, 0xFFFFFFFF)], stack := st, exited := 1 }) (fun x =>
         decide (x.active &&& ~~~ guardMask x (guarded 5) = 0) && goneAll x.exited x.stack))),
     runs 6 (.control 6) (fun x => { x with stack := [(false, 8, 1)], exited := 1 }) (fun x =>
       decide (x.stack ≠ []) && goneAll x.exited x.stack)].all id = true := by decide +kernel

/-- The undamaged line of the group's instruction cache that holds its word. -/
theorem witness_InstructionsSteerTheirGroup_fetch :
    icLook (kdev 0 id) g0 ((kdev 0 id).group g0).pc = some 0 ∧
      ((kdev 0 id).group g0).pc / 1024 ∉ (tget ((kdev 0 id).stall g0.stall).cores g0.core).icacheOdd := by decide +kernel

theorem witness_InstructionsComputeInTheirGroup :
    [runs 0x10 .vectorInt id (fun _ => true), runs 0x6F .vectorFloat id (fun _ => true),
     runs 0x8F .compare id (fun _ => true), runs 0x90 .uniform id (fun _ => true), runs 0x9E .sreg id (fun _ => true),
     runs 0x9F .clrf id (fun _ => true), runs 0x00000440000000C8 .gmma id (fun x => decide (actsOn x 0x00000440000000C8 = ~~~ (0 : W32))),
     runs 0x000010C0000000C8 .gmma (fun x => { x with active := 1 }) (fun x => decide (actsOn x 0x000010C0000000C8 ≠ ~~~ (0 : W32)))].all id =
      true := by decide +kernel

/-- A word of the transcendental OP of the conversion class. -/
def convWord (k : Fin 16) : W64 := BitVec.ofNat 64 (0x70 + k.val)

theorem convWord_fetched : ∀ k : Fin 16, wOp (convWord k) = 0x70 + k.val ∧
    (!bit (convWord k).toNat 13 && guardOk (convWord k) && decide (wClass (convWord k) = .convert) && mayIssue (kdev (convWord k) id) g0 &&
      decide (icLook (kdev (convWord k) id) g0 ((kdev (convWord k) id).group g0).pc = some (convWord k)) &&
      decide (((kdev (convWord k) id).group g0).pc / 1024 ∉ (tget ((kdev (convWord k) id).stall g0.stall).cores g0.core).icacheOdd) &&
      !operandsOdd ((kdev (convWord k) id).group g0) (convWord k)) = true := by decide +kernel

theorem witness_InstructionsComputeInTheirGroup_conversion :
    fetched (kdev (convWord Config.transcendentalOp) id) (convWord Config.transcendentalOp) .convert = true := by
  have h := convWord_fetched Config.transcendentalOp
  simp only [Bool.and_eq_true, decide_eq_true_eq] at h
  simp only [fetched, wordLegal, h.2.1.1.1.1.2, convertOk, convOp, h.1, if_true, Bool.and_eq_true, decide_eq_true_eq]
  exact ⟨⟨⟨⟨⟨h.2.1.1.1.2, ⟨⟨h.2.1.1.1.1.1.1, h.2.1.1.1.1.1.2⟩, trivial⟩⟩, trivial⟩, h.2.1.1.2⟩, h.2.1.2⟩, h.2.2⟩

/-- A memory word: OP, SIZE 4 bytes, no VOFF. -/
def memWord (op : Nat) : W64 := BitVec.ofNat 64 (op + 2 ^ 25 + 2 ^ 33)

/-- The accesses of a memory word's lanes. -/
def accessesOf (s : State) (w : W64) (write : Bool) : List LaneAccess :=
  match laneAccesses s 0 (2 ^ wSize w) (2 ^ wSize w) Detail.tgcMisaligned write false (memoryVas (s.group g0) w) with
  | .ok as => as
  | .error _ => []

/-- A kernel with one lane at a virtual address, and a line of its own memory as `l` and the L1 as `x` have it. -/
def lsmDev (op va : Nat) (l : Line) (x : L1Line) : State :=
  { kdev (memWord op) (fun x => { x with active := 1, u := [(0, BitVec.ofNat 64 va)] }) with
    parts := [(0, kpart (fun q => { q with
      record := { q.record with companion := 1 }, cache := { q.cache with lines := [(0x800, { l with here := 255 })] } }))]
    l1s := [(l1Key core0, [(0x800, x)])], sites := [(0, { state := 1 })] }

/-- The lines a lane reaches, through PREF and DISCARD. -/
def lineReach (s : State) (w : W64) : List Nat :=
  match lineAccesses s g0 w with | .ok as => accessLines s as | .error _ => []

/-- Whether an access reaches a scratchpad of the device. -/
def atSpad (s : State) (y : LaneAccess) : Bool :=
  decide (y.trans.sys / 2 ^ 44 = ownNumber s) && (match regionOf (y.trans.sys % 2 ^ 44) with | .spad _ _ => true | _ => false)

/-- Whether the one access of a memory word at `va` is as `pre` has it, where the word is fetched and no store is waited for. -/
def memAt (op va : Nat) (l : Line) (x : L1Line) (pre : State → LaneAccess → Bool) : Bool :=
  let s := lsmDev op va l x
  match accessesOf s (memWord op) (decide (op = 0xA1)) with
  | [y] => fetched s (memWord op) (.memory (op - 0xA0)) && decide (s.spadOdd = []) && !releaseWaits s g0 0 0 && pre s y
  | _ => false

theorem witness_MemoryInstructionsReachTheirLines :
    [memAt 0xA0 1020 { state := .clean, filter := [{ l1 := core0, owner := false }] } { state := .s } (fun s y =>
       decide (y.trans.sys / 2 ^ 44 = ownNumber s) && decide (regionOf (y.trans.sys % 2 ^ 44) = .lsm) && (homeOf s 0 (accessLine s y)).isSome &&
         decide ((s.l1Line core0 (accessLine s y)).state ≠ .i) && !(s.l1Line core0 (accessLine s y)).bad),
     memAt 0xA0 0x3FFFFC {} {} atSpad,
     memAt 0xA0 1020 { state := .clean } {} (fun s y =>
       (match prepLines s 0 core0 false (accessLines s [y]) with | (t, .ready) => decide (t = s) | _ => false) &&
         (match readSys s 0 y.trans.sys y.bytes with | (_, .data _) => true | _ => false)),
     memAt 0xA1 0x3FFFFC {} {} (fun s y => atSpad s y && Memory.wf s.spad && decide ((s.part 0).job.flip = 0)),
     memAt 0xA1 8 { state := .staged, filter := [{ l1 := core0, owner := true }] } { state := .m } (fun s y =>
       (storeBad s 0 y).isNone && decide (accessLine s y = 0x800) && isLsmLine 0x800 && !(s.l1Line core0 0x800).bad &&
         decide ((s.l1Line core0 0x800).state = .m) && decide ((s.line 0 0x800).state = .staged)),
     memAt 0xA1 8 { state := .clean, filter := [{ l1 := core0, owner := true }] } { state := .e } (fun s y =>
       (storeBad s 0 y).isNone && decide (accessLine s y = 0x800) && isLsmLine 0x800 && !(s.l1Line core0 0x800).bad &&
         decide ((s.l1Line core0 0x800).state = .e) && decide ((s.l1Line core0 0x800).data = []) &&
         decide ((s.line 0 0x800).state = .clean) && !(s.line 0 0x800).streamed && decide (stageCheck s 0 0x800 = .staged)),
     memAt 0xA1 0x800008 {} {} (fun s y => decide (y.trans.sys / 2 ^ 44 = ownNumber s) &&
       decide (regionOf (y.trans.sys % 2 ^ 44) = .companion 0 8) && decide ((s.site 0).state = 1)),
     ([(0xA0, 0), (0xA1, 1)].all (fun e => let s := lsmDev e.1 2 {} {}
       fetched s (memWord e.1) (.memory e.2) && !releaseWaits s g0 0 0 && decide (lanesOf (s.group g0) (memWord e.1) = [0]) &&
         decide (laneVa (s.group g0) (memWord e.1) (wSigned (memWord e.1) 63 43) 0 % 2 ^ wSize (memWord e.1) ≠ 0))),
     (let s := lsmDev 0xA2 0 { state := .clean, filter := [{ l1 := core0, owner := false }] } { state := .s }
      fetched s (memWord 0xA2) (.memory 2) && decide (lineReach s (memWord 0xA2) = [0x800]) && decide ((s.l1Line core0 0x800).state ≠ .i)),
     (let s := lsmDev 0xA2 0 { state := .clean } {}
      fetched s (memWord 0xA2) (.memory 2) && decide (lineReach s (memWord 0xA2) = [0x800]) && decide ((s.l1Line core0 0x800).state = .i)),
     ([LineState.clean, .dirty, .discardStaged].all (fun st => let s := lsmDev 0xA3 0 { state := st } {}
      fetched s (memWord 0xA3) (.memory 3) && decide (lineReach s (memWord 0xA3) = [0x800]) && resident0 s && heldByNone s &&
        lineQuiet s 0 0x800 && decide ((s.group g0).asked = [])))].all id = true := by decide +kernel

/-- An atomic word: OP, type U32, no VOFF. -/
def atomWord (op : Nat) : W64 := BitVec.ofNat 64 (0xB0 + op + 2 ^ 25)

theorem witness_AtomicsActAtTheHome :
    [(0, AtomOp.add), (1, .min), (2, .max), (3, .and), (4, .or), (5, .xor), (6, .exch), (7, .cas)].all (fun e =>
      let w := atomWord e.1
      let s := { kdev w (fun x => { x with active := 3, u := [(0, 1020)] }) with
        parts := [(0, kpart (fun q => { q with cache := { q.cache with lines := [(0x800, { state := .clean, here := 255 })] } }))] }
      match laneAccesses s 0 4 4 Detail.tgcMisaligned true true ((lanesOf (s.group g0) w).map (fun l => (l, laneVa (s.group g0) w (wSigned w 63 47) l))) with
      | .error _ => false
      | .ok as =>
        fetched s w (.atomic e.1) && decide (atomBits (atomTypeOf (wType w)) / 8 = 4) && !releaseWaits s g0 (bits w.toNat 43 41) (bits w.toNat 45 44) &&
          (as.findSome? (storeBad s 0)).isNone && !as.isEmpty && as.all (fun y => decide (accessLine s y = 0x800)) && isLsmLine 0x800 &&
          lineQuiet s 0 0x800 && !(s.line 0 0x800).host && decide ((s.group g0).asked = []) && decide ((s.group g0).replies = []) &&
          as.all (fun y => decide (y.trans.sys % 1024 = 1020)) && resident0 s && heldByNone s && decide (stillOut s 0 0x800 wholeLine true = 0) &&
          !inHeldImage s (linePhys 0x800) && canStage s 0 0x800 &&
          (ledgerMatch s (atomRequestOf s g0 w e.2 as 0x800 0) (linePhys 0x800 + 1020)).isNone &&
          decide ((s.stall (atomRequestOf s g0 w e.2 as 0x800 0).home).ledger.length < 4096) &&
          (match performAtom (dropL1s (access s 0 0x800 (.core core0) clsCoreData .fetch) 0 0x800 true (fun _ => false)) 0 0x800
              (atomRequestOf s g0 w e.2 as 0x800 0) with
            | (v, some _) => decide ((v.group g0).replies = []) && (v.group g0).live
            | _ => false)) = true := by decide +kernel

theorem witness_AtomicsActAtTheHome_nan : of32 (0x7FC00000 : BitVec 32).toNat = .nan := by decide +kernel

/-- The kernel of one group over, with no group left. -/
def overPart (f : Part → Part) : State := { dev with parts := [(0, kpart f)] }

theorem witness_KernelsSynchronizeFaultAndCommit :
    [runs 0x00000080000000C0 .fence id (fun _ => true) && !releaseWaits (kdev 0x00000080000000C0 id) g0 0 1,
     (let w : W64 := 0x010000C1
      let s := kdev w id
      fetched s w .bar && !releaseWaits s g0 1 3 && (s.group g0).live && decide (tget (tget (s.stall 0).cores 0).barriers 0 = (0, [])) &&
        decide (0 + 1 < bits w.toNat 29 24 + 1)),
     (let w : W64 := 0x010000C1
      let s := { kdev w id with stalls := [(0, { cores := [(0, { icache := [(0x1800, [w])], barriers := [(0, (2, [63]))] })] })] }
      fetched s w .bar && !releaseWaits s g0 1 3 && (s.group g0).live && decide (tget (tget (s.stall 0).cores 0).barriers 0 = (2, [63])) &&
        decide (1 + 1 = bits w.toNat 29 24 + 1)),
     (let w : W64 := 0x010000C1
      let s := { kdev w id with stalls := [(0, { cores := [(0, { icache := [(0x1800, [w])], barriers := [(0, (3, [63]))] })] })] }
      fetched s w .bar && !releaseWaits s g0 1 3 && decide ((tget (tget (s.stall 0).cores 0).barriers 0).2 ≠ []) &&
        decide ((tget (tget (s.stall 0).cores 0).barriers 0).1 ≠ bits w.toNat 29 24 + 1)),
     (let w : W64 := 0x000000C1
      let s := { kdev w id with stalls := [(0, { cores := [(0, { icache := [(0x1800, [w])], barriers := [(0, (1, [63]))] })] })] }
      fetched s w .bar && !releaseWaits s g0 1 3 && decide ((tget (tget (s.stall 0).cores 0).barriers 0).2 ≠ []) &&
        decide (bits w.toNat 29 24 + 1 < (tget (tget (s.stall 0).cores 0).barriers 0).2.length + 1)),
     (let s := kdev 0xFF id
      mayIssue s g0 && !wordLegal 0xFF && decide (icLook s g0 (s.group g0).pc = some 0xFF) && (s.part 0).kernel.running),
     (let s := (kdev 0 id).modPart 0 (fun q => { q with timers := 29700 })
      (s.part 0).kernel.running && decide ((s.part 0).kernel.limit ≠ 0) && !(groupsOf s 0).isEmpty &&
        decide ((s.part 0).kernel.timer + 3300 * (s.part 0).kernel.limit ≤ (s.part 0).timers)),
     ([({ error := some 1, nonrepl := true } : Kernel), { error := some 1, replays := 3 }].all (fun k =>
      let s := overPart (fun q => { q with kernel := { q.kernel with error := k.error, nonrepl := k.nonrepl, replays := k.replays } })
      kernelOver s 0 && (s.part 0).job.running && !(s.part 0).halted && !(s.part 0).refill.pending && decide ((s.part 0).state ≠ .resetting) &&
        clocksRun s && decide ((s.part 0).kernel.stage = 0) && (s.part 0).kernel.error.isSome && ((s.part 0).kernel.nonrepl ||
          ((s.part 0).refill.waitsFor.isNone && decide (3 ≤ (s.part 0).kernel.replays))))),
     decide (((overPart id).part 0).kernel.slots ≤ 64) && decide ((kernelCores ((overPart id).part 0).kernel)[0 % 1]? = some (0, 0)),
     (let s := overPart (fun q => { q with kernel := { q.kernel with error := some 1, replays := 2 } })
      !(s.part 0).kernel.nonrepl && (badEntry s 0).isNone && kernelOver s 0 && (s.part 0).job.running && !(s.part 0).halted && !(s.part 0).refill.pending && decide ((s.part 0).state ≠ .resetting) &&
        clocksRun s && decide ((s.part 0).kernel.stage = 0) && (s.part 0).kernel.error.isSome && (s.part 0).refill.waitsFor.isNone &&
        decide ((s.part 0).kernel.replays < 3)),
     (let s := overPart id
      let u := (sendStaged s 0).modPart 0 (fun q => { q with chk := { q.chk with pending := false }, kernel := { q.kernel with stage := 1 } })
      kernelOver s 0 && (s.part 0).job.running && !(s.part 0).halted && !(s.part 0).refill.pending && clocksRun s &&
        decide ((s.part 0).kernel.stage = 0) && (s.part 0).kernel.error.isNone && !isLinked (sendStaged s 0) 0 &&
        ((sendStaged s 0).part 0).zlk.partners.isEmpty && decide (((finalKernel u 0).part 0).kernel.stage = 2)),
     (let s := overPart (fun q => { q with kernel := { q.kernel with stage := 1 }, zlk := { q.zlk with partners := [(1, 2, 3)] } })
      decide ((s.part 0).kernel.stage = 1) && (s.part 0).zlk.partners.any (fun u => (s.part 0).zlk.commits.all (fun c =>
        decide ((c.1, c.2.1, c.2.2.1) ≠ u)))),
     (let s := { overPart (fun q => { q with kernel := { q.kernel with stage := 2 } }) with hostCommit := [(0, 64)] }
      decide ((s.part 0).kernel.stage = 2) && s.hostCommit.any (fun h => decide (h.1 = 0))),
     (let s := overPart (fun q => { q with refill := { q.refill with pending := true } })
      (s.part 0).refill.pending && (s.part 0).kernel.running)].all id = true := by decide +kernel

/-! An epoch of partition 0: a plan of one descriptor whose epoch has `len` ticks and flags `flags`. -/

def epDev (len flags : Nat) (f : Part → Part) : State :=
  let s := withImage { devMem 0x1000200 (natLe 4 len ++ natLe 1 0 ++ natLe 1 flags) with
    parts := [(0, { part0 with
      state := .running, job := { running := true }, epoch := { running := true }, run := some { first := 0, last := 1, repeatLeft := 1 } })] }
  s.modPart 0 f

def key0 : Key := { key := 1, nonce := 2, keyId := 3 }

/-- The same with a block in the engine's feeder and key slot 0, and three lines of its stream read from memory. -/
def feedDev (b : Block) : State :=
  let l : Line := { state := .clean, here := 255 }
  { epDev 9 0 (fun q => { q with cache := { q.cache with lines := [(0x800, l), (0x83F, l), (0x840, l)] } }) with
    stalls := [(0, { feederMxe := { blocks := [b], epochKeys := [(0, key0)] } })] }

def block0 : Block := { index := 0, va := 0, tagVa := 65536, slot := 0, packed := false, scales := false }
def blockClear : Block := { block0 with slot := 0xF, lines := 63 }
def blockFull : Block := { block0 with lines := 64 }
/-- A whole block of no bytes with the tag that `key0` gives it. -/
def blockTagged : Block :=
  { block0 with
    lines := 64, tagHere := true
    tag := gcmTag (natLe 32 key0.key.toNat) (blockIv key0 block0.index) (blockAad 0 block0.scales) block0.cipher }

/-- Whether the engine's feeder of stall 0 may take `n` bytes for a block that is due. -/
def arrives (s : State) (b : Block) (va n : Nat) : Bool :=
  decide (epochPartOf s 0 = some 0) && decide (blockDue (feederOf s 0 false) = some b) &&
    (match blockRead s 0 0 b false va n with | (_, .data _, _) => true | _ => false)

theorem witness_UnitsTakeTicksAndBells_feeder :
    [arrives (feedDev block0) block0 0 1024, arrives (feedDev blockClear) blockClear (1024 * 63) 1024, arrives (feedDev blockFull) blockFull 65536 16,
     (let b := { blockFull with tagHere := true, poisoned := true }
      let s := feedDev b
      decide (tagDue (feederOf s 0 false) = some b) && (tget? (feederOf s 0 false).epochKeys 0).isSome && b.poisoned),
     (let b := { block0 with source := 2 }
      let s := feedDev b
      decide (epochPartOf s 0 = some 0) && decide (blockDue (feederOf s 0 false) = some b) && decide (b.lines < 63) && decide (s.spadOdd = [])),
     ([false, true].all (fun m => let s := modMunit (epDev 9 0 id) 0 m (fun x => { x with verdicts := [(false, 0), (true, 0)] })
       decide ((munitOf s 0 m).verdicts = [(false, 0), (true, 0)]) && decide (ownerOfStall s 0 = some 0)))].all id = true := by decide +kernel

theorem blockTagged_key : tget? (feederOf (feedDev blockTagged) 0 false).epochKeys blockTagged.slot = some key0 := rfl
theorem blockTagged_tag : blockTag (feederOf (feedDev blockTagged) 0 false) blockTagged 0 = blockTagged.tag := by
  unfold blockTag
  rw [blockTagged_key]
  simp only [blockTagged, block0]

/-- The one block of a feeder, whole and not judged, is the next whose tag is due. -/
theorem tagDue_one (f : Feeder) (b : Block) (h : f.blocks = [b])
    (hb : (blockWhole b && !b.verified && !b.failed && b.slot ≠ 0xF) = true) : tagDue f = some b := by
  have ht : ((streamBlocks f b.scales).takeWhile (fun x => decide (x ≠ b))) = [] := by simp [streamBlocks, h]
  unfold tagDue
  rw [h, List.find?_cons_of_pos]
  rw [ht, hb]
  rfl

theorem witness_UnitsTakeTicksAndBells_tag :
    epochPartOf (feedDev blockTagged) 0 = some 0 ∧ tagDue (feederOf (feedDev blockTagged) 0 false) = some blockTagged ∧
      (tget? (feederOf (feedDev blockTagged) 0 false).epochKeys blockTagged.slot).isSome = true ∧ blockTagged.poisoned = false ∧
      injections false (unitOps (feedDev blockTagged) 0 0 false) = [] ∧
      tagRight (feederOf (feedDev blockTagged) 0 false) blockTagged none = true ∧
      ∀ pos, formatAt false blockTagged.scales [] pos = none := by
  refine ⟨by decide +kernel, tagDue_one _ _ rfl rfl, rfl, rfl, by decide +kernel, ?_, fun _ => rfl⟩
  unfold tagRight
  exact List.any_eq_true.2 ⟨0, by decide, by rw [blockTagged_tag]; exact decide_eq_true rfl⟩

/-- What a domain finds once its blocks and outside transfers have gone on. -/
def tickState (s : State) : State := moveStage (pumpPorts (feederCycle s 0 0) 0 0) 0 0

def domainUp (s : State) : Bool := domainRuns s 0 0 && domainRuns (tickState s) 0 0

/-- The bell of stall 0 is complete: its domain is at the end, and its flit is ready. -/
def bellDev (flags : Nat) (f : Part → Part) : State :=
  { epDev 0 flags f with stalls := [(0, { bell := { ready := 1 } })] }

/-- The state in which a normal bell has sent what its epoch staged. -/
def sentState (s : State) : State := sendStaged (learnPhase s 0 (bellAt (imageOf s 0) (s.part 0).epoch.entry).phase) 0

/-- The same with its commit pending, and with the commit final. -/
def pendingState (s : State) : State :=
  setStage ((sentState s).modPart 0 (fun q => { q with chk := { q.chk with pending := false } })) 0 1
def finalState (s : State) : State := finalCommit (countBell (pendingState s) 0) 0

theorem witness_UnitsTakeTicksAndBells_bell :
    [(let s := epDev 9 0 (fun q => { q with epoch := { q.epoch with inBell := true } })
      domainUp s && ((tickState s).part 0).epoch.inBell && decide (holdCause (tickState s) 0 0 = none)),
     (let s := epDev 9 0 (fun q => { q with halted := true })
      domainUp s && decide (holdCause (tickState s) 0 0 = some (7, false))),
     (let s := epDev 9 0 id
      domainUp s && !((tickState s).part 0).epoch.inBell && decide (holdCause (tickState s) 0 0 = none) &&
        decide (((stretchCycle (readSpills (tickState s) 0 0 true) 0 0).dom 0 0).epochTick <
          runningLen (stretchCycle (readSpills (tickState s) 0 0 true) 0 0) 0)),
     (let s := { bellDev 0 (fun q => { q with epoch := { q.epoch with error := some 1, attempt := 3 } }) with
        stalls := [(0, { bell := { ready := 1, error := true } })] }
      bellRuns s 0 && decide ((s.part 0).epoch.stage = 0) && bellReady s 0 && (linkLoss s 0).isNone && errorFlooded s 0 &&
        (s.part 0).refill.waitsFor.isNone && decide (3 ≤ (s.part 0).epoch.attempt) &&
        !epochLinked (learnPhase s 0 (bellAt (imageOf s 0) (s.part 0).epoch.entry).phase) 0),
     (let s := epDev 9 0 id
      bellRuns s 0 && decide ((s.part 0).epoch.stage = 0) && !bellReady s 0),
     (let s := bellDev 1 (fun q => { q with epoch := { q.epoch with stage := 1 }, zlk := { q.zlk with members := [(0, 0), (5, 2)], votes := [(0, 0, true)] } })
      bellRuns s 0 && decide ((s.part 0).epoch.stage = 1) && (linkLoss s 0).isNone && voteMissing s 0 && epochLinked s 0),
     (let s := bellDev 0 (fun q => { q with epoch := { q.epoch with stage := 1 }, zlk := { q.zlk with partners := [(1, 2, 3)] } })
      bellRuns s 0 && decide ((s.part 0).epoch.stage = 1) && (linkLoss s 0).isNone && !epochLinked s 0 && (s.part 0).epoch.error.isNone &&
        (s.part 0).zlk.partners.any (fun u => (s.part 0).zlk.commits.all (fun c => decide ((c.1, c.2.1, c.2.2.1) ≠ u)))),
     (let s := bellDev 1 (fun q => { q with epoch := { q.epoch with stage := 2 }, zlk := { q.zlk with members := [(0, 0), (5, 2)], applied := [(0, 0)] } })
      bellRuns s 0 && decide ((s.part 0).epoch.stage = 2) && voteMissing s 0),
     (let s := { bellDev 0 (fun q => { q with epoch := { q.epoch with stage := 3 } }) with hostCommit := [(0, 64)] }
      bellRuns s 0 && decide ((s.part 0).epoch.stage = 3) && s.hostCommit.any (fun h => decide (h.1 = 0))),
     (let s := bellDev 0 (fun q => { q with epoch := { q.epoch with stage := 4 } })
      bellRuns s 0 && decide ((s.part 0).epoch.stage = 4) && !resident s 0 (runningDesc s 0)),
     (let s := bellDev 1 (fun q => { q with
        epoch := { q.epoch with stage := 1 }, zlk := { q.zlk with members := [(0, 0), (5, 2)], votes := [(0, 0, true), (5, 2, false)] } })
      bellRuns s 0 && decide ((s.part 0).epoch.stage = 1) && (linkLoss s 0).isNone && epochLinked s 0 && !voteMissing s 0),
     (let s := bellDev 0 id
      bellRuns s 0 && decide ((s.part 0).epoch.stage = 0) && bellReady s 0 && (linkLoss s 0).isNone && !errorFlooded s 0 &&
        (s.part 0).epoch.error.isNone && !epochLinked (sentState s) 0 && !isLinked (sentState s) 0 &&
        ((sentState s).part 0).zlk.partners.isEmpty && ((sentState s).part 0).epoch.error.isNone),
     (let s := { bellDev 0 id with hostCommit := [(0, 64)] }
      (finalState s).hostCommit.any (fun h => decide (h.1 = 0))),
     ([LineState.staged, .discardStaged].all (fun st => let s := lineDev { state := st }
       isLsmLine 0x800 && decide ((s.line 0 0x800).filter = []) && decide ((s.line 0 0x800).state = st))),
     (let s := { epDev 9 0 id with domains := [(0, { stopped := true })], stalls := [(0, { stageReq := true })] }
      bellRuns s 0 && stageRequested s 0 && (domainsOf s 0).all (fun d => (s.dom 0 d).stopped) && (badEntry s 0).isNone)].all id = true := by
  decide +kernel

/-! A device whose port 0 leads to device 5 and port 1 to device 6, both up; partition 0 runs a job with partition 2 of
device 5 as the root. -/

def linkPart (f : Part → Part) : Part :=
  f { part0 with state := .running, job := { running := true }, kernel := { running := true }, zlk := { root := 5, members := [(0, 0), (5, 2)] } }

def linkDev (f : Part → Part) : State :=
  { dev with
    parts := [(0, linkPart f)]
    links := { ports := [(0, { state := .up, farDevice := 5, enabled := true }), (1, { state := .up, farDevice := 6, enabled := true }),
                         (2, { state := .training, enabled := true, helloSeen := true, locked := 16 })] } }

def withPort (s : State) (j : Nat) (f : ZPort → ZPort) : State := s.modPort j f

theorem witness_PortsAreUpOrFail :
    (let s := linkDev id
     decide ((s.port 2).state = .training) && decide ((s.port 2).unacked = []) && (s.port 2).helloSeen && decide ((s.port 2).locked = 16) && decide (s.fns = []) &&
       decide ((1 : W16) ≠ s.links.groupId)) = true := by decide +kernel

/-- A frame of empty slots with the expected SEQ 0 and its CRC, and one that cannot be corrected. -/
def frame0 : Frame :=
  let kinds := List.replicate 25 (0 : Fin 4)
  let marks := List.replicate 25 (0 : Byte)
  let slots := List.replicate 25 (List.replicate 64 (0 : Byte))
  { seq := 0, kinds := kinds, marks := marks, ctrl0 := 0, ctrl1 := 0, slots := slots, crc := 3862067114, corrected := 3, uncorrectable := false }

set_option maxRecDepth 200000 in
theorem witness_PortsCarryFrames_crc :
    frame0.crc.toNat = crc32c (frameBytes frame0.seq.toNat frame0.kinds frame0.marks frame0.ctrl0 frame0.ctrl1 frame0.slots) := by decide +kernel

/-- A device in the walk of a CHAIN_ENUMERATE, which has gone on to port `e.port`. -/
def walkDev (e : Enumeration) : State :=
  { linkDev id with links := { (linkDev id).links with enumeration := some e } }

/-- How many losses of a port count towards its failure. -/
def recent (s : State) (j : Nat) : Nat := ((s.port j).recentLost.filter (fun t => decide (s.devTime < t + 3300000))).length

set_option maxRecDepth 20000 in
theorem witness_PortsCarryFrames :
    (let s := linkDev id
     let f : SentFrame := { seq := 7, units := [], time := 0 }
     let old := { s with devTime := trainTicks }
     let sent := withPort s 0 (fun x => { x with unacked := [f] })
     [decide ((old.port 2).state = .training) && decide ((old.port 2).since + trainTicks ≤ old.devTime),
      decide ((old.port 0).state = .up) && decide ((old.port 0).lastGood + 3300 ≤ old.devTime),
      decide ((s.port 2).unacked = []), portRuns s 0, portRuns s 2,
      decide ((s.port 0).state = .up) && !frame0.uncorrectable && decide (frame0.seq.toNat = (s.port 0).rxSeq) && decide (frameFlits frame0 = []),
      decide ((s.port 0).state = .up) && ({ frame0 with uncorrectable := true } : Frame).uncorrectable && decide (recent s 0 < 15),
      (let u := withPort s 0 (fun x => { x with rxSeq := 5 })
       decide ((u.port 0).state = .up) && !frame0.uncorrectable && decide (frame0.seq.toNat ≠ (u.port 0).rxSeq) && decide (recent u 0 < 15)),
      decide ((sent.port 0).unacked = [] ++ f :: []),
      decide ((sent.port 0).unacked.find? (fun x => x.seq = (7 : W32).toNat) = some f),
      (let u := { sent with devTime := 33000 }
       decide ((u.port 0).unacked = f :: []) && decide (f.time + 33000 ≤ u.devTime)),
      decide (s.links.enumeration = none) && !bit s.links.owed 0,
      (let u := withPort s 1 (fun x => { x with state := .failed })
       decide ((u.port 0).state = .up) && decide (u.links.enumeration = none) && !bit u.links.owed 0 &&
         (List.range 12).all (fun k => decide (k = 0) || decide ((u.port k).state ≠ .up))),
      (let u := { s with links := { s.links with owed := 1 } }
       decide ((u.port 0).state = .up) && decide (u.links.enumeration = none) && bit u.links.owed 0),
      (let e : Enumeration := { parent := none, port := 1, next := 3, base := 0, before := 0 }
       decide (((walkDev e).port 0).state = .up) && decide ((walkDev e).links.enumeration = some e) && decide (e.port ≠ 0)),
      (let e : Enumeration := { parent := none, port := 0, next := 3, base := 0, before := 0 }
       let u := walkDev e
       decide ((u.port 0).state = .up) && decide (u.links.enumeration = some e) && decide (e.port = 0) && decide ((u.port 1).state = .up) &&
         decide (e.parent ≠ some 1))].all id) = true := by decide +kernel

set_option maxRecDepth 200000 in
theorem witness_PortsCarryFrames_badCrc :
    (0 : W32).toNat ≠ crc32c (frameBytes frame0.seq.toNat frame0.kinds frame0.marks frame0.ctrl0 frame0.ctrl1 frame0.slots) := by decide +kernel

/-- The token of unit 1 of partition 2 of device 5. -/
def token0 : UnitToken := { device := 5, partition := 2, unit := 1, attempt := 0 }

/-- Whether a symbol's first copy may act. -/
def firstCopy (s : State) (source key : Nat) : Bool :=
  decide ((s.port 0).state = .up) && decide (source ≠ ownNumber s) && s.links.seen.all (fun k => !decide (k.1 = key) || decide (k.2 + keyTicks ≤ s.devTime))

theorem witness_FloodedSymbolsAct :
    [([(0x09, true), (0x0A, true), (0x0B, true), (0x0C, false)].all (fun e => let s := linkDev (fun q => { q with job := { running := e.2 } })
       firstCopy s 5 (unitSymbol e.1 5 2 1 0).toNat && decide (groupsWith s 5 2 = [0]) && unitLive s 0 &&
         decide ((s.part 0).job.running = decide (e.1 ≠ 0x0C)))),
     (let s := linkDev id
      firstCopy s 5 (unitSymbol 0x0C 5 2 1 0).toNat && decide (groupsWith s 5 2 = [0]) && (s.part 0).job.running),
     ([0x09, 0x0A, 0x0B, 0x0C].all (fun n => let k := (unitSymbol n 5 2 1 0).toNat
       let s := { linkDev id with links := { (linkDev id).links with seen := [(k, 0)] }, devTime := 1 }
       s.links.seen.any (fun e => decide (e.1 = k) && decide (s.devTime < e.2 + keyTicks)))),
     (let s := linkDev id
      decide ((s.port 0).state = .up) && decide (({ token0 with device := 0 } : UnitToken).device.toNat = ownNumber s)),
     (let s := linkDev id
      decide ((s.port 0).state = .up) && decide ((6 : BitVec 12).toNat ≠ ownNumber s) && decide (routePorts s 6 = [1])),
     (let s := linkDev (fun q => { q with zlk := { q.zlk with root := 0 } })
      decide ((s.port 0).state = .up) && decide (joinParts s 5 2 = [0]) && decide (groupRoot s 0 = ownNumber s) && !(s.part 0).job.awaitStart),
     (let s := linkDev (fun q => { q with
        job := { q.job with awaitStart := true }, zlk := { q.zlk with root := 0, members := [(0, 0), (5, 2)], joined := [(0, 0)] } })
      decide ((s.port 0).state = .up) && decide (joinParts s 5 2 = [0]) && decide (groupRoot s 0 = ownNumber s) && (s.part 0).job.awaitStart &&
        decide ((s.part 0).zlk.startDelay = 0) && (s.part 0).zlk.members.all (fun x => decide (x = (5, 2)) || decide (x ∈ (s.part 0).zlk.joined))),
     (let s := linkDev (fun q => { q with zlk := { q.zlk with members := [(5, 2), (6, 1), (0, 0)] } })
      decide ((s.port 1).state = .up) && decide (joinParts s 6 1 = [0]) && decide (groupRoot s 0 ≠ ownNumber s) &&
        decide (routePorts s (groupRoot s 0) = [0])),
     (let s := linkDev (fun q => { q with job := { q.job with awaitStart := true } })
      firstCopy s 5 (pack [(0, 8, 0x08), (8, 12, 5), (32, 20, 1)]) && decide ((partsOf s).filter (fun p =>
        (s.part p).job.awaitStart && (s.part p).zlk.root = 5 && (s.part p).zlk.startDelay = 0) = [0])),
     (let s := linkDev id
      firstCopy s 5 (pack [(0, 8, 0x0E), (8, 12, 5), (20, 6, 2), (34, 23, 3)]) && decide (groupsWith s 5 2 = [0])),
     (let s := linkDev (fun q => { q with record := { q.record with timing := 1 } })
      firstCopy s 5 (BitVec.ofNat 64 (pack [(0, 8, 0x0F), (8, 12, 5), (20, 32, 4096)])).toNat && decide ((partsOf s).find? (fun p =>
        isLinked s p && (s.part p).zlk.root = 5 && isLockstep s p && (s.part p).job.running) = some 0)),
     (let s := linkDev (fun q => { q with zlk := { q.zlk with reachOpen := true } })
      firstCopy s 5 (pack [(0, 8, 0x10), (8, 12, 5), (48, 16, 1)]) && decide (reachNew s 5 = [])),
     (let s := linkDev id
      firstCopy s 5 (pack [(0, 8, 0x10), (8, 12, 5), (48, 16, 1)]) && decide (reachNew s 5 ≠ [])),
     (let s := linkDev id
      decide ((s.port 0).state = .up) && decide (joinParts s 9 2 = [])),
     (let s := { linkDev (fun q => { q with zlk := { q.zlk with reachOpen := true } }) with devTime := reachTicks }
      (s.part 0).zlk.reachOpen && decide ((s.part 0).zlk.reachSince + reachTicks ≤ s.devTime)),
     (let s := { bellDev 1 (fun q => { q with epoch := { q.epoch with stage := 1 }, zlk := { q.zlk with members := [(0, 0), (5, 2)] } }) with
        devTime := keyTicks }
      (s.part 0).job.running && epochLinked s 0 && voteMissing s 0 && decide ((s.part 0).zlk.voteSince + keyTicks ≤ s.devTime))].all id = true := by decide +kernel

/-- An item from partition 2 of device 5 to this device at a physical address. -/
def item0 (dst : BitVec 12) (a : BitVec 44) (bytes : List Byte) (n : W32) : Item :=
  { srcDevice := 5, dstDevice := dst, srcPartition := 2, attempt := 0, kernel := false, unit := 1, seq := 0, address := a, operand := 0
    byteCount := n, lanes := [], data := bytes }

/-- Whether an item is one for partition 0 over `n` bytes. -/
def mine (s : State) (i : Item) (n : Nat) : Bool :=
  decide ((s.port 0).state = .up) && decide (i.dstDevice.toNat = ownNumber s) && decide (itemOwner s i = some 0) &&
    itemRange s 0 i.address.toNat (Nat.max 1 n)

/-- A line of device 5 that partition 0 has asked for. -/
def remoteLine : Nat := 2 ^ 46 + 5 * 2 ^ 34 + 0x800

/-- Whether a partition holds nothing of, and knows no COMMIT of, the unit of an item. -/
def unknownUnit (s : State) (i : Item) : Bool :=
  ((s.part 0).zlk.acted ++ (s.part 0).zlk.commits).all (fun x =>
    decide ((x.1, x.2.1, x.2.2.1) ≠ (i.srcDevice.toNat, i.srcPartition.val, i.unit.toNat)))

/-- `linkDev` with COMMIT tokens of unit 1 of partition 2 of device 5, acted and kept, by attempt. -/
def tokenDev (acted commits : List Nat) : State :=
  linkDev (fun q => { q with zlk := { q.zlk with acted := acted.map (fun a => (5, 2, 1, a)), commits := commits.map (fun a => (5, 2, 1, a)) } })

theorem witness_ItemsArrive :
    [(let s := linkDev id
      decide ((s.port 0).state = .up) && decide ((item0 6 0 [] 0).dstDevice.toNat ≠ ownNumber s) && decide (routePorts s 6 = [1])),
     ([itWrite, itToken, itCount, itResult].all (fun k => mine (linkDev id) (item0 0 0x200000 [1] 0) (heldLength k (item0 0 0x200000 [1] 0)))) &&
       unknownUnit (linkDev id) (item0 0 0x200000 [1] 0),
     ([1, 0].all (fun a =>
       let old := { item0 0 0x200000 [2] 0 with attempt := a }
       let s := linkDev (fun q => { q with zlk := { q.zlk with held := [{ kind := itWrite, item := old }] } })
       mine s { item0 0 0x200000 [1] 0 with attempt := 0 } 1 && heldOf 5 2 1 { kind := itWrite, item := old })),
     (let s := linkDev id
      let i := item0 0 0xA0000000000 [1] 0
      decide ((s.port 0).state = .up) && decide (i.dstDevice.toNat = ownNumber s) && decide (itemOwner s i = some 0) &&
        !itemRange s 0 i.address.toNat (heldLength itWrite i)),
     mine (tokenDev [1] []) (item0 0 0x200000 [1] 0) 1 && decide (((tokenDev [1] []).part 0).zlk.held = []) &&
       decide ((5, 2, 1, 1) ∈ ((tokenDev [1] []).part 0).zlk.acted) && decide ((5, 2, 1, 0) ∉ ((tokenDev [1] []).part 0).zlk.acted),
     mine (tokenDev [0] []) (item0 0 0x200000 [1] 0) 1 && decide ((5, 2, 1, 0) ∈ ((tokenDev [0] []).part 0).zlk.acted) && unitLive (tokenDev [0] []) 0,
     mine (linkDev id) (item0 0 0x80000000000 [] 8) 8 && decide (regionOf 0x80000000000 = .spad 0 0) && decide ((linkDev id).spadOdd = []),
     mine (linkDev id) (item0 0 0x200000 [] 1024) 1024 && decide (regionOf 0x200000 = .lsm) && decide (0x200000 % 1024 + 1024 ≤ 1024) &&
       (homeOf (linkDev id) 0 0x800).isSome,
     mine (linkDev id) (item0 0 0x200010 [] 1024) 1024 && decide (regionOf 0x200010 = .lsm) && decide (1024 < 0x200010 % 1024 + 1024),
     mine (linkDev id) (item0 0 0x2003FC [] 0) 1 && isLsmLine 0x800 && (homeOf (linkDev id) 0 0x800).isSome,
     ([1, 2].all (fun n =>
       let s := linkDev (fun q => { q with cache := { q.cache with lines := [(remoteLine, { fetch := n })] } })
       let i := { item0 0 0x200000 [] 0 with srcPartition := 0 }
       decide (fetchedLine s 0 i = some remoteLine) && decide ((s.line 0 remoteLine).waiting = []) && !(s.line 0 remoteLine).odd &&
         decide ((s.line 0 remoteLine).filter = []) && decide (i.operand = 0))),
     (let s := linkDev (fun q => { q with cache := { q.cache with lines := [(remoteLine, { fetch := 1 })] } })
      let i := { item0 0 0x200000 [] 0 with srcPartition := 0, operand := 1 }
      decide ((s.port 0).state = .up) && decide (i.dstDevice.toNat = ownNumber s) && decide (fetchedLine s 0 i = some remoteLine) &&
        decide ((s.line 0 remoteLine).fetch = 1) && decide (i.operand ≠ 0) && (s.part 0).kernel.running && (s.part 0).job.running),
     (let s := { linkDev id with groups := [(groupKey 0 0 0, { live := true, index := 3, asked := [remoteLine] })] }
      let i := { item0 0 0x200000 [] 0 with srcPartition := 0, seq := 3 }
      decide ((groupsOf s 0).find? (fun g => g.2.index = i.seq.toNat % 2 ^ 24) =
        some (groupKey 0 0 0, { live := true, index := 3, asked := [remoteLine] })) &&
        decide ([remoteLine].find? (fun a => isRemoteLine a && decide (linePhys a = i.address.toNat)) = some remoteLine))].all id = true := by
  decide +kernel

theorem witness_ArithmeticRoundsOnce : flDecode fmt32 0x3F800000 ≠ .nan ∧ flDecode fmtE4m3 0x7F = .nan := by decide +kernel

/-! ## Ill-formed commands are refused -/

theorem test_wellFormed_packets :
    (Instr.wellFormed (.nop (.mgmt 0 [1, 2, 3])) = false ∧ Instr.wellFormed (.nop (.mgmt 0 [1, 2, 3, 4])) = true ∧
      Instr.wellFormed (.getInfo (.mgmt 0 (List.replicate 1025 0))) = false ∧ Instr.wellFormed (.nop (.slot 0 0)) = true) := by
  decide +kernel

theorem test_wellFormed_host_accesses :
    ([Instr.slotWrite 0 0 0 [], .slotWrite 0 0 4095 [1, 2], .dataPortWrite 0 [], .dataPortWrite 0 (List.replicate 513 none), .dataPortRead 0 0,
      .dataPortRead 0 4097, .memrd 1 .any, .memwr 64 [1], .memwr 65 (List.replicate 64 0), .birsp 32, .biconflict 63, .hostSnoop 8,
      .cxlCacheResponse 1 none, .cxlCacheResponse 64 (some [1]), .cxlIoCompletion 0 (some [])].all (fun i => !i.wellFormed)) = true := by
  decide +kernel

theorem test_wellFormed_host_accesses_taken :
    ([Instr.slotWrite 0 0 4095 [1], .dataPortWrite 0 (List.replicate 512 none), .dataPortRead 0 4096, .memrd 64 .any,
      .memwr 64 (List.replicate 64 0), .birsp 64, .cxlCacheResponse 64 (some (List.replicate 64 0)), .cxlIoCompletion 0 none].all
      (fun i => i.wellFormed)) = true := by decide +kernel

theorem test_wellFormed_lists :
    ([Instr.wrl 0 .host 0 [], .wrl 0 .host 0 [(1, 2), (1, 3)], .atom { atom0 with lanes := [⟨1, 0, 0, 0⟩, ⟨0, 4, 0, 0⟩] },
      .atom { atom0 with lanes := [⟨0, 2, 0, 0⟩] }, .atom { atom0 with type := .u64, lanes := [⟨0, 4, 0, 0⟩] },
      .frame 0 { frame0 with kinds := [] }, .frame 0 { frame0 with slots := List.replicate 25 [] },
      .powerSample ⟨0, 0, [], 0, List.replicate 64 0, List.replicate 256 0⟩, .powerSample ⟨0, 0, [0, 0, 0, 0], 0, [], List.replicate 256 0⟩,
      .powerSample ⟨0, 0, [0, 0, 0, 0], 0, List.replicate 64 0, []⟩, .lsmReadReturn 0 .host [(1, 2), (1, 2)], .coldBoot { env0 with sites := [none] },
      .voteSweep ⟨true, true, true, true, true, true⟩ [(3, ⟨true, true, true, true, true, true⟩), (3, ⟨true, true, true, true, true, true⟩)],
      .bistGroupComplete [⟨1, 0, 0, 0, 0⟩, ⟨1, 0, 0, 0, 0⟩], .bistGroupComplete (List.replicate 17 ⟨1, 0, 0, 0, 0⟩),
      .companionCompletion 0 false (List.replicate 65 0), .write 0 (item0 0 0 (List.replicate 4033 0) 0),
      .atomReq 0 { item0 0 0 [] 0 with lanes := List.replicate 33 ⟨0, 0, 0, 0⟩ }].all (fun i => !i.wellFormed)) = true := by decide +kernel

theorem test_wellFormed_lists_taken :
    ([Instr.wrl 0 .host 0 [(1, 2), (2, 3)], .atom atom0, .frame 0 frame0, .coldBoot env0, .lsmReadReturn 0 .host [(1, 2), (1, 3)],
      .powerSample ⟨0, 0, [0, 0, 0, 0], 0, List.replicate 64 0, List.replicate 256 0⟩,
      .bistGroupComplete [⟨1, 0, 0, 0, 0⟩], .companionCompletion 0 false (List.replicate 64 0), .write 0 (item0 0 0 [1] 0)].all
      (fun i => i.wellFormed)) = true := by decide +kernel

/-! ## The manual's worked examples -/

/-- Logical stall 37 of a device whose CD2 has harvested p = 4 and p = 13 (spec/01): p = 6, row 1, column 0. -/
theorem test_stall_37 :
    (let s : State := { State.reset with fuses := { harvest := [0xFFFF, 0xFFFF, 0x3FFFF - 2 ^ 4 - 2 ^ 13, 0xFFFF] } }
     dieOf 37 = 2 ∧ physOf s 37 = 6 ∧ rowOf s 37 = 1 ∧ colOf s 37 = 0) := by decide +kernel

/-- Byte 4_0000H of the scratchpad of stall 37 lies at 800_12C0_0000H (spec/01). -/
theorem test_scratchpad_window : regionOf 0x80012C00000 = .spad 37 0x400000 := by decide +kernel

/-- The dot product of one MXFP4 group (spec/02): 1.0 + 0.09375 = 3F8C_0000H. -/
theorem test_mxfp4_group :
    dotFloat 9 9 0x3F800000 [[(0x3, 0x7E, 0x6, 0x7C), (0xF, 0x7E, 0x1, 0x7C), (0x1, 0x7E, 0xD, 0x7C)]] = 0x3F8C0000 := by decide +kernel

/-- Splitting one third (spec/02). -/
theorem test_split_third : splitHi 0x3EAAAAAB = 0x3EAA ∧ splitLo 0x3EAAAAAB = 0x3AAB := by decide +kernel

/-- The home of one KV line in a partition of stalls 16 to 31 (spec/08): slice 18, set 1,092; its channel is 54 (spec/10). -/
theorem test_home_of_kv_line :
    (let s := devWith (fun q => { q with cache := { sliceList := (List.range 16).map (fun i => i + 16) } })
     homeHash 0x48D159F = 0x1112 ∧ homeOf s 0 0x48D159F = some 18 ∧ setOf 0x48D159F = 1092 ∧ channelOf 0x48D159F = 54) := by decide +kernel

/-- The ledger under a kernel replay (spec/11): what the lanes of bins 39, 40 and 41 receive, and the values after. -/
theorem test_histogram_ledger :
    (let lanes := fun (o : Fin 1024) (ls : List (Fin 32)) => ls.map (fun l => (⟨l, o, 1, 0⟩ : AtomLane))
     (atomRun atom0 (lanes 0 [4, 5, 6]) 12) = ([(4, 12), (5, 13), (6, 14)], 15) ∧
       (atomRun atom0 (lanes 4 [0, 3, 7]) 100) = ([(0, 100), (3, 101), (7, 102)], 103) ∧
       (atomRun atom0 (lanes 8 [1, 2]) 57) = ([(1, 57), (2, 58)], 59)) := by decide +kernel

/-- The budget at full MXFP4 (spec/17): the shares at caps of 2,400 W, 2,000 W and 2,700 W, in tenths of a watt. -/
theorem test_power_shares :
    requiredShare 24090 3520 22185 = 24 ∧ requiredShare 24090 3520 18185 = 74 ∧ requiredShare 24090 3520 25185 = 0 := by decide +kernel

/-- CRC-32C of the published check string (Table HST-5). -/
theorem test_crc32c_check : crc32c ([0x31, 0x32, 0x33, 0x34, 0x35, 0x36, 0x37, 0x38, 0x39] : List Byte) = 0xE3069283 := by decide +kernel

/-! ## Single steps -/

/-- The state after a command. -/
def after (i : Instr) (s : State) : State := match exec i s with | .next t => t | _ => s

/-- The status and detail that a management reply carries. -/
def replies (s : State) : List (Nat × Nat) :=
  s.out.filterMap (fun o => match o with | .mgmtReply _ _ st d _ => some (st, d) | _ => none)

/-- NOP replies OK; with a word changed after its CRC it is refused (R380). -/
theorem test_nop_replies : replies (after (.nop (mg 0x0001 0 [])) dev) = [(Status.ok, 0)] := by decide +kernel

theorem test_bad_crc :
    replies (after (.nop (.mgmt 0 ((pkt 0x0001 0 []).set 1 8))) dev) = [(Status.badCrc, 0)] := by decide +kernel

/-- A cap of 799 W is out of range, 800 W is taken (R473). -/
theorem test_power_cap_low : replies (after (.powerSetCap (mg 0x0050 0 [799])) dev) = [(Status.badState, Detail.hstParam)] := by decide +kernel

theorem test_power_cap : (after (.powerSetCap (mg 0x0050 0 [800])) dev).power.cap = 800 := by decide +kernel

/-- A partition packet names a partition that does not exist (check 7 of R380). -/
theorem test_no_partition : replies (after (.jobEnd (mg 0x0042 7 [])) dev) = [] ∧
    replies (after (.partitionReset (mg 0x0042 7 [])) dev) = [(Status.badState, Detail.hstNoPartition)] := by decide +kernel

/-- A write to word 0 of a slot that is not free is ignored and sets OVERRUN (R378). -/
theorem test_slot_overrun :
    ((after (.slotWrite 1 3 0 [9]) heldSlot).fn 1).overrun = true ∧ (tget (tget ((after (.slotWrite 1 3 0 [9]) heldSlot).fn 1).slots 3).words 0) = 7 := by
  decide +kernel

/-- A slot commits with the write that covers word 0. -/
theorem test_slot_commit : ((after (.slotWrite 2 5 0 [1, 0, 0, 1]) dev).fn 2).order = [5] := by decide +kernel

/-- A read of a line nobody holds gives E, and a second reader then has the first downgraded (R218). -/
theorem test_rd_s_exclusive :
    (after (.rdS 0 core0 0x800) (lineDev { state := .clean })).noc = [.toL1 mDataE 0 core0 0x800] := by decide +kernel

theorem test_rd_s_downgrade :
    (after (.rdS 0 core0 0x800) (lineDev { state := .staged, filter := [{ l1 := core1, owner := true }] })).noc = [.toL1 mSnpDown 0 core1 0x800] := by
  decide +kernel

/-- An L1 whose writeback is in flight answers RSP_WBP (R223). -/
theorem test_snoop_crosses_writeback :
    (after (.snpDown 0 core0 0x800) { noc [.toL1 mSnpDown 0 core0 0x800] with l1s := [(l1Key core0, [(0x800, { wbInFlight := true })])] }).noc =
      [.toHome mRspWbp 0 core0 0x800 []] := by decide +kernel

/-- BRA moves by its signed offset in words (Table TGC-5). -/
theorem test_bra_back : ((after (.bra g0 0xFFFFFC0000000001) (kdev 0xFFFFFC0000000001 id)).group g0).pc = 0x5FFFF8 := by decide +kernel

/-- A divergent BRD pushes the lanes that branch and goes on with the others (R180). -/
theorem test_brd_diverges :
    (let t := after (.brd g0 (guarded 4)) (kdev (guarded 4) (fun x => { x with preds := [(0, 3)] }))
     (t.group g0).active = 0xFFFFFFFC ∧ (t.group g0).stack = [(true, 0x600000, 3)]) := by decide +kernel

/-- A load of four bytes from stacked memory, little-endian. -/
theorem test_ld_word :
    vGet ((after (.ld g0 (memWord 0xA0)) { lsmDev 0xA0 8 {} {} with mem := mwrites dev.mem 0x200008 [1, 2, 3, 4] }).group g0) 0 0 = 0x04030201 := by
  decide +kernel

/-- A store to a scratchpad. -/
theorem test_st_scratchpad :
    spadRead (after (.st g0 (memWord 0xA1)) ((lsmDev 0xA1 0x200010 {} {}).modGroup g0 (fun x => { x with v := [(0, 0xAABBCCDD)] }))) 0 0x11 = 0xCC := by
  decide +kernel

/-- A store through a read-only page ends the kernel (R411, R184). -/
theorem test_st_read_only : ((after (.st g0 (memWord 0xA1)) (lsmDev 0xA1 0x600010 {} {})).part 0).kernel.running = false := by decide +kernel

/-- ATOM.ADD of 5 and 7 by two lanes at one address: the chain of old values, and the sum staged at the home (R191). -/
theorem test_atomic_chain :
    (let s := (lsmDev 0xA0 64 { state := .clean } {}).modGroup g0 (fun x => { x with active := 3, v := [(0, 5), (1, 7)] })
     let t := after (.atomicAdd g0 (atomWord 0)) { s with stalls := (kdev (atomWord 0) id).stalls }
     vGet (t.group g0) 0 0 = 0 ∧ vGet (t.group g0) 0 1 = 5 ∧ stagedByte t 0 0x800 64 = 12 ∧ committedByte t 0 0x800 64 = 0) := by decide +kernel

/-- A die at 95 °C takes a temperature share of 24 (R469). -/
theorem test_thermal_share : ((after (.dieTempRead 2 95) dev).die 2).thermal = 24 := by decide +kernel

/-- COOLANT_OK low in two samples stops the device and drops MG_ALERT_N (R471). -/
theorem test_coolant_stop :
    (let t := after (.coolantSample false) (after (.coolantSample false) dev)
     t.power.coolantStop = true ∧ Output.pin "MG_ALERT_N" false ∈ t.out) := by decide +kernel

/-- SYNC SIGNAL writes its value to the semaphore (R396). -/
theorem test_sync_signal :
    (let t := after (.syncSignal 0) (entryDev 4 (entryBytes0 2 1 (natLe 8 64 ++ natLe 8 0x55)) true id)
     committedByte t 0 0x800 64 = 0x55 ∧ (t.queue 0 4).completed = 1) := by decide +kernel

/-- A table entry written: agents go on with the page as cached, until the partition commits; Porters until a COPY begins, the
data port until DP_ADDR is written (R413). -/
theorem test_cached_translations :
    let page := fun (s : State) (w : Walker) => (pageOf s w 0 0x10).toOption.map (fun t => t.sys)
    let s := writeCommitted dev 0 12 (cellsAt 0 (natLe 8 0x400007))
    page dev .agent = some 0x200010 ∧ page s .agent = some 0x200010 ∧ page (afterCommit s 0) .agent = some 0x400010 ∧
      page (startCopy s 0 (copyOf ⟨[]⟩)) .porter = some 0x400010 ∧ page (startCopy s 0 (copyOf ⟨[]⟩)) .agent = some 0x200010 ∧
      page (after (.dpAddrWrite 0 0) s) .dataPort = some 0x400010 := by decide +kernel

/-- JTAG IDCODE (Table BTD-10). -/
theorem test_idcode : (after .idcode dev).jtag.data = 0x1B64A0D3 := by decide +kernel

/-- A step takes the front command; the rest stays. -/
theorem test_step_order : (match step { dev with pending := [.idcode, .bypass] } with | .next t => t.pending | _ => []) = [.bypass] := by
  decide +kernel

end Sys2Proof.Tests
end

section
/-! SUPPORT. The statements of the scope family, and what their events do: the reset state (O3), the SYNC queue (R396, O39),
management sessions and measurements (R432, R438, O19), and the Zuloilo ports (R322 to R343, O57). -/

namespace Sys2Proof.Machine

/-! ## The reset state -/

/-- Settles O3: `State.reset` holds every field's reset value, and an empty memory is canonical. -/
theorem resetStateIsBeforeColdBoot : Obligations.ResetStateIsBeforeColdBoot := by
  have noParts : partsOf State.reset = [] := List.filter_eq_nil_iff.2 fun _ _ h => nomatch h
  have canonical : MemoriesCanonical State.reset := ⟨rfl, rfl, rfl, rfl⟩
  exact ⟨rfl, rfl, noParts, rfl, rfl, rfl, rfl, rfl, rfl, fun _ => rfl, rfl, rfl, rfl, rfl, canonical, rfl⟩

/-! ## The SYNC queue -/

section

variable {s : State} {p : Fin 64} {e : Entry} {a : Nat}

/-- A WAIT whose semaphore is readable ends where its condition holds and no commit is in progress; else its wait begins
(R249, R396). -/
theorem exec_syncWait_at (h : EntryAt s p 4 1 e) (hj : (s.part p).job.running = true) (hok : syncWaitOk e = true)
    (ha : semPhys s p (e.get 8 8) false = .ok a) :
    exec (.syncWait p) s = .next (if readsWait s p = false ∧ syncCond e (semValue s a) = true then entryDone s p 4 1
      else beginWait s p 4) := by
  change execSyncWait p s = _
  rw [execSyncWait, runEntry_at h fun _ => hj]
  simp [hok, ha]

theorem exec_syncWait_bad (h : EntryAt s p 4 1 e) (hj : (s.part p).job.running = true) (hok : syncWaitOk e = false) :
    exec (.syncWait p) s = .next (refuseField s p 4) := by
  change execSyncWait p s = _
  rw [execSyncWait, runEntry_at h fun _ => hj]
  simp [hok]

theorem exec_syncSignal_at (h : EntryAt s p 4 2 e) (hj : (s.part p).job.running = true) :
    exec (.syncSignal p) s = .next (syncWrite s p e fun _ => e.get 16 8) := by
  change execSyncSignal p s = _
  rw [execSyncSignal, runEntry_at h fun _ => hj]

theorem exec_syncAdd_at (h : EntryAt s p 4 3 e) (hj : (s.part p).job.running = true) :
    exec (.syncAdd p) s = .next (syncWrite s p e fun v => (v + e.get 16 8) % 2 ^ 64) := by
  change execSyncAdd p s = _
  rw [execSyncAdd, runEntry_at h fun _ => hj]

theorem exec_syncNotify_at (h : EntryAt s p 4 4 e) (hj : (s.part p).job.running = true) :
    exec (.syncNotify p) s = .next (if e.get 8 8 < 2 ^ 24 && e.zero 16 48 then
      entryDone (partEvent s p srcNotify Status.ok (e.get 8 8)) p 4 1 else refuseField s p 4) := by
  change execSyncNotify p s = _
  rw [execSyncNotify, runEntry_at h fun _ => hj]

end

section

variable {s : State} {p a : Nat} {e : Entry} {f : Nat → Nat}

/-- A write to a semaphore that nothing holds is made, and its entry ends (R396). -/
theorem syncWrite_free (hok : syncWriteOk e = true) (ha : semPhys s p (e.get 8 8) true = .ok a)
    (hi : inHeldImage s a = false) (hb : semBusy s p a = false) :
    syncWrite s p e f = entryDone (semWrite s p a (f (semValue s a))) p 4 1 := by
  simp [syncWrite, hok, ha, hi, hb]

theorem syncWrite_held (hok : syncWriteOk e = true) (ha : semPhys s p (e.get 8 8) true = .ok a)
    (hi : inHeldImage s a = true) : syncWrite s p e f = entryFail s p 4 1 Status.badAddress Detail.planHeld := by
  simp [syncWrite, hok, ha, hi]

/-- A write waits while a unit holds the line or a transaction is in progress on it (R234). -/
theorem syncWrite_busy (hok : syncWriteOk e = true) (ha : semPhys s p (e.get 8 8) true = .ok a)
    (hi : inHeldImage s a = false) (hb : semBusy s p a = true) : syncWrite s p e f = s := by
  simp [syncWrite, hok, ha, hi, hb]

theorem syncWrite_bad (hok : syncWriteOk e = false) : syncWrite s p e f = refuseField s p 4 := by
  simp [syncWrite, hok]

/-- A field out of range of an entry of the SYNC queue fails it with HST_LIST_FIELD (R393). -/
theorem refuseField_sync : refuseField s p 4 = entryFail s p 4 1 Status.badState Detail.hstListField := rfl

end

/-- What QUEUE_WAIT_TIMEOUT does to an entry with a wait at the head of a queue that is not in progress. -/
theorem exec_queueWaitTimeout_at {s : State} {p : Fin 64} {k : Fin 5} {op : Nat} {e : Entry} {w : Nat × Nat × Nat}
    (hw : waitFields k e = some w) (h : EntryAt s p k op e) (hq : (s.queue p k).inProgress = false)
    (hj : (s.part p).job.running = true) :
    exec (.queueWaitTimeout p k) s = .next (
      if entryMet s p k e w = true then s
      else (s.queue p k).waitFrom.elim (beginWait s p k) fun t0 =>
        if w.2.2 ≠ 0 ∧ t0 + 3300 * w.2.2 ≤ (s.part p).timers then
          entryFail s p k (if k = 1 then 2 else 1) Status.timeout 0 else s) := by
  change execQueueWaitTimeout p k s = _
  rw [execQueueWaitTimeout, h.runs, h.active, hq, hj, h.head]
  simp only [hw]
  cases (s.queue p k).waitFrom <;> simp

/-- Settles O39: one lemma for each entry that acts at the head of the SYNC queue, and for the wait timeout. -/
theorem syncEntriesActOnTheirSemaphore : Obligations.SyncEntriesActOnTheirSemaphore := by
  refine ⟨?wait, ?signal, ?add, ?notify, ?fields, ?held, ?timeout⟩
  case wait =>
    rintro p e a hok s ⟨h, hj, ha⟩
    exact ⟨_, exec_syncWait_at h hj hok ha, rfl⟩
  case signal =>
    rintro p e a hok s ⟨h, hj, ha, hi, hb⟩
    exact ⟨_, exec_syncSignal_at h hj, syncWrite_free hok ha hi hb⟩
  case add =>
    rintro p e a hok s ⟨h, hj, ha, hi, hb⟩
    exact ⟨_, exec_syncAdd_at h hj, syncWrite_free hok ha hi hb⟩
  case notify =>
    rintro p e hc hz s ⟨h, hj⟩
    exact ⟨_, exec_syncNotify_at h hj, if_pos (Bool.and_eq_true_iff.2 ⟨decide_eq_true hc, hz⟩)⟩
  case fields =>
    intro p e x hx hbad s hs
    obtain ⟨h, hj⟩ := hs
    simp only [List.mem_cons, List.not_mem_nil, or_false] at hx
    rcases hx with rfl | rfl | rfl | rfl
    · exact ⟨_, exec_syncWait_bad h hj hbad, refuseField_sync⟩
    · exact ⟨_, exec_syncSignal_at h hj, (syncWrite_bad hbad).trans refuseField_sync⟩
    · exact ⟨_, exec_syncAdd_at h hj, (syncWrite_bad hbad).trans refuseField_sync⟩
    · exact ⟨_, exec_syncNotify_at h hj, (if_neg (ne_true_of_eq_false hbad)).trans refuseField_sync⟩
  case held =>
    intro p e a hok x hx s hs
    obtain ⟨h, hj, ha⟩ := hs
    simp only [List.mem_cons, List.not_mem_nil, or_false] at hx
    rcases hx with rfl | rfl
    · exact ⟨_, exec_syncSignal_at h hj, syncWrite_held hok ha, syncWrite_busy hok ha⟩
    · exact ⟨_, exec_syncAdd_at h hj, syncWrite_held hok ha, syncWrite_busy hok ha⟩
  case timeout =>
    rintro p k op e w hw s ⟨h, hq, hj⟩
    refine ⟨_, exec_queueWaitTimeout_at hw h hq hj, fun hm => if_pos hm, fun hm hf => ?_, fun t0 hm hf => ?_⟩
    · rw [if_neg (ne_true_of_eq_false hm), hf, Option.elim_none]
    · rw [if_neg (ne_true_of_eq_false hm), hf, Option.elim_some]

/-! ## Waking -/

/-- A fold of steps of a reflexive and transitive relation is one of it. -/
theorem foldl_related {α : Type} {R : State → State → Prop} (hr : ∀ s, R s s) (ht : ∀ s t u, R s t → R t u → R s u)
    {f : State → α → State} (hf : ∀ s x, R s (f s x)) (l : List α) (s : State) : R s (l.foldl f s) :=
  List.foldlRecOn l f (hr s) fun t h x _ => ht s t _ h (hf t x)

/-- `t` is `s` with nothing changed but the power state, the dies' PLLs and the stacks' refresh. -/
def PowerOnly (s t : State) : Prop := t = { s with power := t.power, dies := t.dies, hbm := t.hbm }

theorem PowerOnly.trans {s t u : State} (h : PowerOnly s t) (g : PowerOnly t u) : PowerOnly s u := by
  unfold PowerOnly at *
  rw [g, h]

theorem foldl_powerOnly {α : Type} {f : State → α → State} (hf : ∀ s x, PowerOnly s (f s x)) {l : List α} {s : State} :
    PowerOnly s (l.foldl f s) :=
  foldl_related (R := PowerOnly) (fun _ => rfl) (fun _ _ _ => .trans) hf l s

/-- A packet that wakes the device changes only its power (R480, R484). -/
theorem wakeBy_powerOnly (s : State) (cause : Nat) : PowerOnly s (wakeBy s cause) := by
  unfold wakeBy
  split
  · rfl
  · split
    · rfl
    · extract_lets power t u
      have hu : PowerOnly t u := foldl_powerOnly (by intros; rfl)
      exact .trans hu (foldl_powerOnly (by intros; rfl))
    · rfl

section

variable (s : State) (cause : Nat)

theorem wakeBy_sec : (wakeBy s cause).sec = s.sec := by rw [wakeBy_powerOnly s cause]

theorem wakeBy_devTime : (wakeBy s cause).devTime = s.devTime := by rw [wakeBy_powerOnly s cause]

theorem wakeBy_out : (wakeBy s cause).out = s.out := by rw [wakeBy_powerOnly s cause]

end

/-! ## Management sessions -/

section

variable {s : State} {proof : Bool} {n : Nat}

/-- KEY_EXCHANGE finds no free session. -/
theorem exec_keyExchange_busy (hu : mgmtUp s = true) (hall : ∀ n < 4, tget s.sec.sessions n = true) :
    exec (.keyExchange proof) s = .next ((wakeBy s 2).emit .spdmBusy) := by
  have hnone : (List.range 4).find? (fun n => !tget (wakeBy s 2).sec.sessions n) = none := by
    rw [wakeBy_sec, List.find?_eq_none]
    intro n hn
    simp [hall n (List.mem_range.1 hn)]
  change execKeyExchange proof s = _
  rw [execKeyExchange, if_neg (by simp [hu])]
  simp only [hnone]

/-- KEY_EXCHANGE with `n` the lowest free session: it is refused where the device cannot sign or the owner is not proved, and
else opens the session (R432). -/
theorem exec_keyExchange_free (hu : mgmtUp s = true) (hn : n < 4) (hfree : tget s.sec.sessions n = false)
    (hlow : ∀ m < n, tget s.sec.sessions m = true) :
    exec (.keyExchange proof) s = .next (
      if canSign (wakeBy s 2) = false ∨ (s.sec.ownerKey.isSome = true ∧ proof = false) then
        (wakeBy s 2).emit (.spdmRefused none)
      else (noteTraffic { wakeBy s 2 with sec := { s.sec with sessions := tset s.sec.sessions n true } } n).emit
        (.sessionOpened n)) := by
  have hfind : (List.range 4).find? (fun n => !tget s.sec.sessions n) = some n := by
    rw [List.find?_range_eq_some]
    exact ⟨by simp [hfree], List.mem_range.2 hn, fun m hm => by simp [hlow m hm]⟩
  change execKeyExchange proof s = _
  rw [execKeyExchange, if_neg (by simp [hu])]
  simp only [wakeBy_sec, hfind, Bool.or_eq_true, Bool.and_eq_true, Bool.not_eq_true']

theorem exec_managementSessionTimeout_due {n : Fin 4} (ho : tget s.sec.sessions n.val = true)
    (ht : tget s.sec.traffic n.val + 297000000000 ≤ s.devTime) :
    exec (.managementSessionTimeout n) s = .next (endSession s n) := by
  change execManagementSessionTimeout n s = _
  rw [execManagementSessionTimeout, if_pos (by simp [ho, sessionTicks, ht])]

end

/-! ## Measurements -/

/-- The blocks that GET_MEASUREMENTS picks by number: all of them for FFH. -/
def pickBlocks (block : Byte) (bs : List (Nat × List Byte)) : List (Nat × List Byte) :=
  if block = 0xFF then bs else bs.filter fun b => b.1 = block.toNat

/-- The numbers of a function's blocks: 4 and 5 are those of a partition (Table SEC-3). -/
theorem measureBlocks_numbers (s : State) (fn : Nat) : (measureBlocks s fn).map Prod.fst =
    if (fn ≠ 0 && (s.part (fn - 1)).present) = true then [1, 2, 3, 4, 5, 6] else [1, 2, 3, 6] := by
  unfold measureBlocks
  split <;> simp

theorem measureBlocks_number {s : State} {fn : Nat} {b : Nat × List Byte} (h : b ∈ measureBlocks s fn) :
    1 ≤ b.1 ∧ b.1 ≤ 6 := by
  have hm := List.mem_map_of_mem (f := Prod.fst) h
  rw [measureBlocks_numbers] at hm
  split at hm <;> simp at hm <;> omega

/-- No two blocks of a function have one number. -/
theorem measureBlocks_nodup (s : State) (fn : Nat) : ((measureBlocks s fn).map Prod.fst).Nodup := by
  rw [measureBlocks_numbers]
  split <;> decide

/-- Of entries with distinct keys, those with the key of one of them are that one. -/
theorem filter_key_of_nodup {β : Type} {l : List (Nat × β)} (hl : (l.map Prod.fst).Nodup) {b : Nat × β} (hb : b ∈ l) :
    l.filter (fun x => x.1 = b.1) = [b] := by
  induction l with
  | nil => exact nomatch hb
  | cons x r ih =>
    rw [List.map_cons, List.nodup_cons] at hl
    obtain ⟨hx, hr⟩ := hl
    rcases List.mem_cons.1 hb with rfl | hb
    · rw [List.filter_cons_of_pos (by simp), List.filter_eq_nil_iff.2]
      intro y hy he
      exact hx (List.mem_map.2 ⟨y, hy, by simpa using he⟩)
    · have hne : x.1 ≠ b.1 := fun he => hx (List.mem_map.2 ⟨b, hb, he.symm⟩)
      rw [List.filter_cons_of_neg (by simpa using hne), ih hr hb]

section

variable {s : State} {fn : Fin 65} {block : Byte}

theorem exec_getMeasurements_lost (hu : hostUp s = true) (ha : s.sec.aliasValid = false) :
    exec (.getMeasurements fn block) s = .next (s.emit (.spdmRefused (some fn.val))) := by
  change execGetMeasurements fn block s = _
  rw [execGetMeasurements, if_neg (by simp [hu]), if_pos (by simp [ha])]

theorem exec_getMeasurements_up (hu : hostUp s = true) (ha : s.sec.aliasValid = true) :
    exec (.getMeasurements fn block) s = .next (
      if block ≠ 0 ∧ pickBlocks block (measureBlocks s fn.val) = [] then s.emit (.spdmRefused (some fn.val))
      else s.emit (.measurements fn.val (measureBlocks s fn.val).length (pickBlocks block (measureBlocks s fn.val)))) := by
  change execGetMeasurements fn block s = _
  rw [execGetMeasurements, if_neg (by simp [hu]), if_neg (by simp [ha])]
  by_cases h : block ≠ 0 ∧ pickBlocks block (measureBlocks s fn.val) = []
  · rw [if_pos h]
    exact congrArg _ (if_pos (by simpa [pickBlocks] using h))
  · rw [if_neg h]
    exact congrArg _ (if_neg (by simpa [pickBlocks] using h))

theorem pickBlocks_count : pickBlocks 0 (measureBlocks s fn.val) = [] := by
  rw [pickBlocks, if_neg (by decide), List.filter_eq_nil_iff]
  intro b hb he
  have := measureBlocks_number hb
  simp at he
  omega

theorem pickBlocks_every (bs : List (Nat × List Byte)) : pickBlocks 0xFF bs = bs := rfl

theorem measureBlocks_ne_nil : measureBlocks s fn.val ≠ [] := by simp [measureBlocks]

theorem pickBlocks_one {b : Nat × List Byte} (hb : b ∈ measureBlocks s fn.val) :
    BitVec.ofNat 8 b.1 ≠ 0 ∧ pickBlocks (BitVec.ofNat 8 b.1) (measureBlocks s fn.val) = [b] := by
  have hn := measureBlocks_number hb
  have hb8 : (BitVec.ofNat 8 b.1).toNat = b.1 := by
    rw [BitVec.toNat_ofNat]
    omega
  have hne (v : Byte) (hv : b.1 ≠ v.toNat) : BitVec.ofNat 8 b.1 ≠ v := fun h => hv (by rw [← h, hb8])
  refine ⟨hne 0 (by simp; omega), ?_⟩
  rw [pickBlocks, if_neg (hne 0xFF (by simp; omega)), hb8]
  exact filter_key_of_nodup (measureBlocks_nodup s fn.val) hb

theorem pickBlocks_absent {bs : List (Nat × List Byte)} (hf : block ≠ 0xFF) (hb : ∀ b ∈ bs, b.1 ≠ block.toNat) :
    pickBlocks block bs = [] := by
  rw [pickBlocks, if_neg hf, List.filter_eq_nil_iff]
  intro b h
  simpa using hb b h

end

theorem exec_dynamicAddress_awake {address : BitVec 7} {s : State} (h : s.power.halted = false) :
    exec (.dynamicAddress address) s = .next { s with i3cAddress := address, i3cDynamic := true } := by
  change execDynamicAddress address s = _
  rw [execDynamicAddress, if_neg (by simp [h])]

/-- Settles O19: KEY_EXCHANGE by the lowest free session, the timeout by `endSession`, GET_MEASUREMENTS by the numbers of the
blocks. -/
theorem managementSessionsOpenAndEnd : Obligations.ManagementSessionsOpenAndEnd := by
  refine ⟨?busy, ?free, ?timeout, ?lost, ?measure, ?address⟩
  case busy => exact fun _ _ hu hall => exec_keyExchange_busy hu hall
  case free =>
    intro proof s n hu hn hfree hlow
    rw [exec_keyExchange_free hu hn hfree hlow]
    refine ⟨fun hr => ?_, fun hs ho => ⟨_, rfl, ?_⟩⟩
    · rw [if_pos (hr.imp_right And.symm)]
    · have hopen : ¬(canSign (wakeBy s 2) = false ∨ s.sec.ownerKey.isSome = true ∧ proof = false) := by
        rcases ho with h | h <;> simp [hs, h]
      rw [if_neg hopen]
      refine ⟨tget_tset_same, fun _ hm => tget_tset_other hm, ?_, fun _ hm => tget_tset_other hm, ?_⟩
      · exact tget_tset_same.trans (wakeBy_devTime s 2)
      · rw [← wakeBy_out s 2]
        rfl
  case timeout =>
    intro n s ho ht
    exact ⟨_, exec_managementSessionTimeout_due ho ht, tget_tset_same, fun _ hm => tget_tset_other hm, rfl, rfl⟩
  case lost => exact fun _ _ _ hu ha => exec_getMeasurements_lost hu ha
  case measure =>
    rintro fn s hu ha _ rfl
    refine ⟨?_, ?_, fun b hb => ?_, fun block h0 hf hb => ?_⟩
    · rw [exec_getMeasurements_up hu ha, if_neg (by simp), pickBlocks_count]
    · rw [exec_getMeasurements_up hu ha, pickBlocks_every, if_neg (by simp [measureBlocks_ne_nil])]
    · obtain ⟨h0, hp⟩ := pickBlocks_one hb
      rw [exec_getMeasurements_up hu ha, hp, if_neg (by simp)]
    · rw [exec_getMeasurements_up hu ha, if_pos ⟨h0, pickBlocks_absent hf hb⟩]
  case address => exact fun _ _ h => exec_dynamicAddress_awake h

/-! ## Ports and what waits at them -/

section

variable {α : Type}

/-- The second of two settings of one entry counts. -/
theorem tset_tset_same {t : Tbl α} {i : Nat} {v w : α} : tset (tset t i v) i w = tset t i w := by
  simp [tset, tdel]

/-- Two changes of one entry are one change. -/
theorem tmod_tmod_same [Inhabited α] {t : Tbl α} {i : Nat} {f g : α → α} :
    tmod (tmod t i f) i g = tmod t i fun x => g (f x) := by
  rw [tmod, tget_tmod_same, tmod, tset_tset_same, tmod]

end

section

variable (s : State) (j k : Nat) (f g : ZPort → ZPort)

theorem port_modPort_other {j k : Nat} (h : k ≠ j) : (s.modPort j f).port k = s.port k := by
  simp [State.port, tget_tmod_other h]

theorem modPort_modPort_same : (s.modPort j f).modPort j g = s.modPort j fun x => g (f x) := by
  simp [State.modPort, tmod_tmod_same]

/-- Changes that agree on the port they change are the same. -/
theorem modPort_congr {s : State} {j : Nat} {f g : ZPort → ZPort} (h : f (s.port j) = g (s.port j)) :
    s.modPort j f = s.modPort j g := by
  unfold State.port at h
  simp [State.modPort, tmod, h]

theorem port_draw : s.draw.2.port j = s.port j := rfl

theorem port_emit (o : Output) : (s.emit o).port j = s.port j := rfl

theorem mem_upPorts {s : State} {j : Nat} : j ∈ upPorts s ↔ j < 12 ∧ (s.port j).state = .up := by
  simp [upPorts]

end

/-- `t` is `s` with nothing changed but the symbols and items that wait at ports. -/
def QueuesOnly (s t : State) : Prop :=
  ∀ k, t.port k = { s.port k with sendSymbols := (t.port k).sendSymbols, sendItems := (t.port k).sendItems }

namespace QueuesOnly

theorem of_links {s t : State} (h : t.links.ports = s.links.ports) : QueuesOnly s t := fun k => by
  simp [State.port, h]

theorem refl (s : State) : QueuesOnly s s := fun _ => rfl

theorem trans {s t u : State} (h : QueuesOnly s t) (g : QueuesOnly t u) : QueuesOnly s u := fun k => by
  rw [g k, h k]

theorem state {s t : State} (h : QueuesOnly s t) (k : Nat) : (t.port k).state = (s.port k).state := by
  rw [h k]

theorem farDevice {s t : State} (h : QueuesOnly s t) (k : Nat) : (t.port k).farDevice = (s.port k).farDevice := by
  rw [h k]

theorem foldl {α : Type} {f : State → α → State} (hf : ∀ s x, QueuesOnly s (f s x)) (l : List α) (s : State) :
    QueuesOnly s (l.foldl f s) :=
  foldl_related refl (fun _ _ _ => trans) hf l s

end QueuesOnly

theorem modPort_queuesOnly {s : State} {j : Nat} {f : ZPort → ZPort}
    (hf : ∀ x, f x = { x with sendSymbols := (f x).sendSymbols, sendItems := (f x).sendItems }) :
    QueuesOnly s (s.modPort j f) := fun k => by
  by_cases h : k = j
  · subst h
    rw [port_modPort_same]
    exact hf _
  · rw [port_modPort_other s f h]

theorem sendSymbol_up {s : State} {j : Nat} {v : W64} (h : (s.port j).state = .up) :
    sendSymbol s j v = s.modPort j fun x => { x with sendSymbols := x.sendSymbols ++ [v] } := by
  simp [sendSymbol, h]

theorem sendSymbol_queuesOnly (s : State) (j : Nat) (v : W64) : QueuesOnly s (sendSymbol s j v) := by
  unfold sendSymbol
  split
  · exact modPort_queuesOnly fun _ => rfl
  · exact QueuesOnly.refl s

/-- A symbol sent changes nothing outside the ports. -/
theorem sendSymbol_eq (s : State) (j : Nat) (v : W64) :
    sendSymbol s j v = { s with links := { s.links with ports := (sendSymbol s j v).links.ports } } := by
  unfold sendSymbol
  split <;> rfl

theorem queueItem_queuesOnly (s : State) (type : Nat) (i : Item) : QueuesOnly s (queueItem s type i) := by
  unfold queueItem
  extract_lets ps
  split
  · exact QueuesOnly.refl s
  · exact modPort_queuesOnly fun _ => rfl

theorem flood_queuesOnly (s : State) (v : W64) (except : Option Nat) : QueuesOnly s (flood s v except) :=
  QueuesOnly.foldl (fun s j => sendSymbol_queuesOnly s j v) _ s

theorem sendRouted_queuesOnly (s : State) (dst : Nat) (v : W64) : QueuesOnly s (sendRouted s dst v) := by
  unfold sendRouted
  split
  · exact QueuesOnly.refl s
  · exact sendSymbol_queuesOnly _ _ _

theorem resendSymbol_queuesOnly (s : State) (v : W64) : QueuesOnly s (resendSymbol s v) := by
  unfold resendSymbol
  extract_lets n
  split
  · exact sendRouted_queuesOnly _ _ _
  · split
    · split
      · exact QueuesOnly.refl s
      · exact sendRouted_queuesOnly _ _ _
    · exact QueuesOnly.refl s

theorem newRoutes_queuesOnly (s : State) : QueuesOnly s (newRoutes s) := QueuesOnly.of_links rfl

theorem openReach_queuesOnly (s : State) (ps : List Nat) (j : Nat) : QueuesOnly s (openReach s ps j) := by
  unfold openReach
  extract_lets t n l u v
  have hu : QueuesOnly s u := QueuesOnly.of_links rfl
  refine (hu.trans (flood_queuesOnly _ _ _)).trans (QueuesOnly.foldl ?_ _ _)
  exact fun _ _ => QueuesOnly.of_links rfl

/-- A port that leaves UP with no frame unacknowledged changes no port but in what waits there (R350). -/
theorem leaveUp_queuesOnly (s : State) (j : Nat) {x : ZPort} (hx : x.unacked = []) : QueuesOnly s (leaveUp s j x) := by
  unfold leaveUp
  rw [hx]
  exact ((openReach_queuesOnly _ _ _).trans (QueuesOnly.foldl (fun _ _ => queueItem_queuesOnly _ _ _) _ _)).trans
    (QueuesOnly.foldl resendSymbol_queuesOnly _ _)

theorem PortOnly.links {s t : State} (h : PortOnly s t) : t.links = s.links := by
  rw [h]

theorem PortOnly.queuesOnly {s t : State} (h : PortOnly s t) : QueuesOnly s t := .of_links (by rw [h.links])

theorem portEvent_queuesOnly (s : State) (j status detail : Nat) : QueuesOnly s (portEvent s j status detail) := by
  unfold portEvent
  split
  · exact postEvent_portOnly.queuesOnly
  · exact postEvent_portOnly.queuesOnly

/-! ## Ports that fail -/

/-- A port that fails with no frame unacknowledged is FAILED (R327). -/
theorem state_portFails {s : State} {j : Nat} (status detail : Nat) (h : (s.port j).unacked = []) :
    ((portFails s j status detail).port j).state = .failed := by
  unfold portFails
  extract_lets x t
  have ht : (t.port j).state = .failed := by
    change ((s.modPort j fun x => quietPort x .failed).port j).state = .failed
    rw [port_modPort_same]
    rfl
  rw [(portEvent_queuesOnly _ _ _ _).state]
  split
  · rw [(leaveUp_queuesOnly t j h).state, ht]
  · exact ht

theorem exec_trainTimeout_due {s : State} {j : Fin 12} (h : (s.port j).state = .training)
    (ht : (s.port j).since + trainTicks ≤ s.devTime) :
    exec (.trainTimeout j) s = .next (portFails s j (if (s.port j).retraining then Status.linkDown else Status.timeout)
      (if (s.port j).retraining then Detail.zlkPortDown else Detail.zlkTrainTimeout)) := by
  change execTrainTimeout j s = _
  rw [execTrainTimeout, if_neg (by simp [h, ht])]
  cases (s.port j).retraining <;> rfl

theorem exec_portSilenceTimeout_due {s : State} {j : Fin 12} (h : (s.port j).state = .up)
    (ht : (s.port j).lastGood + 3300 ≤ s.devTime) :
    exec (.portSilenceTimeout j) s = .next (portFails s j Status.linkDown Detail.zlkPortDown) := by
  change execPortSilenceTimeout j s = _
  rw [execPortSilenceTimeout, if_pos (by simp [h, ht])]

/-! ## Frames sent -/

theorem exec_frameSend_runs {s : State} {j : Fin 12} (h : portRuns s j = true) :
    exec (.frameSend j) s = .next ((s.modPort j fun _ => (nextFrame s j).2).emit (.frame j (nextFrame s j).1)) := by
  change execFrameSend j s = _
  rw [execFrameSend, if_neg (by simp [h])]

/-- No more slots are taken from the items that wait than there is room for. -/
theorem takeSlots_length_le (n done : Nat) (l : List SendItem) : (takeSlots n done l).1.length ≤ n := by
  induction l generalizing n done with
  | nil => simp [takeSlots]
  | cons i r ih =>
    unfold takeSlots
    extract_lets all t
    split
    · simp
    · split
      · next h =>
        have := ih (n - all.length) 0
        simp only [t, List.length_append]
        omega
      · exact List.length_take_le n all

/-- Flits and item slots of a frame fill at most its 25 slots (R325). -/
theorem nextFrame_load_le {β γ : Type} {live : Bool} {flits : List β} {f : β → γ} {g : List Byte → γ} {done : Nat}
    {items : List SendItem} (h : flits.length ≤ 24) :
    (flits.map f ++ (takeSlots (if live then 25 - flits.length else 0) done items).1.map g).length ≤ 25 := by
  have room : (if live then 25 - flits.length else 0) ≤ 25 - flits.length := by split <;> omega
  have taken := takeSlots_length_le (if live then 25 - flits.length else 0) done items
  rw [List.length_append, List.length_map, List.length_map]
  omega

section

variable {s : State} {j : Nat}

theorem liveFlits_length_le (live : Bool) (x : ZPort) : (if live then x.sendFlits.take 24 else []).length ≤ 24 := by
  cases live with
  | false => exact Nat.zero_le 24
  | true => exact List.length_take_le 24 x.sendFlits

theorem nextFrame_kinds_length : (nextFrame s j).1.kinds.length = 25 :=
  List.length_rightpad.trans (Nat.max_eq_left (nextFrame_load_le (liveFlits_length_le _ _)))

theorem nextFrame_slots_length : (nextFrame s j).1.slots.length = 25 := by
  have h := nextFrame_load_le (f := fun f => flitSlot f.2) (g := id) (liveFlits_length_le ((s.port j).state == .up) (s.port j))
    (live := (s.port j).state == .up) (done := (s.port j).itemSlots) (items := (s.port j).sendItems)
  rw [List.map_id] at h
  exact List.length_rightpad.trans (Nat.max_eq_left h)

theorem takeSlots_none (done : Nat) (l : List SendItem) : (takeSlots 0 done l).1 = [] :=
  List.eq_nil_of_length_eq_zero (Nat.le_zero.1 (takeSlots_length_le 0 done l))

/-- A port in training sends no flit and no item (R325). -/
theorem nextFrame_kinds_training (h : (s.port j).state = .training) : ∀ k ∈ (nextFrame s j).1.kinds, k = 0 := by
  have hl : ((s.port j).state == .up) = false := by rw [h]; rfl
  intro k hk
  simp [nextFrame, hl, takeSlots_none] at hk
  exact hk

theorem nextFrame_unacked_up (h : (s.port j).state = .up) :
    (nextFrame s j).2.unacked.length = (s.port j).unacked.length + 1 := by
  simp [nextFrame, h]

end

/-! ## Frames received -/

section

variable {s : State} {j : Fin 12} {f : Frame}

/-- What a good frame with the SEQ expected makes of its port: the line code's corrections and the frame are counted, and the
sixteenth is acknowledged (R324, R327). -/
def goodPort (now : Nat) (f : Frame) (x : ZPort) : ZPort :=
  { x with
    lastGood := now, fecCorr := Nat.min (x.fecCorr + f.corrected) (2 ^ 32 - 1), rxSeq := (f.seq.toNat + 1) % 2 ^ 32
    sinceAck := if x.sinceAck = 15 then 0 else x.sinceAck + 1
    sendSymbols := if x.sinceAck = 15 then x.sendSymbols ++ [ackSymbol f.seq.toNat] else x.sendSymbols }

/-- The reserved symbols of a frame are counted (R326). -/
def countReserved (s : State) (f : Frame) : State :=
  { s with links := { s.links with
    reservedSymbols := s.links.reservedSymbols + ([f.ctrl0, f.ctrl1].filter reservedSymbol).length } }

/-- A good frame with the SEQ expected and no stream flit changes its port by `goodPort`, and beside the ports only the count
of reserved symbols. -/
theorem exec_frame_good (hup : (s.port j).state = .up) (hu : f.uncorrectable = false)
    (hc : f.crc.toNat = crc32c (frameBytes f.seq.toNat f.kinds f.marks f.ctrl0 f.ctrl1 f.slots))
    (hseq : f.seq.toNat = (s.port j).rxSeq) (hf : frameFlits f = []) :
    exec (.frame j f) s = .next (countReserved (s.modPort j (goodPort s.devTime f)) f) := by
  change execFrame j f s = _
  rw [execFrame, if_neg (by simp [hup])]
  refine congrArg Host.Outcome.next ?_
  extract_lets g t want bad n u v bads _ w
  have htp : t.port j = { s.port j with fecCorr := Nat.min ((s.port j).fecCorr + f.corrected) (2 ^ 32 - 1) } :=
    port_modPort_same s j _
  rw [if_neg (by simp [htp, hup]), if_neg (by simp [bad, g, hu, hc]), if_neg (by simp [g, want, htp, hseq])]
  have hv : v = s.modPort j (goodPort s.devTime f) := by
    have hn : n = (s.port j).sinceAck + 1 := by simp [n, htp]
    by_cases h15 : (s.port j).sinceAck = 15
    · have hv : v = sendSymbol u j (ackSymbol want) := if_pos (by omega)
      rw [hv, sendSymbol_up (by simp [u, htp, hup])]
      simp only [u, t, modPort_modPort_same]
      refine modPort_congr ?_
      simp [goodPort, h15, hn, want, htp, hseq, g]
    · have hv : v = u := if_neg (by omega)
      rw [hv]
      simp only [u, t, modPort_modPort_same]
      refine modPort_congr ?_
      simp [goodPort, h15, hn, want, htp, hseq, g]
  rw [show frameFlits g = [] from hf, List.foldl_nil, show w = countReserved v f from rfl, hv]

/-- A frame lost at a port that is UP, fewer than 15 others having been lost within a millisecond, does not retrain it. -/
theorem lostHere_few {n : Nat} (hup : (s.port j).state = .up)
    (hfew : ((s.port j).recentLost.filter (fun t => decide (s.devTime < t + 3300000))).length < 15) :
    lostHere s j n = s.draw.2.modPort j fun x => { x with
      lostFrames := satInc x.lostFrames 65535
      recentLost := s.devTime :: (s.port j).recentLost.filter (fun t => decide (s.devTime < t + 3300000))
      gap := x.gap || (Config.freeValue s.fresh).getLsbD 0
      sendSymbols := x.sendSymbols ++ [BitVec.ofNat 64 (pack [(0, 8, 0x02), (8, 32, n)])] } := by
  unfold lostHere
  extract_lets near
  have hnear : ¬16 ≤ near.length := by simp [near]; omega
  rw [show s.draw = (s.fresh, s.draw.2) from rfl]
  dsimp only
  rw [if_neg hnear, sendSymbol_up (by simp [port_draw, hup]), modPort_modPort_same]

end

section

variable {s : State} {j : Fin 12} {f : Frame} {n : Nat}

/-- A frame that is lost at a port that is UP: one that the line code cannot correct or of a wrong CRC, with the SEQ that was
expected, or one of another SEQ (R327). -/
theorem exec_frame_lost (hup : (s.port j).state = .up)
    (hlost : ((f.uncorrectable = true ∨
        f.crc.toNat ≠ crc32c (frameBytes f.seq.toNat f.kinds f.marks f.ctrl0 f.ctrl1 f.slots)) ∧ n = (s.port j).rxSeq) ∨
      (f.uncorrectable = false ∧ f.crc.toNat = crc32c (frameBytes f.seq.toNat f.kinds f.marks f.ctrl0 f.ctrl1 f.slots) ∧
        f.seq.toNat ≠ (s.port j).rxSeq ∧ n = f.seq.toNat)) :
    exec (.frame j f) s = .next (lostHere (s.modPort j fun x => { x with
      fecCorr := Nat.min (x.fecCorr + f.corrected) (2 ^ 32 - 1), rxSeq := (n + 1) % 2 ^ 32 }) j n) := by
  change execFrame j f s = _
  rw [execFrame, if_neg (by simp [hup])]
  refine congrArg Host.Outcome.next ?_
  extract_lets g t want bad
  have htp : t.port j = { s.port j with fecCorr := Nat.min ((s.port j).fecCorr + f.corrected) (2 ^ 32 - 1) } :=
    port_modPort_same s j _
  have hw : want = (s.port j).rxSeq := by simp [want, htp]
  rw [if_neg (by simp [htp, hup])]
  rcases hlost with ⟨hbad, rfl⟩ | ⟨hu, hc, hseq, rfl⟩
  · rw [if_pos (by simpa [bad, g] using hbad), hw]
    simp only [t, modPort_modPort_same]
    rfl
  · rw [if_neg (by simp [bad, g, hu, hc]), if_pos (by simpa [g, hw] using hseq)]
    simp only [t, modPort_modPort_same]
    rfl

end

/-! ## Frames acknowledged, credits -/

section

variable {s : State} {j : Fin 12}

theorem exec_linkAck_known {n : W32} {f : SentFrame} (hl : f ∈ (s.port j).unacked) (hf : f.seq = n.toNat) :
    exec (.linkAck j n) s = .next (s.modPort j fun x => { x with
      unacked := (x.unacked.dropWhile (fun f => f.seq ≠ n.toNat)).drop 1 }) := by
  change execLinkAck j n s = _
  rw [execLinkAck, if_pos (List.any_eq_true.2 ⟨f, hl, by simp [hf]⟩)]

/-- An ACK releases the frames up to the first of its SEQ (R327). -/
theorem released_upTo {n : Nat} {a b : List SentFrame} {f : SentFrame} (hf : f.seq = n) (ha : ∀ x ∈ a, x.seq ≠ n) :
    ((a ++ f :: b).dropWhile (fun f => f.seq ≠ n)).drop 1 = b := by
  rw [List.dropWhile_append_of_pos (by simpa using ha), List.dropWhile_cons_of_neg (by simp [hf])]
  rfl

theorem exec_lost_known {n : W32} {f : SentFrame}
    (hf : (s.port j).unacked.find? (fun x => x.seq = n.toNat) = some f) :
    exec (.lost j n) s = .next (frameLost (s.modPort j fun x => { x with unacked := x.unacked.erase f }) f) := by
  change execLost j n s = _
  rw [execLost, hf]

theorem exec_ackTimeout_due {f : SentFrame} {r : List SentFrame} (hl : (s.port j).unacked = f :: r)
    (ht : f.time + 33000 ≤ s.devTime) :
    exec (.ackTimeout j) s = .next (frameLost (s.modPort j fun x => { x with unacked := x.unacked.erase f }) f) := by
  change execAckTimeout j s = _
  rw [execAckTimeout, hl]
  exact congrArg _ (if_pos ht)

theorem exec_credit_up {n : W32} (hup : (s.port j).state = .up) :
    exec (.credit j n) s = .next (s.modPort j fun x => { x with
      credited := x.credited + (n.toNat + 2 ^ 32 - x.credited % 2 ^ 32) % 2 ^ 32 }) := by
  change execCredit j n s = _
  rw [execCredit, if_pos (by simp [hup])]

/-- The first number at or after `c` whose low 32 bits are `n`. -/
theorem credited_next (c : Nat) (n : W32) :
    (c + (n.toNat + 2 ^ 32 - c % 2 ^ 32) % 2 ^ 32) % 2 ^ 32 = n.toNat ∧
      c ≤ c + (n.toNat + 2 ^ 32 - c % 2 ^ 32) % 2 ^ 32 ∧
      c + (n.toNat + 2 ^ 32 - c % 2 ^ 32) % 2 ^ 32 < c + 2 ^ 32 := by
  have := n.isLt
  omega

end

/-! ## Numbering -/

/-- `t` is `s` but for its links, whose number stands, and the free values drawn. -/
structure LinksOnly (s t : State) : Prop where
  rest : t = { s with links := t.links, fresh := t.fresh }
  number : t.links.number = s.links.number

theorem LinksOnly.rest_after {s t u : State} (h : t = { s with links := t.links, fresh := t.fresh })
    (g : LinksOnly t u) : u = { s with links := u.links, fresh := u.fresh } := by
  rw [g.rest, h]

theorem LinksOnly.trans {s t u : State} (h : LinksOnly s t) (g : LinksOnly t u) : LinksOnly s u :=
  ⟨g.rest_after h.rest, g.number.trans h.number⟩

theorem SameBytes.trans {s t u : State} (h : SameBytes s t) (g : SameBytes t u) : SameBytes s u := by
  obtain ⟨hm, hs, hf, hb⟩ := h
  obtain ⟨gm, gs, gf, gb⟩ := g
  exact ⟨gm.trans hm, gs.trans hs, gf.trans hf, gb.trans hb⟩

theorem LinksOnly.sameBytes {s t : State} (h : LinksOnly s t) : SameBytes s t := by
  rw [h.rest]
  exact ⟨rfl, rfl, rfl, rfl⟩

theorem PortOnly.sameBytes {s t : State} (h : PortOnly s t) : SameBytes s t := by
  rw [h]
  exact ⟨rfl, rfl, rfl, rfl⟩

theorem sendSymbol_linksOnly (s : State) (j : Nat) (v : W64) : LinksOnly s (sendSymbol s j v) := by
  rw [sendSymbol_eq]
  exact ⟨rfl, rfl⟩

theorem settleRoutes_linksOnly (s : State) : LinksOnly s (settleRoutes s) := ⟨rfl, rfl⟩

/-- Replies that become ready change only what the ports own (R381). -/
theorem completeAll_portOnly (s : State) (pick : Outstanding → Bool) (status detail : Nat) :
    PortOnly s (completeAll s pick status detail) := by
  unfold completeAll
  extract_lets hit t
  have ht : PortOnly s t := rfl
  refine ht.trans (foldl_related (R := PortOnly) PortOnly.refl (fun _ _ _ => PortOnly.trans) ?_ _ _)
  exact fun _ _ => postReply_portOnly

/-- The device while its walk visits port `j`. -/
def visiting (s : State) (e : Enumeration) (j : Nat) : State :=
  { s with links := { s.links with enumeration := some { e with port := j } } }

section

variable {s : State} {e : Enumeration} {k j : Nat}

theorem visitFrom_none (h : nextVisit s e k = none) : visitFrom s e k = endVisit s e := by
  simp [visitFrom, h]

theorem visitFrom_some (h : nextVisit s e k = some j) :
    visitFrom s e k = sendSymbol (visiting s e j) j (enumSymbol e.next (e.next + 1)) := by
  simp [visitFrom, h, visiting]

theorem port_visiting (i : Nat) : (visiting s e j).port i = s.port i := rfl

theorem port_settleRoutes (i : Nat) : (settleRoutes s).port i = s.port i := rfl

theorem endVisit_child (h : e.parent = some j) :
    endVisit s e = sendSymbol (settleRoutes s) j (enumSymbol (ownNumber s) e.next) := by
  simp [endVisit, h]

theorem endVisit_queuesOnly (s : State) (e : Enumeration) : QueuesOnly s (endVisit s e) := by
  cases h : e.parent with
  | some j =>
    rw [endVisit_child h]
    exact (QueuesOnly.of_links (t := settleRoutes s) rfl).trans (sendSymbol_queuesOnly _ _ _)
  | none =>
    simp only [endVisit, h]
    split
    · exact .trans (.of_links rfl) (completeAll_portOnly _ _ _ _).queuesOnly
    · exact .trans (.of_links rfl) (completeAll_portOnly _ _ _ _).queuesOnly

/-- A walk that goes on changes no port but in what waits there. -/
theorem visitFrom_queuesOnly (s : State) (e : Enumeration) (k : Nat) : QueuesOnly s (visitFrom s e k) := by
  cases h : nextVisit s e k with
  | none =>
    rw [visitFrom_none h]
    exact endVisit_queuesOnly s e
  | some j =>
    rw [visitFrom_some h]
    exact .trans (.of_links rfl) (sendSymbol_queuesOnly _ _ _)

/-- A walk that goes on, at a device that did not begin it, changes nothing outside the links, and not the device's number. -/
theorem visitFrom_linksOnly (h : e.parent = some j) : LinksOnly s (visitFrom s e k) := by
  cases hv : nextVisit s e k with
  | none =>
    rw [visitFrom_none hv, endVisit_child h]
    exact (settleRoutes_linksOnly s).trans (sendSymbol_linksOnly _ _ _)
  | some i =>
    rw [visitFrom_some hv]
    refine .trans ?_ (sendSymbol_linksOnly _ _ _)
    exact ⟨rfl, rfl⟩

theorem endVisit_sameBytes (s : State) (e : Enumeration) : SameBytes s (endVisit s e) := by
  cases h : e.parent with
  | some j =>
    rw [endVisit_child h]
    exact ((settleRoutes_linksOnly s).trans (sendSymbol_linksOnly _ _ _)).sameBytes
  | none =>
    simp only [endVisit, h]
    split
    · exact (completeAll_portOnly _ _ _ _).sameBytes
    · exact (completeAll_portOnly _ _ _ _).sameBytes

theorem visitFrom_sameBytes (s : State) (e : Enumeration) (k : Nat) : SameBytes s (visitFrom s e k) := by
  cases h : nextVisit s e k with
  | none =>
    rw [visitFrom_none h]
    exact endVisit_sameBytes s e
  | some j =>
    rw [visitFrom_some h]
    exact (sendSymbol_linksOnly _ _ _).sameBytes

/-- The port a walk visits next is the first UP port, from `k`, that does not lead to the parent (R331). -/
theorem nextVisit_first (hkj : k ≤ j) (hj : j < 12) (hup : (s.port j).state = .up) (hp : e.parent ≠ some j)
    (hfirst : ∀ i, k ≤ i → i < j → (s.port i).state ≠ .up ∨ e.parent = some i) : nextVisit s e k = some j := by
  rw [nextVisit, upPorts, List.find?_filter, List.find?_range_eq_some]
  refine ⟨by simp [hup, hkj, hp.symm], List.mem_range.2 hj, fun i hi => ?_⟩
  by_cases hki : k ≤ i
  · rcases hfirst i hki hi with h | h <;> simp [h]
  · simp [hki]

/-- No port is left to visit where only the parent's is UP. -/
theorem nextVisit_alone (hp : e.parent = some j) (h : ∀ i < 12, i ≠ j → (s.port i).state ≠ .up) :
    nextVisit s e k = none := by
  rw [nextVisit, List.find?_eq_none]
  intro i hi
  obtain ⟨hi, hup⟩ := mem_upPorts.1 hi
  have hij : i = j := Classical.byContradiction fun hij => h i hi hij hup
  simp [hp, hij]

end

section

variable {s : State} {j : Fin 12} {offered next : BitVec 12} {e : Enumeration}

/-- The walk as a device joins it that takes the number offered at port `j`. -/
def offerWalk (s : State) (j : Fin 12) (offered next : BitVec 12) : Enumeration :=
  { parent := some j.val, port := 12, next := nextNumber offered.toNat next.toNat, base := offered.toNat
    before := s.links.number }

/-- A port that an offer comes by, before its far device answers: which device that is, is a free value. -/
def farUnknown (draw : Nat) (x : ZPort) : ZPort := { x with farDevice := (Config.freeValue draw).toNat % 4096 }

/-- The device once it has taken the number offered at port `j`. -/
def takeOffer (s : State) (j : Fin 12) (offered next : BitVec 12) : State :=
  { s.draw.2.modPort j (farUnknown s.fresh) with
    links := { (s.draw.2.modPort j (farUnknown s.fresh)).links with
      number := offered.toNat, owed := 0, enumeration := some (offerWalk s j offered next) } }

theorem exec_enum_offer (hup : (s.port j).state = .up) (he : s.links.enumeration = none) (ho : bit s.links.owed j = false) :
    exec (.enum j offered next) s = .next (visitFrom (takeOffer s j offered next) (offerWalk s j offered next) 0) := by
  change execEnum j offered next s = _
  rw [execEnum, if_neg (by simp [hup]), he]
  exact congrArg Host.Outcome.next (if_neg (by simp [ho]))

theorem port_takeOffer_same : (takeOffer s j offered next).port j = farUnknown s.fresh (s.port j) :=
  port_modPort_same s.draw.2 j (farUnknown s.fresh)

theorem port_takeOffer_other {k : Nat} (h : k ≠ j) : (takeOffer s j offered next).port k = s.port k :=
  port_modPort_other s.draw.2 (farUnknown s.fresh) h

/-- A device with no other port UP sends the number it takes back at once (R331). -/
theorem visitFrom_takeOffer_alone (hup : (s.port j).state = .up) (h : ∀ k : Fin 12, k ≠ j → (s.port k).state ≠ .up) :
    visitFrom (takeOffer s j offered next) (offerWalk s j offered next) 0 =
      (settleRoutes (takeOffer s j offered next)).modPort j fun x => { x with
        sendSymbols := x.sendSymbols ++ [enumSymbol offered.toNat (nextNumber offered.toNat next.toNat)] } := by
  have halone : nextVisit (takeOffer s j offered next) (offerWalk s j offered next) 0 = none := by
    refine nextVisit_alone rfl fun i hi hij => ?_
    rw [port_takeOffer_other hij]
    exact h ⟨i, hi⟩ (Fin.ne_of_val_ne hij)
  have hup' : ((settleRoutes (takeOffer s j offered next)).port j).state = .up := by
    rw [port_settleRoutes, port_takeOffer_same]
    exact hup
  rw [visitFrom_none halone, endVisit_child rfl, sendSymbol_up hup']
  rfl

/-- An offer that is returned: the device owes it at port `j`, or takes part in a walk by another port. -/
theorem exec_enum_returned (hup : (s.port j).state = .up)
    (h : (s.links.enumeration = none ∧ bit s.links.owed j = true) ∨ ∃ e, s.links.enumeration = some e ∧ e.port ≠ j.val) :
    ∃ u : State, u = { s with links := { s.links with owed := u.links.owed, enumeration := u.links.enumeration } } ∧
      exec (.enum j offered next) s = .next (u.modPort j fun x => { x with
        sendSymbols := x.sendSymbols ++ [enumSymbol s.links.number offered.toNat] }) := by
  rcases h with ⟨he, ho⟩ | ⟨e, he, hp⟩
  · refine ⟨s.dropOwed j, rfl, ?_⟩
    change execEnum j offered next s = _
    rw [execEnum, if_neg (by simp [hup]), he]
    exact congrArg Host.Outcome.next ((if_pos ho).trans (sendSymbol_up hup))
  · refine ⟨{ s with links := { s.links with enumeration := some { e with met := setBit e.met j } } }, rfl, ?_⟩
    change execEnum j offered next s = _
    rw [execEnum, if_neg (by simp [hup]), he]
    exact congrArg Host.Outcome.next ((if_neg hp).trans (sendSymbol_up hup))

/-- The device once the port it visits has answered. -/
def takeAnswer (s : State) (j : Fin 12) (offered next : BitVec 12) (e : Enumeration) : State :=
  (enumAnswer s e j (nextNumber e.next next.toNat)).modPort j fun x => { x with farDevice := offered.toNat }

theorem exec_enum_answer (hup : (s.port j).state = .up) (he : s.links.enumeration = some e) (hp : e.port = j.val) :
    exec (.enum j offered next) s =
      .next (visitFrom (takeAnswer s j offered next e) { e with next := nextNumber e.next next.toNat } (j + 1)) := by
  change execEnum j offered next s = _
  rw [execEnum, if_neg (by simp [hup]), he]
  exact congrArg Host.Outcome.next (if_pos hp)

theorem port_enumAnswer (k n i : Nat) : (enumAnswer s e i n).port k = s.port k := by
  unfold enumAnswer
  split <;> rfl

theorem port_takeAnswer_other {k : Nat} (h : k ≠ j) : (takeAnswer s j offered next e).port k = s.port k :=
  (port_modPort_other _ _ h).trans (port_enumAnswer _ _ _)

theorem takeAnswer_sameBytes : SameBytes s (takeAnswer s j offered next e) := by
  unfold takeAnswer enumAnswer
  split <;> exact ⟨rfl, rfl, rfl, rfl⟩

end

/-! ## Ports carry frames -/

/-- The clause of O57 on an answer from the port being visited: the walk goes on at the next port. -/
theorem event_enum_answer (j : Fin 12) (offered next : BitVec 12) (e : Enumeration) :
    Event (.enum j offered next) (fun s => (s.port j).state = .up ∧ s.links.enumeration = some e ∧ e.port = j.val)
      (fun s t => (t.port j).farDevice = offered.toNat ∧ SameBytes s t ∧
        ∀ k : Fin 12, j < k → (s.port k).state = .up → e.parent ≠ some k.val →
          (∀ i : Fin 12, j < i → i < k → (s.port i).state ≠ .up ∨ e.parent = some i.val) →
          (t.port k).sendSymbols = (s.port k).sendSymbols ++
            [enumSymbol (nextNumber e.next next.toNat) (nextNumber e.next next.toNat + 1)] ∧
          t.links.enumeration = some { e with next := nextNumber e.next next.toNat, port := k.val }) := by
  rintro s ⟨hup, he, hp⟩
  refine ⟨_, exec_enum_answer hup he hp, ?_, takeAnswer_sameBytes.trans (visitFrom_sameBytes _ _ _), ?_⟩
  · rw [(visitFrom_queuesOnly _ _ _).farDevice, takeAnswer, port_modPort_same]
  · intro k hjk hkup hpar hfirst
    have hkj : k.val ≠ j.val := Nat.ne_of_gt hjk
    have hport : (takeAnswer s j offered next e).port k = s.port k := port_takeAnswer_other hkj
    have hnext : nextVisit (takeAnswer s j offered next e) { e with next := nextNumber e.next next.toNat } (j + 1) =
        some k.val := by
      refine nextVisit_first hjk k.isLt (by rw [hport, hkup]) hpar fun i hji hik => ?_
      rw [port_takeAnswer_other (by omega)]
      exact hfirst ⟨i, by omega⟩ hji hik
    rw [visitFrom_some hnext, sendSymbol_up (by rw [port_visiting, hport, hkup]), port_modPort_same, port_visiting, hport]
    exact ⟨rfl, rfl⟩

/-- Settles O57: one lemma for each event of a port. -/
theorem portsCarryFrames : Obligations.PortsCarryFrames := by
  refine ⟨?train, ?silence, ?failed, ?send, ?good, ?lost, ?ack, ?lostSent, ?late, ?credit, ?offer, ?returned,
    event_enum_answer⟩
  case train =>
    rintro j s ⟨h, ht⟩
    exact ⟨_, exec_trainTimeout_due h ht, rfl⟩
  case silence =>
    rintro j s ⟨h, ht⟩
    exact ⟨_, exec_portSilenceTimeout_due h ht, rfl⟩
  case failed => exact fun j s st d h => state_portFails st d h
  case send =>
    intro j s h
    refine ⟨_, exec_frameSend_runs h, rfl, fun k hk => port_modPort_other s _ (Fin.val_ne_of_ne hk), ?_, ?_⟩
    · rw [port_emit, port_modPort_same]
      rfl
    · refine ⟨(nextFrame s j).1, rfl, rfl, nextFrame_kinds_length, nextFrame_slots_length, rfl, rfl,
        nextFrame_kinds_training, fun hup => ?_⟩
      rw [port_emit, port_modPort_same]
      exact nextFrame_unacked_up hup
  case good =>
    rintro j f s ⟨hup, hu, hc, hseq, hf⟩
    refine ⟨_, exec_frame_good hup hu hc hseq hf, rfl, fun k hk => ?_, ?_⟩
    · exact port_modPort_other s _ (Fin.val_ne_of_ne hk)
    · exact port_modPort_same s j (goodPort s.devTime f)
  case lost =>
    rintro j f n s ⟨hup, hlost, hfew⟩
    refine ⟨_, exec_frame_lost hup hlost, ?_⟩
    rw [lostHere_few (by simp [hup]) (by rw [port_modPort_same]; exact hfew)]
    refine ⟨rfl, fun k hk => ?_, ?_⟩
    · rw [port_modPort_other _ _ (Fin.val_ne_of_ne hk), port_draw, port_modPort_other _ _ (Fin.val_ne_of_ne hk)]
    · simp [port_draw]
  case ack =>
    rintro j n a b f s ⟨hl, hf, ha⟩
    refine ⟨_, exec_linkAck_known (by simp [hl]) hf, rfl, fun k hk => port_modPort_other s _ (Fin.val_ne_of_ne hk), ?_⟩
    rw [port_modPort_same, hl, released_upTo hf ha]
  case lostSent => exact fun j n f s hf => ⟨_, exec_lost_known hf, rfl⟩
  case late =>
    rintro j f r s ⟨hl, ht⟩
    refine ⟨_, exec_ackTimeout_due hl ht, ?_⟩
    have herase : (s.modPort j fun x => { x with unacked := x.unacked.erase f }) =
        s.modPort j fun x => { x with unacked := r } := modPort_congr (by simp [hl])
    rw [herase]
    rfl
  case credit =>
    intro j n s hup
    refine ⟨_, exec_credit_up hup, rfl, fun k hk => port_modPort_other s _ (Fin.val_ne_of_ne hk), ?_⟩
    rw [port_modPort_same]
    exact ⟨rfl, credited_next _ _⟩
  case offer =>
    rintro j offered next s ⟨hup, he, ho⟩
    have hw := visitFrom_linksOnly (s := takeOffer s j offered next) (e := offerWalk s j offered next) (k := 0) rfl
    refine ⟨_, exec_enum_offer hup he ho, hw.number, hw.rest_after rfl, fun halone => ?_⟩
    rw [visitFrom_takeOffer_alone hup halone]
    refine ⟨rfl, rfl, ?_⟩
    rw [port_modPort_same, port_settleRoutes, port_takeOffer_same]
    rfl
  case returned =>
    rintro j offered next s ⟨hup, h⟩
    obtain ⟨u, hu, hx⟩ := exec_enum_returned (offered := offered) (next := next) hup h
    refine ⟨_, hx, by rw [hu]; rfl, by rw [hu]; rfl, ?_⟩
    rw [port_modPort_same, hu]
    rfl

end Sys2Proof.Machine
end

section
/-! SUPPORT. The statements of the organisation family: every step keeps the fuses but for a rising SVN floor, so that the
numbering of the stalls stands in every run (R12, R13, R502, O5); and POWER_SET_CAP and POWER_SET_MODE (R473, R474, O20). -/

namespace Sys2Proof.Machine

variable {q : Fixed} {s t u : State}

/-! ## One command -/

/-- Every command keeps what `Kept` names: its meaning does (Laws/Kept). -/
theorem exec_kept (c : Instr) (h : Kept q s) : KeptO q (exec c s) :=
  match c with
  | .nop _ => execNop_kept h
  | .getInfo _ => execGetInfo_kept h
  | .setReplyRing _ => execSetReplyRing_kept h
  | .invalidOpcodePacket _ => execInvalidOpcodePacket_kept h
  | .queueSubmit _ => execQueueSubmit_kept h
  | .queueHalt _ => execQueueHalt_kept h
  | .queueResume _ => execQueueResume_kept h
  | .queueFlush _ => execQueueFlush_kept h
  | .queueStatus _ => execQueueStatus_kept h
  | .jobStart _ => execJobStart_kept h
  | .jobEnd _ => execJobEnd_kept h
  | .portCopy _ => execPortCopy_kept h
  | .pinLines _ => execPinLines_kept h
  | .unpinLines _ => execUnpinLines_kept h
  | .discardLines _ => execDiscardLines_kept h
  | .sessionOpen _ => execSessionOpen_kept h
  | .sessionAppend _ => execSessionAppend_kept h
  | .sessionClose _ => execSessionClose_kept h
  | .sessionQuery _ => execSessionQuery_kept h
  | .partitionCreate _ => execPartitionCreate_kept h
  | .partitionDestroy _ => execPartitionDestroy_kept h
  | .partitionReset _ => execPartitionReset_kept h
  | .partitionSetLease _ => execPartitionSetLease_kept h
  | .dirtyLogStart _ => execDirtyLogStart_kept h
  | .dirtyLogCollect _ => execDirtyLogCollect_kept h
  | .dirtyLogStop _ => execDirtyLogStop_kept h
  | .powerSetCap _ => execPowerSetCap_kept h
  | .powerSetMode _ => execPowerSetMode_kept h
  | .powerStateRun _ => execPowerStateRun_kept h
  | .powerStateIdle _ => execPowerStateIdle_kept h
  | .powerStateSleep _ => execPowerStateSleep_kept h
  | .powerStateDeep _ => execPowerStateDeep_kept h
  | .powerStateOff _ => execPowerStateOff_kept h
  | .telemetryRead _ => execTelemetryRead_kept h
  | .attestPartition _ => execAttestPartition_kept h
  | .keyInstall _ => execKeyInstall_kept h
  | .keyPurge _ => execKeyPurge_kept h
  | .ownerProvisionTake _ => execOwnerProvisionTake_kept h
  | .ownerProvisionTransfer _ => execOwnerProvisionTransfer_kept h
  | .ownerProvisionRelease _ => execOwnerProvisionRelease_kept h
  | .bistRun _ => execBistRun_kept h
  | .bistResult _ => execBistResult_kept h
  | .fwUpdateBegin _ => execFwUpdateBegin_kept h
  | .fwUpdateData _ => execFwUpdateData_kept h
  | .fwUpdateCommit _ => execFwUpdateCommit_kept h
  | .tallyConfig _ => execTallyConfig_kept h
  | .traceStop _ => execTraceStop_kept h
  | .traceStart _ => execTraceStart_kept h
  | .traceRead _ => execTraceRead_kept h
  | .traceClear _ => execTraceClear_kept h
  | .debugHalt _ => execDebugHalt_kept h
  | .debugRelease _ => execDebugRelease_kept h
  | .linkConfig _ => execLinkConfig_kept h
  | .linkStatus _ => execLinkStatus_kept h
  | .chainEnumerate _ => execChainEnumerate_kept h
  | .resourceClaim _ => execResourceClaim_kept h
  | .resourceRelease _ => execResourceRelease_kept h
  | .planLoad _ => execPlanLoad_kept h
  | .planUnload _ => execPlanUnload_kept h
  | .planRun _ => execPlanRun_kept h
  | .launch _ => execLaunch_kept h
  | .copy _ => execCopy_kept h
  | .serve _ => execServe_kept h
  | .syncWait _ => execSyncWait_kept h
  | .syncSignal _ => execSyncSignal_kept h
  | .syncAdd _ => execSyncAdd_kept h
  | .syncNotify _ => execSyncNotify_kept h
  | .queueWaitTimeout _ _ => execQueueWaitTimeout_kept h
  | .slotWrite _ _ _ _ => execSlotWrite_kept h
  | .registerWrite _ _ _ _ _ => execRegisterWrite_kept h
  | .ringHeadWrite _ _ => execRingHeadWrite_kept h
  | .intCtrlWrite _ _ => execIntCtrlWrite_kept h
  | .intCauseWrite _ _ => execIntCauseWrite_kept h
  | .hwinWrite _ _ _ _ => execHwinWrite_kept h
  | .dpAddrWrite _ _ => execDpAddrWrite_kept h
  | .dpAddrRead _ => execDpAddrRead_kept h
  | .dpCtrlWrite _ _ => execDpCtrlWrite_kept h
  | .dataPortWrite _ _ => execDataPortWrite_kept h
  | .dataPortRead _ _ => execDataPortRead_kept h
  | .refillDone _ => execRefillDone_kept h
  | .configurationRequest _ _ _ _ => execConfigurationRequest_kept h
  | .memrd _ _ => execMemrd_kept h
  | .memwr _ _ => execMemwr_kept h
  | .birsp _ => execBirsp_kept h
  | .hostSnoop _ => execHostSnoop_kept h
  | .flrVf _ => execFlrVf_kept h
  | .flrPf0 => execFlrPf0_kept h
  | .perstNAssert => execPerstNAssert_kept h
  | .getMeasurements _ _ => execGetMeasurements_kept h
  | .keyExchange _ => execKeyExchange_kept h
  | .managementSessionTimeout _ => execManagementSessionTimeout_kept h
  | .rdS _ _ _ => execRdS_kept h
  | .rdU _ _ _ => execRdU_kept h
  | .upg _ _ _ => execUpg_kept h
  | .rdNa _ _ _ _ _ => execRdNa_kept h
  | .wrl _ _ _ _ => execWrl_kept h
  | .atom _ => execAtom_kept h
  | .disc _ _ _ => execDisc_kept h
  | .wb _ _ _ => execWb_kept h
  | .snpInv _ _ _ => execSnpInv_kept h
  | .snpDown _ _ _ => execSnpDown_kept h
  | .snpSnap _ _ _ => execSnpSnap_kept h
  | .rspAck _ _ _ => execRspAck_kept h
  | .rspData _ _ _ => execRspData_kept h
  | .rspNp _ _ _ => execRspNp_kept h
  | .rspWbp _ _ _ => execRspWbp_kept h
  | .dataS _ _ _ => execDataS_kept h
  | .dataE _ _ _ => execDataE_kept h
  | .dataM _ _ _ => execDataM_kept h
  | .dataNa _ _ _ => execDataNa_kept h
  | .ack _ _ _ => execAck_kept h
  | .wbAck _ _ _ => execWbAck_kept h
  | .combiningWindowClose _ _ => execCombiningWindowClose_kept h
  | .lsmReadReturn _ _ _ => execLsmReadReturn_kept h
  | .baseDieWriteError _ => execBaseDieWriteError_kept h
  | .refresh _ _ => execRefresh_kept h
  | .channelRecalibrate _ => execChannelRecalibrate_kept h
  | .channelRetrain _ _ => execChannelRetrain_kept h
  | .stackTempReport _ _ => execStackTempReport_kept h
  | .refillTimeout _ => execRefillTimeout_kept h
  | .domainTick _ _ => execDomainTick_kept h
  | .feederLineArrival _ _ _ => execFeederLineArrival_kept h
  | .tagCheck _ _ => execTagCheck_kept h
  | .checksumVerdict _ _ => execChecksumVerdict_kept h
  | .residueVerdict _ _ => execResidueVerdict_kept h
  | .partPaged _ _ => execPartPaged_kept h
  | .bell _ => execBell_kept h
  | .stageBell _ => execStageBell_kept h
  | .sessionStep _ => execSessionStep_kept h
  | .ctlNop _ _ => execCtlNop_kept h
  | .bra _ _ => execBra_kept h
  | .bru _ _ => execBru_kept h
  | .jset _ _ => execJset_kept h
  | .brd _ _ => execBrd_kept h
  | .brk _ _ => execBrk_kept h
  | .join _ _ => execJoin_kept h
  | .exit _ _ => execExit_kept h
  | .vectorInteger _ _ => execVectorInteger_kept h
  | .vectorFloat _ _ => execVectorFloat_kept h
  | .conversion _ _ => execConversion_kept h
  | .compare _ _ => execCompare_kept h
  | .uniformInteger _ _ => execUniformInteger_kept h
  | .sreg _ _ => execSreg_kept h
  | .clrf _ _ => execClrf_kept h
  | .ld _ _ => execLd_kept h
  | .st _ _ => execSt_kept h
  | .pref _ _ => execPref_kept h
  | .discard _ _ => execDiscard_kept h
  | .atomicAdd _ _ => execAtomicAdd_kept h
  | .atomicMin _ _ => execAtomicMin_kept h
  | .atomicMax _ _ => execAtomicMax_kept h
  | .atomicAnd _ _ => execAtomicAnd_kept h
  | .atomicOr _ _ => execAtomicOr_kept h
  | .atomicXor _ _ => execAtomicXor_kept h
  | .atomicExch _ _ => execAtomicExch_kept h
  | .atomicCas _ _ => execAtomicCas_kept h
  | .fence _ _ => execFence_kept h
  | .bar _ _ => execBar_kept h
  | .gmma _ _ => execGmma_kept h
  | .illegalInstruction _ _ => execIllegalInstruction_kept h
  | .launchCommit _ => execLaunchCommit_kept h
  | .watchdogExpiry _ => execWatchdogExpiry_kept h
  | .frame _ _ => execFrame_kept h
  | .linkAck _ _ => execLinkAck_kept h
  | .lost _ _ => execLost_kept h
  | .credit _ _ => execCredit_kept h
  | .hello _ _ _ _ => execHello_kept h
  | .echo _ n _ _ => execEcho_kept (_number := n) h
  | .enum _ _ _ => execEnum_kept h
  | .joinSymbol _ _ _ => execJoinSymbol_kept h
  | .start _ _ _ _ => execStart_kept h
  | .commit _ _ => execCommit_kept h
  | .replay _ _ => execReplay_kept h
  | .applied _ _ => execApplied_kept h
  | .abandon _ _ => execAbandon_kept h
  | .unitError _ _ => execUnitError_kept h
  | .mask _ _ _ _ _ => execMask_kept h
  | .tickSync _ _ _ => execTickSync_kept h
  | .reach _ _ _ _ _ => execReach_kept h
  | .write _ _ => execWrite_kept h
  | .readReq _ _ => execReadReq_kept h
  | .readRsp _ _ => execReadRsp_kept h
  | .atomReq _ _ => execAtomReq_kept h
  | .atomRsp _ _ => execAtomRsp_kept h
  | .token _ _ => execToken_kept h
  | .count _ _ => execCount_kept h
  | .result _ _ => execResult_kept h
  | .ackTimeout _ => execAckTimeout_kept h
  | .portSilenceTimeout _ => execPortSilenceTimeout_kept h
  | .trainTimeout _ => execTrainTimeout_kept h
  | .reachWindowExpiry _ => execReachWindowExpiry_kept h
  | .voteTimeout _ => execVoteTimeout_kept h
  | .powerSample _ => execPowerSample_kept h
  | .budgetExchange => execBudgetExchange_kept h
  | .extraBubbleStart _ => execExtraBubbleStart_kept h
  | .coreClockStep _ => execCoreClockStep_kept h
  | .droopDetect _ => execDroopDetect_kept h
  | .droopClear _ _ => execDroopClear_kept h
  | .pwrAlertAssert => execPwrAlertAssert_kept h
  | .pwrAlertRelease => execPwrAlertRelease_kept h
  | .dieTempRead _ _ => execDieTempRead_kept h
  | .thermtrip => execThermtrip_kept h
  | .coolantSample _ => execCoolantSample_kept h
  | .vinLowTimeout => execVinLowTimeout_kept h
  | .leaseExpiry _ => execLeaseExpiry_kept h
  | .graceExpiry _ => execGraceExpiry_kept h
  | .wakeN => execWakeN_kept h
  | .wakeTimerExpiry _ => execWakeTimerExpiry_kept h
  | .managementWake => execManagementWake_kept h
  | .coldBoot _ => execColdBoot_kept h
  | .aoPowerLoss => execAoPowerLoss_kept h
  | .voteSweep _ _ => execVoteSweep_kept h
  | .bistGroupComplete _ => execBistGroupComplete_kept h
  | .syncIoEdge => execSyncIoEdge_kept h
  | .companionDown _ => execCompanionDown_kept h
  | .bypass => execBypass_kept h
  | .idcode => execIdcode_kept h
  | .samplePreload => execSamplePreload_kept h
  | .extest => execExtest_kept h
  | .debugRead _ => execDebugRead_kept h
  | .stallScan _ => execStallScan_kept h
  | .hubScan => execHubScan_kept h
  | .sysRstNAssert => execSysRstNAssert_kept h
  | .perstNRelease => execPerstNRelease_kept h
  | .pllLockLoss _ _ => execPllLockLoss_kept h
  | .vinIvrRemoval => execVinIvrRemoval_kept h
  | .biconflict _ => execBiconflict_kept h
  | .cxlCacheResponse _ _ => execCxlCacheResponse_kept h
  | .cxlIoCompletion _ _ => execCxlIoCompletion_kept h
  | .completionTimeout _ => execCompletionTimeout_kept h
  | .companionCompletion _ _ _ => execCompanionCompletion_kept h
  | .counterSample _ => execCounterSample_kept h
  | .flashWriteComplete _ => execFlashWriteComplete_kept h
  | .lsmWriteComplete _ => execLsmWriteComplete_kept h
  | .frameSend _ => execFrameSend_kept h
  | .dynamicAddress _ => execDynamicAddress_kept h

/-! ## One step -/

/-- What the state at hand holds of what no command may change. -/
def fixedOf (s : State) : Fixed where
  queue := s.pending
  fuses := { s.fuses with svnFloor := 0 }
  floor := s.fuses.svnFloor

theorem MemoriesCanonical.kept (h : MemoriesCanonical s) : Kept (fixedOf s) s := by
  obtain ⟨hmem, hspad, hflash, htrace⟩ := h
  exact ⟨hmem, hspad, hflash, htrace, rfl, rfl, Nat.le_refl _⟩

theorem Kept.memoriesCanonical (h : Kept q s) : MemoriesCanonical s := ⟨h.mem, h.spad, h.flash, h.trace⟩

/-- Fuses that agree but for the SVN floor become equal once one's floor is given to the other. -/
theorem Kept.fusesStand (h : Kept (fixedOf s) t) : FusesStand s t :=
  ⟨congrArg (fun f : Fuses => { f with svnFloor := t.fuses.svnFloor }) h.fuses, h.floor⟩

theorem FusesStand.refl (s : State) : FusesStand s s := ⟨rfl, Nat.le_refl _⟩

theorem FusesStand.trans (h : FusesStand s t) (g : FusesStand t u) : FusesStand s u := by
  obtain ⟨hf, hl⟩ := h
  obtain ⟨gf, gl⟩ := g
  rw [hf] at gf
  exact ⟨gf, Nat.le_trans hl gl⟩

theorem FusesStand.harvest (h : FusesStand s t) : t.fuses.harvest = s.fuses.harvest := by
  rw [h.1]

theorem exec_canonical_fusesStand {c : Instr} (h : MemoriesCanonical s) (hx : exec c s = .next t) :
    MemoriesCanonical t ∧ FusesStand s t := by
  have ht : Kept (fixedOf s) t := by
    have hk := exec_kept c h.kept
    rwa [hx] at hk
  exact ⟨ht.memoriesCanonical, ht.fusesStand⟩

/-- A step is the tick of an idle device, or a command over the commands behind it; taking a command off the queue touches
neither memories nor fuses. -/
theorem step_canonical_fusesStand (h : MemoriesCanonical s) (hs : step s = .next t) :
    MemoriesCanonical t ∧ FusesStand s t := by
  unfold step at hs
  split at hs
  next =>
    cases hs
    have hk := idleTick_kept h.kept
    exact ⟨hk.memoriesCanonical, hk.fusesStand⟩
  next c rest _ =>
    have hrest : MemoriesCanonical { s with pending := rest } := h
    obtain ⟨hc, hf⟩ := exec_canonical_fusesStand hrest hs
    exact ⟨hc, hf⟩

/-! ## Runs -/

/-- A run of one step more is a step, and a run from where it ends. -/
theorem run_succ_next {M : Host.Core} {n : Nat} {s t : M.State} :
    M.run (n + 1) s = .next t ↔ ∃ u, M.step s = .next u ∧ M.run n u = .next t := by
  rw [Host.Core.run]
  cases M.step s <;> simp

/-- In a run of any length the memories stay canonical and the fuses stand. -/
theorem run_canonical_fusesStand (n : Nat) (h : MemoriesCanonical s) (hr : core.run n s = .next t) :
    MemoriesCanonical t ∧ FusesStand s t := by
  induction n generalizing s with
  | zero =>
    obtain rfl : s = t := Host.Outcome.next.inj hr
    exact ⟨h, .refl s⟩
  | succ n ih =>
    obtain ⟨u, hu, hr⟩ := run_succ_next.1 hr
    obtain ⟨hcu, hsu⟩ := step_canonical_fusesStand h hu
    obtain ⟨hct, hut⟩ := ih hcu hr
    exact ⟨hct, hsu.trans hut⟩

/-! ## The numbering of the stalls -/

/-- The physical place of a stall is a function of the harvest fuses (R12, R13). -/
theorem physOf_congr (h : t.fuses.harvest = s.fuses.harvest) (i : Nat) : physOf t i = physOf s i := by
  unfold physOf enabledPos
  rw [h]

theorem rowOf_congr (h : t.fuses.harvest = s.fuses.harvest) (i : Nat) : rowOf t i = rowOf s i :=
  congrArg (· / 6) (physOf_congr h i)

theorem colOf_congr (h : t.fuses.harvest = s.fuses.harvest) (i : Nat) : colOf t i = colOf s i :=
  congrArg (· % 6) (physOf_congr h i)

/-- Settles O5: the numbering is read from the harvest fuses, which stand in every run, and the SVN floor does not fall. -/
theorem numberingNeverChanges : Obligations.NumberingNeverChanges := by
  intro n s t h hr
  obtain ⟨-, hstand⟩ := run_canonical_fusesStand n h hr
  exact ⟨fun i => ⟨physOf_congr hstand.harvest i, rowOf_congr hstand.harvest i, colOf_congr hstand.harvest i⟩,
    fun _ hsvn => Nat.lt_of_lt_of_le hsvn hstand.2⟩

/-! ## POWER_SET_CAP and POWER_SET_MODE -/

theorem PortOnly.power (h : PortOnly s t) : t.power = s.power := by rw [h]

theorem foldl_modPart_power {f : State → Nat → Part → Part} (l : List Nat) (s : State) :
    (l.foldl (fun s p => s.modPart p (f s p)) s).power = s.power :=
  foldl_related (R := fun s t => t.power = s.power) (fun _ => rfl) (fun _ _ _ h g => g.trans h)
    (fun s p => modPart_power s p (f s p)) l s

/-- A new cap is the device's cap at once, whether or not a LOCKSTEP job has still to apply it (R473). -/
theorem setCap_cap (s : State) (watt : Nat) : (setCap s watt).power.cap = watt := by
  unfold setCap
  simp only [foldl_modPart_power]

/-- Where no LOCKSTEP job runs, a new cap changes nothing else. -/
theorem setCap_no_lockstep (watt : Nat) (h : lockstepJobs s = []) :
    setCap s watt = { s with power := { s.power with cap := watt } } := by
  have hcap : lockstepJobs { s with power := { s.power with cap := watt } } = [] := h
  unfold setCap
  simp only [hcap, List.foldl_nil]

/-- Settles O20: what `setCap` does to the cap, and to all else where no LOCKSTEP job runs, beside the bodies of the two
packets. -/
theorem powerPacketsSetCapAndMode : Obligations.PowerPacketsSetCapAndMode := by
  refine ⟨?cap, ?mode⟩
  case cap =>
    refine completes_reply (fun _ _ => rfl) (fun _ _ hop _ => decide_eq_true hop) ?_
    rintro s k - ⟨hlow, hhigh⟩
    have hrange : ¬((decide (k.param 0 < 800) || decide (2700 < k.param 0)) = true) := by simp [hlow, hhigh]
    rw [if_neg hrange, bodyEnd_say]
    refine ⟨by rw [replyNow_portOnly.power, setCap_cap], ?_⟩
    by_cases hnone : lockstepJobs s = []
    · rw [if_pos hnone, ← setCap_no_lockstep _ hnone, hnone]
      rfl
    · rw [if_neg hnone, if_neg (by simpa using hnone)]
      rfl
  case mode =>
    refine completes_reply (fun _ _ => rfl) (fun _ _ hop _ => decide_eq_true hop) ?_
    rintro s k - ⟨hmode, hboost⟩
    have hlock : ¬((decide (k.param 0 = 1) && isLockstep s k.part) = true) := by simpa using hboost
    rw [if_neg (Nat.not_lt.2 hmode), if_neg hlock]
    by_cases hrun : (s.part k.part).job.running = true
    · rw [if_pos hrun, if_pos hrun]
      exact bodyEnd_say
    · rw [if_neg hrun, if_neg hrun]
      exact bodyEnd_ok

end Sys2Proof.Machine
end

section
/-! SUPPORT. The statements of the number formats: the eight floating-point layouts, sums and integer passes (R37, R42, R44,
R51, R53, O60). -/

namespace Sys2Proof.Machine

/-! ## Encodings and their values -/

section

variable {f : FlFmt}

/-- A magnitude of at most `mbits` + 1 bits that has all of them, or whose last bit is the least a layout has, is exact. -/
theorem flRound_exact {mbits m : Nat} {emin e : Int} (hm : m ≠ 0) (hlt : m < 2 ^ (mbits + 1)) (he : emin ≤ e + mbits)
    (h : 2 ^ mbits ≤ m ∨ e + mbits = emin) : flRound mbits emin m e = (m, e) := by
  have hlog : Nat.log2 m ≤ mbits := Nat.lt_succ_iff.1 ((Nat.log2_lt hm).2 hlt)
  have hfull : 2 ^ mbits ≤ m → mbits ≤ Nat.log2 m := (Nat.le_log2 hm).2
  have hq : (if (Nat.log2 m : Int) + e < emin then emin else (Nat.log2 m : Int) + e) - mbits = e := by
    rcases h with h | h
    · have := hfull h
      split <;> omega
    · split <;> omega
  simp [flRound, hq, Nat.ne_of_lt hlt]

/-- A value that needs no rounding encodes as its sign beside the number that its exponent and fraction spell. -/
theorem flEncode_exact {neg sat : Bool} {m n : Nat} {e : Int} (hm : m ≠ 0)
    (hr : flRound f.mbits (1 - (f.bias : Int)) m e = (m, e))
    (hn : (if m < 2 ^ f.mbits then (m : Int) else (e + f.mbits + f.bias - 1) * 2 ^ f.mbits + m) = n) (hmax : n ≤ flMax f) :
    flEncode f sat (.fin neg m e) = b2n neg * 2 ^ (f.ebits + f.mbits) + n := by
  simp [flEncode, hm, hr, hn, hmax]

/-- An encoding is its sign, exponent and fraction fields. -/
theorem eq_fields {x : Nat} (hx : x < 2 ^ f.width) : x = b2n (bit x (f.ebits + f.mbits)) * 2 ^ (f.ebits + f.mbits) +
    (x / 2 ^ f.mbits % 2 ^ f.ebits * 2 ^ f.mbits + x % 2 ^ f.mbits) := by
  have hsign : b2n (bit x (f.ebits + f.mbits)) = x / 2 ^ f.mbits / 2 ^ f.ebits := by
    have hlt : x / 2 ^ (f.ebits + f.mbits) < 2 := by
      rw [Nat.div_lt_iff_lt_mul (Nat.two_pow_pos _), ← Nat.pow_add_one', Nat.add_comm, ← Nat.add_assoc]
      exact hx
    rw [Nat.div_div_eq_div_mul, ← Nat.pow_add, Nat.add_comm f.mbits]
    rcases Nat.le_one_iff_eq_zero_or_eq_one.1 (Nat.lt_succ_iff.1 hlt) with h | h <;> simp [b2n, bit, h]
  calc x = x / 2 ^ f.mbits * 2 ^ f.mbits + x % 2 ^ f.mbits := (Nat.div_add_mod' ..).symm
    _ = (x / 2 ^ f.mbits / 2 ^ f.ebits * 2 ^ f.ebits + x / 2 ^ f.mbits % 2 ^ f.ebits) * 2 ^ f.mbits + x % 2 ^ f.mbits := by
      rw [Nat.div_add_mod' (x / 2 ^ f.mbits)]
    _ = _ := by rw [hsign, Nat.add_mul, Nat.mul_assoc, Nat.pow_add, Nat.add_assoc]

/-- What is no infinity and no NaN is at most the largest finite encoding. -/
theorem fields_le_flMax {e m : Nat} (he : e < 2 ^ f.ebits) (hm : m < 2 ^ f.mbits) (h0 : ¬(f.special = 0 ∧ e = 2 ^ f.ebits - 1))
    (h1 : ¬(f.special = 1 ∧ e = 2 ^ f.ebits - 1 ∧ m = 2 ^ f.mbits - 1)) : e * 2 ^ f.mbits + m ≤ flMax f := by
  have hstep {a b : Nat} (h : a < b) : a * 2 ^ f.mbits + 2 ^ f.mbits ≤ b * 2 ^ f.mbits := by
    rw [← Nat.succ_mul]
    exact Nat.mul_le_mul_right _ h
  have htop := hstep he
  unfold flMax
  rw [Nat.pow_add]
  split
  case h_1 hs =>
    have := hstep (show e < 2 ^ f.ebits - 1 by omega)
    omega
  case h_2 hs =>
    by_cases hlast : e = 2 ^ f.ebits - 1
    · omega
    · have := hstep (show e + 1 < 2 ^ f.ebits by omega)
      rw [Nat.succ_mul] at this
      have := Nat.one_le_two_pow (n := f.mbits)
      omega
  case h_3 => omega

/-- An encoding that is no NaN is what its own value rounds to (R37, R42). -/
theorem flEncode_flDecode {x : Nat} (sat : Bool) (hx : x < 2 ^ f.width) (hn : flDecode f x ≠ .nan) :
    flEncode f sat (flDecode f x) = x := by
  conv => rhs; rw [eq_fields hx]
  have he : x / 2 ^ f.mbits % 2 ^ f.ebits < 2 ^ f.ebits := Nat.mod_lt _ (Nat.two_pow_pos _)
  have hm : x % 2 ^ f.mbits < 2 ^ f.mbits := Nat.mod_lt _ (Nat.two_pow_pos _)
  revert hn
  simp only [flDecode]
  generalize x / 2 ^ f.mbits % 2 ^ f.ebits = e at *
  generalize x % 2 ^ f.mbits = m at *
  split
  next h0 =>
    split
    next hm0 =>
      intro _
      simp [flEncode, h0.1, h0.2, hm0]
    next => exact fun h => absurd rfl h
  next h0 =>
    split
    next => exact fun h => absurd rfl h
    next h1 =>
      have hmax := fields_le_flMax he hm h0 h1
      split
      next hsub =>
        subst hsub
        rw [Nat.zero_mul, Nat.zero_add] at hmax ⊢
        intro _
        by_cases hm0 : m = 0
        · simp [flEncode, hm0]
        · refine flEncode_exact hm0 (flRound_exact hm0 ?_ ?_ (.inr ?_)) (if_pos hm) hmax
          · exact Nat.lt_trans hm (Nat.pow_lt_pow_succ (by decide))
          · omega
          · omega
      next hnorm =>
        intro _
        have hge : 2 ^ f.mbits ≤ 2 ^ f.mbits + m := Nat.le_add_right ..
        have hne : 2 ^ f.mbits + m ≠ 0 := by
          have := Nat.two_pow_pos f.mbits
          omega
        refine flEncode_exact hne (flRound_exact hne ?_ ?_ (.inl hge)) ?_ hmax
        · rw [Nat.pow_succ]
          omega
        · omega
        · have hexp : (e : Int) - f.bias - f.mbits + f.mbits + f.bias - 1 = e - 1 := by omega
          rw [if_neg (Nat.not_lt.2 hge), hexp, Int.sub_mul]
          push_cast
          omega

end

/-! ## Results rounded to binary32 -/

/-- A finite value encodes as its sign beside a magnitude that is finite or that of infinity (R43). -/
theorem flEncode_fin (f : FlFmt) (sat neg : Bool) (m : Nat) (e : Int) :
    ∃ n, flEncode f sat (.fin neg m e) = b2n neg * 2 ^ (f.ebits + f.mbits) + n ∧
      (n ≤ flMax f ∨ n = (2 ^ f.ebits - 1) * 2 ^ f.mbits) := by
  simp only [flEncode]
  split
  · exact ⟨0, rfl, .inl (Nat.zero_le _)⟩
  · generalize (if (flRound f.mbits (1 - (f.bias : Int)) m e).1 < 2 ^ f.mbits then _ else _ : Int) = body
    split
    next hle => exact ⟨_, rfl, .inl (Int.toNat_le.2 hle)⟩
    next =>
      split
      · exact ⟨_, rfl, .inl (Nat.le_refl _)⟩
      · exact ⟨_, rfl, .inr rfl⟩

/-- A NaN of a layout with infinities has the top exponent and a fraction (Table NUM-2). -/
theorem flDecode_nan {f : FlFmt} {x : Nat} (hf : f.special = 0) (h : flDecode f x = .nan) :
    x / 2 ^ f.mbits % 2 ^ f.ebits = 2 ^ f.ebits - 1 ∧ x % 2 ^ f.mbits ≠ 0 := by
  simp only [flDecode] at h
  split at h
  next htop =>
    split at h
    next => exact absurd h (by simp)
    next hm => exact ⟨htop.2, hm⟩
  next =>
    rw [if_neg (by simp [hf])] at h
    split at h <;> exact absurd h (by simp)

/-- A sign beside no more than the magnitude of infinity is no NaN. -/
theorem of32_ne_nan {neg : Bool} {n : Nat} (hn : n ≤ 255 * 2 ^ 23) : of32 (b2n neg * 2 ^ 31 + n) ≠ .nan := by
  intro h
  obtain ⟨htop, hm⟩ : (b2n neg * 2 ^ 31 + n) / 2 ^ 23 % 2 ^ 8 = 2 ^ 8 - 1 ∧ (b2n neg * 2 ^ 31 + n) % 2 ^ 23 ≠ 0 :=
    flDecode_nan (f := fmt32) rfl h
  have hsign : b2n neg < 2 := by cases neg <;> decide
  omega

/-- A value encoded in binary32 is no NaN, or is the canonical one (R44). -/
theorem of32_to32 (v : Fl) : of32 (to32 v) ≠ .nan ∨ to32 v = 0x7FC00000 := by
  cases v with
  | nan => exact .inr rfl
  | inf neg => exact .inl (of32_ne_nan (Nat.le_refl _))
  | fin neg m e =>
    obtain ⟨n, he, hn⟩ := flEncode_fin fmt32 false neg m e
    rw [to32, he]
    exact .inl (of32_ne_nan (hn.elim (fun h => Nat.le_trans h (by decide)) Nat.le_of_eq))

/-! ## Sums -/

/-- The exact sum is the same whichever addend comes first (R53). -/
theorem flAdd_comm (x y : Fl) : flAdd x y = flAdd y x := by
  cases x with
  | nan => cases y <;> rfl
  | inf a =>
    cases y with
    | nan => rfl
    | inf b => cases a <;> cases b <;> rfl
    | fin b n f => rfl
  | fin a m e =>
    cases y with
    | nan => rfl
    | inf b => rfl
    | fin b n f =>
      have hlo : (if e ≤ f then e else f) = if f ≤ e then f else e := by split <;> split <;> omega
      simp only [flAdd, hlo, Int.add_comm (flInt a m e _)]
      congr 1
      simp only [Bool.and_assoc, Bool.and_comm (decide (m = 0)), Bool.and_left_comm a b]

/-! ## Integer passes -/

section

variable (fx fw y : Nat) {es fs : List (Nat × Nat)}

/-- The exact sum of a pass's products. -/
def productSum (fx fw : Nat) (es : List (Nat × Nat)) : Int := (es.map fun e => elemInt fx e.1 * elemInt fw e.2).sum

/-- An integer pass is the carried value plus the exact products, modulo 2^32 (R51). -/
theorem dotInt_eq : (dotInt fx fw y es : Int) = ((y : Int) + productSum fx fw es) % 2 ^ 32 := by
  have hsum : ∀ (t : Int), es.foldl (fun (t : Int) e => t + elemInt fx e.1 * elemInt fw e.2) t = t + productSum fx fw es := by
    induction es with
    | nil => exact fun t => (Int.add_zero t).symm
    | cons e es ih =>
      intro t
      rw [List.foldl_cons, ih, productSum, productSum, List.map_cons, List.sum_cons, Int.add_assoc]
  rw [dotInt, hsum, Int.toNat_of_nonneg (Int.emod_nonneg _ (by decide))]

theorem productSum_append : productSum fx fw (es ++ fs) = productSum fx fw es + productSum fx fw fs := by
  rw [productSum, List.map_append, List.sum_append]
  rfl

/-- A pass may be cut anywhere into two. -/
theorem dotInt_append : dotInt fx fw y (es ++ fs) = dotInt fx fw (dotInt fx fw y es) fs := by
  apply Int.ofNat_inj.1
  rw [dotInt_eq, dotInt_eq, dotInt_eq, productSum_append, Int.emod_add_emod, Int.add_assoc]

/-- The order of a pass's products does not matter. -/
theorem dotInt_perm (h : es.Perm fs) : dotInt fx fw y es = dotInt fx fw y fs := by
  rw [dotInt, dotInt, h.foldl_eq' fun _ _ _ _ _ => Int.add_right_comm ..]

end

/-- Settles O60: every layout's encodings come back from their values, sums commute, and a pass is a sum modulo 2^32. -/
theorem arithmeticRoundsOnce : Obligations.ArithmeticRoundsOnce :=
  ⟨fun _ _ sat _ hx => ⟨flEncode_flDecode sat hx, fun hn => by rw [hn]; rfl⟩,
    fun x y => ⟨congrArg to32 (flAdd_comm ..), congrArg (flEncode fmtBf16 false) (flAdd_comm ..)⟩,
    fun fx fw y _ => dotInt_eq fx fw y, fun fx fw y _ _ => dotInt_append fx fw y, fun fx fw y _ _ => dotInt_perm fx fw y⟩

end Sys2Proof.Machine
end

section
/-! SUPPORT. The instructions of the cores that compute in their group (R44, R48, R49, R55, R175, R197 to R199, O51): bits of
a number, registers after writes to many places, and one lemma for each class. -/

namespace Sys2Proof.Machine

/-! ## Bits of a number -/

theorem bit_eq_testBit (x i : Nat) : bit x i = x.testBit i := Nat.testBit_eq_decide_div_mod_eq.symm

/-- Where bit `i` is clear, adding 2^i sets it and no other. -/
theorem testBit_add_two_pow {x i : Nat} (h : x.testBit i = false) (j : Nat) :
    (x + 2 ^ i).testBit j = (decide (j = i) || x.testBit j) := by
  rcases Nat.lt_trichotomy j i with hj | rfl | hj
  · rw [Nat.add_comm, Nat.testBit_two_pow_add_gt hj]
    simp [Nat.ne_of_lt hj]
  · rw [Nat.add_comm, Nat.testBit_two_pow_add_eq, h]
    simp
  · have hdiv : (x + 2 ^ i) / 2 ^ (i + 1) = x / 2 ^ (i + 1) := by
      have hbit : x / 2 ^ i % 2 = 0 := by simpa [Nat.testBit_eq_decide_div_mod_eq] using h
      rw [Nat.pow_succ, ← Nat.div_div_eq_div_mul, ← Nat.div_div_eq_div_mul, Nat.add_div_right _ (Nat.two_pow_pos i)]
      omega
    have hhigh (y : Nat) : y.testBit j = (y / 2 ^ (i + 1)).testBit (j - (i + 1)) := by
      rw [Nat.testBit_div_two_pow, Nat.sub_add_cancel hj]
    rw [hhigh, hdiv, ← hhigh]
    simp [Nat.ne_of_gt hj]

theorem testBit_setBit (x i j : Nat) : (setBit x i).testBit j = (decide (j = i) || x.testBit j) := by
  unfold setBit
  rw [bit_eq_testBit]
  split
  next h =>
    by_cases hj : j = i
    · simp [hj, h]
    · simp [hj]
  next h => exact testBit_add_two_pow (eq_false_of_ne_true h) j

theorem testBit_clearBit (x i j : Nat) : (clearBit x i).testBit j = (!decide (j = i) && x.testBit j) := by
  unfold clearBit
  rw [bit_eq_testBit]
  split
  next h =>
    obtain ⟨y, rfl⟩ := Nat.exists_eq_add_of_le' (Nat.ge_two_pow_of_testBit h)
    have hy : y.testBit i = false := by simpa [Nat.add_comm y, Nat.testBit_two_pow_add_eq] using h
    rw [Nat.add_sub_cancel, testBit_add_two_pow hy]
    by_cases hj : j = i
    · simp [hj, hy]
    · simp [hj]
  next h =>
    by_cases hj : j = i
    · simp [hj, h]
    · simp [hj]

/-- The bits of the number whose set bits are listed. -/
theorem testBit_ofBits (l : List Nat) (j : Nat) : (ofBits l).testBit j = decide (j ∈ l) := by
  have hfold (x : Nat) : (l.foldl setBit x).testBit j = (decide (j ∈ l) || x.testBit j) := by
    induction l generalizing x with
    | nil => simp
    | cons i l ih =>
      rw [List.foldl_cons, ih, testBit_setBit]
      simp [Bool.or_left_comm, Bool.or_assoc]
  have h := hfold 0
  rwa [Nat.zero_testBit, Bool.or_false] at h

/-! ## Registers -/

section

variable {x : Group} {w : W64}

theorem wD_lt (w : W64) : wD w < 64 := Nat.mod_lt _ (by decide)

theorem mem_lanesOf {l : Nat} : l ∈ lanesOf x w ↔ l < 32 ∧ (actsOn x w).getLsbD l = true := by
  rw [lanesOf, setBits, List.mem_filter, List.mem_range, bit_eq_testBit, BitVec.testBit_toNat]

/-- A vector register in a lane after a write to one (R175). -/
theorem vGet_vSet {r q l k : Nat} {v : W32} (hl : l < 32) (hk : k < 32) :
    vGet (vSet x r l v) q k = if q % 64 = r % 64 ∧ k = l then v else vGet x q k := by
  unfold vGet vSet
  split
  next h => rw [h.1, h.2, tget_tset_same]
  next h => exact tget_tset_other (by omega)

/-- Vector registers written at listed places, each a register and a lane. -/
def writePlaces (places : List (Nat × Nat)) (value : Nat → Nat → W32) (x : Group) : Group :=
  places.foldl (fun y p => vSet y p.1 p.2 (value p.1 p.2)) x

variable {places : List (Nat × Nat)} {value : Nat → Nat → W32}

theorem writePlaces_cons {p : Nat × Nat} :
    writePlaces (p :: places) value x = writePlaces places value (vSet x p.1 p.2 (value p.1 p.2)) := rfl

/-- Such a write changes vector registers, whose parity is then right, and nothing else. -/
theorem writePlaces_frame : writePlaces places value x = { x with
    v := (writePlaces places value x).v
    odd := x.odd.filter fun k => places.all fun p => k ≠ 32 * (p.1 % 64) + p.2 } := by
  induction places generalizing x with
  | nil =>
    have hodd : x.odd.filter (fun k => ([] : List (Nat × Nat)).all fun p => k ≠ 32 * (p.1 % 64) + p.2) = x.odd :=
      List.filter_eq_self.2 fun _ _ => rfl
    rw [hodd]
    rfl
  | cons p places ih =>
    rw [writePlaces_cons]
    conv => lhs; rw [ih]
    simp [vSet, List.filter_filter, Bool.and_comm]

theorem vGet_writePlaces {q k : Nat} (hplaces : ∀ p ∈ places, p.1 < 64 ∧ p.2 < 32) (hq : q < 64) (hk : k < 32) :
    vGet (writePlaces places value x) q k = if (q, k) ∈ places then value q k else vGet x q k := by
  induction places generalizing x with
  | nil => rfl
  | cons p places ih =>
    obtain ⟨⟨hr, hl⟩, hrest⟩ := List.forall_mem_cons.1 hplaces
    rw [writePlaces_cons, ih hrest, vGet_vSet hl hk, Nat.mod_eq_of_lt hq, Nat.mod_eq_of_lt hr]
    by_cases hmem : (q, k) ∈ places
    · simp [hmem]
    · by_cases hp : q = p.1 ∧ k = p.2
      · simp [hp]
      · rw [if_neg hmem, if_neg hp, if_neg (by simp [hmem, Prod.ext_iff, hp])]

/-! ## What the classes write -/

theorem vectorWrite_eq (result : Nat → W32) :
    vectorWrite w result x = writePlaces ((lanesOf x w).map fun l => (wD w, l)) (fun _ => result) x := by
  rw [writePlaces, List.foldl_map]
  rfl

/-- A vector write leaves D written in the lanes acted on, and nothing else (R175). -/
theorem lanesWritten_vectorWrite (result : Nat → W32) : LanesWritten x w result (nextPc (vectorWrite w result x)) := by
  have hplaces : ∀ p ∈ (lanesOf x w).map fun l => (wD w, l), p.1 < 64 ∧ p.2 < 32 := by
    intro p hp
    obtain ⟨l, hl, rfl⟩ := List.mem_map.1 hp
    exact ⟨wD_lt w, (mem_lanesOf.1 hl).1⟩
  rw [vectorWrite_eq]
  refine ⟨?frame, fun r hr l hl => ?value⟩
  case frame =>
    conv => lhs; rw [writePlaces_frame]
    simp [nextPc, List.all_map, Function.comp_def, Nat.mod_eq_of_lt (wD_lt w)]
  case value =>
    refine (vGet_writePlaces hplaces hr hl).trans (ite_congr (propext ?_) (fun _ => rfl) fun _ => rfl)
    rw [List.mem_map]
    constructor
    · rintro ⟨k, hk, he⟩
      obtain ⟨rfl, rfl⟩ := Prod.mk.inj he
      exact ⟨rfl, hk⟩
    · rintro ⟨rfl, hk⟩
      exact ⟨l, hk, rfl⟩

/-- Bit `l` of D after a compare (Table TGC-5). -/
theorem compareWrite_bit {l : Nat} (hl : l < 32) : (pGet (compareWrite w x) (wD w)).getLsbD l =
    if l ∈ lanesOf x w then Config.compareResult w (laneOperands x w l) else (pGet x (wD w)).getLsbD l := by
  have hacts : (actsOn x w).getLsbD l = decide (l ∈ lanesOf x w) := by simp [mem_lanesOf, hl]
  rw [pGet, compareWrite, tget_tset_same, BitVec.getLsbD_or, BitVec.getLsbD_and, BitVec.getLsbD_not, hacts,
    BitVec.getLsbD_ofNat, testBit_ofBits]
  by_cases hm : l ∈ lanesOf x w <;> simp [hm, hl]

theorem compareWrite_other {r : Nat} (hr : r < 8) (hne : r ≠ wD w % 8) : pGet (compareWrite w x) r = pGet x r :=
  tget_tset_other (by rwa [Nat.mod_eq_of_lt hr])

/-- GSTAT after MMA_DIV is set to a value. -/
theorem setDiv_bit (c : Bool) {b : Nat} (hb : b < 64) :
    (setDiv x c).gstat.getLsbD b = if b = gstatDiv then c else x.gstat.getLsbD b := by
  rw [setDiv, BitVec.getLsbD_ofNat, decide_eq_true hb, Bool.true_and]
  cases c with
  | false =>
    rw [if_neg Bool.false_ne_true, testBit_clearBit, BitVec.testBit_toNat]
    by_cases h : b = gstatDiv <;> simp [h]
  | true =>
    rw [if_pos rfl, testBit_setBit, BitVec.testBit_toNat]
    by_cases h : b = gstatDiv <;> simp [h]

end

/-! ## GMMA (R197 to R199) -/

section

variable {x : Group} {w : W64}

/-- The places of the elements of D that a GMMA writes: element (i, j) stands in register D + j / 4, lane 4 i + j % 4. -/
def gmmaPlaces (x : Group) (w : W64) : List (Nat × Nat) :=
  (((List.range 8).flatMap fun i => (List.range 8).map fun j => (i, j)).filter fun ij =>
    bit (actsOn x w).toNat (4 * ij.1 + ij.2 % 4)).map fun ij => (wD w + ij.2 / 4, 4 * ij.1 + ij.2 % 4)

/-- What a GMMA writes at register `q`, lane `k`. -/
def gmmaValue (x : Group) (w : W64) (q k : Nat) : W32 :=
  BitVec.ofNat 32 (gmmaOut x w (actsOn x w).toNat (k / 4) (4 * (q - wD w) + k % 4))

theorem mem_gmmaPlaces {q k : Nat} :
    (q, k) ∈ gmmaPlaces x w ↔ (q = wD w ∨ q = wD w + 1) ∧ k ∈ lanesOf x w := by
  simp only [gmmaPlaces, mem_lanesOf, List.mem_map, List.mem_filter, List.mem_flatMap, List.mem_range, bit_eq_testBit,
    BitVec.testBit_toNat]
  constructor
  · rintro ⟨_, ⟨⟨i, hi, j, hj, rfl⟩, hact⟩, he⟩
    obtain ⟨rfl, rfl⟩ := Prod.mk.inj he
    exact ⟨by omega, by omega, hact⟩
  · rintro ⟨hq, hk, hact⟩
    have hlane : 4 * (k / 4) + (4 * (q - wD w) + k % 4) % 4 = k := by omega
    refine ⟨(k / 4, 4 * (q - wD w) + k % 4), ⟨⟨k / 4, by omega, _, by omega, rfl⟩, ?_⟩, ?_⟩
    · rwa [hlane]
    · rw [hlane]
      exact Prod.ext (by omega) rfl

theorem gmmaValue_element {i j : Nat} (hj : j < 8) :
    gmmaValue x w (wD w + j / 4) (4 * i + j % 4) = BitVec.ofNat 32 (gmmaOut x w (actsOn x w).toNat i j) := by
  have hi : (4 * i + j % 4) / 4 = i := by omega
  have hj : 4 * (wD w + j / 4 - wD w) + (4 * i + j % 4) % 4 = j := by omega
  rw [gmmaValue, hi, hj]

/-- A GMMA writes the elements of its lanes, and sets MMA_DIV where a lane is absent. -/
theorem gmmaWrite_eq : gmmaWrite w x = if actsOn x w = ~~~(0 : W32) then writePlaces (gmmaPlaces x w) (gmmaValue x w) x
    else setDiv (writePlaces (gmmaPlaces x w) (gmmaValue x w) x) true := by
  have hfull : (actsOn x w).toNat = 2 ^ 32 - 1 ↔ actsOn x w = ~~~(0 : W32) := BitVec.toNat_inj (y := ~~~(0 : W32))
  unfold gmmaWrite writePlaces gmmaPlaces
  rw [List.foldl_map, List.foldl_filter]
  refine ite_congr (propext hfull) (fun _ => ?_) fun _ => congrArg (setDiv · true) ?_
  all_goals
    refine List.foldl_rel (r := Eq) rfl fun ij hij y z hyz => ?_
    subst hyz
    obtain ⟨i, -, hi⟩ := List.mem_flatMap.1 hij
    obtain ⟨j, hj, rfl⟩ := List.mem_map.1 hi
    rw [gmmaValue_element (List.mem_range.1 hj)]

/-- A legal GMMA's D is even, so both of its registers are in the file (R197). -/
theorem wD_succ_lt (hlegal : wordLegal w = true) (hcls : wClass w = .gmma) : wD w + 1 < 64 := by
  have heven : wD w % 2 = 0 := by
    simp only [wordLegal, hcls, gmmaOk, Bool.and_eq_true, decide_eq_true_eq] at hlegal
    obtain ⟨-, ⟨⟨heven, -⟩, -⟩, -⟩ := hlegal
    exact heven
  have := wD_lt w
  omega

/-- The vector registers after a GMMA. -/
theorem vGet_gmmaWrite (hD : wD w + 1 < 64) {q k : Nat} (hq : q < 64) (hk : k < 32) :
    vGet (gmmaWrite w x) q k =
      if (q = wD w ∨ q = wD w + 1) ∧ k ∈ lanesOf x w then gmmaValue x w q k else vGet x q k := by
  have hplaces : ∀ p ∈ gmmaPlaces x w, p.1 < 64 ∧ p.2 < 32 := by
    rintro ⟨r, l⟩ hp
    obtain ⟨hr, hl⟩ := mem_gmmaPlaces.1 hp
    exact ⟨by omega, (mem_lanesOf.1 hl).1⟩
  have hdiv (y : Group) : vGet (setDiv y true) q k = vGet y q k := rfl
  rw [gmmaWrite_eq, apply_ite (vGet · q k), hdiv, ite_self, vGet_writePlaces hplaces hq hk]
  exact ite_congr (propext mem_gmmaPlaces) (fun _ => rfl) fun _ => rfl

/-- A GMMA changes vector registers and GSTAT, and no register's parity becomes wrong. -/
theorem gmmaWrite_frame : gmmaWrite w x =
      { x with v := (gmmaWrite w x).v, gstat := (gmmaWrite w x).gstat, odd := (gmmaWrite w x).odd } ∧
    ∀ k ∈ (gmmaWrite w x).odd, k ∈ x.odd := by
  rw [gmmaWrite_eq, writePlaces_frame]
  split
  · exact ⟨rfl, fun _ hk => (List.mem_filter.1 hk).1⟩
  · exact ⟨rfl, fun _ hk => (List.mem_filter.1 hk).1⟩

/-- GSTAT after a GMMA (R199). -/
theorem gmmaWrite_gstat : (gmmaWrite w x).gstat = if actsOn x w = ~~~(0 : W32) then x.gstat else (setDiv x true).gstat := by
  rw [gmmaWrite_eq, writePlaces_frame]
  split <;> rfl

end

/-! ## Instructions that change only their group -/

section

variable {s : State} {g : GroupRef}

theorem groupKey_inj {g h : GroupRef} (hk : groupKey g.stall g.core g.slot = groupKey h.stall h.core h.slot) : g = h := by
  obtain ⟨⟨a, ha⟩, ⟨b, hb⟩, ⟨c, hc⟩⟩ := g
  obtain ⟨⟨d, hd⟩, ⟨e, he⟩, ⟨k, hk'⟩⟩ := h
  simp only [groupKey] at hk
  obtain ⟨rfl, rfl, rfl⟩ : a = d ∧ b = e ∧ c = k := by omega
  rfl

theorem group_modGroup_other {h : GroupRef} (f : Group → Group) (hne : h ≠ g) : (s.modGroup g f).group h = s.group h :=
  tget_tmod_other fun hk => hne (groupKey_inj hk)

theorem modGroup_groupOnly (f : Group → Group) : GroupOnly s (s.modGroup g f) g :=
  ⟨rfl, fun _ hne => group_modGroup_other f hne⟩

theorem mayIssue_live (h : mayIssue s g = true) : (s.group g).live = true := by
  simp only [mayIssue, Bool.and_eq_true] at h
  obtain ⟨⟨⟨⟨⟨⟨⟨hlive, -⟩, -⟩, -⟩, -⟩, -⟩, -⟩, -⟩ := h
  exact hlive

/-- An instruction whose step is one of its group goes on with its group changed so, and leaves all else. -/
theorem instruction_stepGroup {c : GroupRef → W64 → Instr} {k : OpClass} {f : W64 → Group → Group}
    {post : State → GroupRef → W64 → State → Prop}
    (hx : ∀ g w s, exec (c g w) s = issue g w k (fun s => stepGroup s g (f w)) s)
    (hp : ∀ s g w t, wordLegal w = true → wClass w = k → GroupOnly s t g → t.group g = nextPc (f w (s.group g)) →
      post s g w t) :
    Instruction c k (fun _ _ => True) post := by
  intro g w s s' h _
  refine ⟨_, (hx g w s).trans (issue_fetched h), ?_⟩
  rw [stepGroup, if_pos (mayIssue_live h.still)]
  exact hp _ _ _ _ h.legal h.cls (modGroup_groupOnly _) (group_modGroup_same ..)

end

/-! ## The statement -/

/-- Settles O51: each class changes its group alone (`instruction_stepGroup`), and a floating-point result is one `to32`. -/
theorem instructionsComputeInTheirGroup : Obligations.InstructionsComputeInTheirGroup := by
  refine ⟨?lanes, ?nan, ?float, ?compare, ?uniform, ?sreg, ?clrf, ?gmma⟩
  case lanes =>
    intro e he
    simp only [List.mem_cons, List.not_mem_nil, or_false] at he
    rcases he with rfl | rfl | rfl
    all_goals
      refine instruction_stepGroup (fun _ _ _ => rfl) fun s g w t _ _ hgroup hx => ⟨hgroup, ?_⟩
      rw [hx]
      exact lanesWritten_vectorWrite _
  case nan => exact fun w xs => of32_to32 _
  case float =>
    intro w a b c r
    rw [floatResult]
    cases Config.floatOp w <;> rfl
  case compare =>
    refine instruction_stepGroup (f := compareWrite) (fun _ _ _ => rfl) fun s g w t _ _ hgroup hx => ?_
    rw [hx]
    exact ⟨hgroup, rfl, fun _ hr hne => compareWrite_other hr hne, fun _ hl => compareWrite_bit hl⟩
  case uniform =>
    refine instruction_stepGroup (f := uniformWrite) (fun _ _ _ => rfl) fun s g w t _ _ hgroup hx => ⟨hgroup, ?_⟩
    rw [hx, uniformWrite]
    split
    · exact lanesWritten_vectorWrite _
    · rfl
  case sreg => exact instruction_stepGroup (fun _ _ _ => rfl) fun s g w t _ _ hgroup hx => ⟨hgroup, hx⟩
  case clrf =>
    refine instruction_stepGroup (f := fun _ x => setDiv x false) (fun _ _ _ => rfl) fun s g w t _ _ hgroup hx => ?_
    rw [hx]
    exact ⟨hgroup, rfl, setDiv_bit false (by decide), fun _ hb hne => (setDiv_bit false hb).trans (if_neg hne)⟩
  case gmma =>
    refine instruction_stepGroup (f := gmmaWrite) (fun _ _ _ => rfl) fun s g w t hlegal hcls hgroup hx => ?_
    have hD := wD_succ_lt hlegal hcls
    obtain ⟨hframe, hodd⟩ := gmmaWrite_frame (x := s.group g) (w := w)
    rw [hx]
    refine ⟨hgroup, congrArg nextPc hframe, hodd, fun i hi j hj => ?element, fun r hr h0 h1 l hl => ?frame,
      fun hacts => ?div, fun b hb hne => ?bits, fun hacts => ?full⟩
    case element =>
      refine (vGet_gmmaWrite hD (by omega) (by omega)).trans (ite_congr (propext ?_) (fun _ => gmmaValue_element hj) fun _ => rfl)
      exact and_iff_right (by omega)
    case frame => exact (vGet_gmmaWrite hD hr hl).trans (if_neg fun h => h.1.elim h0 h1)
    case div =>
      exact (congrArg (BitVec.getLsbD · gstatDiv) (gmmaWrite_gstat.trans (if_neg hacts))).trans (setDiv_bit true (by decide))
    case bits =>
      refine (congrArg (BitVec.getLsbD · b) gmmaWrite_gstat).trans ?_
      split
      · rfl
      · exact (setDiv_bit true hb).trans (if_neg hne)
    case full => exact gmmaWrite_gstat.trans (if_pos hacts)

end Sys2Proof.Machine
end

section
/-! SUPPORT. The statements of the matrix-engine family, and what their events do: ownership and keys (R86, R432 to R442,
O18), JTAG and the trace (R94, R446, R517 to R522, O48), and weight lines, cycles of a domain and bells (R79 to R83, R118 to
R159, R298 to R341, O55). -/

namespace Sys2Proof.Machine

/-! ## OWNER_PROVISION -/

section

variable {s t : State}

theorem PortOnly.ownerKey (h : PortOnly s t) : t.sec.ownerKey = s.sec.ownerKey := by rw [h]

theorem PortOnly.sessions (h : PortOnly s t) : t.sec.sessions = s.sec.sessions := by rw [h]

variable (s)

theorem endSession_ownerKey (n : Fin 4) : (endSession s n).sec.ownerKey = s.sec.ownerKey := rfl

/-- The end of every session leaves the owner key alone. -/
theorem endSessions_ownerKey : (endSessions s).sec.ownerKey = s.sec.ownerKey :=
  foldl_related (R := fun s t => t.sec.ownerKey = s.sec.ownerKey) (fun _ => rfl) (fun _ _ _ h g => g.trans h)
    endSession_ownerKey (List.finRange 4) s

/-- A fold of session ends leaves closed what it lists and what was closed. -/
theorem foldl_endSession_closed (l : List (Fin 4)) {n : Nat} (h : (∃ m ∈ l, m.val = n) ∨ tget s.sec.sessions n = false) :
    tget (l.foldl endSession s).sec.sessions n = false := by
  induction l generalizing s with
  | nil => simpa using h
  | cons m l ih =>
    refine ih _ ?_
    by_cases hn : n = m.val
    · subst hn
      exact .inr tget_tset_same
    · refine h.imp (fun ⟨k, hk, he⟩ => ⟨k, ?_, he⟩) fun hc => (tget_tset_other hn).trans hc
      exact (List.mem_cons.1 hk).resolve_left fun hm => hn (by rw [← he, hm])

/-- The end of every session leaves none open (R433). -/
theorem endSessions_closed {n : Nat} (hn : n < 4) : tget (endSessions s).sec.sessions n = false :=
  foldl_endSession_closed s _ (.inl ⟨⟨n, hn⟩, List.mem_finRange _, rfl⟩)

end

section

variable {s : State} {k : Packet}

/-- A reply over a state in which an owner is set and every session has ended. -/
theorem owner_replaced (o : Option (BitVec 512)) :
    let t := replyNow (endSessions (setOwner s o)) k Status.ok 0 0 []
    t.sec.ownerKey = o ∧ ∀ n < 4, tget t.sec.sessions n = false := by
  refine ⟨?_, fun n hn => ?_⟩
  · rw [replyNow_portOnly.ownerKey, endSessions_ownerKey, setOwner]
  · rw [replyNow_portOnly.sessions, endSessions_closed _ hn]

end

/-- Settles O18: the bodies of the packets, in which every session's end closes it and leaves the owner key. -/
theorem ownerAndKeyPacketsActOnTheirSecrets : Obligations.OwnerAndKeyPacketsActOnTheirSecrets := by
  refine ⟨?take, ?transfer, ?release, ?attest, ?install, ?purge⟩
  case take =>
    refine completes_reply (fun _ _ => rfl) ?_ ?_
    · rintro s k hop ⟨hact, -⟩
      simp [hop, hact]
    · rintro s k - ⟨hact, hlen, hfree, hcurve⟩
      have hparam : k.param 0 = 0 := by simp [Packet.param, hact]
      rw [if_neg (by simp [hparam]), if_neg (by simp [hlen]), if_neg (by simp [hfree]), if_neg (by simp [hcurve])]
      rfl
  case transfer =>
    refine completes_reply (fun _ _ => rfl) ?_ ?_
    · rintro s k hop ⟨hact, -⟩
      simp [hop, hact]
    · rintro s k - ⟨-, hlen, hcurve⟩
      rw [if_neg (by simp [hlen]), if_neg (by simp [hcurve])]
      exact ⟨rfl, owner_replaced _⟩
  case release =>
    refine completes_reply (fun _ _ => rfl) ?_ ?_
    · rintro s k hop ⟨hact, -⟩
      simp [hop, hact]
    · rintro s k - ⟨-, hlen, hnone⟩
      rw [if_neg (by simp [hlen]), if_neg (by simp [hnone])]
      exact ⟨rfl, owner_replaced _⟩
  case attest =>
    refine completes_reply (fun _ _ => rfl) (fun _ _ hop _ => decide_eq_true hop) ?_
    rintro s k - ⟨hout, halias⟩
    rw [if_neg (by simp [hout]), if_neg (by simp [halias])]
    rfl
  case install =>
    refine completes_reply (fun _ _ => rfl) (fun _ _ hop _ => decide_eq_true hop) ?_
    rintro s k - ⟨hslot, a, hash, z, hev⟩
    refine ⟨a, hash, z, hev, ?_⟩
    rw [if_neg (Nat.not_le.2 hslot), installKey, hev]
    simp only
    cases unwrapKey hash z ((k.paramBytes 1).take 16) ((k.paramBytes 5).take 48) <;> rfl
  case purge =>
    refine completes_reply (fun _ _ => rfl) (fun _ _ hop _ => decide_eq_true hop) ?_
    intro s k _ hmask
    rw [if_neg (Nat.not_le.2 hmask)]
    rfl

/-! ## JTAG -/

section

variable {s : State}

/-- What a chain shifts out draws one free value and changes nothing else. -/
theorem shiftOut_frame (s : State) (code : Byte) : (shiftOut s code).jtag.instruction = code ∧
    shiftOut s code = { s with jtag := (shiftOut s code).jtag, fresh := (shiftOut s code).fresh } := ⟨rfl, rfl⟩

theorem exec_extest_eq (s : State) :
    exec .extest s = .next (if partsOf s = [] then shiftOut s 0x00 else capture s 0x00 0) := by
  change execExtest s = _
  simp [execExtest, bypass]

theorem exec_debugRead_runs {a : BitVec 44} (h : hubRuns s = true) :
    exec (.debugRead a) s = .next (capture s 0x10 (BitVec.ofNat 64 (leNat (debugBytes s a.toNat)))) := by
  change execDebugRead a s = _
  rw [execDebugRead, if_pos h]

theorem debugBytes_lsm {a : Nat} (h : a < lsmTop) : debugBytes s a = readCommitted s a 8 := by
  have hregion : regionOf a = .lsm := if_pos h
  simp only [debugBytes, hregion]

theorem debugBytes_spad {a i o : Nat} (h : regionOf a = .spad i o) :
    debugBytes s a = (List.range 8).map fun j => spadRead s i (o + j) := by
  simp only [debugBytes, h]

/-- The scan of a stall that no partition has zeroes its two feeders and engines, and that stall only (R94). -/
theorem scanStall_unassigned {i : Nat} (h : ownerOfStall s i = none) : scanStall s i = s.modStall i fun x => { x with
    feederMxe := scanFeeder x.feederMxe, feederMvu := scanFeeder x.feederMvu
    mxe := zeroEngine x.mxe, mvu := zeroEngine x.mvu } := by
  unfold scanStall
  extract_lets x keys t
  have ht : ownerOfStall t i = none := h
  rw [ht]

theorem exec_stallScan_unassigned {i : Fin 64} (h : ownerOfStall s i = none) :
    exec (.stallScan i) s = .next (shiftOut (scanStall s i) 0x20) := by
  change execStallScan i s = _
  rw [execStallScan, h, Option.all_none, if_pos rfl]

theorem exec_counterSample_due {p : Fin 64} (hpresent : (s.part p).present = true) (hon : (s.part p).tally.sampleUs ≠ 0)
    (hdue : (s.part p).tally.sampledAt + 3300 * (s.part p).tally.sampleUs ≤ s.devTime) :
    exec (.counterSample p) s = .next (((List.range 32).foldl (sampleOne p) s).modPart p fun q =>
      { q with tally := { q.tally with sampledAt := s.devTime } }) := by
  change execCounterSample p s = _
  rw [execCounterSample, if_pos (by simp [sampleDue, hpresent, hon, hdue])]

theorem exec_hubScan_runs (h : hubRuns s = true) : exec .hubScan s = .next (shiftOut (scanHub s) 0x30) := by
  change execHubScan s = _
  rw [execHubScan, if_pos h]

end

/-! ### The hub scan -/

/-- `t` has the bytes of `s`, and no evidence that `s` lacks. -/
structure EvidenceOnlyLost (s t : State) : Prop where
  bytes : SameBytes s t
  lost : ∀ p, (s.part p).sec.evidence = none → (t.part p).sec.evidence = none

namespace EvidenceOnlyLost

variable {s t u : State}

theorem of_parts (hb : SameBytes s t) (hp : t.parts = s.parts) : EvidenceOnlyLost s t :=
  ⟨hb, fun p h => by rwa [State.part, hp]⟩

theorem refl (s : State) : EvidenceOnlyLost s s := of_parts ⟨rfl, rfl, rfl, rfl⟩ rfl

theorem trans (h : EvidenceOnlyLost s t) (g : EvidenceOnlyLost t u) : EvidenceOnlyLost s u :=
  ⟨h.bytes.trans g.bytes, fun p hp => g.lost p (h.lost p hp)⟩

theorem modPart {p : Nat} {f : Part → Part} (hf : ∀ q, q.sec.evidence = none → (f q).sec.evidence = none) :
    EvidenceOnlyLost s (s.modPart p f) := by
  refine ⟨⟨rfl, rfl, rfl, rfl⟩, fun r h => ?_⟩
  by_cases hr : r = p
  · subst hr
    rw [part_modPart_same]
    exact hf _ h
  · rwa [part_modPart_other _ _ hr]

theorem foldl {α : Type} {f : State → α → State} (hf : ∀ s x, EvidenceOnlyLost s (f s x)) (l : List α) (s : State) :
    EvidenceOnlyLost s (l.foldl f s) :=
  foldl_related refl (fun _ _ _ => trans) hf l s

end EvidenceOnlyLost

theorem purgeKeys_evidenceOnlyLost (s : State) (p mask : Nat) : EvidenceOnlyLost s (purgeKeys s p mask) := by
  unfold purgeKeys
  extract_lets t
  have ht : EvidenceOnlyLost s t := by
    refine .foldl (fun s i => ?_) _ s
    exact .of_parts ⟨rfl, rfl, rfl, rfl⟩ rfl
  exact ht.trans (.modPart fun _ h => h)

/-- The keys of a partition are purged and its evidence is dropped. -/
def purgeSecrets (s : State) (p : Nat) : State := dropEvidence (purgeKeys s p 0xFF) p

theorem purgeSecrets_evidenceOnlyLost (s : State) (p : Nat) : EvidenceOnlyLost s (purgeSecrets s p) :=
  (purgeKeys_evidenceOnlyLost s p _).trans (.modPart fun _ _ => rfl)

theorem purgeSecrets_evidence (s : State) (p : Nat) : ((purgeSecrets s p).part p).sec.evidence = none := by
  simp [purgeSecrets, dropEvidence]

theorem foldl_purgeSecrets_evidence {l : List Nat} {p : Nat} (hp : p ∈ l) (s : State) :
    ((l.foldl purgeSecrets s).part p).sec.evidence = none := by
  induction l generalizing s with
  | nil => exact nomatch hp
  | cons x l ih =>
    rcases List.mem_cons.1 hp with rfl | hl
    · exact (EvidenceOnlyLost.foldl purgeSecrets_evidenceOnlyLost l _).lost p (purgeSecrets_evidence s p)
    · exact ih hl _

/-- A hub scan while no job runs ends none: the secrets of every partition go, then the signing key (R446). -/
theorem scanHub_no_job {s : State} (h : ∀ p ∈ partsOf s, (s.part p).job.running = false) :
    scanHub s = { (partsOf s).foldl purgeSecrets s with
      sec := { ((partsOf s).foldl purgeSecrets s).sec with aliasValid := false, aliasKey := 0 } } := by
  have husers : (partsOf s).filter (usesKey s) = [] := List.filter_eq_nil_iff.2 fun p hp => by simp [usesKey, h p hp]
  unfold scanHub
  rw [husers]
  rfl

/-! ## Trace records -/

/-- `t` is `s` but for the trace and the shared resources. -/
def SharedOnly (s t : State) : Prop := t = { s with shared := t.shared }

section

variable {s t u : State}

theorem SharedOnly.trans (h : SharedOnly s t) (g : SharedOnly t u) : SharedOnly s u := by
  unfold SharedOnly at *
  rw [g, h]

/-- What such a state is once a partition has changed. -/
theorem SharedOnly.modPart {p : Nat} {f : Part → Part} (h : SharedOnly s t) :
    t.modPart p f = ({ s with shared := (t.modPart p f).shared }).modPart p f := by
  conv => lhs; rw [h]
  rfl

/-- A trace record changes nothing but the trace (R518, R519). -/
theorem trace_sharedOnly {type where' code tick : Nat} {p : Option Nat} {data : List Byte} :
    SharedOnly s (trace s type p where' code tick data) := by
  unfold trace
  split
  · cases p with
    | none => rfl
    | some p =>
      simp only
      split <;> rfl
  · rfl

theorem startTrace_sharedOnly : SharedOnly s (startTrace s) := by
  unfold startTrace
  extract_lets h
  split
  · rfl
  · split <;> rfl

theorem triggerEdge_sharedOnly : SharedOnly s (triggerEdge s) := by
  unfold triggerEdge
  extract_lets t u
  have ht : SharedOnly s t := by
    dsimp only [t]
    split
    · exact startTrace_sharedOnly
    · rfl
  have hu : SharedOnly s u := ht.trans trace_sharedOnly
  split
  · exact hu.trans rfl
  · exact hu

/-- The records of a counter sample, one for each class and quantity (R517). -/
theorem foldl_sampleOne_sharedOnly (p : Nat) (l : List Nat) (s : State) : SharedOnly s (l.foldl (sampleOne p) s) :=
  foldl_related (R := SharedOnly) (fun _ => rfl) (fun _ _ _ => .trans) (fun _ _ => trace_sharedOnly) l s

end

/-- Settles O48: one lemma for each JTAG instruction, and the frame of a trace record for samples and edges. -/
theorem jtagInstructionsAndTheTrace : Obligations.JtagInstructionsAndTheTrace := by
  refine ⟨?bypass, ?idcode, ?sample, ?extest, ?extestHeld, ?readLsm, ?readSpad, ?stallScan, ?hubScan, ?counter, ?trigger,
    ?unowned⟩
  case bypass => exact fun _ _ => ⟨_, rfl, rfl⟩
  case idcode => exact fun _ _ => ⟨_, rfl, rfl⟩
  case sample => exact fun s _ => ⟨_, rfl, shiftOut_frame s 0x02⟩
  case extest =>
    intro s hnone
    exact ⟨_, (exec_extest_eq s).trans (congrArg _ (if_pos hnone)), shiftOut_frame s 0x00⟩
  case extestHeld =>
    intro s hsome
    exact ⟨_, (exec_extest_eq s).trans (congrArg _ (if_neg hsome)), rfl⟩
  case readLsm =>
    intro a ha s hruns
    exact ⟨_, exec_debugRead_runs hruns, by rw [debugBytes_lsm ha, capture]⟩
  case readSpad =>
    intro a i o ha s hruns
    exact ⟨_, exec_debugRead_runs hruns, by rw [debugBytes_spad ha, capture]⟩
  case stallScan =>
    intro i s hfree
    refine ⟨_, exec_stallScan_unassigned hfree, ?_⟩
    rw [scanStall_unassigned hfree]
    have hstall (j : Nat) (f : Stall → Stall) : (shiftOut (s.modStall i f) 0x20).stall j = (s.modStall i f).stall j := rfl
    simp only [hstall, stall_modStall_same]
    exact ⟨rfl, rfl, rfl, fun j hj => stall_modStall_other _ _ (Fin.val_ne_of_ne hj), rfl⟩
  case hubScan =>
    rintro s ⟨hruns, hidle⟩
    refine ⟨_, exec_hubScan_runs hruns, ?_⟩
    rw [scanHub_no_job hidle]
    exact ⟨rfl, rfl, rfl, (EvidenceOnlyLost.foldl purgeSecrets_evidenceOnlyLost _ s).bytes,
      fun p hp => foldl_purgeSecrets_evidence hp s⟩
  case counter =>
    rintro p s ⟨hpresent, hon, hdue⟩
    exact ⟨_, exec_counterSample_due hpresent hon hdue, (foldl_sampleOne_sharedOnly p _ s).modPart⟩
  case trigger =>
    intro s howner
    have hexec : exec .syncIoEdge s = .next (triggerEdge s) := by
      change execSyncIoEdge s = _
      simp only [execSyncIoEdge, howner]
    exact ⟨_, hexec, triggerEdge_sharedOnly⟩
  case unowned =>
    intro s howner
    refine ⟨s, ?_, rfl⟩
    change execSyncIoEdge s = _
    simp only [execSyncIoEdge, howner]

/-! ## Weight lines and tags -/

section

variable {s u : State} {i : Fin 64} {m poisoned x : Bool} {p : Nat} {b : Block} {bs : List Byte}

/-- What the bytes of a due block's next line do (R79, R87, R549). -/
theorem exec_feederLineArrival_line (hp : epochPartOf s i = some p) (hb : blockDue (feederOf s i m) = some b)
    (hn : b.lines < 64) (hr : blockRead s p i b m (b.va + 1024 * b.lines) 1024 = (u, .data bs, x)) :
    exec (.feederLineArrival i m poisoned) s =
      .next (lineHere u p i m b bs (x || (poisoned && fromSite u p (b.va + 1024 * b.lines)))) := by
  change execFeederLineArrival i m poisoned s = _
  have htag : decide (64 ≤ b.lines) = false := decide_eq_false (Nat.not_le.2 hn)
  simp only [execFeederLineArrival, hp, hb, htag, Bool.false_eq_true, if_false, hr]

/-- What the bytes of a due block's tag do. -/
theorem exec_feederLineArrival_tag (hp : epochPartOf s i = some p) (hb : blockDue (feederOf s i m) = some b)
    (hn : 64 ≤ b.lines) (hr : blockRead s p i b m b.tagVa 16 = (u, .data bs, x)) :
    exec (.feederLineArrival i m poisoned) s = .next (setBlock u i m b { b with
      tag := bs, tagHere := true
      poisoned := b.poisoned || (x || (poisoned && fromSite u p (b.va + 1024 * b.lines))) }) := by
  change execFeederLineArrival i m poisoned s = _
  simp only [execFeederLineArrival, hp, hb, decide_eq_true hn, if_true, hr]

/-- A read of a scratchpad finds no wrong parity where there is none. -/
theorem checkSpad_clean {j o n : Nat} (h : s.spadOdd = []) : checkSpad s p j o n = s := by
  have hodd : oddOffsets s j o n = [] := by simp [oddOffsets, h]
  simp only [checkSpad, hodd]

/-- A line from the stall's own scratchpad is never poisoned, and its read changes nothing. -/
theorem blockRead_spad {j va n : Nat} (hb : b.source = 2) (h : s.spadOdd = []) : blockRead s p j b m va n =
    (s, .data ((List.range n).map fun o => spadRead s j (va + o)), false) := by
  rw [blockRead, if_pos hb, checkSpad_clean h]

/-- A line before the 64th only joins its block. -/
theorem lineHere_early {j : Nat} (hn : b.lines < 63) : lineHere s p j m b bs x = setBlock s j m b { b with
    lines := b.lines + 1, cipher := b.cipher ++ bs, poisoned := b.poisoned || x, verified := false, failed := false } := by
  have hlast : decide (b.lines + 1 = 64) = false := decide_eq_false (by omega)
  simp only [lineHere, hlast, Bool.false_and, Bool.false_eq_true, if_false]

theorem exec_tagCheck_due {fmt : Option Nat} (hp : epochPartOf s i = some p) (hb : tagDue (feederOf s i m) = some b)
    (hkey : (tget? (feederOf s i m).epochKeys b.slot).isSome = true)
    (hfmt : fmt = formatAt m b.scales (injections m (unitOps s p i m)) (blockPos (feederOf s i m) b)) :
    exec (.tagCheck i m) s = .next (if (!b.poisoned && tagRight (feederOf s i m) b fmt) = true then
      setBlock s i m b { b with verified := true, wait := 24 }
    else unitError (modFeeder (setBlock s i m b { b with failed := true }) i m
      fun f => { f with tagFails := satInc f.tagFails 65535 }) p Detail.weightTag (some i.val)) := by
  change execTagCheck i m s = _
  have hsome : (tget? (feederOf s i m).epochKeys b.slot).isNone = false := Option.isNone_eq_false_iff.2 hkey
  simp only [execTagCheck, hp, hb, hsome, Bool.false_eq_true, if_false, hfmt]

end

/-! ## Verdicts -/

section

variable {s : State} {i : Nat} {m pass : Bool} {n : Nat} {r : List (Bool × Nat)}

theorem modMunit_modMunit {f g : MUnit → MUnit} : modMunit (modMunit s i m f) i m g = modMunit s i m fun x => g (f x) := by
  simp only [modMunit, State.modStall, tmod_tmod_same]
  cases m <;> rfl

theorem ownerOfStall_modMunit {f : MUnit → MUnit} {j : Nat} : ownerOfStall (modMunit s i m f) j = ownerOfStall s j := rfl

/-- The oldest verdict of a unit leaves its list. -/
def verdictTaken (s : State) (i : Nat) (m : Bool) (r : List (Bool × Nat)) : State :=
  modMunit s i m fun x => { x with verdicts := r }

/-- A verdict that is due comes in, with the hardware error where there is one. -/
theorem verdict_due {error : Option EngineError} (h : (munitOf s i m).verdicts = (pass, n) :: r) :
    verdict s i m error = countParity (verdictIn (verdictTaken s i m r) i m (match error with
      | some e => some (errorDetail m e)
      | none => if pass then none else some (errorDetail m .checksum))) i error := by
  unfold verdict takeVerdict
  rw [h]
  rfl

/-- A failure at a stall of a partition is counted where it is one of a comparison, and marks the unit ERROR. -/
theorem verdictIn_failed {p d : Nat} (hp : ownerOfStall s i = some p) : verdictIn (verdictTaken s i m r) i m (some d) =
    unitError (modMunit s i m fun x =>
      { x with verdicts := r, fails := if countsFail d then satInc x.fails 255 else x.fails }) p d (some i) := by
  unfold verdictIn
  by_cases hd : countsFail d = true
  · simp only [hd, if_true, verdictTaken, modMunit_modMunit, ownerOfStall_modMunit, hp]
  · simp only [hd, Bool.false_eq_true, if_false, verdictTaken, ownerOfStall_modMunit, hp]

theorem verdict_passes (h : (munitOf s i m).verdicts = (true, n) :: r) :
    verdict s i m none = verdictTaken s i m r := by
  rw [verdict_due h]
  rfl

theorem verdict_fails {p : Nat} (h : (munitOf s i m).verdicts = (false, n) :: r) (hp : ownerOfStall s i = some p) :
    verdict s i m none = unitError (modMunit s i m fun x =>
      { x with verdicts := r, fails := satInc x.fails 255 }) p (errorDetail m .checksum) (some i) := by
  have hcounts : countsFail (errorDetail m .checksum) = true := by cases m <;> rfl
  refine (verdict_due h).trans ((verdictIn_failed hp).trans ?_)
  simp only [hcounts, if_true]

/-- Of the output residues only the MVU's is counted (R101, R116). -/
theorem verdict_outputResidue {p : Nat} (h : (munitOf s i m).verdicts = (pass, n) :: r) (hp : ownerOfStall s i = some p) :
    verdict s i m (some .outputResidue) = unitError (modMunit s i m fun x =>
      { x with verdicts := r, fails := if m then satInc x.fails 255 else x.fails }) p (errorDetail m .outputResidue) (some i) := by
  have hcounts : countsFail (errorDetail m .outputResidue) = m := by cases m <;> rfl
  refine (verdict_due h).trans ((verdictIn_failed hp).trans ?_)
  rw [hcounts]

/-- A carry parity error is not counted as a failure, and counts toward a fence (R510). -/
theorem verdict_carryParity {p : Nat} (h : (munitOf s i m).verdicts = (pass, n) :: r) (hp : ownerOfStall s i = some p) :
    verdict s i m (some .carryParity) =
      countFence (unitError (verdictTaken s i m r) p (errorDetail m .carryParity) (some i)) i := by
  have hcounts : countsFail (errorDetail m .carryParity) = false := by cases m <;> rfl
  refine (verdict_due h).trans ((congrArg (countFence · i) (verdictIn_failed hp)).trans ?_)
  simp only [hcounts, Bool.false_eq_true, if_false, verdictTaken]

/-- What the event of a unit's verdict does, by whether the verdict passes and what hardware error came with it. -/
theorem verdict_clauses {c : Instr} {error : Option EngineError} (hc : ∀ s, exec c s = .next (verdict s i m error))
    (h : (munitOf s i m).verdicts = (pass, n) :: r) :
    (pass = true → error = none → exec c s = .next (verdictTaken s i m r)) ∧
    (pass = false → error = none → ∀ p, ownerOfStall s i = some p → exec c s = .next (unitError (modMunit s i m fun x =>
      { x with verdicts := r, fails := satInc x.fails 255 }) p (errorDetail m .checksum) (some i))) ∧
    (error = some .outputResidue → ∀ p, ownerOfStall s i = some p → exec c s = .next (unitError (modMunit s i m fun x =>
      { x with verdicts := r, fails := if m then satInc x.fails 255 else x.fails }) p (errorDetail m .outputResidue) (some i))) ∧
    (error = some .carryParity → ∀ p, ownerOfStall s i = some p → exec c s =
      .next (countFence (unitError (verdictTaken s i m r) p (errorDetail m .carryParity) (some i)) i)) := by
  rw [hc]
  refine ⟨?_, ?_, ?_, ?_⟩
  · rintro rfl rfl
    rw [verdict_passes h]
  · rintro rfl rfl p hp
    rw [verdict_fails h hp]
  · rintro rfl p hp
    rw [verdict_outputResidue h hp]
  · rintro rfl p hp
    rw [verdict_carryParity h hp]

end

/-! ## Cycles of a domain -/

/-- What a domain counts of its cycles, and whether the last was withheld. -/
structure Clock where
  ticks : Nat
  epochTick : Nat
  withheld : Nat
  cycles : Nat
  held : Bool

def clockOf (x : Domain) : Clock :=
  { ticks := x.ticks, epochTick := x.epochTick, withheld := x.withheld, cycles := x.cycles, held := x.held }

/-- The clock after a cycle withheld (R137). -/
def Clock.withhold (c : Clock) : Clock :=
  { c with withheld := (c.withheld + 1) % 2 ^ 64, cycles := c.cycles + 1, held := true }

/-- The clock after a tick inside a bell (R159). -/
def Clock.bellTick (c : Clock) : Clock :=
  { c with ticks := (c.ticks + 1) % 2 ^ 64, cycles := c.cycles + 1, held := false }

theorem withhold_fields {x y : Domain} (h : clockOf x = (clockOf y).withhold) : x.ticks = y.ticks ∧ x.epochTick = y.epochTick ∧
    x.withheld = (y.withheld + 1) % 2 ^ 64 ∧ x.held = true :=
  ⟨congrArg Clock.ticks h, congrArg Clock.epochTick h, congrArg Clock.withheld h, congrArg Clock.held h⟩

theorem bellTick_fields {x y : Domain} (h : clockOf x = (clockOf y).bellTick) : x.ticks = (y.ticks + 1) % 2 ^ 64 ∧
    x.epochTick = y.epochTick ∧ x.withheld = y.withheld ∧ x.cycles = y.cycles + 1 :=
  ⟨congrArg Clock.ticks h, congrArg Clock.epochTick h, congrArg Clock.withheld h, congrArg Clock.cycles h⟩

/-- `t` is `s` but for domains, partitions and stalls, with the clock of the domain and the epoch of its partition as they
were. -/
structure ClockKept (p d : Nat) (s t : State) : Prop where
  rest : t = { s with domains := t.domains, parts := t.parts, stalls := t.stalls }
  clock : clockOf (t.dom p d) = clockOf (s.dom p d)
  epoch : (t.part p).epoch = (s.part p).epoch

namespace ClockKept

variable {p d : Nat} {s t u : State}

theorem refl (s : State) : ClockKept p d s s := ⟨rfl, rfl, rfl⟩

theorem trans (h : ClockKept p d s t) (g : ClockKept p d t u) : ClockKept p d s u :=
  ⟨by rw [g.rest, h.rest], g.clock.trans h.clock, g.epoch.trans h.epoch⟩

theorem modPart {f : Part → Part} (h : ClockKept p d s t) (hf : ∀ q, (f q).epoch = q.epoch) :
    ClockKept p d s (t.modPart p f) :=
  h.trans ⟨rfl, rfl, by rw [part_modPart_same, hf]⟩

theorem modDom {f : Domain → Domain} (h : ClockKept p d s t) (hf : ∀ x, clockOf (f x) = clockOf x) :
    ClockKept p d s (t.modDom p d f) :=
  h.trans ⟨rfl, by rw [dom_modDom_same, hf], rfl⟩

theorem modStall {i : Nat} {f : Stall → Stall} (h : ClockKept p d s t) : ClockKept p d s (t.modStall i f) :=
  h.trans ⟨rfl, rfl, rfl⟩

theorem ite {c : Prop} [Decidable c] (ht : ClockKept p d s t) (hu : ClockKept p d s u) :
    ClockKept p d s (if c then t else u) := by
  split
  · exact ht
  · exact hu

theorem readSpills {taken : Bool} (h : ClockKept p d s t) : ClockKept p d s (readSpills t p d taken) := by
  refine h.trans (foldl_related refl (fun _ _ _ => trans) (fun s i => ?_) _ t)
  unfold readSpill
  split
  · exact .refl s
  · exact .modStall (.refl s)

theorem closeLost (h : ClockKept p d s t) : ClockKept p d s (closeLost t p d) := by
  unfold Machine.closeLost
  split
  · exact h
  · exact .modDom (.modPart h fun _ => rfl) fun _ => rfl

theorem loseTick {cause : Nat} (h : ClockKept p d s t) : ClockKept p d s (loseTick t p d cause) := by
  unfold Machine.loseTick
  split
  · exact h
  · split
    · exact .ite (.modDom h fun _ => rfl) (.modDom (.closeLost h) fun _ => rfl)
    · exact .modDom h fun _ => rfl

theorem recoveryEvent {cause tick count : Nat} (h : ClockKept p d s t) :
    ClockKept p d s (recoveryEvent t p cause tick count) :=
  .ite (.modPart h fun _ => rfl) h

theorem closeStretch (h : ClockKept p d s t) : ClockKept p d s (closeStretch t p d) := by
  unfold Machine.closeStretch
  split
  · exact h
  · exact .recoveryEvent (.modDom h fun _ => rfl)

theorem btdAdd {k n : Nat} (h : ClockKept p d s t) : ClockKept p d s (btdAdd t p k n) := .modPart h fun _ => rfl

theorem stretchTicks {n : Nat} (h : ClockKept p d s t) : ClockKept p d s (stretchTicks t p d n) :=
  .modDom (.modPart (.btdAdd h) fun _ => rfl) fun _ => rfl

theorem stretchCycle (h : ClockKept p d s t) : ClockKept p d s (stretchCycle t p d) :=
  .ite (.stretchTicks h) (.closeStretch h)

theorem bellWaitTick (h : ClockKept p d s t) : ClockKept p d s (bellWaitTick t p d) :=
  .loseTick (.modDom (.ite (.modPart h fun _ => rfl) h) fun _ => rfl)

end ClockKept

/-- The state in which a domain's cycle is withheld or its tick is taken: SPILLs have been read, and a stretched cycle and
extra bubbles are counted. -/
def cycleBegun (s : State) (p d : Nat) (taken : Bool) : State :=
  (stretchCycle (readSpills s p d taken) p d).modDom p d fun x =>
    { x with extra := if extraRate s p ≠ 0 then x.extra + 1 else 0 }

theorem cycleBegun_clockKept (s : State) (p d : Nat) (taken : Bool) : ClockKept p d s (cycleBegun s p d taken) :=
  .modDom (.stretchCycle (.readSpills (.refl s))) fun _ => rfl

section

variable {s u : State} {p : Fin 64} {d : Fin 4}

/-- A cycle of a domain that runs, and runs on once its feeders and ports have moved (R118, R137). -/
theorem exec_domainTick_runs (hu : u = moveStage (pumpPorts (feederCycle s p d) p d) p d) (hs : domainRuns s p d = true)
    (hr : domainRuns u p d = true) : exec (.domainTick p d) s = .next (match holdCause u p d with
      | some (c, m) => withhold (cycleBegun u p d false) p d c m
      | none => takenTick (cycleBegun u p d true) p d) := by
  subst hu
  change execDomainTick p d s = _
  simp only [execDomainTick, hs, hr, Bool.not_true, Bool.false_eq_true, if_false]
  cases holdCause (moveStage (pumpPorts (feederCycle s p d) p d) p d) p d with
  | none => simp [cycleBegun]
  | some cm => simp [cycleBegun]

end

/-- A withheld cycle counts as such and takes no tick (R137). -/
theorem withhold_clock (s : State) (p d cause : Nat) (mask : Bool) :
    withhold s p d cause mask = { s with
      domains := (withhold s p d cause mask).domains, parts := (withhold s p d cause mask).parts
      stalls := (withhold s p d cause mask).stalls } ∧
    clockOf ((withhold s p d cause mask).dom p d) = (clockOf (s.dom p d)).withhold := by
  unfold withhold
  extract_lets a b c
  have hkept : ClockKept p d b (if mask = true then closeLost c p d else loseTick c p d cause) :=
    have hc : ClockKept p d b c := .ite (.modPart (.refl b) fun _ => rfl) (.refl b)
    .ite (.closeLost hc) (.loseTick hc)
  exact ⟨hkept.rest, by rw [hkept.clock, dom_modDom_same]; rfl⟩

theorem floodGroup_eq (s : State) (p : Nat) (v : W64) (except : Option Nat) :
    floodGroup s p v except = { s with links := (floodGroup s p v except).links } :=
  foldl_related (R := fun s t => t = { s with links := t.links }) (fun _ => rfl) (fun _ _ _ h g => by rw [g, h])
    (fun s j => by rw [sendSymbol_eq]) _ s

theorem syncTicks_eq (s : State) (p d old new : Nat) :
    syncTicks s p d old new = { s with links := (syncTicks s p d old new).links } := by
  unfold syncTicks
  split
  · exact floodGroup_eq s p _ _
  · rfl

/-- A tick inside a bell counts as a tick and schedules nothing (R118, R159). -/
theorem idleBellTick_clock (s : State) (p d : Nat) :
    idleBellTick s p d = { s with
      domains := (idleBellTick s p d).domains, parts := (idleBellTick s p d).parts
      stalls := (idleBellTick s p d).stalls, links := (idleBellTick s p d).links } ∧
    clockOf ((idleBellTick s p d).dom p d) = (clockOf (s.dom p d)).bellTick := by
  unfold idleBellTick
  extract_lets old a b
  have hb : b = { a with links := b.links } := syncTicks_eq ..
  have hkept : ClockKept p d b (if ((b.part p).epoch.stage ≤ 2 && decide ((b.dom p d).linkTicks < linkAllowance b p)) = true then
      closeLost (b.modDom p d fun x => { x with linkTicks := x.linkTicks + 1 }) p d else bellWaitTick b p d) :=
    .ite (.closeLost (.modDom (.refl b) fun _ => rfl)) (.bellWaitTick (.refl b))
  have hdom : b.dom p d = a.dom p d := by rw [hb]; rfl
  refine ⟨?_, ?_⟩
  · rw [hkept.rest, hb]
    rfl
  · rw [hkept.clock, hdom, dom_modDom_same]
    rfl

section

variable {s u v : State} {p : Fin 64} {d : Fin 4}

/-- A running domain whose epoch is in its bell counts a tick and schedules nothing. -/
theorem exec_domainTick_inBell (hu : u = moveStage (pumpPorts (feederCycle s p d) p d) p d) (hs : domainRuns s p d = true)
    (hr : domainRuns u p d = true) (hbell : (u.part p).epoch.inBell = true) (hhold : holdCause u p d = none) :
    ∃ t, exec (.domainTick p d) s = .next t ∧
      t = { u with domains := t.domains, parts := t.parts, stalls := t.stalls, links := t.links } ∧
      clockOf (t.dom p d) = (clockOf (u.dom p d)).bellTick := by
  have hv := cycleBegun_clockKept u p d true
  have hbegun : ((cycleBegun u p d true).part p).epoch.inBell = true := by rw [hv.epoch, hbell]
  obtain ⟨hrest, hclock⟩ := idleBellTick_clock (cycleBegun u p d true) p d
  rw [hv.clock] at hclock
  refine ⟨idleBellTick (cycleBegun u p d true) p d, ?_, by rw [hrest, hv.rest], hclock⟩
  rw [exec_domainTick_runs hu hs hr, hhold]
  simp only [takenTick, hbegun, if_true]

/-- A running domain with a cause to withhold counts the cycle as withheld and takes no tick. -/
theorem exec_domainTick_withheld {c : Nat} {m : Bool} (hu : u = moveStage (pumpPorts (feederCycle s p d) p d) p d)
    (hs : domainRuns s p d = true) (hr : domainRuns u p d = true) (hhold : holdCause u p d = some (c, m)) :
    ∃ t, exec (.domainTick p d) s = .next t ∧
      t = { u with domains := t.domains, parts := t.parts, stalls := t.stalls } ∧
      clockOf (t.dom p d) = (clockOf (u.dom p d)).withhold := by
  have hv := cycleBegun_clockKept u p d false
  obtain ⟨hrest, hclock⟩ := withhold_clock (cycleBegun u p d false) p d c m
  rw [hv.clock] at hclock
  refine ⟨withhold (cycleBegun u p d false) p d c m, ?_, by rw [hrest, hv.rest], hclock⟩
  rw [exec_domainTick_runs hu hs hr, hhold]

/-- Any other running domain takes its tick, which within the epoch ends no wait. -/
theorem exec_domainTick_taken (hu : u = moveStage (pumpPorts (feederCycle s p d) p d) p d) (hs : domainRuns s p d = true)
    (hr : domainRuns u p d = true) (hbell : (u.part p).epoch.inBell = false) (hhold : holdCause u p d = none)
    (hv : v = cycleBegun u p d true) (hlen : (v.dom p d).epochTick < runningLen v p) :
    exec (.domainTick p d) s = .next (closeLost (takeTick v p d) p d) := by
  have hbegun : (v.part p).epoch.inBell = false := by rw [hv, (cycleBegun_clockKept u p d true).epoch, hbell]
  have hlate : decide (runningLen v p ≤ (v.dom p d).epochTick) = false := decide_eq_false (Nat.not_le.2 hlen)
  rw [exec_domainTick_runs hu hs hr, hhold, ← hv]
  simp only [takenTick, hbegun, hlate, Bool.false_and, Bool.not_false, Bool.false_eq_true, if_false, if_true]

end

/-! ## The image of a partition that changes -/

section

variable {s : State} {p q : Nat} {f g : Part → Part}

/-- Changes that agree on the partition they change are the same. -/
theorem modPart_congr (h : f (s.part p) = g (s.part p)) : s.modPart p f = s.modPart p g := by
  unfold State.part at h
  simp only [State.modPart, tmod, h]

/-- A field of every partition that a change leaves alone. -/
theorem part_field_modPart {α : Type} (field : Part → α) (h : ∀ x, field (f x) = field x) :
    field ((s.modPart p f).part q) = field (s.part q) := by
  by_cases hq : q = p
  · subst hq
    rw [part_modPart_same, h]
  · rw [part_modPart_other _ _ hq]

/-- What the committed view and the image of a partition rest on: its lines, its place in the map and its plan. -/
structure ViewKept (f : Part → Part) : Prop where
  lines : ∀ x, (f x).cache.lines = x.cache.lines
  present : ∀ x, (f x).present = x.present
  record : ∀ x, (f x).record = x.record
  plan : ∀ x, (f x).plan = x.plan

theorem committedByte_modPart (h : ViewKept f) {a o : Nat} :
    committedByte (s.modPart p f) q a o = committedByte s q a o := by
  have hl1 (l : L1Id) (b : Nat) : (s.modPart p f).l1Line l b = s.l1Line l b := rfl
  simp only [committedByte, belowByte, memoryByte, ownerByte, mOwner, line_modPart h.lines, hl1, modPart_mem]

theorem ownerOf_modPart (h : ViewKept f) {a : Nat} : ownerOf (s.modPart p f) a = ownerOf s a := by
  have hpresent (r : Nat) : ((s.modPart p f).part r).present = (s.part r).present := part_field_modPart Part.present h.present
  have hrecord (r : Nat) : ((s.modPart p f).part r).record = (s.part r).record := part_field_modPart Part.record h.record
  simp only [ownerOf, granted, hpresent, hrecord]

theorem readCommitted_modPart (h : ViewKept f) {a n : Nat} : readCommitted (s.modPart p f) a n = readCommitted s a n := by
  simp only [readCommitted, ownerOf_modPart h, committedByte_modPart h, modPart_mem]

theorem imageOf_modPart (h : ViewKept f) : imageOf (s.modPart p f) q = imageOf s q := by
  funext o
  have hplan : ((s.modPart p f).part q).plan = (s.part q).plan := part_field_modPart Part.plan h.plan
  simp only [imageOf, hplan, readCommitted_modPart h]

/-- Whether the running epoch is LINKED rests on the image and the entry (R341). -/
theorem epochLinked_modPart (h : ViewKept f) (he : ∀ x, (f x).epoch.entry = x.epoch.entry) :
    epochLinked (s.modPart p f) q = epochLinked s q := by
  have hentry : ((s.modPart p f).part q).epoch.entry = (s.part q).epoch.entry :=
    part_field_modPart (fun x => x.epoch.entry) he
  simp only [epochLinked, runningDesc, imageOf_modPart h, hentry]

theorem epochLinked_setStage {n : Nat} : epochLinked (setStage s p n) q = epochLinked s q :=
  epochLinked_modPart ⟨fun _ => rfl, fun _ => rfl, fun _ => rfl, fun _ => rfl⟩ fun _ => rfl

end

/-! ## The end of a job -/

/-- Every partition's job and epoch are in `t` as in `s`. -/
def JobKept (s t : State) : Prop := ∀ q, (t.part q).job = (s.part q).job ∧ (t.part q).epoch = (s.part q).epoch

namespace JobKept

variable {s t : State}

theorem refl (s : State) : JobKept s s := fun _ => ⟨rfl, rfl⟩

theorem trans {u : State} (h : JobKept s t) (g : JobKept t u) : JobKept s u := fun q => by
  obtain ⟨hj, he⟩ := h q
  obtain ⟨gj, ge⟩ := g q
  exact ⟨gj.trans hj, ge.trans he⟩

theorem of_parts {u : State} (h : JobKept s t) (hp : u.parts = t.parts) : JobKept s u := fun q => by
  rw [State.part, hp]
  exact h q

theorem modPart {p : Nat} {f : Part → Part} (h : JobKept s t) (hj : ∀ x, (f x).job = x.job) (he : ∀ x, (f x).epoch = x.epoch) :
    JobKept s (t.modPart p f) :=
  h.trans fun _ => ⟨part_field_modPart Part.job hj, part_field_modPart Part.epoch he⟩

theorem modLine {p a : Nat} {f : Line → Line} (h : JobKept s t) : JobKept s (t.modLine p a f) :=
  .modPart h (fun _ => rfl) fun _ => rfl

theorem foldl {α : Type} {f : State → α → State} {l : List α} (h : JobKept s t) (hf : ∀ t x, JobKept s t → JobKept s (f t x)) :
    JobKept s (l.foldl f t) :=
  List.foldlRecOn l f h fun t ht x _ => hf t x ht

theorem completeAll {pick : Outstanding → Bool} {status detail : Nat} (h : JobKept s t) :
    JobKept s (completeAll t pick status detail) :=
  .of_parts h (by rw [completeAll_portOnly])

/-- A line dropped from an L1 whose bytes are not kept changes no job. -/
theorem dropL1 {p a : Nat} {l : L1Id} (h : JobKept s t) : JobKept s (dropL1 t p a l false) :=
  .of_parts (.modLine (.of_parts h rfl)) rfl

theorem dropL1s {p a : Nat} {spare : L1Id → Bool} (h : JobKept s t) : JobKept s (dropL1s t p a false spare) :=
  .foldl h fun _ _ => .dropL1

theorem dropLine {p a : Nat} (h : JobKept s t) : JobKept s (dropLine t p a) := by
  have hline := h.dropL1s (p := p) (a := a) (spare := fun _ => false)
  unfold Machine.dropLine noteDead
  extract_lets u
  split
  · exact .modLine hline
  · exact .modPart (.modLine hline) (fun _ => rfl) fun _ => rfl

theorem backInvalidate {p a : Nat} (h : JobKept s t) : JobKept s (backInvalidate t p a) :=
  .foldl (.modLine h) fun _ _ hu => .of_parts hu rfl

theorem runDiscards {p : Nat} (h : JobKept s t) : JobKept s (runDiscards t p) := by
  unfold Machine.runDiscards
  extract_lets as held
  split
  · exact h
  · split
    · exact .completeAll (.foldl h fun _ _ => .dropLine)
    · exact .foldl h fun _ _ => .backInvalidate

theorem flushLog {l : DirtyLog} (h : JobKept s t) : JobKept s (flushLog t l) :=
  .foldl h fun _ _ hu => .of_parts hu rfl

theorem setLog {p : Nat} {host : Bool} {l : Option DirtyLog} (h : JobKept s t) : JobKept s (setLog t p host l) :=
  .modPart h (fun _ => by cases host <;> rfl) fun _ => by cases host <;> rfl

theorem collectLog {p b : Nat} {host : Bool} (h : JobKept s t) : JobKept s (collectLog t p host b) := by
  unfold Machine.collectLog
  split
  · exact h
  · exact .setLog (.flushLog h)

theorem stopLog {p : Nat} {host : Bool} (h : JobKept s t) : JobKept s (stopLog t p host) := by
  unfold Machine.stopLog
  split
  · exact h
  · exact .setLog (.flushLog h)

theorem settleLogs {p : Nat} (h : JobKept s t) : JobKept s (settleLogs t p) := by
  unfold Machine.settleLogs
  split
  · exact h
  · refine .completeAll (.foldl h fun u o hu => ?_)
    split
    · exact .collectLog hu
    · exact .stopLog hu
    · exact hu

theorem applyBoost {p : Nat} (h : JobKept s t) : JobKept s (applyBoost t p) := by
  unfold Machine.applyBoost
  split
  · exact h
  · exact .modPart h (fun _ => rfl) fun _ => rfl

theorem gateStalls {p : Nat} (h : JobKept s t) : JobKept s (gateStalls t p) :=
  .foldl h fun _ _ hu => .of_parts hu rfl

end JobKept

section

variable {s : State} {p : Nat}

/-- Once its job is stopped a partition runs neither a job nor an epoch (R397). -/
theorem stopJob_stops (s : State) (p detail : Nat) :
    ((stopJob s p detail).part p).job.running = false ∧ ((stopJob s p detail).part p).epoch.running = false := by
  unfold stopJob
  extract_lets a b c d e f g
  have hkept : JobKept d (runDiscards g p) :=
    .runDiscards (.completeAll (.completeAll (.settleLogs (.gateStalls (.applyBoost (.refl d))))))
  obtain ⟨hjob, hepoch⟩ := hkept p
  rw [hjob, hepoch]
  simp [d]

/-- A job that ends without its unit is faulted (R312). -/
theorem endJob_ends (status detail : Nat) (stall : Option Nat) :
    ((endJob s p status detail stall).part p).job.running = false ∧
      ((endJob s p status detail stall).part p).epoch.running = false ∧
      ((endJob s p status detail stall).part p).job.faulted = true := by
  unfold endJob
  extract_lets a b c d
  obtain ⟨hjob, hepoch⟩ := stopJob_stops d p detail
  simp only [part_modPart_same, hjob, hepoch, and_self]

/-- A contained fault ends the job that runs (R292). -/
theorem contained_running {status detail : Nat} {stall : Option Nat} (h : (s.part p).job.running = true) :
    contained s p status detail stall = endJob s p status detail stall := if_pos h

end

/-! ## The stages of a bell -/

section

variable {s w v : State} {p : Nat}

/-- The end of an epoch's phase changes only what the power budget has learned (R462). -/
theorem learnPhase_keeps (s : State) (p phase : Nat) : ((learnPhase s p phase).part p).job = (s.part p).job ∧
    ((learnPhase s p phase).part p).refill = (s.part p).refill ∧ ((learnPhase s p phase).part p).epoch = (s.part p).epoch := by
  have hpart : (learnPhase s p phase).part p = { s.part p with pwr := ((learnPhase s p phase).part p).pwr } :=
    foldl_related (R := fun s t => t.part p = { s.part p with pwr := (t.part p).pwr }) (fun _ => rfl)
      (fun _ _ _ h g => by rw [g, h]) (fun s d => by simp only [part_modPart_same]) _ s
  rw [hpart]
  exact ⟨rfl, rfl, rfl⟩

theorem bellRuns_job (h : bellRuns s p = true) : (s.part p).job.running = true := by
  simp only [bellRuns, Bool.and_eq_true] at h
  obtain ⟨⟨⟨⟨⟨⟨⟨-, hjob⟩, -⟩, -⟩, -⟩, -⟩, -⟩, -⟩ := h
  exact hjob

/-- A replay that may not be made ends the job (R298, R301). -/
theorem replayBell_spent (hrun : (s.part p).job.running = true) (hwait : (s.part p).refill.waitsFor = none)
    (hspent : 3 ≤ (s.part p).epoch.attempt) (hlinked : epochLinked s p = false) :
    ∃ status detail, replayBell s p = endJob s p status detail none := by
  unfold replayBell
  extract_lets q detail
  split
  · exact ⟨_, _, contained_running hrun⟩
  · rw [if_neg (by simp [hlinked]), if_pos (by simp [q, hwait, hspent])]
    exact ⟨_, _, rfl⟩

/-- Bell tick 0 of an epoch that floods no COMMIT and has an error is a replay (R157). -/
theorem beginBell_replay (herr : errorFlooded s p = true)
    (hw : w = learnPhase s p (bellAt (imageOf s p) (s.part p).epoch.entry).phase) (hlinked : epochLinked w p = false) :
    beginBell s p = replayBell w p := by
  unfold beginBell
  simp only [herr, if_true, ← hw, hlinked, Bool.false_eq_true, if_false]

/-- Bell tick 0 of an unlinked epoch without an error: its commit waits for nothing (R157, R310). -/
theorem beginBell_commit (hflood : errorFlooded s p = false) (herr : (s.part p).epoch.error = none)
    (hw : w = sendStaged (learnPhase s p (bellAt (imageOf s p) (s.part p).epoch.entry).phase) p)
    (hlinked : epochLinked w p = false) (halone : isLinked w p = false) (hpartners : (w.part p).zlk.partners = [])
    (hv : v = setStage (w.modPart p fun q => { q with chk := { q.chk with pending := false } }) p 1) :
    beginBell s p = voteStage v p := by
  have hpending : (w.modPart p fun q => { q with chk := { q.chk with pending := !q.zlk.partners.isEmpty } }) =
      w.modPart p fun q => { q with chk := { q.chk with pending := false } } := modPart_congr (by simp [hpartners])
  unfold beginBell
  simp only [hflood, herr, Bool.false_eq_true, if_false, ← hw, hlinked, halone, hpending, hv]

/-- The votes are in: a REPLAY among them replays, and else the commit is final (R341). -/
theorem voteStage_linked (hlinked : epochLinked s p = true) (hstage : (s.part p).epoch.stage = 1) : voteStage s p =
    if voteMissing s p = true then s
    else if ∃ v ∈ (s.part p).zlk.votes, v.2.2 = false then replayBell s p else makeFinal s p true := by
  have hmissing : voteMissing s p =
      (s.part p).zlk.members.any fun m => !(s.part p).zlk.votes.any fun v => v.1 = m.1 && v.2.1 = m.2 := by
    simp [voteMissing, hstage]
  have hreplay : ((s.part p).zlk.votes.any fun v => !v.2.2) = true ↔ ∃ v ∈ (s.part p).zlk.votes, v.2.2 = false := by simp
  unfold voteStage
  simp only [hlinked, if_true, List.all_eq_not_any_not, ← hmissing, hreplay]
  cases voteMissing s p <;> rfl

/-- Without an error and with every token in, the commit of an unlinked epoch is final (R311). -/
theorem voteStage_unlinked (hlinked : epochLinked s p = false) (herr : (s.part p).epoch.error = none) : voteStage s p =
    if ((s.part p).zlk.partners.all fun u => (s.part p).zlk.commits.any fun c =>
      c.1 = u.1 && c.2.1 = u.2.1 && c.2.2.1 = u.2.2) = true then makeFinal s p false else s := by
  unfold voteStage
  simp only [hlinked, herr, Bool.false_eq_true, if_false, Option.isSome_none]

/-- A token that is missing holds the bell. -/
theorem voteStage_waits (hlinked : epochLinked s p = false) (herr : (s.part p).epoch.error = none)
    (hmissing : ∃ u ∈ (s.part p).zlk.partners, ∀ c ∈ (s.part p).zlk.commits, (c.1, c.2.1, c.2.2.1) ≠ u) :
    voteStage s p = s := by
  obtain ⟨u, hu, hnone⟩ := hmissing
  rw [voteStage_unlinked hlinked herr, if_neg]
  intro hall
  obtain ⟨c, hc, he⟩ := List.any_eq_true.1 (List.all_eq_true.1 hall u hu)
  simp only [Bool.and_eq_true, decide_eq_true_eq] at he
  obtain ⟨⟨h1, h2⟩, h3⟩ := he
  exact hnone c hc (Prod.ext h1 (Prod.ext h2 h3))

theorem appliedStage_waits (hstage : (s.part p).epoch.stage = 2) (hmissing : voteMissing s p = true) :
    appliedStage s p = s := by
  have hall : ((s.part p).zlk.members.all fun m => m ∈ (s.part p).zlk.applied) = !voteMissing s p := by
    rw [List.all_eq_not_any_not]
    simp [voteMissing, hstage]
  exact if_neg (by simp [hall, hmissing])

theorem settleStage_waits (h : ∃ h ∈ s.hostCommit, h.1 = p) : settleStage s p = s := by
  obtain ⟨x, hx, hp⟩ := h
  exact if_pos (List.any_eq_true.2 ⟨x, hx, decide_eq_true hp⟩)

/-- The commit of an unlinked epoch is final, and its bell goes on to what waits for the host (R158, R230). -/
theorem makeFinal_unlinked : makeFinal s p false = settleStage (setStage (finalCommit (countBell s p) p) p 3) p := by
  unfold makeFinal
  simp only [Bool.false_eq_true, if_false]

theorem pageStage_waits (h : resident s p (runningDesc s p) = false) : pageStage s p = s :=
  if_neg (ne_true_of_eq_false h)

end

section

variable {s w v : State} {p : Fin 64}

/-- A bell that proceeds acts by its stage, a lost port apart (R155, R350). -/
theorem exec_bell_runs (hrun : bellRuns s p = true)
    (hloss : (s.part p).epoch.stage ≤ 1 → (s.part p).epoch.stage = 1 ∨ bellReady s p = true → linkLoss s p = none) :
    exec (.bell p) s = .next (match (s.part p).epoch.stage with
      | 0 => if bellReady s p then beginBell s p else s
      | 1 => voteStage s p
      | 2 => appliedStage s p
      | 3 => settleStage s p
      | _ => pageStage s p) := by
  have hnone : (if (decide ((s.part p).epoch.stage ≤ 1) && (decide ((s.part p).epoch.stage = 1) || bellReady s p)) = true
      then linkLoss s p else none) = none := by
    split
    next h =>
      simp only [Bool.and_eq_true, Bool.or_eq_true, decide_eq_true_eq] at h
      exact hloss h.1 h.2
    next => rfl
  change execBell p s = _
  simp only [execBell, hrun, Bool.not_true, Bool.false_eq_true, if_false, hnone]
  generalize (s.part p).epoch.stage = n
  rcases n with _ | _ | _ | _ | n <;> rfl

/-- A bell at tick 0 whose domains are at the end. -/
theorem exec_bell_begins (hrun : bellRuns s p = true) (hstage : (s.part p).epoch.stage = 0) (hready : bellReady s p = true)
    (hloss : linkLoss s p = none) : exec (.bell p) s = .next (beginBell s p) := by
  rw [exec_bell_runs hrun fun _ _ => hloss, hstage]
  simp only [hready, if_true]

/-- A bell that waits for votes or tokens. -/
theorem exec_bell_votes (hrun : bellRuns s p = true) (hstage : (s.part p).epoch.stage = 1) (hloss : linkLoss s p = none) :
    exec (.bell p) s = .next (voteStage s p) := by
  rw [exec_bell_runs hrun fun _ _ => hloss]
  simp only [hstage]

/-- A bell whose third replay is spent ends the job (R298). -/
theorem exec_bell_spent (hrun : bellRuns s p = true) (hstage : (s.part p).epoch.stage = 0) (hready : bellReady s p = true)
    (hloss : linkLoss s p = none) (hflood : errorFlooded s p = true) (hwait : (s.part p).refill.waitsFor = none)
    (hspent : 3 ≤ (s.part p).epoch.attempt)
    (hw : w = learnPhase s p (bellAt (imageOf s p) (s.part p).epoch.entry).phase) (hlinked : epochLinked w p = false) :
    ∃ status detail, exec (.bell p) s = .next (endJob w p status detail none) := by
  obtain ⟨hjob, hrefill, hepoch⟩ : (w.part p).job = (s.part p).job ∧ (w.part p).refill = (s.part p).refill ∧
      (w.part p).epoch = (s.part p).epoch := hw ▸ learnPhase_keeps s p _
  obtain ⟨status, detail, hend⟩ := replayBell_spent (by rw [hjob, bellRuns_job hrun]) (by rw [hrefill, hwait])
    (by rwa [hepoch]) hlinked
  exact ⟨status, detail, by rw [exec_bell_begins hrun hstage hready hloss, beginBell_replay hflood hw hlinked, hend]⟩

/-- The bell of an unlinked epoch without an error makes its commit final (R158). -/
theorem exec_bell_commits (hrun : bellRuns s p = true) (hstage : (s.part p).epoch.stage = 0) (hready : bellReady s p = true)
    (hloss : linkLoss s p = none) (hflood : errorFlooded s p = false) (herr : (s.part p).epoch.error = none)
    (hw : w = sendStaged (learnPhase s p (bellAt (imageOf s p) (s.part p).epoch.entry).phase) p)
    (hlinked : epochLinked w p = false) (halone : isLinked w p = false) (hpartners : (w.part p).zlk.partners = [])
    (herrw : (w.part p).epoch.error = none)
    (hv : v = setStage (w.modPart p fun q => { q with chk := { q.chk with pending := false } }) p 1) :
    exec (.bell p) s = .next (makeFinal v p false) := by
  have hlinkedV : epochLinked v p = false := by
    rw [hv, epochLinked_setStage]
    refine (epochLinked_modPart ⟨?_, ?_, ?_, ?_⟩ ?_).trans hlinked
    all_goals exact fun _ => rfl
  have herrV : (v.part p).epoch.error = none := by simp [hv, setStage, herrw]
  have hpartnersV : (v.part p).zlk.partners = [] := by simp [hv, setStage, hpartners]
  rw [exec_bell_begins hrun hstage hready hloss, beginBell_commit hflood herr hw hlinked halone hpartners hv,
    voteStage_unlinked hlinkedV herrV, hpartnersV, List.all_nil, if_pos rfl]

end

/-! ## Lines at a commit and at a discard -/

section

variable {s : State} {p a : Nat}

theorem downOwner_unheld (h : (s.line p a).filter = []) : downOwner s p a = s := by
  simp only [downOwner, h, List.find?_nil]

theorem dropL1s_unheld {keep : Bool} {spare : L1Id → Bool} (h : (s.line p a).filter = []) :
    dropL1s s p a keep spare = s := by
  simp only [dropL1s, h, List.filter_nil, List.foldl_nil]

/-- A line of own memory is neither a remote copy nor one of the host window. -/
theorem isLsmLine_place (h : isLsmLine a = true) : isRemoteLine a = false ∧ isHostLine a = false := by
  simp only [isLsmLine, Bool.and_eq_true, Bool.not_eq_true', decide_eq_true_eq] at h
  obtain ⟨hown, hlow⟩ := h
  have hhost : ¬hwinBase ≤ linePhys a := Nat.not_le.2 (Nat.lt_of_lt_of_le hlow (by decide))
  exact ⟨hown, by simp [isHostLine, hhost]⟩

theorem logDevice_line (s : State) (p phys q b : Nat) : (logDevice s p phys).line q b = s.line q b := by
  unfold logDevice
  split
  · rfl
  · extract_lets i
    split
    · split
      · rfl
      · exact line_modPart fun _ => rfl
    · rfl

theorem logDevice_mem (s : State) (p phys : Nat) : (logDevice s p phys).mem = s.mem := by
  unfold logDevice
  split
  · rfl
  · extract_lets i
    split
    · split <;> rfl
    · rfl

/-- A commit makes a staged line of own memory dirty, and logs it (R228, R425). -/
theorem commitLine_staged (hlsm : isLsmLine a = true) (hfilter : (s.line p a).filter = [])
    (hstate : (s.line p a).state = .staged) :
    commitLine s p a = logDevice (s.modLine p a fun l => { l with state := .dirty }) p (linePhys a) := by
  obtain ⟨hown, hhost⟩ := isLsmLine_place hlsm
  simp only [commitLine, downOwner_unheld hfilter, hown, hhost, hstate, Bool.false_eq_true, if_false]

/-- A commit takes a line that a discard hides away (R231). -/
theorem commitLine_hidden (hlsm : isLsmLine a = true) (hfilter : (s.line p a).filter = [])
    (hstate : (s.line p a).state = .discardStaged) :
    commitLine s p a = s.modLine p a fun l => { l with state := .absent, data := [], bad := 0, met := 0 } := by
  obtain ⟨hown, -⟩ := isLsmLine_place hlsm
  simp only [commitLine, downOwner_unheld hfilter, hown, hstate, Bool.false_eq_true, if_false]

/-- What reads have brought goes; a line that is not clean keeps its state, its holders and its bytes. -/
theorem forgetReads_line (h : (s.line p a).state ≠ .clean) : ((forgetReads s p a).line p a).state = (s.line p a).state ∧
    ((forgetReads s p a).line p a).filter = (s.line p a).filter ∧
    ((forgetReads s p a).line p a).data = (s.line p a).data := by
  unfold forgetReads
  extract_lets l
  split
  · exact ⟨rfl, rfl, rfl⟩
  · simp [h]

theorem forgetReads_mem (s : State) (p a : Nat) : (forgetReads s p a).mem = s.mem := by
  unfold forgetReads
  extract_lets l
  split <;> rfl

/-- A discard takes a staged line away (R228). -/
theorem discardLine_staged (hfilter : (s.line p a).filter = []) (hstate : (s.line p a).state = .staged) :
    discardLine s p a = (forgetReads s p a).modLine p a fun l =>
      { l with state := .absent, data := [], bad := 0, met := 0, base := [], fetch := if l.fetch = 1 then 2 else l.fetch } := by
  obtain ⟨hs, hf, -⟩ := forgetReads_line (s := s) (p := p) (a := a) (by rw [hstate]; decide)
  simp only [discardLine, hs, hstate, dropL1s_unheld (hf.trans hfilter)]

/-- A discard shows a hidden line again (R231). -/
theorem discardLine_hidden (hstate : (s.line p a).state = .discardStaged) :
    discardLine s p a = (forgetReads s p a).modLine p a fun l => { l with state := .dirty } := by
  obtain ⟨hs, -, -⟩ := forgetReads_line (s := s) (p := p) (a := a) (by rw [hstate]; decide)
  simp only [discardLine, hs, hstate]

end

/-! ## Stage bells -/

/-- A stage bell of a partition all of whose domains have stopped, where no ledger entry fails (R300). -/
theorem exec_stageBell_stopped {s u v : State} {p : Fin 64} (hrun : bellRuns s p = true) (hreq : stageRequested s p = true)
    (hstop : ∀ d ∈ domainsOf s p, (s.dom p d).stopped = true) (hgood : badEntry s p = none)
    (hu : u = runDiscards (serveAll (countBell (discardLines s p) p) p) p)
    (hv : v = u.modPart p fun q => { q with
      chk := { q.chk with stageBells := satInc q.chk.stageBells 255 }
      refill := { q.refill with waitsFor := none }
      epoch := { q.epoch with wide := true, running := false, inBell := false, stage := 0 }
      ses := { q.ses with excused := true } }) :
    exec (.stageBell p) s = .next (if (u.part p).job.running then
      tryStart (switchBank (recoveryEvent (takeBellTicks ((domainsOf v p).foldl (fun s d =>
        closeStretch (closeLost s p d) p d) v) p) p 0xD 0 256) p false) p else u) := by
  have hdiscard : discardChecked s p = discardLines s p := by simp only [discardChecked, hgood]
  have hall : ((domainsOf s p).all fun d => (s.dom p d).stopped) = true := List.all_eq_true.2 hstop
  change execStageBell p s = _
  simp only [execStageBell, hrun, hreq, hall, hdiscard, ← hu, ← hv, Bool.not_true, Bool.or_self, Bool.false_eq_true, if_false]
  cases (u.part p).job.running <;> rfl

/-- Settles O55: one lemma for each event of a unit, a domain and a bell, by the branch of the definition that it takes. -/
theorem unitsTakeTicksAndBells : Obligations.UnitsTakeTicksAndBells := by
  refine ⟨?line, ?spadLine, ?tag, ?tagCheck, ?verdict, ?bellTick, ?withheld, ?tick, ?spent, ?waits, ?votes, ?commit, ?lines,
    ?stageBell⟩
  case line =>
    rintro i m poisoned x bad last s u v p b bs hp hb hn rfl hr rfl rfl
    have hlast : decide (b.lines = 63 ∧ b.slot = 0xF) = (decide (b.lines + 1 = 64) && decide (b.slot = 0xF)) := by
      rw [← Bool.decide_and]
      exact decide_eq_decide.2 (and_congr (by omega) Iff.rfl)
    rw [exec_feederLineArrival_line hp hb hn hr, hlast, Bool.or_assoc]
    rfl
  case spadLine =>
    rintro i m poisoned s p b hp hb hn hsrc hodd rfl
    rw [exec_feederLineArrival_line hp hb (by omega) (blockRead_spad hsrc hodd), lineHere_early hn, Bool.false_and, Bool.or_false,
      Bool.or_false]
  case tag => exact fun i m poisoned x s u p b bs hp hb hn hr => exec_feederLineArrival_tag hp hb hn hr
  case tagCheck =>
    intro i m s p fmt b hp hb hkey hfmt
    rw [exec_tagCheck_due hp hb hkey hfmt]
    refine ⟨fun ⟨hclean, hright⟩ => ?_, fun hbad => ?_⟩
    · rw [if_pos (by simp [hclean, hright])]
    · rw [if_neg (by rcases hbad with h | h <;> simp [h])]
  case verdict =>
    intro i error e he s pass n r h
    simp only [List.mem_cons, List.not_mem_nil, or_false] at he
    rcases he with rfl | rfl
    · exact verdict_clauses (m := false) (fun _ => rfl) h
    · exact verdict_clauses (m := true) (fun _ => rfl) h
  case bellTick =>
    intro p d s u hu hs hr hbell hhold
    obtain ⟨t, hexec, hrest, hclock⟩ := exec_domainTick_inBell hu hs hr hbell hhold
    exact ⟨t, hexec, hrest, bellTick_fields hclock⟩
  case withheld =>
    intro p d s u c m hu hs hr hhold
    obtain ⟨t, hexec, hrest, hclock⟩ := exec_domainTick_withheld hu hs hr hhold
    exact ⟨t, hexec, hrest, withhold_fields hclock⟩
  case tick => exact fun p d s u v hu hs hr hbell hhold hv hlen => exec_domainTick_taken hu hs hr hbell hhold hv hlen
  case spent =>
    rintro p s ⟨hrun, hstage, hready, hloss, hflood, hwait, hspent, hlinked⟩
    obtain ⟨status, detail, hexec⟩ := exec_bell_spent hrun hstage hready hloss hflood hwait hspent rfl hlinked
    exact ⟨_, hexec, endJob_ends status detail none⟩
  case waits =>
    rintro p s ⟨hrun, hwait⟩
    refine ⟨s, ?_, rfl⟩
    rcases hwait with ⟨hstage, hready⟩ | ⟨hstage, hloss, hmissing, hlinked⟩ | ⟨hstage, hloss, hlinked, herr, hmissing⟩ |
      ⟨hstage, hmissing⟩ | ⟨hstage, hhost⟩ | ⟨hstage, hpage⟩
    · rw [exec_bell_runs hrun (by simp [hstage, hready]), hstage]
      simp only [hready, Bool.false_eq_true, if_false]
    · rw [exec_bell_votes hrun hstage hloss, voteStage_linked hlinked hstage, if_pos hmissing]
    · rw [exec_bell_votes hrun hstage hloss, voteStage_waits hlinked herr hmissing]
    · rw [exec_bell_runs hrun (by simp [hstage]), hstage]
      exact congrArg _ (appliedStage_waits hstage hmissing)
    · rw [exec_bell_runs hrun (by simp [hstage]), hstage]
      exact congrArg _ (settleStage_waits hhost)
    · rw [exec_bell_runs hrun (by simp [hstage]), hstage]
      exact congrArg _ (pageStage_waits hpage)
  case votes =>
    rintro p s ⟨hrun, hstage, hloss, hlinked, hvoted⟩
    refine ⟨_, ?_, rfl⟩
    rw [exec_bell_votes hrun hstage hloss, voteStage_linked hlinked hstage, if_neg (ne_true_of_eq_false hvoted)]
  case commit =>
    intro p s w v f hrun hstage hready hloss hflood herr hw hlinked halone hpartners herrw hv hf
    refine ⟨exec_bell_commits hrun hstage hready hloss hflood herr hw hlinked halone hpartners herrw hv, fun hhost => ?_⟩
    rw [makeFinal_unlinked, ← hf]
    exact settleStage_waits (s := setStage f p 3) hhost
  case lines =>
    intro s p a hlsm hfilter
    refine ⟨fun hstate => ?_, fun hstate => ?_⟩
    · rw [commitLine_staged hlsm hfilter hstate, discardLine_staged hfilter hstate]
      simp [logDevice_line, logDevice_mem, forgetReads_mem]
    · obtain ⟨-, -, hdata⟩ := forgetReads_line (s := s) (p := p) (a := a) (by rw [hstate]; decide)
      rw [commitLine_hidden hlsm hfilter hstate, discardLine_hidden hstate]
      simp [forgetReads_mem, hdata]
  case stageBell =>
    exact fun p s u v hrun hreq hstop hgood hu hv => exec_stageBell_stopped hrun hreq hstop hgood hu hv

end Sys2Proof.Machine
end

section
/-! SUPPORT. The statements of the plans family, and what their events do: jobs and copies (R163, R170, R394, O17), plans,
kernels and paged parts (R147, R148, R166 to R168, R200 to R203, O43), and the host's requests over CXL.mem (R164, R216, R233,
R234, R285, R354, O38). -/

namespace Sys2Proof.Machine

/-! ## Jobs and copies -/

/-- No check of a list fails. -/
theorem firstFail_eq_none_iff {l : List (Bool × Nat × Nat)} : firstFail l = none ↔ ∀ e ∈ l, e.1 = false := by
  induction l with
  | nil => simp [firstFail]
  | cons e r ih =>
    obtain ⟨bad, st, d⟩ := e
    cases bad <;> simp [firstFail, ih]

/-- A JOB_START that nothing else refuses is refused where the timing mode of its group differs (R163, R397). -/
theorem jobRefusal_of_none {s : State} {p : Nat} (differs : Bool) (h : jobRefusal s p false = none) :
    jobRefusal s p differs =
      if planLinked (imageOf s p) && differs then some (Status.badState, Detail.modeGroupMismatch) else none := by
  simp only [jobRefusal, firstFail_eq_none_iff, List.forall_mem_cons] at h
  obtain ⟨hjob, hplan, hmode, -, hplace, -⟩ := h
  simp only [jobRefusal, firstFail, hjob, hplan, hmode, hplace, Bool.false_eq_true, if_false]

/-- Settles O17: the bodies of the packets, the mode of the group apart (`jobRefusal_of_none`). -/
theorem jobAndCopyPacketsStartAndEndWork : Obligations.JobAndCopyPacketsStartAndEndWork := by
  refine ⟨?start, ?linked, ?ends, ?copy⟩
  case start =>
    refine completes_reply (fun _ _ => rfl) (fun _ _ hop _ => decide_eq_true hop) ?_
    rintro s k - ⟨hlinked, hnone⟩
    simp only [jobRefusal_of_none _ hnone, hlinked]
    rfl
  case linked =>
    refine completes_reply (fun _ _ => rfl) (fun _ _ hop _ => decide_eq_true hop) ?_
    rintro s k - ⟨hlinked, hnone⟩
    simp only [State.draw, jobRefusal_of_none _ hnone, hlinked, Bool.true_and]
    cases (Config.freeValue s.fresh).getLsbD 0 <;> rfl
  case ends =>
    refine completes_reply (fun _ _ => rfl) (fun _ _ hop _ => decide_eq_true hop) ?_
    intro s k _ hrun
    simp only [hrun, Bool.not_true, Bool.false_eq_true, if_false]
    split <;> rfl
  case copy =>
    intro s src k h hok
    refine ⟨_, rfl, _, rfl, congrArg pumpEvery ?_⟩
    rw [runVoted_accepted h (decide_eq_true h.opcode), if_pos hok]
    rfl

/-! ## Folds over stalls -/

/-- `t` is `s` with nothing changed but its stalls. -/
def StallsOnly (s t : State) : Prop := t = { s with stalls := t.stalls }

section

variable {s t u : State}

theorem StallsOnly.trans (h : StallsOnly s t) (g : StallsOnly t u) : StallsOnly s u := by
  unfold StallsOnly at *
  rw [g, h]

theorem StallsOnly.part (h : StallsOnly s t) (q : Nat) : t.part q = s.part q := by
  rw [h]
  rfl

theorem StallsOnly.sameBytes (h : StallsOnly s t) : SameBytes s t := by
  rw [h]
  exact ⟨rfl, rfl, rfl, rfl⟩

theorem foldl_modStall_stallsOnly (f : Nat → Stall → Stall) (l : List Nat) (s : State) :
    StallsOnly s (l.foldl (fun s i => s.modStall i (f i)) s) :=
  foldl_related (R := StallsOnly) (f := fun s i => s.modStall i (f i)) (fun _ => rfl) (fun _ _ _ => .trans) (fun _ _ => rfl) l s

/-- A change made to every stall of a list is made once to each. -/
theorem stall_foldl_modStall (f : Stall → Stall) {l : List Nat} (hl : l.Nodup) (s : State) (i : Nat) :
    (l.foldl (fun s i => s.modStall i f) s).stall i = if i ∈ l then f (s.stall i) else s.stall i := by
  induction l generalizing s with
  | nil => simp
  | cons j r ih =>
    rw [List.nodup_cons] at hl
    obtain ⟨hj, hr⟩ := hl
    rw [List.foldl_cons, ih hr]
    by_cases hi : i = j
    · subst hi
      simp [hj]
    · simp [hi, stall_modStall_other]

theorem stallsOf_nodup (s : State) (p : Nat) : (stallsOf s p).Nodup := List.nodup_range.filter _

theorem stallsOf_congr {p : Nat} (h : (t.part p).record = (s.part p).record) : stallsOf t p = stallsOf s p := by
  rw [stallsOf, stallsOf, h]

end

/-! ## PLAN_UNLOAD -/

/-- An entry that a filter drops is in the table no more. -/
theorem tget?_filter_none {α : Type} {t : Tbl α} {keep : Nat × α → Bool} {k : Nat} (h : ∀ v, keep (k, v) = false) :
    tget? (t.filter keep) k = none := by
  induction t with
  | nil => rfl
  | cons e r ih =>
    obtain ⟨j, v⟩ := e
    rw [List.filter_cons]
    split
    · next hk =>
      have hj : j ≠ k := fun he => by simp [he, h] at hk
      rw [tget?, if_neg hj, ih]
    · exact ih

/-- No key slot of a feeder is filled after a purge of all eight (R443). -/
theorem purgeFeeder_all (f : Feeder) {k : Nat} (hk : k < 8) : tget? (purgeFeeder 0xFF f).slots k = none := by
  have hbits : ∀ k < 8, bit 0xFF k = true := by decide
  exact tget?_filter_none fun _ => by simp [hbits k hk]

section

variable {s : State} {p : Nat}

theorem purgeKeys_record (mask : Nat) : ((purgeKeys s p mask).part p).record = (s.part p).record := by
  rw [purgeKeys, part_modPart_same, (foldl_modStall_stallsOnly _ _ s).part]

theorem purgeKeys_stall {mask i : Nat} (hi : i ∈ stallsOf s p) : (purgeKeys s p mask).stall i = { s.stall i with
    feederMxe := purgeFeeder mask (s.stall i).feederMxe, feederMvu := purgeFeeder mask (s.stall i).feederMvu } :=
  (stall_foldl_modStall _ (stallsOf_nodup s p) s i).trans (if_pos hi)

/-- The partition without its plan, keys and parts: what an accepted PLAN_UNLOAD leaves (R167, R437, R443). -/
def unloaded (s : State) (p : Nat) : State :=
  let t := clearPhases (startPlanEntry s p) p
  let t := (stallsOf t p).foldl (fun s i => s.modStall i (fun x => { x with parts := [] })) t
  t.modPart p (fun q => { q with plan := none, job := { q.job with faulted := false } })

theorem exec_planUnload_idle {p : Fin 64} {e : Entry} (h : EntryAt s p 0 2 e) (hz : e.zero 8 56 = true)
    (hj : (s.part p).job.running = false) : exec (.planUnload p) s = .next (entryDone (unloaded s p) p 0 1) := by
  change execPlanUnload p s = _
  rw [execPlanUnload, runEntry_at (needsJob := false) h nofun]
  simp only [hz, hj]
  rfl

theorem unloaded_part : ((unloaded s p).part p).plan = none ∧ ((unloaded s p).part p).sec.evidence = none := by
  rw [unloaded, part_modPart_same, (foldl_modStall_stallsOnly _ _ _).part, clearPhases, part_modPart_same]
  exact ⟨rfl, purgeSecrets_evidence s p⟩

theorem unloaded_sameBytes : SameBytes s (unloaded s p) :=
  (purgeSecrets_evidenceOnlyLost s p).bytes.trans (foldl_modStall_stallsOnly _ _ (clearPhases (startPlanEntry s p) p)).sameBytes

theorem unloaded_stall {i : Nat} (hi : i ∈ stallsOf s p) : (unloaded s p).stall i =
    { (purgeKeys s p 0xFF).stall i with parts := [] } := by
  have hs : stallsOf (clearPhases (startPlanEntry s p) p) p = stallsOf s p := by
    refine stallsOf_congr ?_
    rw [clearPhases, startPlanEntry, dropEvidence, part_modPart_same, part_modPart_same]
    exact purgeKeys_record 0xFF
  refine (stall_foldl_modStall _ (stallsOf_nodup _ p) _ i).trans (if_pos ?_)
  rwa [hs]

end

/-! ## LAUNCH -/

section

variable (s : State) (p : Nat) (k : Kernel)

theorem startGroups_part : (startGroups s p).part p = { s.part p with
    kernel := { (s.part p).kernel with
      groupsDone := 0
      nextGroup := Nat.min (s.part p).kernel.groups ((s.part p).kernel.slots * (kernelCores (s.part p).kernel).length) }
    zlk := { (s.part p).zlk with itemSeq := [] } } := by
  unfold startGroups
  extract_lets k cs n place gs t u
  rw [part_modPart_same, (foldl_modStall_stallsOnly _ _ t).part p]
  rfl

theorem startGroups_sameBytes : SameBytes s (startGroups s p) := by
  unfold startGroups
  extract_lets k cs n place gs t u
  exact (foldl_modStall_stallsOnly _ _ t).sameBytes

theorem startKernel_part : (startKernel s p k).part p = { s.part p with
    kernel := { k with
      timer := (s.part p).timers, groupsDone := 0
      nextGroup := Nat.min k.groups (k.slots * (kernelCores k).length) }
    zlk := { (s.part p).zlk with partners := ledgerPartners s p, itemSeq := [] } } := by
  unfold startKernel
  extract_lets partners t u
  rw [startGroups_part, part_modPart_same, (foldl_modStall_stallsOnly _ _ s).part p]
  rfl

theorem startKernel_sameBytes : SameBytes s (startKernel s p k) := by
  unfold startKernel
  extract_lets partners t u
  exact (foldl_modStall_stallsOnly _ _ s).sameBytes.trans (startGroups_sameBytes u p)

end

/-- A job runs in the partition, and its next unit may start: none is in progress and no SERVE entry goes before (R202). -/
structure UnitMayStart (s : State) (p : Nat) : Prop where
  job : (s.part p).job.running = true
  idle : unitBusy s p = false
  first : serveFirst s p = false
  started : (s.part p).job.awaitStart = false
  running : (s.part p).state = .running

section

variable {s : State} {p : Fin 64} {e : Entry}

theorem exec_launch_starts (h : EntryAt s p 1 0x10 e) (hok : launchOk e = true) (hq : (s.queue p 1).inProgress = false)
    (hst : launchStallsBad s p (e.get 32 8) = false) (hw : waitMet s p (e.get 64 8) (e.get 72 8) = .ok true)
    (hmay : UnitMayStart s p) (hready : unitReady s p = false) :
    exec (.launch p) s = .next (startKernel (s.modQueue p 1 fun q => { q with inProgress := true }) p (kernelOf e)) := by
  obtain ⟨hj, hidle, hfirst, hstarted, hrun⟩ := hmay
  change execLaunch p s = _
  rw [execLaunch, hq, if_neg Bool.false_ne_true, runEntry_at h fun _ => hj]
  simp [hok, hst, hw, hidle, hfirst, hready, hstarted, hrun]

/-! ## PLAN_RUN and PLAN_LOAD -/

theorem exec_planRun_starts (h : EntryAt s p 0 3 e) (hok : planRunOk e = true) (hq : (s.queue p 0).inProgress = false)
    (hle : e.get 8 2 ≤ e.get 10 2) (hlt : e.get 10 2 < bellCount (imageOf s p))
    (hw : waitMet s p (e.get 16 8) (e.get 24 8) = .ok true) (hmay : UnitMayStart s p) :
    exec (.planRun p) s = .next (startRun (s.modQueue p 0 fun q => { q with inProgress := true }) p
      { first := e.get 8 2, last := e.get 10 2, repeatLeft := e.get 12 4, signal := e.get 32 8, signalValue := e.get 40 8 }) := by
  obtain ⟨hj, hidle, hfirst, hstarted, hrun⟩ := hmay
  change execPlanRun p s = _
  rw [execPlanRun, hq, if_neg Bool.false_ne_true, runEntry_at h fun _ => hj]
  simp [hok, Nat.not_lt.2 hle, Nat.not_le.2 hlt, hw, hidle, hfirst, hstarted, hrun]

theorem exec_planLoad_idle (h : EntryAt s p 0 1 e) (hsrc : isVa (e.get 8 8) = true) (hres : isVa (e.get 24 8) = true)
    (halign : e.get 24 8 % 64 = 0) (hz : e.zero 32 32 = true)
    (hj : (s.part p).job.running = false) (hplan : (s.part p).plan = none) :
    exec (.planLoad p) s = .next (loadImage s p (e.get 8 8) (e.get 16 8) (e.get 24 8)) := by
  change execPlanLoad p s = _
  rw [execPlanLoad, runEntry_at (needsJob := false) h nofun]
  simp [hsrc, hres, halign, hz, hj, hplan]

end

/-! ## Parts that page in -/

/-- The bell entry whose part a stall waits for: the one after that of a running epoch, else the one the range stands at
(R148, R296). -/
def pagedFor (s : State) (p i : Nat) : Option Nat :=
  if (s.part p).epoch.running && (s.part p).epoch.stage ≠ 4 && !(s.stall i).repage then nextEntry s p
  else (s.part p).run.map fun _ => (s.part p).epoch.entry

theorem exec_partPaged_wanted {s : State} {p i : Fin 64} {b q : Nat} (hi : bit (s.part p).record.stalls i = true)
    (hplan : (s.part p).plan.isSome = true) (hb : pagedFor s p i = some b)
    (hq : partAt s (imageOf s p) (bellAt (imageOf s p) b).epoch i = some q) :
    exec (.partPaged p i) s = .next (if partFits s (imageOf s p) i q = false then s
      else tryStart (s.modStall i fun x => { x with
        parts := (q :: x.parts).eraseDups, repage := false, badParts := x.badParts.filter (fun y => y ≠ q) }) p) := by
  have hnone : (s.part p).plan.isNone = false := by simpa using hplan
  rw [pagedFor] at hb
  change execPartPaged p i s = _
  simp only [execPartPaged, hi, hnone, hb, hq]
  simp

theorem pagedFor_next {s : State} {p i : Nat} (hr : (s.part p).epoch.running = true) (hst : (s.part p).epoch.stage ≠ 4)
    (hpage : (s.stall i).repage = false) : pagedFor s p i = nextEntry s p := by
  simp [pagedFor, hr, hst, hpage]

theorem pagedFor_standing {s : State} {p i : Nat} (hr : (s.part p).epoch.running = false)
    (hrun : (s.part p).run.isSome = true) : pagedFor s p i = some (s.part p).epoch.entry := by
  obtain ⟨r, hrun⟩ := Option.isSome_iff_exists.1 hrun
  simp [pagedFor, hr, hrun]

/-- Settles O43: one lemma for each entry, and the bell entry whose part a stall waits for. -/
theorem planEntriesLoadRunAndUnload : Obligations.PlanEntriesLoadRunAndUnload := by
  refine ⟨?load, ?unload, ?run, ?launch, ?paged⟩
  case load =>
    rintro p e hsrc hres halign hz s ⟨h, hj, hplan⟩
    exact ⟨_, exec_planLoad_idle h hsrc hres halign hz hj hplan, rfl⟩
  case unload =>
    rintro p e hz s ⟨h, hj⟩
    obtain ⟨hplan, hevidence⟩ := unloaded_part (s := s) (p := p)
    refine ⟨_, exec_planUnload_idle h hz hj, unloaded s p, rfl, hplan, hevidence, fun i hi => ?_, unloaded_sameBytes⟩
    rw [unloaded_stall hi, purgeKeys_stall hi]
    exact ⟨rfl, fun _ hk => ⟨purgeFeeder_all _ hk, purgeFeeder_all _ hk⟩⟩
  case run =>
    rintro p e hok s ⟨h, hq, hj, hle, hlt, hw, hbusy, hserve, hstart, hrun⟩
    exact ⟨_, exec_planRun_starts h hok hq hle hlt hw ⟨hj, hbusy, hserve, hstart, hrun⟩, rfl⟩
  case launch =>
    rintro p e hok s ⟨h, hq, hj, hst, hw, hbusy, hserve, hready, hstart, hrun⟩
    refine ⟨_, exec_launch_starts h hok hq hst hw ⟨hj, hbusy, hserve, hstart, hrun⟩ hready, ?_⟩
    dsimp only
    rw [State.queue, startKernel_part, State.modQueue, part_modPart_same]
    exact ⟨by rw [tget_tmod_same], rfl, rfl, rfl, rfl, rfl, rfl, rfl, rfl, rfl, startKernel_sameBytes _ _ _⟩
  case paged =>
    rintro p i b q s ⟨hi, hplan, hq, hwait⟩
    have hb : pagedFor s p i = some b := by
      rcases hwait with ⟨hr, hst, hpage, hnext⟩ | ⟨hr, hrun, rfl⟩
      · exact (pagedFor_next hr hst hpage).trans hnext
      · exact pagedFor_standing hr hrun
    exact ⟨_, exec_partPaged_wanted hi hplan hb hq, rfl⟩

/-! ## What the committed view rests on -/

theorem line_modLine_other {s : State} {p a q b : Nat} {f : Line → Line} (h : ¬(q = p ∧ b = a)) :
    (s.modLine p a f).line q b = s.line q b := by
  unfold State.line State.modLine
  by_cases hq : q = p
  · subst hq
    rw [part_modPart_same, tget_tmod_other fun hb => h ⟨rfl, hb⟩]
  · rw [part_modPart_other _ _ hq]

/-- `t` shows what `s` shows at the homes: the same lines, L1s and memory, and partitions with the same place and plan. -/
structure ViewSame (s t : State) : Prop where
  line : ∀ q b, t.line q b = s.line q b
  present : ∀ q, (t.part q).present = (s.part q).present
  record : ∀ q, (t.part q).record = (s.part q).record
  plan : ∀ q, (t.part q).plan = (s.part q).plan
  l1s : t.l1s = s.l1s
  mem : t.mem = s.mem

namespace ViewSame

variable {s t u : State}

theorem trans (h : ViewSame s t) (g : ViewSame t u) : ViewSame s u where
  line q b := (g.line q b).trans (h.line q b)
  present q := (g.present q).trans (h.present q)
  record q := (g.record q).trans (h.record q)
  plan q := (g.plan q).trans (h.plan q)
  l1s := g.l1s.trans h.l1s
  mem := g.mem.trans h.mem

theorem tallyAdd {p c k : Nat} : ViewSame s (tallyAdd s p c k) where
  line _ _ := line_tallyAdd
  present _ := part_field_modPart Part.present fun _ => rfl
  record _ := part_field_modPart Part.record fun _ => rfl
  plan _ := part_field_modPart Part.plan fun _ => rfl
  l1s := rfl
  mem := rfl

/-- A line set to what it is shows the same. -/
theorem modLine {p a : Nat} {f : Line → Line} (h : f (s.line p a) = s.line p a) : ViewSame s (s.modLine p a f) where
  line q b := by
    by_cases hb : q = p ∧ b = a
    · obtain ⟨rfl, rfl⟩ := hb
      rw [line_modLine_same, h]
    · exact line_modLine_other hb
  present _ := part_field_modPart Part.present fun _ => rfl
  record _ := part_field_modPart Part.record fun _ => rfl
  plan _ := part_field_modPart Part.plan fun _ => rfl
  l1s := rfl
  mem := rfl

theorem ownerOf_eq (h : ViewSame s t) (a : Nat) : ownerOf t a = ownerOf s a := by
  simp only [ownerOf, granted, h.present, h.record]

theorem inHeldImage_eq (h : ViewSame s t) (a : Nat) : inHeldImage t a = inHeldImage s a := by
  simp only [inHeldImage, h.ownerOf_eq, h.plan]

theorem readCommitted_eq (h : ViewSame s t) (a n : Nat) : readCommitted t a n = readCommitted s a n := by
  have hl1 (l : L1Id) (b : Nat) : t.l1Line l b = s.l1Line l b := by rw [State.l1Line, State.l1Line, h.l1s]
  simp only [readCommitted, h.ownerOf_eq, committedByte, belowByte, memoryByte, ownerByte, mOwner, h.line, hl1, h.mem]

theorem poisonAt_eq (h : ViewSame s t) (p a x : Nat) : poisonAt t p a x = poisonAt s p a x := by
  simp only [poisonAt, readsMemory, h.line]

end ViewSame

/-! ## Requests of the host at a line in the sets -/

section

variable {s : State} {p a : Nat} {x : BitVec 44}

/-- A lookup of a line in the sets is counted, once in all and once by what it met, and changes nothing else (R238). -/
theorem access_counted {ag : Agent} {own : Nat} {al : MissFill} (h : (s.line p a).state ≠ .absent)
    (hs : (s.line p a).streamed = false) :
    ∃ c k, access s p a ag own al = tallyAdd (tallyAdd s p c 0) p c k := by
  simp only [access]
  split
  · exact ⟨_, _, rfl⟩
  · rw [if_pos (by simpa using h), if_neg (by simp [hs])]
    exact ⟨_, _, rfl⟩

/-- A request that snoops no L1 and needs nothing of the host ends at once (R221). -/
theorem beginRequest_alone {r : HomeRequest} (h : (s.line p a).state ≠ .absent) (hs : (s.line p a).streamed = false)
    (hsnoop : ∀ t, ViewSame s t → ∀ f ∈ (s.line p a).filter, snoopFor t p a r f = none)
    (hhost : ∀ t, ViewSame s t → needsHost t p a r = false) :
    ∃ t, ViewSame s t ∧ t.out = s.out ∧ beginRequest s p a r = spendRead (finish t p a r []) p a := by
  obtain ⟨c, k, hu⟩ := access_counted (ag := agentOf r) (own := ownClass s p a (agentOf r)) (al := missFill r) h hs
  have hview : ViewSame s (tallyAdd (tallyAdd s p c 0) p c k) := ViewSame.tallyAdd.trans .tallyAdd
  refine ⟨_, hview, rfl, ?_⟩
  unfold beginRequest
  rw [hu]
  extract_lets u snoops host v w
  have hsnoops : snoops = [] := by
    refine List.filterMap_eq_nil_iff.2 fun f hf => ?_
    rw [hview.line] at hf
    rw [hsnoop _ hview f hf, Option.map_none]
  rw [if_pos (by simp [hsnoops, host, u, hhost _ hview])]

/-- A request that is not blocked, whether or not it is on the waiting list, begins at once at a free line (R220). -/
theorem arrive_unblocked {r : HomeRequest} (h : Resident s p a) (hn : blocked s p a r = false)
    (hw : blocked (s.modLine p a fun n => { n with waiting := [r] }) p a r = blocked s p a r) :
    arrive s p a r = beginRequest (s.modLine p a fun n => { n with waiting := [] }) p a r := by
  have hb := hw.trans hn
  rw [blocked, Bool.or_eq_false_iff, Bool.not_eq_false'] at hn hb
  exact arrive_resident h hn.1 hb.1 hb.2

/-- Nothing waits at a free line, and its waiting list emptied shows the same. -/
theorem Resident.emptied (h : Resident s p a) : ViewSame s (s.modLine p a fun n => { n with waiting := [] }) :=
  .modLine (by rw [← h.none])

/-- A request that is not blocked, snoops no L1 and needs nothing of the host is performed at once at a free line (R220,
R221). -/
theorem arrive_alone {r : HomeRequest} (h : Resident s p a) (hn : blocked s p a r = false)
    (hw : blocked (s.modLine p a fun n => { n with waiting := [r] }) p a r = blocked s p a r)
    (hsnoop : ∀ t, ViewSame s t → ∀ f ∈ (s.line p a).filter, snoopFor t p a r f = none)
    (hhost : ∀ t, ViewSame s t → needsHost t p a r = false) :
    ∃ t, ViewSame s t ∧ t.out = s.out ∧ arrive s p a r = spendRead (finish t p a r []) p a := by
  obtain ⟨t, ht, hout, hbegin⟩ := beginRequest_alone (s := s.modLine p a fun n => { n with waiting := [] })
    (p := p) (a := a) (r := r) (by simpa using h.valid) (by simpa using h.sets)
    (fun t ht f hf => hsnoop t (h.emptied.trans ht) f (by rwa [h.emptied.line] at hf))
    (fun t ht => hhost t (h.emptied.trans ht))
  exact ⟨t, h.emptied.trans ht, hout, (arrive_unblocked h hn hw).trans hbegin⟩

/-- What keeps a host read waiting at a line in the sets (R234, R249, R268). -/
theorem blocked_memRd {grant : Bool} (hown : isRemoteLine a = false) (hv : (s.line p a).state ≠ .absent) :
    blocked s p a (.memRd x grant) = (readsWait s p || (s.part p).state == .resetting ||
      !decide (maskWithout (if readsMemory s p a true then 2 ^ (x.toNat % 1024 / 128) else 0) (s.line p a).here = 0)) := by
  have hplaces : placesLine s p a .host .stream = false := by simp [placesLine, hv]
  simp only [blocked, held, memoryHere, needMask, stillOut, hereFor, isOutsideWrite, isOutsideRead, agentOf, isOutside, hown,
    missFill, hplaces]
  cases readsMemory s p a true <;> simp

theorem blocked_memRd_waiting {grant : Bool} {ws : List HomeRequest} (h : Resident s p a) :
    blocked (s.modLine p a fun n => { n with waiting := ws }) p a (.memRd x grant) = blocked s p a (.memRd x grant) := by
  have hown := homed_own h.toHomed
  rw [blocked_memRd hown h.valid, blocked_memRd hown (by simpa using h.valid)]
  simp only [readsWait, readsMemory, line_modLine_same]
  simp [State.modLine]

theorem maskWithout_zero (n : Nat) : maskWithout 0 n = 0 := by
  have hbits : setBits 0 8 = [] := by decide
  rw [maskWithout, hbits]
  rfl

/-- A host write waits at a line that a unit holds staged and in a partition that is reset, and needs nothing of memory
(R234). -/
theorem blocked_memWr {data : List Byte} (hown : isRemoteLine a = false) : blocked s p a (.memWr x data) =
    (isStagedLine (s.line p a) || (s.part p).state == .resetting) := by
  have hneed : needMask s p a (.memWr x data) = 0 := ite_self 0
  simp [blocked, held, memoryHere, hneed, stillOut, maskWithout_zero, isOutsideWrite, isOutsideRead, hown]

theorem blocked_memWr_waiting {data : List Byte} {ws : List HomeRequest} (h : Resident s p a) :
    blocked (s.modLine p a fun n => { n with waiting := ws }) p a (.memWr x data) = blocked s p a (.memWr x data) := by
  have hown := homed_own h.toHomed
  rw [blocked_memWr hown, blocked_memWr hown]
  simp only [line_modLine_same]
  simp [State.modLine, isStagedLine]

end

/-! ## Reads and writes of the host performed -/

section

variable {s : State} {p a : Nat} {x : BitVec 44}

theorem spendRead_line : (spendRead s p a).line p a = spent (s.line p a) := by
  unfold spendRead spent
  split
  · rfl
  · rw [line_modLine_same]

theorem spendRead_rest : (spendRead s p a).out = s.out ∧ (spendRead s p a).mem = s.mem := by
  unfold spendRead
  split <;> exact ⟨rfl, rfl⟩

/-- What reads have brought goes with its line's state and bytes as they are. -/
theorem spent_rest (n : Line) : (spent n).state = n.state ∧ (spent n).data = n.data := by
  unfold spent
  split <;> exact ⟨rfl, rfl⟩

/-- A host read puts out its cacheline, and sets the HOST bit exactly if the host keeps the line (R233, R285). -/
theorem finish_memRd {grant : Bool} {snap : List Host.Cell} :
    (finish s p a (.memRd x grant) snap).out =
      .memData x.toNat (cacheline s x.toNat) (poisonAt s p a x.toNat) :: s.out ∧
    (finish s p a (.memRd x grant) snap).line p a = { s.line p a with host := (s.line p a).host || grant } ∧
    (finish s p a (.memRd x grant) snap).mem = s.mem := by
  cases grant with
  | false => exact ⟨rfl, by rw [Bool.or_false]; rfl, rfl⟩
  | true =>
    refine ⟨rfl, ?_, rfl⟩
    rw [Bool.or_true]
    exact line_modLine_same ..

/-- A read of a line in the sets that no L1 owns and that need not wait is answered at once (R233). -/
theorem arrive_memRd {grant : Bool} (h : Resident s p a) (hf : ∀ f ∈ (s.line p a).filter, f.owner = false)
    (hb : blocked s p a (.memRd x grant) = false) :
    (arrive s p a (.memRd x grant)).out =
      .memData x.toNat (cacheline s x.toNat) (poisonAt s p a x.toNat) :: s.out ∧
    (arrive s p a (.memRd x grant)).line p a =
      spent { s.line p a with host := (s.line p a).host || grant } ∧
    (arrive s p a (.memRd x grant)).mem = s.mem := by
  obtain ⟨t, hview, hout, harrive⟩ := arrive_alone h hb (blocked_memRd_waiting h)
    (fun _ _ f hm => by simp [snoopFor, hf f hm]) (fun _ _ => by simp [needsHost])
  obtain ⟨ho, hl, hm⟩ := finish_memRd (s := t) (p := p) (a := a) (x := x) (grant := grant) (snap := [])
  rw [harrive, spendRead_rest.1, spendRead_rest.2, spendRead_line, ho, hl, hm, hview.line, hview.mem, hout,
    hview.poisonAt_eq, cacheline, hview.readCommitted_eq]
  exact ⟨rfl, rfl, rfl⟩

theorem noteTables_line (cells : List Host.Cell) (q b : Nat) : (noteTables s p a cells).line q b = s.line q b := by
  unfold noteTables
  split
  · exact line_modPart fun _ => rfl
  · rfl

theorem noteTables_rest (cells : List Host.Cell) : (noteTables s p a cells).out = s.out ∧
    (noteTables s p a cells).mem = s.mem := by
  obtain ⟨q, hq⟩ := noteTables_parts (s := s) (p := p) (a := a) (cells := cells)
  rw [hq]
  exact ⟨rfl, rfl⟩

theorem forgetReads_out : (forgetReads s p a).out = s.out := by
  unfold forgetReads
  extract_lets l
  split <;> rfl

/-- What reads have brought goes; a line of which no burst came back wrong keeps all else that it is. -/
theorem forgetReads_good (h : (s.line p a).bad = 0) : (forgetReads s p a).line p a =
    { s.line p a with here := ((forgetReads s p a).line p a).here, bad := 0, met := ((forgetReads s p a).line p a).met
                      wrong := ((forgetReads s p a).line p a).wrong } := by
  unfold forgetReads
  extract_lets l
  split
  · rw [← h]
  · simp [h, l]

theorem logDevice_out (phys : Nat) : (logDevice s p phys).out = s.out := by
  unfold logDevice
  split
  · rfl
  · extract_lets i
    split
    · split <;> rfl
    · rfl

/-- A committed write of a line in the sets that no L1 holds and no unit stages makes it dirty with those bytes over it, and
leaves memory as it was (R234). -/
theorem writeCommitted_unheld (hv : (s.line p a).state ≠ .absent) (hs : (s.line p a).streamed = false)
    (hf : (s.line p a).filter = []) (hbad : (s.line p a).bad = 0) (hst : isStagedLine (s.line p a) = false)
    (cells : List Host.Cell) :
    (writeCommitted s p a cells).out = s.out ∧ (writeCommitted s p a cells).mem = s.mem ∧
      ((writeCommitted s p a cells).line p a).state = .dirty ∧
      ((writeCommitted s p a cells).line p a).data = olay (s.line p a).data cells := by
  obtain ⟨u, hu⟩ : ∃ u, u = forgetReads (noteTables s p a cells) p a := ⟨_, rfl⟩
  have hline := forgetReads_good (s := noteTables s p a cells) (p := p) (a := a) (by rw [noteTables_line, hbad])
  rw [← hu, noteTables_line] at hline
  have hw : writeCommitted s p a cells = logDevice (unDead (u.modLine p a fun l =>
      { l with state := .dirty, data := olay l.data cells }) p a) p (linePhys a) := by
    have hstaged : isStagedLine (u.line p a) = false := by rw [hline]; exact hst
    have hvalid : ¬((u.line p a).state == .absent) = true := by rw [hline]; simpa using hv
    have hstreamed : ¬(u.line p a).streamed = true := by rw [hline]; simp [hs]
    rw [writeCommitted, dropL1s_unheld (by rw [noteTables_line, hf]), ← hu]
    simp only [toSets, if_neg hstreamed, if_neg hvalid, hstaged, Bool.false_eq_true, if_false]
  have hrest := noteTables_rest (s := s) (p := p) (a := a) cells
  rw [hw, logDevice_out, logDevice_mem, logDevice_line, line_unDead, line_modLine_same, hline]
  refine ⟨?_, ?_, rfl, rfl⟩
  · exact (congrArg State.out hu).trans (forgetReads_out.trans hrest.1)
  · exact (congrArg State.mem hu).trans ((forgetReads_mem _ p a).trans hrest.2)

/-- A write to a line in the sets that nobody holds and no unit stages is performed at once (R234). -/
theorem arrive_memWr {data : List Byte} (h : Resident s p a) (hnone : HeldByNone s p a) (hbad : (s.line p a).bad = 0)
    (hst : isStagedLine (s.line p a) = false) (hreset : (s.part p).state ≠ .resetting) (hi : inHeldImage s x.toNat = false) :
    (arrive s p a (.memWr x data)).out = .memDone x.toNat Status.ok 0 :: s.out ∧
    ((arrive s p a (.memWr x data)).line p a).state = .dirty ∧
    ((arrive s p a (.memWr x data)).line p a).data =
      olay (s.line p a).data (cellsAt (x.toNat % 1024) (data.take 64)) ∧
    (arrive s p a (.memWr x data)).mem = s.mem := by
  obtain ⟨hfilter, -⟩ := hnone
  have hb : blocked s p a (.memWr x data) = false := by
    rw [blocked_memWr (homed_own h.toHomed), hst]
    simpa using hreset
  obtain ⟨t, hview, hout, harrive⟩ := arrive_alone h hb (blocked_memWr_waiting h)
    (fun _ _ f hm => by simp [hfilter] at hm) (fun _ _ => by simp [needsHost])
  have hline := hview.line p a
  obtain ⟨ho, hm, hstate, hdata⟩ := writeCommitted_unheld (s := t) (p := p) (a := a) (by rw [hline]; exact h.valid)
    (by rw [hline, h.sets]) (by rw [hline, hfilter]) (by rw [hline, hbad]) (by rw [hline, hst])
    (cellsAt (x.toNat % 1024) (data.take 64))
  have hfinish : finish t p a (.memWr x data) [] = (writeCommitted t p a (cellsAt (x.toNat % 1024) (data.take 64))).emit
      (.memDone x.toNat Status.ok 0) := if_neg (by rw [hview.inHeldImage_eq, hi]; decide)
  obtain ⟨hsState, hsData⟩ := spent_rest ((finish t p a (.memWr x data) []).line p a)
  rw [harrive, spendRead_rest.1, spendRead_rest.2, spendRead_line, hsState, hsData, hfinish]
  refine ⟨?_, hstate, ?_, ?_⟩
  · rw [emit_out, ho, hout]
  · exact hdata.trans (by rw [hline])
  · rw [emit_mem, hm, hview.mem]

end

/-! ## MEMRD, MEMWR, HOST_SNOOP and BICONFLICT -/

section

variable {s : State} {address : BitVec 44}

/-- The cacheline of an address, as an operand. -/
theorem cacheline_toNat (address : BitVec 44) :
    (BitVec.ofNat 44 (address.toNat / 64 * 64)).toNat = address.toNat / 64 * 64 := by
  have := address.isLt
  rw [BitVec.toNat_ofNat]
  omega

/-- A cacheline lies in the line, and in the burst, of each of its bytes. -/
theorem cacheline_place (n : Nat) : n / 64 * 64 / 1024 = n / 1024 ∧ n / 64 * 64 % 1024 / 128 = n % 1024 / 128 := by omega

theorem exec_memrd_owned {m : MetaValue} {p : Nat} (hlow : address.toNat < lsmTop) (hu : hostUp s = true)
    (ho : homeOwner (wakeBy s 1) (address.toNat / 64 * 64) = some p) :
    exec (.memrd address m) s = .next (arrive (wakeBy s 1) p (address.toNat / 1024)
      (.memRd (BitVec.ofNat 44 (address.toNat / 64 * 64)) (m != .invalid))) := by
  change execMemrd address m s = _
  simp only [execMemrd]
  rw [hostAsks_up hu, if_neg (by omega), ho]
  simp only [cacheline_place]

theorem exec_memrd_unowned {m : MetaValue} (hlow : address.toNat < lsmTop) (hu : hostUp s = true)
    (ho : homeOwner (wakeBy s 1) (address.toNat / 64 * 64) = none) :
    exec (.memrd address m) s = .next (queueAccess (wakeBy s 1)
      { requester := deviceTraffic, line := address.toNat / 1024, mask := 2 ^ (address.toNat % 1024 / 128), write := false
        reader := .host, address := address.toNat / 64 * 64 }) := by
  change execMemrd address m s = _
  simp only [execMemrd]
  rw [hostAsks_up hu, if_neg (by omega), ho]
  simp only [cacheline_place]

theorem exec_memwr_owned {data : List Byte} {p : Nat} (hlow : address.toNat < lsmTop) (hu : hostUp s = true)
    (hb : (wakeBy s 1).boot.stage ≠ .fatal) (ho : homeOwner (wakeBy s 1) (address.toNat / 64 * 64) = some p) :
    exec (.memwr address data) s = .next (if inHeldImage (wakeBy s 1) (address.toNat / 64 * 64) then
        (wakeBy s 1).emit (.memDone (address.toNat / 64 * 64) Status.badAddress Detail.planHeld)
      else arrive (wakeBy s 1) p (address.toNat / 1024) (.memWr (BitVec.ofNat 44 (address.toNat / 64 * 64)) data)) := by
  change execMemwr address data s = _
  simp only [execMemwr]
  rw [hostAsks_up hu, if_neg (by omega), if_neg (by simpa using hb), ho]
  simp only [cacheline_place]

theorem exec_memwr_unowned {data : List Byte} (hlow : address.toNat / 64 * 64 < lsmTop) (hu : hostUp s = true)
    (hb : (wakeBy s 1).boot.stage ≠ .fatal) (ho : homeOwner (wakeBy s 1) (address.toNat / 64 * 64) = none) :
    exec (.memwr address data) s = .next (if sesTable ≤ address.toNat / 64 * 64 then
        (wakeBy s 1).emit (.memDone (address.toNat / 64 * 64) Status.badAddress Detail.sesTable)
      else (queueAccess { wakeBy s 1 with
          mem := mwrites (wakeBy s 1).mem (address.toNat / 64 * 64) (data.take 64)
          clean := clearBit (wakeBy s 1).clean (address.toNat / 64 * 64 / unitBytes) }
        { requester := deviceTraffic, line := address.toNat / 1024, mask := 2 ^ (address.toNat % 1024 / 128)
          write := true, reader := .host }).emit (.memDone (address.toNat / 64 * 64) Status.ok 0)) := by
  change execMemwr address data s = _
  simp only [execMemwr]
  rw [hostAsks_up hu, if_neg (by omega), if_neg (by simpa using hb), ho]
  simp only [cacheline_place]

theorem exec_biconflict_awaited {p a : Nat} {r : HomeRequest} (ha : a = address.toNat / 64 * 64 / 1024)
    (ho : homeOwner s (address.toNat / 64 * 64) = some p) (haw : address.toNat / 64 * 64 ∈ (s.line p a).awaitHost)
    (hr : (s.line p a).waiting.find? (isHostRequest (address.toNat / 64 * 64)) = some r) :
    exec (.biconflict address) s = .next (if blocked s p a r then askFor s p a r
      else spendRead (finish (s.modLine p a fun n => { n with waiting := n.waiting.erase r }) p a r []) p a) := by
  subst ha
  change execBiconflict address s = _
  simp only [execBiconflict]
  rw [ho]
  simp only [haw, if_true, hr]

end

/-- Settles O38: one lemma for each command, by whether a partition has the line, and what the two requests do at a free
line in the sets. -/
theorem hostAccessesThroughCxlMem : Obligations.HostAccessesThroughCxlMem := by
  refine ⟨?readMemory, ?readLine, ?table, ?writeMemory, ?image, ?writeLine, ?snoop, ?conflict⟩
  case readMemory => exact fun _ _ hlow s hu ho => ⟨_, exec_memrd_unowned hlow hu ho, rfl⟩
  case readLine =>
    rintro address m p hlow s hu ⟨ho, hres, hf, hb⟩
    have h := arrive_memRd hres hf hb
    rw [cacheline_toNat] at h
    exact ⟨_, exec_memrd_owned hlow hu ho, h⟩
  case table =>
    rintro address data hses hlow s hu ⟨hb, ho⟩
    exact ⟨_, exec_memwr_unowned (by omega) hu hb ho, if_pos hses⟩
  case writeMemory =>
    rintro address data hses s hu ⟨hb, ho⟩
    exact ⟨_, exec_memwr_unowned (Nat.lt_of_lt_of_le hses (by decide)) hu hb ho, if_neg (Nat.not_le.2 hses)⟩
  case image =>
    rintro address data p hlow s hu ⟨hb, ho, hi⟩
    exact ⟨_, exec_memwr_owned hlow hu hb ho, if_pos hi⟩
  case writeLine =>
    rintro address data p hlow s hu ⟨hb, ho, hi, hres, hnone, hbad, hst, hreset⟩
    have h := arrive_memWr (x := BitVec.ofNat 44 (address.toNat / 64 * 64)) (data := data) hres hnone hbad hst hreset
      (by rwa [cacheline_toNat])
    rw [cacheline_toNat] at h
    exact ⟨_, (exec_memwr_owned hlow hu hb ho).trans (congrArg _ (if_neg (ne_true_of_eq_false hi))), h⟩
  case snoop => exact fun hpa s hu _ => ⟨_, congrArg Host.Outcome.next (hostAsks_up hu), rfl⟩
  case conflict =>
    rintro address p a r ha s ⟨ho, haw, hr⟩
    exact ⟨_, exec_biconflict_awaited ha ho haw hr, rfl⟩

end Sys2Proof.Machine
end

section
/-! SUPPORT. The statement of the stacked memory family, and what its events do: accesses of a channel (R271, R272), bursts that
come back and their reissues (R276, R278, R280 to R285), refresh, recalibration and retraining (R273 to R275), and the
temperatures of the stacks (R287, R288) (O49). -/

namespace Sys2Proof.Machine

/-! ## Updates of channels -/

/-- `t` is `s` with nothing changed but its memory channels. -/
def ChansOnly (s t : State) : Prop := t = { s with chans := t.chans }

section

variable {s t u : State}

theorem ChansOnly.trans (h : ChansOnly s t) (g : ChansOnly t u) : ChansOnly s u := by
  unfold ChansOnly at *
  rw [g, h]

theorem ChansOnly.parts (h : ChansOnly s t) : t.parts = s.parts := by rw [h]

theorem ChansOnly.hbm (h : ChansOnly s t) : t.hbm = s.hbm := by rw [h]

theorem ChansOnly.line (h : ChansOnly s t) (p a : Nat) : t.line p a = s.line p a := by
  rw [State.line, State.line, State.part, State.part, h.parts]

theorem chan_modChan_other {c k : Nat} (f : Chan → Chan) (h : k ≠ c) : (s.modChan c f).chan k = s.chan k := by
  simp [State.chan, tget_tmod_other h]

/-- A change of one channel leaves all else, and every other channel. -/
theorem modChan_frame (c : Fin 512) (f : Chan → Chan) : ChansOnly s (s.modChan c f) ∧
    ∀ k : Fin 512, k ≠ c → (s.modChan c f).chan k = s.chan k :=
  ⟨rfl, fun _ hk => chan_modChan_other f (Fin.val_ne_of_ne hk)⟩

theorem arbitrate_chansOnly (s : State) (ch : Nat) : ChansOnly s (arbitrate s ch) := by
  unfold arbitrate
  split <;> rfl

theorem burstEnds_chansOnly (s : State) (b : Nat) (x : MemAccess) : ChansOnly s (burstEnds s b x) := by
  unfold burstEnds
  extract_lets m ch
  split
  · have hend : ChansOnly s (s.modChan ch fun c => { c with serving := none }) := rfl
    exact hend.trans (arbitrate_chansOnly _ ch)
  · rfl

end

/-! ## Accesses that are queued (R271, R272) -/

section

variable {c : Chan} {x : MemAccess}

theorem firstOf_alone (hq : c.queue = [x]) (r : Nat) : firstOf c r = if x.requester = r then some x else none := by
  rw [firstOf, hq]
  by_cases h : x.requester = r <;> simp [h]

/-- The turn comes round to every requester. -/
theorem requester_in_round {r : Nat} (turn : Nat) (hr : r ≤ deviceTraffic) :
    r ∈ (List.range 65).map fun k => (turn + 1 + k) % 65 := by
  unfold deviceTraffic at hr
  exact List.mem_map.2 ⟨(r + 65 - (turn + 1) % 65) % 65, List.mem_range.2 (by omega), by omega⟩

/-- The turn passes to the requester of the one access queued. -/
theorem nextRequester_alone (hq : c.queue = [x]) (hr : x.requester ≤ deviceTraffic) :
    nextRequester c = some x.requester := by
  have hsome (r : Nat) : (firstOf c r).isSome = true ↔ r = x.requester := by
    rw [firstOf_alone hq, Option.isSome_ite, eq_comm]
  cases hn : nextRequester c with
  | none => exact absurd ((hsome _).2 rfl) (List.find?_eq_none.1 hn _ (requester_in_round c.turn hr))
  | some r => rw [(hsome r).1 (List.find?_some (p := fun r => (firstOf c r).isSome) hn)]

/-- The one access queued is issued, whatever its requester's allowance and turn. -/
theorem nextAccess_alone (weight : Nat → Nat) (hq : c.queue = [x]) (hr : x.requester ≤ deviceTraffic) :
    (nextAccess weight c).serving = some x ∧ (nextAccess weight c).queue = [] := by
  have hissue (r n : Nat) : (issueAccess c r n x).serving = some x ∧ (issueAccess c r n x).queue = [] := by
    simp [issueAccess, hq]
  have hturn : (nextAccess.takeTurn weight c).serving = some x ∧ (nextAccess.takeTurn weight c).queue = [] := by
    rw [nextAccess.takeTurn, nextRequester_alone hq hr]
    simp only [firstOf_alone hq, if_true]
    exact hissue ..
  rw [nextAccess, firstOf_alone hq]
  by_cases ht : x.requester = c.turn
  · rw [if_pos ht]
    dsimp only
    split
    · exact hissue ..
    · exact hturn
  · rw [if_neg ht]
    exact hturn

end

section

variable {s : State} {x : MemAccess}

/-- An access queued at a channel that serves none and queues none is issued at once (R271). -/
theorem queueAccess_issues (hr : x.requester ≤ deviceTraffic) (hs : (s.chan (channelOf x.line)).serving = none)
    (hq : (s.chan (channelOf x.line)).queue = []) (hrun : (tget s.hbm (stackOfChan (channelOf x.line))).stopped = false) :
    ((queueAccess s x).chan (channelOf x.line)).serving = some x ∧
      ((queueAccess s x).chan (channelOf x.line)).queue = [] := by
  rw [queueAccess, arbitrate, if_neg (by simp [hs, hrun]), chan_modChan_same, chan_modChan_same]
  exact nextAccess_alone _ (by simp [hq]) hr

/-- A stopped stack issues nothing: the access waits (R288). -/
theorem queueAccess_waits (hs : (s.chan (channelOf x.line)).serving = none)
    (hq : (s.chan (channelOf x.line)).queue = []) (hstop : (tget s.hbm (stackOfChan (channelOf x.line))).stopped = true) :
    ((queueAccess s x).chan (channelOf x.line)).serving = none ∧
      ((queueAccess s x).chan (channelOf x.line)).queue = [x] := by
  rw [queueAccess, arbitrate, if_pos (by simp [hstop]), chan_modChan_same]
  exact ⟨hs, by simp [hq]⟩

end

/-! ## Reissues and failures on record (R275, R278, R280, R286) -/

/-- A channel with one more reissue on its count and among its recent ones. -/
def withRetry (now : Nat) (c : Chan) : Chan :=
  { c with
    retries := satInc c.retries (2 ^ 32 - 1), recent := now :: c.recent.filter (fun t => decide (now < t + msTicks)) }

section

variable (s : State) (b : Nat) (write : Bool)

/-- The reissues of an access, once set. -/
theorem attemptsOf_setAttempts (n : Nat) :
    attemptsOf ((setAttempts s b write n).chan (burstChan b)) b write = n := by
  rw [setAttempts, chan_modChan_same]
  by_cases hn : n = 0
  · have hnone : ((s.chan (burstChan b)).attempts.filter fun a => !(decide (a.1 = b) && a.2.1 == write)).find?
        (fun a => decide (a.1 = b) && a.2.1 == write) = none :=
      List.find?_eq_none.2 fun a ha => by
        simpa only [Bool.not_eq_true', Bool.not_eq_true] using (List.mem_filter.1 ha).2
    simp only [attemptsOf, hn, if_true, hnone]
    rfl
  · simp [attemptsOf, hn]

/-- A reissue counts in its channel and is logged; nothing else changes. -/
theorem countRetry_eq : countRetry s b = { s.modChan (burstChan b) (withRetry s.devTime) with
    parts := (countRetry s b).parts, chkLog := (countRetry s b).chkLog, chkCount := (countRetry s b).chkCount } := by
  unfold countRetry
  extract_lets now u
  split <;> rfl

theorem chan_countRetry : (countRetry s b).chan (burstChan b) = withRetry s.devTime (s.chan (burstChan b)) := by
  rw [countRetry_eq]
  exact chan_modChan_same ..

/-- What a burst reissued leaves (R275, R278). -/
theorem reissued (n : Nat) {t : State} (ht : t = setAttempts (countRetry s b) b write n) :
    attemptsOf (t.chan (burstChan b)) b write = n ∧
    (t.chan (burstChan b)).retries = satInc (s.chan (burstChan b)).retries (2 ^ 32 - 1) ∧
    s.devTime ∈ (t.chan (burstChan b)).recent ∧ t.failLog = s.failLog ∧ SameBytes { s with shared := t.shared } t := by
  subst ht
  refine ⟨attemptsOf_setAttempts .., ?retries, ?recent, ?log, ?bytes⟩
  case retries =>
    rw [setAttempts, chan_modChan_same, chan_countRetry]
    rfl
  case recent =>
    rw [setAttempts, chan_modChan_same, chan_countRetry]
    exact List.mem_cons_self
  case log =>
    rw [setAttempts, countRetry_eq]
    rfl
  case bytes =>
    rw [setAttempts, countRetry_eq]
    exact ⟨rfl, rfl, rfl, rfl⟩

theorem chan_recordFailure : (recordFailure s b write).chan (burstChan b) = { s.chan (burstChan b) with
    persistent := satInc (s.chan (burstChan b)).persistent 65535 } := by
  simp [recordFailure, State.chan]

/-- What a persistent failure leaves on record (R280, R286). -/
theorem recordFailure_made {u : State} (hu : u = recordFailure (setAttempts s b write 0) b write) :
    u.failCount = s.failCount + 1 ∧ (u.failLog.head?.map fun r => (r.burst, r.write)) = some (b, write) ∧
    (u.chan (burstChan b)).persistent = satInc (s.chan (burstChan b)).persistent 65535 ∧
    attemptsOf (u.chan (burstChan b)) b write = 0 ∧ u.parts = s.parts ∧ u.mem = s.mem := by
  have hchan : u.chan (burstChan b) = { (setAttempts s b write 0).chan (burstChan b) with
      persistent := satInc (s.chan (burstChan b)).persistent 65535 } := by
    rw [hu, chan_recordFailure, setAttempts, chan_modChan_same]
  refine ⟨by rw [hu]; rfl, by rw [hu]; rfl, by rw [hchan], ?_, by rw [hu]; rfl, by rw [hu]; rfl⟩
  rw [hchan]
  exact attemptsOf_setAttempts s b write 0

end

/-! ## Bursts that come back (R276, R278, R280, R282) -/

/-- A line with its burst `i` here and good (R268, R282). -/
def withGoodBurst (l : Line) (i : Nat) : Line :=
  { l with
    asked := clearBit l.asked i, here := setBit l.here i, bad := clearBit l.bad i, met := clearBit l.met i
    wrong := l.wrong.filter (fun c => c.1 / 128 ≠ i) }

section

variable {s : State} {b : Nat} {x : MemAccess} {flips : List (Fin 64 × Fin 18)}

/-- Data that crosses the pins with no bit turned over passes its check. -/
theorem received_bad_flips {seed : Nat} {data : List Byte} (h : (received seed b data flips).2 = false) :
    flips.isEmpty = false := by
  cases flips with
  | nil => exact nomatch h
  | cons _ _ => rfl

theorem readBurst_good (hf : (s.chan (burstChan b)).failed = false) :
    readBurst s b x [] = endBurst s b x (burstData s b) false := by
  rw [readBurst, hf]
  rfl

theorem readBurst_reissued (hf : (s.chan (burstChan b)).failed = false)
    (hbad : (received (s.chan (burstChan b)).seed b (burstData s b) flips).2 = false)
    (hn : attemptsOf (s.chan (burstChan b)) b false < 4) : readBurst s b x flips =
      setAttempts (countRetry s b) b false (attemptsOf (s.chan (burstChan b)) b false + 1) := by
  simp [readBurst, hf, hbad, hn, received_bad_flips hbad]

theorem readBurst_fails (h : (s.chan (burstChan b)).failed = true ∨
      ((received (s.chan (burstChan b)).seed b (burstData s b) flips).2 = false ∧
        4 ≤ attemptsOf (s.chan (burstChan b)) b false)) :
    readBurst s b x flips = endBurst s b x (List.replicate 128 0) true := by
  cases hf : (s.chan (burstChan b)).failed with
  | true => simp [readBurst, hf]
  | false =>
    obtain ⟨hbad, hn⟩ := h.resolve_left (ne_true_of_eq_false hf)
    simp [readBurst, hf, hbad, Nat.not_lt.2 hn, received_bad_flips hbad]

theorem wrongCells_self (held : List Byte) : wrongCells b held held = [] := by
  have hsame : ∀ e ∈ (List.range 128).zip (held.zip held), e.2.1 = e.2.2 := by
    rintro ⟨i, v, w⟩ he
    have hvw := (List.of_mem_zip he).2
    rw [List.zip_eq_zipWith, List.zipWith_self] at hvw
    obtain ⟨y, -, hy⟩ := List.mem_map.1 hvw
    cases hy
    rfl
  rw [wrongCells, List.filter_eq_nil_iff.2 fun e he => by simpa using hsame e he]
  rfl

/-- A good burst is here for the line that asked for it, with nothing wrong in it. -/
theorem landBurst_good_line : (landBurst s b x (burstData s b) false).line x.requester x.line =
    withGoodBurst (s.line x.requester x.line) (b % 8) := by
  rw [landBurst, line_modLine_same, wrongCells_self]
  rfl

/-- A burst that failed for good is poison in its line. -/
theorem landBurst_failed_bad {got : List Byte} :
    bit ((landBurst s b x got true).line x.requester x.line).bad (b % 8) = true := by
  rw [landBurst, line_modLine_same, bit_eq_testBit]
  simp [testBit_setBit]

theorem endBurst_device {got : List Byte} (hx : x.requester = deviceTraffic) : endBurst s b x got false =
    burstEnds ((setAttempts s b false 0).emit (.memData x.address ((got.drop (x.address % 128)).take 64) false)) b x := by
  rw [endBurst, if_pos hx]
  rfl

theorem endBurst_part {got : List Byte} (hx : x.requester ≠ deviceTraffic) : endBurst s b x got false =
    memoryCame (burstEnds (landBurst (setAttempts s b false 0) b x got false) b x) x := by
  rw [endBurst, if_neg hx]
  rfl

theorem endBurst_failed_device {got : List Byte} (hx : x.requester = deviceTraffic) : endBurst s b x got true =
    burstEnds ((recordFailure (setAttempts s b false 0) b false).emit
      (.memDone x.address Status.badAddress Detail.lsmStored)) b x := by
  rw [endBurst, if_pos hx]
  rfl

theorem endBurst_failed_part {got : List Byte} (hx : x.requester ≠ deviceTraffic) {w : State}
    (hw : w = burstEnds (landBurst (recordFailure (setAttempts s b false 0) b false) b x got true) b x) :
    endBurst s b x got true = memoryCame (if ownReader x.reader then ownFailure w x.requester b else w) x := by
  rw [endBurst, if_neg hx, hw]
  rfl

end

section

variable {s : State} {b : BitVec 32} {r : BurstReader} {x : MemAccess} {flips : List (Fin 64 × Fin 18)}

theorem exec_lsmReadReturn_served (h : servingBurst s b.toNat false = some x) :
    exec (.lsmReadReturn b x.reader flips) s = .next (readBurst s b.toNat x flips) := by
  change execLsmReadReturn b x.reader flips s = _
  simp only [execLsmReadReturn, h, if_true]

/-- A burst that the access in service did not ask for changes nothing. -/
theorem exec_lsmReadReturn_other (hr : r ≠ .firmware)
    (h : ∀ x, servingBurst s b.toNat false = some x → x.reader ≠ r) : exec (.lsmReadReturn b r flips) s = .next s := by
  change execLsmReadReturn b r flips s = _
  cases hs : servingBurst s b.toNat false with
  | none => simp [execLsmReadReturn, hs, hr]
  | some x => simp [execLsmReadReturn, hs, h x hs]

/-- A good burst for a partition's line (R268, R278): what is here of the line, and then what goes on. -/
theorem endBurst_part_good (hx : x.requester ≠ deviceTraffic) {n : Nat} {t : State}
    (ht : t = endBurst s n x (burstData s n) false) : ∃ u, t = memoryCame (burstEnds u n x) x ∧
      u = { s with chans := u.chans, parts := u.parts } ∧ (∀ q : Nat, q ≠ x.requester → u.part q = s.part q) ∧
      (∀ a, a ≠ x.line → u.line x.requester a = s.line x.requester a) ∧
      u.line x.requester x.line = withGoodBurst (s.line x.requester x.line) (n % 8) := by
  exact ⟨_, ht.trans (endBurst_part hx), rfl, fun q hq => part_modPart_other _ _ hq,
    fun a ha => line_modLine_other (s := setAttempts s n false 0) fun h => ha h.2,
    landBurst_good_line (s := setAttempts s n false 0)⟩

/-- A read's persistent failure (R280, R282, R283): on record, and for whom it fails. -/
theorem endBurst_failed {n : Nat} {t : State} (ht : t = endBurst s n x (List.replicate 128 0) true) :
    ∃ u, u.failCount = s.failCount + 1 ∧
      (u.failLog.head?.map (fun r => (r.burst, r.write))) = some (n, false) ∧
      (u.chan (burstChan n)).persistent = satInc (s.chan (burstChan n)).persistent 65535 ∧
      attemptsOf (u.chan (burstChan n)) n false = 0 ∧ u.parts = s.parts ∧ u.mem = s.mem ∧
      (x.requester = deviceTraffic →
        t = burstEnds (u.emit (.memDone x.address Status.badAddress Detail.lsmStored)) n x) ∧
      (x.requester ≠ deviceTraffic → ∃ w, w = burstEnds (landBurst u n x (List.replicate 128 0) true) n x ∧
        bit (w.line x.requester x.line).bad (n % 8) = true ∧
        t = memoryCame (if ownReader x.reader then ownFailure w x.requester n else w) x) := by
  obtain ⟨hcount, hlog, hpersistent, hattempts, hparts, hmem⟩ := recordFailure_made s n false rfl
  refine ⟨_, hcount, hlog, hpersistent, hattempts, hparts, hmem, fun hx => ht.trans (endBurst_failed_device hx),
    fun hx => ⟨_, rfl, ?_, ht.trans (endBurst_failed_part hx rfl)⟩⟩
  rw [(burstEnds_chansOnly ..).line]
  exact landBurst_failed_bad

end

/-! ## Failures met by the partition's own agents (R280, R282, R283) -/

section

variable {s : State} {p b : Nat}

theorem ownFailure_contained (h : reloadPage s p (burstAddr b) = none ∨ replayable s p = false) :
    ownFailure s p b = contained s p Status.partitionFault Detail.lsmStored none := by
  unfold ownFailure
  split
  case h_1 => rfl
  case h_2 va hva =>
    have hr := h.resolve_left (by rw [hva]; exact Option.some_ne_none va)
    exact if_pos (by simp [hr])

theorem ownFailure_refills {va : Nat} (hva : reloadPage s p (burstAddr b) = some va) (hr : replayable s p = true)
    (hb : b ∉ (s.part p).refill.failed) (hw : (s.part p).refill.waitsFor = none) (hn : unitRefills s p < 4) :
    ownFailure s p b = (unitError s p Detail.lsmRefill none).modPart p (fun q => { q with refill := { q.refill with
      failed := b :: q.refill.failed, waitsFor := some (BitVec.ofNat 48 va) } }) := by
  rw [ownFailure, hva]
  simp only [hr, hw, Bool.not_true, Bool.false_eq_true, if_false, if_neg hb, Option.isSome_none, if_neg (Nat.not_le.2 hn)]

end

/-! ## Writes (R278, R280) -/

section

variable {s : State} {b : BitVec 32}

theorem exec_lsmWriteComplete_good (hw : writing s b.toNat = true) (hf : (s.chan (burstChan b.toNat)).failed = false) :
    exec (.lsmWriteComplete b) s = .next (setAttempts (writeEnds s b.toNat) b.toNat true 0) := by
  change execLsmWriteComplete b s = _
  simp [execLsmWriteComplete, hw, hf]

theorem exec_lsmWriteComplete_failed (hw : writing s b.toNat = true) (hf : (s.chan (burstChan b.toNat)).failed = true) :
    exec (.lsmWriteComplete b) s = .next (persistentWrite (writeEnds s b.toNat) b.toNat) := by
  change execLsmWriteComplete b s = _
  simp [execLsmWriteComplete, hw, hf]

theorem exec_baseDieWriteError_reissued (hw : writing s b.toNat = true)
    (hf : (s.chan (burstChan b.toNat)).failed = false) (hn : attemptsOf (s.chan (burstChan b.toNat)) b.toNat true < 4) :
    exec (.baseDieWriteError b) s = .next (setAttempts (countRetry s b.toNat) b.toNat true
      (attemptsOf (s.chan (burstChan b.toNat)) b.toNat true + 1)) := by
  change execBaseDieWriteError b s = _
  simp [execBaseDieWriteError, hw, hf, hn]

theorem exec_baseDieWriteError_fails (hw : writing s b.toNat = true) (h : (s.chan (burstChan b.toNat)).failed = true ∨
      4 ≤ attemptsOf (s.chan (burstChan b.toNat)) b.toNat true) :
    exec (.baseDieWriteError b) s = .next (persistentWrite (writeEnds s b.toNat) b.toNat) := by
  change execBaseDieWriteError b s = _
  cases hf : (s.chan (burstChan b.toNat)).failed with
  | true => simp [execBaseDieWriteError, hw, hf]
  | false =>
    have hn := h.resolve_left (ne_true_of_eq_false hf)
    simp [execBaseDieWriteError, hw, hf, Nat.not_lt.2 hn]

end

/-! ## Upkeep of channels and stacks (R273 to R275, R283, R287, R288) -/

section

variable {s : State}

theorem exec_channelRecalibrate_run {c : Fin 512} (h : s.power.state = .run) : exec (.channelRecalibrate c) s =
    .next (s.modChan c fun x => { x with recalibrations := x.recalibrations + 1 }) := by
  change execChannelRecalibrate c s = _
  rw [execChannelRecalibrate, h]
  rfl

theorem exec_channelRetrain_due {c : Fin 512} {ok : Bool}
    (h : 16 ≤ ((s.chan c).recent.filter (fun x => decide (s.devTime < x + msTicks))).length) :
    exec (.channelRetrain c ok) s = .next (s.modChan c fun x => { x with
      retrains := satInc x.retrains 255, failed := x.failed || !ok, recent := [] }) := by
  change execChannelRetrain c ok s = _
  simp only [execChannelRetrain, if_pos h]

theorem exec_refillTimeout_pending {p : Fin 64} (h : (s.part p).refill.pending = true) : exec (.refillTimeout p) s =
    .next (if (s.part p).refill.timer + 330000000 ≤ (s.part p).timers then
      endJob s p Status.timeout Detail.lsmRefillTimeout none else s) := by
  change execRefillTimeout p s = _
  simp only [execRefillTimeout, h, Bool.true_and, decide_eq_true_eq]
  rfl

/-- A report changes its stack alone, and its channels only where the stack resumes (R287, R288). -/
theorem exec_stackTempReport_next (k : Fin 8) (c : Byte) : ∃ t, exec (.stackTempReport k c) s = .next t ∧
    ChansOnly (stackReport s k c.toNat) t ∧
    ((tget s.hbm k).stopped = false ∨ (tget t.hbm k).stopped = true → t.chans = s.chans) := by
  obtain ⟨t, ht⟩ : ∃ t, exec (.stackTempReport k c) s = .next t := ⟨_, rfl⟩
  refine ⟨t, ht, ?_⟩
  change execStackTempReport k c s = _ at ht
  obtain ⟨u, hu⟩ : ∃ u, u = stackReport s k c.toNat := ⟨_, rfl⟩
  rw [execStackTempReport, ← hu] at ht
  obtain rfl := Host.Outcome.next.inj ht
  rw [← hu]
  split
  case isTrue h =>
    obtain ⟨hwas, hnow⟩ := Bool.and_eq_true_iff.1 h
    rw [Bool.not_eq_true'] at hnow
    have hfold : ChansOnly u ((List.range 64).foldl (fun s c => arbitrate s (64 * k + c)) u) :=
      foldl_related (R := ChansOnly) (fun _ => rfl) (fun _ _ _ => .trans) (fun s c => arbitrate_chansOnly s (64 * k + c)) _ u
    refine ⟨hfold, fun hstop => ?_⟩
    rw [hfold.hbm] at hstop
    rw [hwas, hnow] at hstop
    exact absurd hstop (by decide)
  case isFalse =>
    rw [hu]
    exact ⟨rfl, fun _ => rfl⟩

/-- The levels of a stack at a report: its throttling and its stop each have a band in which they stay (R287, R288). -/
theorem tget_stackReport_same (k t : Nat) : tget (stackReport s k t).hbm k = { tget s.hbm k with
    temp := t
    throttle := if 85 ≤ t then true else if t ≤ 83 then false else (tget s.hbm k).throttle
    stopped := if 95 ≤ t then true else if t < 92 then false else (tget s.hbm k).stopped
    stopTime := if (tget s.hbm k).stopped then Nat.min ((tget s.hbm k).stopTime + 100) (2 ^ 32 - 1)
      else (tget s.hbm k).stopTime } := by
  rw [stackReport, tget_tmod_same]

theorem tget_stackReport_other {k j t : Nat} (h : j ≠ k) : tget (stackReport s k t).hbm j = tget s.hbm j := by
  rw [stackReport, tget_tmod_other h]

end

/-- Settles O49: one lemma for each event and each way that its burst, channel or stack can go. -/
theorem burstsOfStackedMemory : Obligations.BurstsOfStackedMemory := by
  refine ⟨?other, ?device, ?line, ?reissue, ?failure, ?own, ?written, ?unwritten, ?queued, ?refresh, ?recalibrate, ?retrain,
    ?refill, ?temperature⟩
  case other => exact fun b r flips hr s h => ⟨_, exec_lsmReadReturn_other hr h, rfl⟩
  case device =>
    rintro b x s ⟨hs, hx, hf⟩
    exact ⟨_, exec_lsmReadReturn_served hs, (readBurst_good hf).trans (endBurst_device hx)⟩
  case line =>
    rintro b x s ⟨hs, hx, hf⟩
    exact ⟨_, exec_lsmReadReturn_served hs, endBurst_part_good hx (readBurst_good hf)⟩
  case reissue =>
    intro b x flips e he s hs
    obtain ⟨hf, hread, hwrite, hn⟩ := hs
    simp only [List.mem_cons, List.not_mem_nil, or_false] at he
    rcases he with rfl | rfl
    · obtain ⟨hserved, hbad⟩ := hread rfl
      exact ⟨_, exec_lsmReadReturn_served hserved, reissued s b.toNat false _ (readBurst_reissued hf hbad hn)⟩
    · exact ⟨_, exec_baseDieWriteError_reissued (hwrite rfl) hf hn, reissued s b.toNat true _ rfl⟩
  case failure =>
    rintro b x flips s ⟨hs, hbad⟩
    exact ⟨_, exec_lsmReadReturn_served hs, endBurst_failed (readBurst_fails hbad)⟩
  case own => exact fun s p b => ⟨ownFailure_contained, fun va => ownFailure_refills⟩
  case written =>
    rintro b s ⟨hw, hf⟩
    exact ⟨_, exec_lsmWriteComplete_good hw hf, rfl⟩
  case unwritten =>
    intro b e he s hs
    obtain ⟨hw, hbad⟩ := hs
    simp only [List.mem_cons, List.not_mem_nil, or_false] at he
    rcases he with rfl | rfl
    · exact ⟨_, exec_lsmWriteComplete_failed hw (hbad.resolve_right fun h => by omega), rfl⟩
    · exact ⟨_, exec_baseDieWriteError_fails hw (hbad.imp_right And.right), rfl⟩
  case queued => exact fun s x hr hs hq => ⟨queueAccess_issues hr hs hq, queueAccess_waits hs hq⟩
  case refresh =>
    rintro c k s -
    obtain ⟨hrest, hother⟩ := modChan_frame (s := s) c fun x => { x with refreshes := tmod x.refreshes k fun n => n + 1 }
    exact ⟨_, rfl, hrest, hother, by rw [chan_modChan_same, tget_tmod_same]⟩
  case recalibrate =>
    intro c s h
    obtain ⟨hrest, hother⟩ := modChan_frame (s := s) c fun x => { x with recalibrations := x.recalibrations + 1 }
    exact ⟨_, exec_channelRecalibrate_run h, hrest, hother, chan_modChan_same ..⟩
  case retrain =>
    intro c ok s h
    obtain ⟨hrest, hother⟩ := modChan_frame (s := s) c fun x =>
      { x with retrains := satInc x.retrains 255, failed := x.failed || !ok, recent := [] }
    exact ⟨_, exec_channelRetrain_due h, hrest, hother, chan_modChan_same ..⟩
  case refill => exact fun p s h => ⟨_, exec_refillTimeout_pending h, rfl⟩
  case temperature =>
    rintro k c s -
    obtain ⟨t, ht, hrest, hchans⟩ := exec_stackTempReport_next (s := s) k c
    have hk := tget_stackReport_same (s := s) k c.toNat
    refine ⟨t, ht, by rw [hrest]; rfl, hchans, fun j hj => ?_, ?_⟩
    · rw [hrest.hbm, tget_stackReport_other (Fin.val_ne_of_ne hj)]
    · rw [hrest.hbm, hk]
      refine ⟨rfl, fun h => ?_, fun h => ?_, fun h => ?_, fun h => ?_, fun h => ?_, fun h => ?_⟩
      · exact if_pos h
      · exact (if_neg (by omega)).trans (if_pos h)
      · exact (if_neg (by omega)).trans (if_neg (by omega))
      · exact if_pos h
      · exact (if_neg (by omega)).trans (if_pos h)
      · exact (if_neg (by omega)).trans (if_neg (by omega))

end Sys2Proof.Machine
end

section
/-! SUPPORT. The statements of the device chains family: LINK_CONFIG and CHAIN_ENUMERATE (R330, R331, O25), and training's
end, at which a port is UP or FAILED (R322, R323, O56). -/

namespace Sys2Proof.Machine

/-! ## LINK_CONFIG and CHAIN_ENUMERATE -/

section

variable {s u : State} {k : Packet} {e : Enumeration}

/-- The walk of a CHAIN_ENUMERATE as it stands before the first port (R331). -/
def walkOf (s : State) (k : Packet) : Enumeration :=
  { parent := none, port := 12, next := k.param 0 + 1, base := k.param 0, before := s.links.number }

/-- The device as a CHAIN_ENUMERATE numbers it, its walk before the first port. -/
def numbered (s : State) (k : Packet) : State :=
  { s with links := { s.links with number := k.param 0, owed := 0, enumeration := some (walkOf s k) } }

/-- A walk that this device begins, before the first port, goes on from port 0. -/
theorem startWalk_begun (hw : u.links.enumeration = some e) (hparent : e.parent = none) (hport : e.port = 12) :
    startWalk u = visitFrom u e 0 := by
  simp [startWalk, hw, hparent, hport]

/-- An accepted CHAIN_ENUMERATE in range, with no group running and no walk under way: its packet waits while the walk goes
on. -/
theorem exec_chainEnumerate_accepted {src : PktSrc} (h : Accepted s src 0x0092 k) (hbase : k.param 0 < 4096)
    (hgroup : groupRuns (started s src k) = false) (hwalk : (started s src k).links.enumeration = none) :
    exec (.chainEnumerate src) s =
      .next (startWalk (openPacket (numbered (started s src k) k) k (some .enumerate))) := by
  change execChainEnumerate src s = _
  rw [execChainEnumerate, runVoted_accepted h (decide_eq_true h.opcode), if_neg (Nat.not_le.2 hbase),
    if_neg (by simp [hgroup, hwalk])]
  rfl

end

/-- Settles O25: LINK_CONFIG by its body's checks in their order, CHAIN_ENUMERATE by the walk that its packet begins. -/
theorem linkPacketsConfigureAndEnumerate : Obligations.LinkPacketsConfigureAndEnumerate := by
  refine ⟨?config, ?enumerate⟩
  case config =>
    refine completes_reply (fun _ _ => rfl) (fun _ _ hop _ => decide_eq_true hop) ?_
    rintro s k - ⟨henable, hgroup, hfree⟩
    have hrange : ¬((decide (4096 ≤ k.param 0) || decide (65536 ≤ k.param 1)) = true) := by simp [henable, hgroup]
    rw [if_neg hrange, if_neg (ne_true_of_eq_false hfree)]
    exact bodyEnd_ok
  case enumerate =>
    rintro s src k h ⟨hbase, hgroup, hwalk⟩
    exact ⟨_, exec_chainEnumerate_accepted h hbase hgroup hwalk, _, walkOf (started s src k) k, rfl, rfl,
      startWalk_begun rfl rfl rfl⟩

/-! ## Events that are posted -/

/-- A device event is posted unless 256 wait already (R385). -/
theorem postEvent_posted {s : State} {fn source status detail tick : Nat}
    (h : ((s.fn fn).waiting.filter (fun e => e.event)).length < 256) :
    EventPosted (postEvent s fn source status detail tick) fn source status detail := by
  unfold postEvent
  extract_lets f
  have hroom : ¬((!ringRoom f && decide (256 ≤ (f.waiting.filter (fun e => e.event)).length)) = true) := by
    simp [f, h]
  rw [if_neg hroom]
  exact ⟨_, rfl, rfl, rfl, rfl, postEntry_has⟩

/-- A port's failure is posted to the partition that holds the port or to PF0, whichever it is, where no function has 256
events waiting. -/
theorem portEvent_posted {s : State} (j status detail : Nat)
    (h : ∀ fn, ((s.fn fn).waiting.filter (fun e => e.event)).length < 256) :
    ∃ fn source, EventPosted (portEvent s j status detail) fn source status detail := by
  unfold portEvent
  cases portOwner s j with
  | some p => exact ⟨p + 1, srcFault, postEvent_posted (h (p + 1))⟩
  | none => exact ⟨0, srcFault, postEvent_posted (h 0)⟩

/-! ## HELLO and ECHO -/

section

variable {s : State} {j : Fin 12}

/-- A port in training that fails had nothing on its way: beside the port itself and what it owed, only the event is new. -/
theorem portFails_training (status detail : Nat) (h : (s.port j).state = .training) :
    portFails s j status detail = portEvent ((s.modPort j fun x => quietPort x .failed).dropOwed j) j status detail := by
  simp [portFails, h]

/-- A port that fails in training is FAILED, and the event of its status and detail is posted. -/
theorem portFails_training_posted (status detail : Nat) (h : (s.port j).state = .training) (hempty : (s.port j).unacked = [])
    (hfew : ∀ fn, ((s.fn fn).waiting.filter (fun e => e.event)).length < 256) :
    ((portFails s j status detail).port j).state = .failed ∧
      ∃ fn source, EventPosted (portFails s j status detail) fn source status detail := by
  refine ⟨state_portFails status detail hempty, ?_⟩
  rw [portFails_training status detail h]
  exact portEvent_posted j status detail hfew

/-- What a HELLO of its own group makes of a port: its far end is noted, and an ECHO, whose number is a free value, goes
back. -/
def greeted (echo : Nat) (device : BitVec 12) (far : Fin 12) (x : ZPort) : ZPort :=
  { x with
    farDevice := device.toNat, farPort := far, helloSeen := true
    sendSymbols := x.sendSymbols ++ [BitVec.ofNat 64 (pack [(0, 8, 0x05), (24, 16, (Config.freeValue echo).toNat)])] }

/-- What an ECHO in reach makes of a port: it is UP; which lanes were turned is a free value. -/
def trained (now lanes delay : Nat) (x : ZPort) : ZPort :=
  { x with
    state := .up, retraining := false, lastGood := now, delay := delay
    reversed := bit (Config.freeValue lanes).toNat 8, polarity := (Config.freeValue lanes).toNat % 256 }

theorem exec_hello_otherGroup {device : BitVec 12} {group : W16} {far : Fin 12} (h : (s.port j).state = .training)
    (hlocked : (s.port j).locked = 16) (hgroup : group ≠ s.links.groupId) :
    exec (.hello j device group far) s = .next (portFails s j Status.linkDown Detail.zlkReach) := by
  change execHello j device group far s = _
  rw [execHello, if_neg (by simp [h, hlocked]), if_pos hgroup]

theorem exec_hello_ownGroup {device : BitVec 12} {far : Fin 12} (h : (s.port j).state = .training)
    (hlocked : (s.port j).locked = 16) :
    exec (.hello j device s.links.groupId far) s = .next (s.draw.2.modPort j (greeted s.fresh device far)) := by
  change execHello j device s.links.groupId far s = _
  rw [execHello, if_neg (by simp [h, hlocked]), if_neg (not_not_intro rfl)]
  exact congrArg Host.Outcome.next (modPort_modPort_same ..)

theorem exec_echo_tooFar {n turnaround : W16} {trip : Nat} (h : (s.port j).state = .training)
    (hseen : (s.port j).helloSeen = true) (hfar : 260 < echoTwice turnaround trip) :
    exec (.echo j n turnaround trip) s = .next (portFails s j Status.linkDown Detail.zlkReach) := by
  change execEcho j n turnaround trip s = _
  rw [execEcho, if_neg (by simp [h, hseen]), if_pos hfar]

theorem exec_echo_inReach {n turnaround : W16} {trip : Nat} (h : (s.port j).state = .training)
    (hseen : (s.port j).helloSeen = true) (hnear : echoTwice turnaround trip ≤ 260) :
    exec (.echo j n turnaround trip) s =
      .next (s.draw.2.modPort j (trained s.devTime s.fresh (echoTwice turnaround trip / 2))) := by
  change execEcho j n turnaround trip s = _
  rw [execEcho, if_neg (by simp [h, hseen]), if_neg (Nat.not_lt.2 hnear)]
  rfl

/-- Drawing a free value and changing one port leaves every other port. -/
theorem draw_modPort_frame (f : ZPort → ZPort) : (s.draw.2.modPort j f).port j = f (s.port j) ∧
    ∀ k : Fin 12, k ≠ j → (s.draw.2.modPort j f).port k = s.port k :=
  ⟨port_modPort_same .., fun _ hk => port_modPort_other _ _ (Fin.val_ne_of_ne hk)⟩

end

/-- Settles O56: a HELLO of another group and an ECHO from too far fail the port; otherwise it is greeted, and then UP. -/
theorem portsAreUpOrFail : Obligations.PortsAreUpOrFail := by
  intro j s htraining hempty hfew
  have hfails := portFails_training_posted Status.linkDown Detail.zlkReach htraining hempty hfew
  refine ⟨?otherGroup, ?ownGroup, ?tooFar, ?inReach⟩
  case otherGroup =>
    intro device group far hlocked hgroup
    exact ⟨_, exec_hello_otherGroup htraining hlocked hgroup, hfails⟩
  case ownGroup =>
    intro device far hlocked
    obtain ⟨hport, hothers⟩ := draw_modPort_frame (s := s) (j := j) (greeted s.fresh device far)
    refine ⟨_, exec_hello_ownGroup htraining hlocked, ?_, ?_, ?_, ?_, hothers⟩
    · exact (congrArg ZPort.state hport).trans htraining
    · exact congrArg ZPort.helloSeen hport
    · exact congrArg ZPort.farDevice hport
    · exact congrArg ZPort.farPort hport
  case tooFar =>
    intro n turnaround trip hseen hfar
    exact ⟨_, exec_echo_tooFar htraining hseen (Nat.lt_sub_of_add_lt hfar), hfails⟩
  case inReach =>
    intro n turnaround trip hseen hnear
    obtain ⟨hport, hothers⟩ := draw_modPort_frame (s := s) (j := j)
      (trained s.devTime s.fresh (echoTwice turnaround trip / 2))
    have hdelay : ((s.draw.2.modPort j (trained s.devTime s.fresh (echoTwice turnaround trip / 2))).port j).delay =
        (trip - turnaround.toNat) / 2 := congrArg ZPort.delay hport
    refine ⟨_, exec_echo_inReach htraining hseen (Nat.sub_le_of_le_add hnear), congrArg ZPort.state hport, ?_, ?_, hothers⟩
    · omega
    · omega

end Sys2Proof.Machine
end

section
/-! SUPPORT. The statement of the sessions family: a SERVE entry that puts the engine at work, a step of the engine, and
the expiry of a lease and of its grace (R360, R361, R417, R419, O44). -/

namespace Sys2Proof.Machine

/-- The session engine at work under a SERVE entry; on a member of a linked job that is not its root it follows (R360). -/
def servesUnder (e : Entry) (follows : Bool) (x : SesPart) : SesPart :=
  { x with
    serving := true, record := e.get 8 8, result := e.get 16 8, perPage := e.get 24 4
    stepsLeft := if e.get 28 4 = 0 then none else some (e.get 28 4)
    signal := e.get 32 8, signalValue := e.get 40 8, stepCount := 0, round := [], remainder := [], left := [], opened := false
    follower := follows }

/-- The partition's queue 3 is in progress and its session engine serves under the entry. -/
def served (s : State) (p : Nat) (e : Entry) : State :=
  (s.modQueue p 3 fun q => { q with inProgress := true }).modPart p fun q =>
    { q with ses := servesUnder e (isLinked s p && !isRoot s p) q.ses }

/-- The partition is PREEMPTING and has its whole grace to run (R417). -/
def graceBegun (s : State) (p : Nat) : State :=
  s.modPart p fun q => { q with state := .preempting, lease := { q.lease with graceLeft := q.lease.grace } }

section

variable (s : State) (p : Nat) (e : Entry)

theorem served_part : (served s p e).part p = { s.part p with
    queues := tmod (s.part p).queues 3 fun q => { q with inProgress := true }
    ses := servesUnder e (isLinked s p && !isRoot s p) (s.part p).ses } := by
  rw [served, State.modQueue, part_modPart_same, part_modPart_same]

theorem served_part_other {q : Nat} (h : q ≠ p) : (served s p e).part q = s.part q := by
  rw [served, State.modQueue, part_modPart_other _ _ h, part_modPart_other _ _ h]

theorem served_queue : ((served s p e).queue p 3).inProgress = true := by
  rw [State.queue, served_part, tget_tmod_same]

end

section

variable {s : State} {p : Fin 64}

theorem exec_serve_accepted {e : Entry} (h : EntryAt s p 3 1 e) (hok : serveOk e = true)
    (hq : (s.queue p 3).inProgress = false) (hj : (s.part p).job.running = true) (hplan : servePlan s p = true) :
    exec (.serve p) s = .next (served s p e) := by
  change execServe p s = _
  rw [execServe, hq, if_neg Bool.false_ne_true, runEntry_at h fun _ => hj]
  simp only [hok, hplan]
  rfl

theorem exec_sessionStep_may (h : mayStep s p = true) : exec (.sessionStep p) s =
    .next (if isLinked s p then firstStep s p else runGathered (gather s p).1 p (gather s p).2) := by
  change execSessionStep p s = _
  rw [execSessionStep, h]
  rfl

/-- A lease that ran out is pre-empted at once where neither a unit, nor a primary remainder, nor a halt stands between. -/
theorem exec_leaseExpiry_due (hset : (s.part p).lease.set = true) (hremain : (s.part p).lease.remain = 0)
    (hj : (s.part p).job.running = true) (hrun : (s.part p).state = .running) :
    exec (.leaseExpiry p) s = .next (
      if unitRuns s p || !(s.part p).ses.remainder.isEmpty || (s.part p).halted then graceBegun s p
      else preempt (graceBegun s p) p) := by
  have hunit : unitRuns (graceBegun s p) p = unitRuns s p := by rw [unitRuns, graceBegun, part_modPart_same, unitRuns]
  have hrest : ((graceBegun s p).part p).ses = (s.part p).ses := by rw [graceBegun, part_modPart_same]
  change execLeaseExpiry p s = _
  rw [← hunit, ← hrest, execLeaseExpiry, if_neg (by simp [hset, hremain, hj, hrun]), graceBegun]

theorem exec_graceExpiry_due (hstate : (s.part p).state = .preempting) (hleft : (s.part p).lease.graceLeft = 0) :
    exec (.graceExpiry p) s = .next (resetPart (partEvent (logContained s p Detail.ptnLeaseReset none) p srcFault
      Status.leaseExpired Detail.ptnLeaseReset) p) := by
  change execGraceExpiry p s = _
  rw [execGraceExpiry, if_neg (by simp [hstate, hleft])]

end

/-- Settles O44: one lemma for each event, and what an accepted SERVE and the beginning of a grace change. -/
theorem sessionsServeStepByStep : Obligations.SessionsServeStepByStep := by
  refine ⟨?serve, ?step, ?lease, ?grace⟩
  case serve =>
    rintro p e hok s ⟨h, hq, hj, hplan⟩
    refine ⟨served s p e, exec_serve_accepted h hok hq hj hplan, rfl, fun q hne => ?_, served_queue s p e, ?_⟩
    · exact served_part_other s p e (Fin.val_ne_of_ne hne)
    · exact congrArg Part.ses (served_part s p e)
  case step =>
    intro p s hmay
    exact ⟨_, exec_sessionStep_may hmay, rfl⟩
  case lease =>
    rintro p s ⟨hset, hremain, hj, hrun⟩
    refine ⟨_, exec_leaseExpiry_due hset hremain hj hrun, graceBegun s p, rfl, fun q hne => ?_, part_modPart_same .., rfl⟩
    exact part_modPart_other _ _ (Fin.val_ne_of_ne hne)
  case grace =>
    rintro p s ⟨hstate, hleft⟩
    exact ⟨_, exec_graceExpiry_due hstate hleft, rfl⟩

end Sys2Proof.Machine
end

section
/-! SUPPORT. The statements over every command and every step: the queue of commands (O1, O6), the next state (O2), and the
memories and fuses (R502, R508, O4), from what each command keeps. -/

namespace Sys2Proof.Machine

/-- Settles O4: each command keeps the memories and the fuses (`exec_kept`), and so does the tick of an idle device. -/
theorem everyStepKeepsMemoriesAndFuses : Obligations.EveryStepKeepsMemoriesAndFuses :=
  fun _ _ => step_canonical_fusesStand

/-- Settles O6: what a command keeps (`exec_kept`) holds the queue that it was executed over. -/
theorem commandsLeaveTheQueueAlone : Obligations.CommandsLeaveTheQueueAlone := by
  intro c s t h hx
  have hk := exec_kept c h.kept
  rw [hx] at hk
  exact hk.queue

/-- Settles O1: the two are the branches of `step`. -/
theorem stepTakesTheFrontCommand : Obligations.StepTakesTheFrontCommand := by
  refine ⟨fun _ _ _ => rfl, fun s h => ?_⟩
  rw [step, h]

/-- Settles O2: the meaning of each constructor is written as a next state, whose state alone branches. -/
theorem everyCommandAnswersANextState : Obligations.EveryCommandAnswersANextState := by
  intro c s
  cases c <;> exact ⟨_, rfl⟩

end Sys2Proof.Machine
end

section
/-! SUPPORT. Replies and refusals of packets (R380 to R385): what a reply changes at its port (O7), the order of the checks (O8),
and a packet of no row (O9). -/

namespace Sys2Proof.Machine

theorem fn_congr {s t : State} (h : t.fns = s.fns) (g : Nat) : t.fn g = s.fn g := by
  rw [State.fn, State.fn, h]

/-! ## Interrupts -/

/-- `t` is `s` with nothing changed but the causes and pending vectors of a function, and messages of it that left (R401). -/
structure IrqOnly (fn : Nat) (s t : State) : Prop where
  rest : t = { s with fns := t.fns, out := t.out }
  other : ∀ g, g ≠ fn → t.fn g = s.fn g
  own : t.fn fn = { s.fn fn with intCause := (t.fn fn).intCause, msixPending := (t.fn fn).msixPending }
  sent : ∃ ms, (∀ o ∈ ms, ∃ v, o = Output.msix fn v) ∧ t.out = ms ++ s.out

namespace IrqOnly

variable {fn : Nat} {s t u : State}

theorem refl : IrqOnly fn s s := ⟨rfl, fun _ _ => rfl, rfl, [], by simp⟩

theorem trans (h : IrqOnly fn s t) (g : IrqOnly fn t u) : IrqOnly fn s u := by
  obtain ⟨ms, hms, hs⟩ := h.sent
  obtain ⟨ns, hns, hn⟩ := g.sent
  refine ⟨by rw [g.rest, h.rest], fun x hx => (g.other x hx).trans (h.other x hx), by rw [g.own, h.own], ns ++ ms, ?_, ?_⟩
  · exact fun o ho => (List.mem_append.1 ho).elim (hns o) (hms o)
  · rw [hn, hs, List.append_assoc]

theorem outstanding (h : IrqOnly fn s t) : t.outstanding = s.outstanding := by rw [h.rest]

theorem producer (h : IrqOnly fn s t) : (t.fn fn).producer = (s.fn fn).producer := by rw [h.own]

theorem waiting (h : IrqOnly fn s t) : (t.fn fn).waiting = (s.fn fn).waiting := by rw [h.own]

theorem slots (h : IrqOnly fn s t) : (t.fn fn).slots = (s.fn fn).slots := by rw [h.own]

/-- A change of a function's causes and pending vectors alone. -/
theorem modFn {f : FnState → FnState} (h : f (s.fn fn) = { s.fn fn with
    intCause := (f (s.fn fn)).intCause, msixPending := (f (s.fn fn)).msixPending }) : IrqOnly fn s (s.modFn fn f) :=
  ⟨rfl, fun _ hg => fn_modFn_other _ _ hg, by simpa using h, [], by simp⟩

theorem sendMsix (s : State) (fn v : Nat) : IrqOnly fn s (sendMsix s fn v) := by
  unfold Machine.sendMsix
  split
  · exact modFn rfl
  · exact ⟨rfl, fun _ _ => rfl, rfl, [.msix fn v], by simp⟩

theorem raiseCause (s : State) (fn i : Nat) : IrqOnly fn s (raiseCause s fn i) := by
  unfold Machine.raiseCause
  extract_lets f t
  split
  · exact refl
  · split
    · exact modFn rfl
    · exact (modFn rfl).trans (sendMsix ..)

end IrqOnly

theorem intCause_sendMsix {s : State} {fn v : Nat} : ((sendMsix s fn v).fn fn).intCause = (s.fn fn).intCause := by
  unfold sendMsix
  split
  · simp
  · rfl

/-- A cause that is raised is set. -/
theorem raiseCause_set {s : State} {fn i : Nat} (hi : i < 4) : ((raiseCause s fn i).fn fn).intCause.getLsbD i = true := by
  have hbit : ((s.fn fn).intCause ||| BitVec.ofNat 4 (2 ^ i)).getLsbD i = true := by
    rw [BitVec.getLsbD_or, BitVec.getLsbD_ofNat]
    simp [hi, Nat.testBit_two_pow_self]
  unfold raiseCause
  extract_lets f t
  split
  · assumption
  · split
    · simpa [t] using hbit
    · simpa [intCause_sendMsix, t] using hbit

/-! ## Entries of the ring -/

section

variable {s : State} {fn : Nat} {e : RingEntry}

/-- With room and nothing waiting, an entry is written at once (R383). -/
theorem postEntry_room (hroom : ringRoom (s.fn fn) = true) (hnone : (s.fn fn).waiting = []) :
    postEntry s fn e = (writeEntry s fn e).modFn fn fun f => { f with waiting := [] } := by
  simp [postEntry, hnone, drainRing, hroom]

/-- Without room an entry waits last, and RING_STALL is raised (R383, R401). -/
theorem postEntry_full (hroom : ringRoom (s.fn fn) = false) :
    postEntry s fn e = raiseCause (s.modFn fn fun f => { f with waiting := (s.fn fn).waiting ++ [e] }) fn 2 := by
  have hdrain (l : List RingEntry) (hl : l ≠ []) : drainRing fn l s = s.modFn fn fun f => { f with waiting := l } := by
    cases l with
    | nil => exact absurd rfl hl
    | cons x r => simp [drainRing, hroom]
  simp [postEntry, hdrain]

/-- A packet's entry is written at P, its packet outstanding no more (R382, R383). -/
theorem writeEntry_packet {fn : Fin 65} (hevent : e.event = false) (hslot : e.slot = none) :
    writeEntry s fn e =
      let t := dropOutstanding ((s.emit (.hostWrite fn ((s.fn fn).ringBase + 16 * ((s.fn fn).producer % ringSize (s.fn fn)))
        (entryBytes (s.fn fn) e))).modFn fn fun f => { f with producer := (f.producer + 1) % 2 ^ 32 }) (.host fn) e.tag
      if e.irq then raiseCause t fn 0 else t := by
  simp [writeEntry, hevent, closePacket, hslot]

end

/-! ## A packet's one reply -/

theorem postReply_host {s : State} {who : ReplyTo} {part status detail : Nat} {block : List Byte} {fn : Fin 65}
    (hport : who.port = .host fn) : postReply s who part status detail block = postEntry s fn
      { tag := who.tag, status := status, detail := detail, tick := replyTick s part, irq := who.irq, slot := who.slot } := by
  unfold postReply
  rw [hport]

/-- Of its port's packets with its tag that wait for nothing, the packet just opened is the one that a reply closes. -/
theorem outstanding_dropOpened {u t : State} {k : Packet}
    (hnone : ∀ o ∈ u.outstanding, ¬(o.replyTo.port = k.port ∧ o.replyTo.tag = k.tag ∧ o.waits = none))
    (ht : t.outstanding = u.outstanding ++ [{ replyTo := k.replyTo, part := k.part }]) :
    (dropOutstanding t k.port k.tag).outstanding = u.outstanding := by
  rw [dropOutstanding, ht, List.eraseP_append_right _ (fun o ho => by simpa using hnone o ho)]
  simp [Packet.replyTo]

section

variable {u : State} {k : Packet} {status detail out : Nat} {block : List Byte}

/-- A reply over a management session is one response, with its block (R404). -/
theorem replyMade_mgmt {n : Fin 4} (hport : k.port = .mgmt n)
    (hnone : ∀ o ∈ u.outstanding, ¬(o.replyTo.port = k.port ∧ o.replyTo.tag = k.tag ∧ o.waits = none)) :
    ReplyMade u k (replyNow u k status detail out block) status detail out block := by
  refine ⟨replyNow_portOnly, ?_⟩
  have hwho : k.replyTo.port = .mgmt n := hport
  have hmade : replyNow u k status detail out block =
      (noteTraffic (dropOutstanding (openPacket u k none) k.port k.tag) n).emit (.mgmtReply n k.tag status detail block) := by
    simp [replyNow, writeOut, hport, postReply, Packet.replyTo]
  rw [hport, hmade]
  exact ⟨rfl, outstanding_dropOpened hnone rfl, rfl⟩

/-- The state in which a packet of a host function is open and its OUT block has left (R388). -/
def blockSent (u : State) (k : Packet) (fn : Fin 65) (out : Nat) (block : List Byte) : State :=
  { u with outstanding := u.outstanding ++ [{ replyTo := k.replyTo, part := k.part }], out := outWrites fn out block ++ u.out }

/-- A reply on a host port is its OUT block, then its entry of the ring (R381, R382, R388). -/
theorem replyNow_host {fn : Fin 65} (hport : k.port = .host fn) : replyNow u k status detail out block =
    postEntry (blockSent u k fn out block) fn (entryOf u k status detail) := by
  have hsent : writeOut (openPacket u k none) k out block = blockSent u k fn out block := by
    cases block <;> simp [writeOut, hport, openPacket, outWrites, blockSent, State.emit]
  rw [replyNow, hsent, postReply_host hport]
  rfl

/-- Where the ring has room, a reply's entry is written at P, and its packet is outstanding no more (R382). -/
theorem replyMade_room {fn : Fin 65} (hport : k.port = .host fn) (hroom : ringRoom (u.fn fn) = true)
    (hwait : (u.fn fn).waiting = [])
    (hnone : ∀ o ∈ u.outstanding, ¬(o.replyTo.port = k.port ∧ o.replyTo.tag = k.tag ∧ o.waits = none)) :
    ReplyMade u k (replyNow u k status detail out block) status detail out block := by
  refine ⟨replyNow_portOnly, ?_⟩
  have hfn (g : Nat) : (blockSent u k fn out block).fn g = u.fn g := rfl
  rw [hport, replyNow_host hport, postEntry_room (by rwa [hfn]) (by rwa [hfn]), writeEntry_packet rfl rfl]
  extract_lets t
  have htout : t.outstanding = u.outstanding := by
    have h := outstanding_dropOpened (t := blockSent u k fn out block) hnone rfl
    rwa [hport] at h
  have ht : t.fns = (u.modFn fn fun f => { f with producer := (f.producer + 1) % 2 ^ 32 }).fns := rfl
  have htother (g : Nat) (hg : g ≠ fn) : t.fn g = u.fn g := (fn_congr ht g).trans (fn_modFn_other _ _ hg)
  have htown : t.fn fn = { u.fn fn with producer := ((u.fn fn).producer + 1) % 2 ^ 32 } :=
    (fn_congr ht fn).trans (fn_modFn_same ..)
  have hirq : IrqOnly fn t (if (entryOf u k status detail).irq then raiseCause t fn 0 else t) := by
    split
    · exact IrqOnly.raiseCause ..
    · exact .refl
  have hraised (hi : k.irq = true) :
      (((if (entryOf u k status detail).irq then raiseCause t fn 0 else t)).fn fn).intCause.getLsbD 0 = true := by
    rw [if_pos (show (entryOf u k status detail).irq = true from hi)]
    exact raiseCause_set (by decide)
  generalize (if (entryOf u k status detail).irq then raiseCause t fn 0 else t) = v at hirq hraised ⊢
  obtain ⟨ms, hms, hsent⟩ := hirq.sent
  refine ⟨fun g hg => ?_, ?_, ⟨ms, hms, ?_⟩, fun _ => ⟨?_, ?_, ?_, fun hi => ?_⟩, fun hfull => ?_⟩
  · have hg' : g.val ≠ fn.val := Fin.val_ne_of_ne hg
    rw [fn_modFn_other _ _ hg', hirq.other _ hg', htother _ hg']
  · rw [fn_modFn_same, hirq.slots, htown]
  · rw [if_pos hroom]
    exact hsent.trans (by simp [t, dropOutstanding, blockSent, entryOf, State.emit, State.modFn, State.fn])
  · exact hirq.outstanding.trans htout
  · rw [fn_modFn_same, hirq.producer, htown]
  · rw [fn_modFn_same]
  · rw [fn_modFn_same]
    exact hraised hi
  · rw [hroom] at hfull
    exact nomatch hfull

/-- Without room a reply's entry waits last, its packet stays outstanding, and RING_STALL is set (R383). -/
theorem replyMade_full {fn : Fin 65} (hport : k.port = .host fn) (hroom : ringRoom (u.fn fn) = false) :
    ReplyMade u k (replyNow u k status detail out block) status detail out block := by
  refine ⟨replyNow_portOnly, ?_⟩
  have hfn (g : Nat) : (blockSent u k fn out block).fn g = u.fn g := rfl
  rw [hport, replyNow_host hport, postEntry_full (by rwa [hfn])]
  generalize ht : ((blockSent u k fn out block).modFn fn fun f =>
    { f with waiting := ((blockSent u k fn out block).fn fn).waiting ++ [entryOf u k status detail] }) = t
  have htown : t.fn fn = { u.fn fn with waiting := (u.fn fn).waiting ++ [entryOf u k status detail] } := by
    rw [← ht, fn_modFn_same]
    rfl
  have hirq := IrqOnly.raiseCause t fn 2
  obtain ⟨ms, hms, hsent⟩ := hirq.sent
  refine ⟨fun g hg => ?_, ?_, ⟨ms, hms, ?_⟩, fun hfull => ?_, fun _ => ⟨?_, ?_, ?_, ?_⟩⟩
  · have hg' : g.val ≠ fn.val := Fin.val_ne_of_ne hg
    rw [hirq.other _ hg', ← ht, fn_modFn_other _ _ hg', hfn]
  · rw [hirq.slots, htown]
  · rw [hsent, ← ht, hroom]
    simp [blockSent]
  · rw [hroom] at hfull
    exact nomatch hfull
  · rw [hirq.outstanding, ← ht]
    rfl
  · rw [hirq.producer, htown]
  · exact raiseCause_set (by decide)
  · rw [hirq.waiting, htown]

end

/-! ## Packets that are refused -/

theorem voted_intact {s : State} {src : PktSrc} {k : Packet} {mine : Packet → Bool} (hat : packetAt s src = some k)
    (hfuse : s.fuseOdd = []) (hpitch : (s.part k.part).pitchOdd = []) : voted s src mine = s := by
  unfold voted
  rw [hat]
  simp [usePitch, useFuses, hfuse, hpitch]

section

variable {s : State} {src : PktSrc} {k : Packet} {status detail : Nat}

/-- What becomes of a packet that fails a check of R380: it is refused, or leaves its status where no ring is set (R384). -/
def refused (s : State) (src : PktSrc) (k : Packet) (status detail : Nat) : State :=
  if hasRing (started s src k) k then refusePacket (started s src k) src k status detail
  else noRing (started s src k) k status

theorem runVoted_failing {mine : Packet → Bool} {body : Packet → State → Body} (hat : packetAt s src = some k)
    (hm : mine k = true) (hs : mayStart s k = true) (hfuse : s.fuseOdd = []) (hpitch : (s.part k.part).pitchOdd = [])
    (hc : checkPacket (started s src k) k = some (status, detail)) :
    runVoted s src mine body = refused s src k status detail := by
  rw [runVoted, voted_intact hat hfuse hpitch, refused]
  by_cases hr : hasRing (started s src k) k = true
  · rw [if_pos hr, runPacket_refused hat hm hs hr hc]
  · rw [if_neg hr]
    unfold started at hr hc ⊢
    unfold runPacket
    rw [hat]
    simp only [hm, hs, hc, if_neg hr, Bool.not_true, Bool.or_self, Bool.false_eq_true, if_false, Option.getD_some]

end

/-- What a row of packets owes one that fails a check: that it is refused, and then what goes on after any packet's course. -/
def RefusesFailing (e : (PktSrc → Instr) × (Packet → Bool) × (State → State)) : Prop :=
  ∀ s src k status detail, packetAt s src = some k → e.2.1 k = true → mayStart s k = true →
    s.fuseOdd = [] → (s.part k.part).pitchOdd = [] → checkPacket (started s src k) k = some (status, detail) →
    exec (e.1 src) s = .next (e.2.2 (refused s src k status detail))

/-- A command that is the course of its packet refuses where every packet of its row is one of its event's. -/
theorem refusesFailing {c : PktSrc → Instr} {row mine : Packet → Bool} {after : State → State} {body : Packet → State → Body}
    (hx : ∀ src s, exec (c src) s = .next (after (runVoted s src mine body))) (hm : ∀ k, row k = true → mine k = true) :
    RefusesFailing (c, row, after) := by
  intro s src k status detail hat hrow hs hfuse hpitch hc
  rw [hx, runVoted_failing hat (hm k hrow) hs hfuse hpitch hc]

theorem packetRows_refuse : ∀ e ∈ packetRows, RefusesFailing e := by
  simp only [packetRows, List.forall_mem_append, List.forall_mem_cons, List.not_mem_nil, false_implies, implies_true, and_true]
  have same {c : PktSrc → Instr} {row : Packet → Bool} {body : Packet → State → Body} {after : State → State}
      (hx : ∀ src s, exec (c src) s = .next (after (runVoted s src row body))) : RefusesFailing (c, row, after) :=
    refusesFailing hx fun _ h => h
  have acts {c : PktSrc → Instr} {P : Packet → Prop} [DecidablePred P] {mine : Packet → Bool} {body : Packet → State → Body}
      {after : State → State} (hx : ∀ src s, exec (c src) s = .next (after (runVoted s src mine body)))
      (hm : ∀ k, P k → mine k = true) : RefusesFailing (c, fun k => decide (P k), after) :=
    refusesFailing hx fun k h => hm k (of_decide_eq_true h)
  refine ⟨⟨⟨⟨?host, ?lines⟩, ?logs⟩, ?keys⟩, ?debug⟩
  case host =>
    exact ⟨same fun _ _ => rfl, same fun _ _ => rfl, same fun _ _ => rfl, acts (fun _ _ => rfl) (by simp +contextual),
      acts (fun _ _ => rfl) (by simp +contextual), acts (fun _ _ => rfl) (by simp +contextual), same fun _ _ => rfl,
      same fun _ _ => rfl, same fun _ _ => rfl, same fun _ _ => rfl⟩
  case lines =>
    exact ⟨same fun _ _ => rfl, same fun _ _ => rfl, same fun _ _ => rfl, same fun _ _ => rfl, same fun _ _ => rfl,
      same fun _ _ => rfl, same fun _ _ => rfl, same fun _ _ => rfl, same fun _ _ => rfl, same fun _ _ => rfl,
      same fun _ _ => rfl⟩
  case logs =>
    exact ⟨acts (fun _ _ => rfl) (by simp +contextual), acts (fun _ _ => rfl) (by simp +contextual),
      acts (fun _ _ => rfl) (by simp +contextual), same fun _ _ => rfl, same fun _ _ => rfl,
      acts (fun _ _ => rfl) (by simp +contextual [stateCode]),
      acts (fun _ _ => rfl) (by simp +contextual [stateCode]),
      acts (fun _ _ => rfl) (by simp +contextual [stateCode]),
      acts (fun _ _ => rfl) (by simp +contextual [stateCode]),
      acts (fun _ _ => rfl) (by simp +contextual [stateCode])⟩
  case keys =>
    exact ⟨same fun _ _ => rfl, same fun _ _ => rfl, same fun _ _ => rfl, same fun _ _ => rfl,
      acts (fun _ _ => rfl) (by simp +contextual), acts (fun _ _ => rfl) (by simp +contextual),
      acts (fun _ _ => rfl) (by simp +contextual), same fun _ _ => rfl, same fun _ _ => rfl, same fun _ _ => rfl,
      same fun _ _ => rfl, same fun _ _ => rfl, same fun _ _ => rfl⟩
  case debug =>
    exact ⟨acts (fun _ _ => rfl) (by simp +contextual), acts (fun _ _ => rfl) (by simp +contextual),
      acts (fun _ _ => rfl) (by simp +contextual), acts (fun _ _ => rfl) (by simp +contextual),
      acts (fun _ _ => rfl) (by simp +contextual), acts (fun _ _ => rfl) (by simp +contextual), same fun _ _ => rfl,
      same fun _ _ => rfl, same fun _ _ => rfl, acts (fun _ _ => rfl) (by simp +contextual),
      acts (fun _ _ => rfl) (by simp +contextual)⟩

/-! ## The checks in their order -/

/-- Settles O8: `firstFail` answers the first check of its list that fails, and none of the checks of a packet that passes. -/
theorem checksOfAPacketStandInTheirOrder : Obligations.ChecksOfAPacketStandInTheirOrder := by
  intro s k
  refine ⟨fun hl => ?_, fun hl hc => ?_, fun hl hc hh => ?_, fun hl hc hv hr hrow => ?_, fun hpass => ?_⟩
  · simp [checkPacket, firstFail, hl]
  · simp [checkPacket, firstFail, Nat.not_lt.2 hl, hc]
  · rcases hh with hv | hr
    · simp [checkPacket, firstFail, Nat.not_lt.2 hl, hc, hv]
    · simp [checkPacket, firstFail, Nat.not_lt.2 hl, hc, hr]
  · simp [checkPacket, firstFail, Nat.not_lt.2 hl, hc, hv, hr, hrow]
  · simp only [checkPacket, firstFail_eq_none_iff, List.forall_mem_cons] at hpass
    obtain ⟨-, -, -, hrow, -, -, -, -, -, hlength, -⟩ := hpass
    obtain ⟨r, hr⟩ : ∃ r, k.row = some r := Option.isSome_iff_exists.1 (by simpa using hrow)
    rw [hr] at hlength
    refine ⟨r, hr, ?_⟩
    simpa using hlength

/-- Settles O9: the fourth check is the first to fail, and a refusal of detail 0 is one reply. -/
theorem unknownOpcodeIsRefused : Obligations.UnknownOpcodeIsRefused := by
  intro s src k hat hrow hlen hcrc hver hres hs hring hfuse hpitch
  obtain ⟨-, -, -, hopcode, -⟩ := checksOfAPacketStandInTheirOrder (started s src k) k
  have hc := hopcode hlen hcrc hver hres hrow
  change execInvalidOpcodePacket src s = _
  rw [execInvalidOpcodePacket, runVoted_failing hat (by simp [hrow]) hs hfuse hpitch hc, refused, if_pos hring]
  cases src <;> rfl

/-! ## The first failing check -/

section

variable {u : State} {k : Packet} {status detail : Nat}

/-- A refusal is one reply, but for a packet of a slot that is refused at check 11 (R381). -/
theorem refusePacket_replies {src : PktSrc} (h : detail ≠ Detail.hstOutstanding ∨ k.port.isMgmt = true)
    (hport : packetPort src = k.port) : refusePacket u src k status detail = replyNow u k status detail 0 [] := by
  cases src with
  | mgmt n ws => rfl
  | slot fn i =>
    rw [← hport] at h
    have hne : detail ≠ Detail.hstOutstanding := h.resolve_right (by simp [packetPort, ReplyPort.isMgmt])
    simp only [refusePacket, if_pos hne]

/-- A slot that keeps its packet while the packet's entry waits (R381). -/
def keepSlot (k : Packet) (i : Fin 8) (f : FnState) : FnState :=
  { f with slots := tmod f.slots i fun sl => { words := tset sl.words 0 (k.words.getD 0 0), committed := true } }

/-- The state in which a packet refused at check 11 is outstanding and keeps its slot (R381). -/
def slotKept (u : State) (k : Packet) (fn : Fin 65) (i : Fin 8) : State :=
  { u.modFn fn (keepSlot k i) with
    outstanding := u.outstanding ++ [{ replyTo := { k.replyTo with slot := some i.val }, part := k.part }] }

theorem slotKept_fn (u : State) (k : Packet) (fn : Fin 65) (i : Fin 8) :
    (slotKept u k fn i).fn fn = { u.fn fn with slots := ((slotKept u k fn i).fn fn).slots } ∧
      (tget ((slotKept u k fn i).fn fn).slots i).committed = true := by
  have h : (slotKept u k fn i).fn fn = keepSlot k i (u.fn fn) :=
    (fn_congr (s := u.modFn fn (keepSlot k i)) rfl fn).trans (fn_modFn_same ..)
  rw [h]
  exact ⟨rfl, by simp [keepSlot]⟩

theorem refusePacket_slot {fn : Fin 65} {i : Fin 8} (hport : k.port = .host fn) :
    refusePacket u (.slot fn i) k status Detail.hstOutstanding =
      postEntry (slotKept u k fn i) fn { entryOf u k status Detail.hstOutstanding with slot := some i.val } := by
  have hreply : refusePacket u (.slot fn i) k status Detail.hstOutstanding = postReply (slotKept u k fn i)
      { k.replyTo with slot := some i.val } k.part status Detail.hstOutstanding [] := by
    rw [refusePacket, if_neg (by simp)]
    rfl
  rw [hreply, postReply_host hport]
  rfl

theorem refusePacket_waits {fn : Fin 65} {i : Fin 8} (hport : k.port = .host fn) (hroom : ringRoom (u.fn fn) = false) :
    ∃ t, t = refusePacket u (.slot fn i) k status Detail.hstOutstanding ∧ PortOnly u t ∧
      (tget (t.fn fn).slots i).committed = true ∧ (t.fn fn).producer = (u.fn fn).producer ∧
      (t.fn fn).waiting = (u.fn fn).waiting ++ [{ entryOf u k status Detail.hstOutstanding with slot := some i.val }] := by
  refine ⟨_, rfl, refusePacket_portOnly, ?_⟩
  obtain ⟨hown, hkept⟩ := slotKept_fn u k fn i
  have hfull : ringRoom ((slotKept u k fn i).fn fn) = false := by rwa [hown]
  have hirq := IrqOnly.raiseCause ((slotKept u k fn i).modFn fn fun f => { f with waiting :=
    ((slotKept u k fn i).fn fn).waiting ++ [{ entryOf u k status Detail.hstOutstanding with slot := some i.val }] }) fn 2
  rw [refusePacket_slot hport, postEntry_full hfull, hirq.slots, hirq.producer, hirq.waiting, fn_modFn_same]
  exact ⟨hkept, by rw [hown], by rw [hown]⟩

end

/-- Settles O7: `packetRows_refuse` for the rows; a refusal is one reply, which is made by what its port has room for. -/
theorem packetIsRefusedAtTheFirstFailingCheck : Obligations.PacketIsRefusedAtTheFirstFailingCheck := by
  refine ⟨packetRows_refuse, fun u src k status detail hd hp => refusePacket_replies hd hp,
    fun u fn i k status hport hroom => refusePacket_waits hport hroom, ?_⟩
  intro u k status detail out block hnone hwait
  cases hport : k.port with
  | mgmt n => exact replyMade_mgmt hport hnone
  | host fn =>
    by_cases hroom : ringRoom (u.fn fn) = true
    · exact replyMade_room hport hroom (hwait fn hport hroom) hnone
    · exact replyMade_full hport (Bool.eq_false_iff.2 hroom)

end Sys2Proof.Machine
end

section
/-! SUPPORT. Commands that reply with a block (R387 to R392, R475, R514, R518, O10), SET_REPLY_RING (R383, R384, O11), and the
packets of the engine queues (R390, R391, O12). -/

namespace Sys2Proof.Machine

/-! ## Blocks -/

theorem length_padTo (n : Nat) (bs : List Byte) : (padTo n bs).length = n := by
  rw [padTo, List.length_append, List.length_take, List.length_replicate]
  omega

/-- Settles O10: the body of each packet, and blocks that are padded to the length of their table. -/
theorem queryPacketsReplyWithTheirBlock : Obligations.QueryPacketsReplyWithTheirBlock := by
  refine ⟨?nop, ?info, ?queue, ?link, ?telemetry, ?bist, ?trace, ?frame, ?blocks⟩
  case nop => exact completes_reply (fun _ _ => rfl) (fun _ _ hop _ => decide_eq_true hop) fun _ _ _ _ => bodyEnd_ok
  case info =>
    refine completes_reply (fun _ _ => rfl) (fun _ _ hop _ => decide_eq_true hop) fun s k _ hout => ?_
    rw [if_pos hout]
    rfl
  case queue =>
    refine completes_reply (fun _ _ => rfl) (fun _ _ hop _ => decide_eq_true hop) ?_
    rintro s k - ⟨hq, hout⟩
    rw [if_neg (by simp [hq, hout])]
    rfl
  case link =>
    refine completes_reply (fun _ _ => rfl) (fun _ _ hop _ => decide_eq_true hop) fun s k _ hout => ?_
    rw [if_pos hout]
    rfl
  case telemetry =>
    refine completes_reply (fun _ _ => rfl) (fun _ _ hop _ => decide_eq_true hop) ?_
    rintro s k - ⟨hset, hout, hvf⟩
    simp only
    rw [if_neg (by simp [Nat.not_lt.2 hset, hout]), if_neg (by simpa using hvf)]
    rfl
  case bist =>
    refine completes_reply (fun _ _ => rfl) (fun _ _ hop _ => decide_eq_true hop) ?_
    rintro s k - ⟨hi, hthere⟩
    simp only
    rw [if_neg (Nat.not_le.2 hi), if_neg (by simp [hthere])]
    rfl
  case trace =>
    refine completes_reply (fun _ _ => rfl) (fun s k hop hpre => by simp [hop, hpre.1]) ?_
    rintro s k - ⟨-, hlen, hflags, halign, hoff, hout⟩
    simp only
    rw [if_neg (by simp [Nat.not_lt.2 hlen, Nat.not_le.2 hflags, halign, Nat.not_le.2 hoff, hout])]
    rfl
  case frame =>
    intro s k t status detail out block h
    rw [h]
    exact replyNow_portOnly
  case blocks => exact fun s k => ⟨length_padTo .., length_padTo .., length_padTo .., length_padTo .., length_padTo ..⟩

/-! ## SET_REPLY_RING -/

/-- A ring's base, size and head are as before. -/
def RingStands (fn : Nat) (s t : State) : Prop :=
  (t.fn fn).ringBase = (s.fn fn).ringBase ∧ (t.fn fn).ringLog2 = (s.fn fn).ringLog2 ∧ (t.fn fn).head = (s.fn fn).head

namespace RingStands

variable {fn : Nat} {s t u : State}

theorem refl : RingStands fn s s := ⟨rfl, rfl, rfl⟩

theorem trans (h : RingStands fn s t) (g : RingStands fn t u) : RingStands fn s u := by
  unfold RingStands at *
  rw [g.1, g.2.1, g.2.2]
  exact h

theorem of_fns (h : t.fns = s.fns) : RingStands fn s t := by
  unfold RingStands
  rw [fn_congr h]
  exact ⟨rfl, rfl, rfl⟩

theorem of_irqOnly (h : IrqOnly fn s t) : RingStands fn s t := by
  unfold RingStands
  rw [h.own]
  exact ⟨rfl, rfl, rfl⟩

theorem modFn {f : FnState → FnState} (h : f (s.fn fn) = { f (s.fn fn) with
    ringBase := (s.fn fn).ringBase, ringLog2 := (s.fn fn).ringLog2, head := (s.fn fn).head }) :
    RingStands fn s (s.modFn fn f) := by
  unfold RingStands
  rw [fn_modFn_same, h]
  exact ⟨rfl, rfl, rfl⟩

theorem closePacket (s : State) (e : RingEntry) : RingStands fn s (closePacket s fn e) := by
  have hdrop : RingStands fn s (if h : fn < 65 then dropOutstanding s (.host ⟨fn, h⟩) e.tag else s) := by
    split
    · exact of_fns rfl
    · exact refl
  unfold Machine.closePacket
  extract_lets t
  split
  · exact hdrop.trans (modFn rfl)
  · exact hdrop

theorem writeEntry (s : State) (e : RingEntry) : RingStands fn s (writeEntry s fn e) := by
  unfold Machine.writeEntry
  extract_lets f s1 s2 s3
  have h2 : RingStands fn s s2 := (of_fns (s := s) (t := s1) rfl).trans (modFn rfl)
  have h3 : RingStands fn s s3 := h2.trans (closePacket ..)
  split
  · exact h2.trans (of_irqOnly (.raiseCause ..))
  · split
    · exact h3.trans (of_irqOnly (.raiseCause ..))
    · exact h3

theorem drainRing (l : List RingEntry) (s : State) : RingStands fn s (drainRing fn l s) := by
  induction l generalizing s with
  | nil => exact modFn rfl
  | cons e r ih =>
    unfold Machine.drainRing
    split
    · exact (writeEntry s e).trans (ih _)
    · exact modFn rfl

theorem postEntry (s : State) (e : RingEntry) : RingStands fn s (postEntry s fn e) := by
  unfold Machine.postEntry
  extract_lets t
  split
  · exact drainRing ..
  · exact (drainRing ..).trans (of_irqOnly (.raiseCause ..))

theorem replyNow {fn : Fin 65} {k : Packet} {status detail out : Nat} {block : List Byte} (hport : k.port = .host fn) (s : State) :
    RingStands fn s (replyNow s k status detail out block) := by
  rw [replyNow_host hport]
  exact (of_fns (s := s) (t := blockSent s k fn out block) rfl).trans (postEntry ..)

end RingStands

/-- A size that SET_REPLY_RING takes is the power of two of its logarithm (R383). -/
theorem two_pow_of_ringLog {x n : Nat} (h : ringLog x = some n) : 2 ^ n = x := by
  simpa using List.find?_some h

/-- What SET_REPLY_RING takes is a ring size, and what it does not is refused as BAD_STATE (R383). -/
theorem ringCheck_ok {s : State} {k : Packet} {n : Nat} (h : ringCheck s k = .ok n) : 2 ^ n = k.param 2 := by
  unfold ringCheck at h
  split at h
  · exact nomatch h
  · next hlog =>
    split at h
    · exact nomatch h
    · split at h
      · cases h
        exact two_pow_of_ringLog hlog
      · exact nomatch h

theorem ringCheck_error {s : State} {k : Packet} {status detail : Nat} (h : ringCheck s k = .error (status, detail)) :
    status = Status.badState := by
  unfold ringCheck at h
  split at h
  · cases h
    rfl
  · split at h
    · cases h
      rfl
    · split at h
      · exact nomatch h
      · cases h
        rfl

section

variable {s : State} {src : PktSrc} {k : Packet} {fn : Fin 65} {n : Nat}

theorem exec_setReplyRing_passes (hat : packetAt s src = some k) (hop : k.op = 0x0003) (hport : k.port = .host fn)
    (hs : mayStart s k = true) (hc : checkPacket (started s src k) k = none) :
    exec (.setReplyRing src) s = .next (runRing (started s src k) k fn) := by
  change execSetReplyRing src s = _
  unfold started at hc ⊢
  rw [execSetReplyRing, hat]
  simp [hop, hs, hc, hport]

/-- The new ring changes nothing but what the ports own, and its base, size and head are those set (R383). -/
theorem setRing_frame (hport : k.port = .host fn) : PortOnly s (setRing s k fn n) ∧
    ((setRing s k fn n).fn fn).ringBase = k.param64 0 ∧ ((setRing s k fn n).fn fn).ringLog2 = n ∧
    ((setRing s k fn n).fn fn).head = 0 := by
  unfold setRing
  extract_lets events t
  have hown : t.fn fn = { s.fn fn with ringBase := k.param64 0, ringLog2 := n, producer := 0, head := 0, waiting := [] } :=
    fn_modFn_same ..
  have hset : PortOnly s t := modFn_portOnly
  have hreply : PortOnly t (replyNow t k Status.ok 0 0 []) := replyNow_portOnly
  have hrings : RingStands fn t (replyNow t k Status.ok 0 0 []) := .replyNow hport t
  generalize replyNow t k Status.ok 0 0 [] = v at hreply hrings ⊢
  have hevents : PortOnly v (events.foldl (fun s e => postEntry s fn e) v) :=
    foldl_related (R := PortOnly) .refl (fun _ _ _ => .trans) (fun _ _ => postEntry_portOnly) events v
  have hposted : RingStands fn v (events.foldl (fun s e => postEntry s fn e) v) :=
    foldl_related (R := RingStands fn) (fun _ => .refl) (fun _ _ _ => .trans) (fun u e => .postEntry u e) events v
  obtain ⟨hbase, hlog, hhead⟩ := hrings.trans hposted
  exact ⟨hset.trans (hreply.trans hevents), by rw [hbase, hown], by rw [hlog, hown], by rw [hhead, hown]⟩

end

/-- Settles O11: `runRing` by what `ringCheck` finds. -/
theorem setReplyRingStartsAnEmptyRing : Obligations.SetReplyRingStartsAnEmptyRing := by
  intro s src k fn n hat hop hport hs hc
  rw [exec_setReplyRing_passes hat hop hport hs hc, runRing]
  refine ⟨fun hok => ?_, fun status detail herr => ⟨ringCheck_error herr, ?_⟩⟩
  · rw [hok]
    exact ⟨_, _, rfl, rfl, ringCheck_ok hok, rfl, setRing_frame hport⟩
  · rw [herr]
    simp [hasRing, noRing, hport]

/-! ## The engine queues -/

/-- Settles O12: the bodies of the packets. -/
theorem queuePacketsActOnTheirQueues : Obligations.QueuePacketsActOnTheirQueues := by
  refine ⟨?submit, ?halt, ?flush, ?resume⟩
  case submit =>
    refine completes_reply (fun _ _ => rfl) (fun _ _ hop _ => decide_eq_true hop) ?_
    rintro s k - ⟨hq, hva, halign, hsome, hmany, hroom⟩
    simp only
    rw [if_neg (by simp [Nat.not_le.2 hq, hva, halign, hsome, Nat.not_lt.2 hmany]), if_neg (Nat.not_le.2 hroom)]
    rfl
  case halt =>
    rintro s src k h ⟨hmask, haction⟩
    refine ⟨_, rfl, _, rfl, congrArg settleAllHalts ?_⟩
    rw [runVoted_accepted h (by simp [h.opcode, haction]), if_pos (by simp [haltParams, hmask, haction])]
    rfl
  case flush =>
    rintro s src k h ⟨hmask, haction⟩
    refine ⟨_, rfl, _, rfl, congrArg settleAllHalts ?_⟩
    rw [runVoted_accepted h (by simp [h.opcode, haction]), if_pos (by simp [haltParams, hmask, haction])]
    rfl
  case resume =>
    refine completes_reply (fun _ _ => rfl) (fun s k hop hpre => by simp [hop, hpre.2]) ?_
    rintro s k - ⟨hmask, haction⟩
    rw [if_pos (by simp [haltParams, hmask, haction])]
    rfl

end Sys2Proof.Machine
end

section
/-! SUPPORT. Entries that end at the head of their queue (R390, R391, R393, O40). -/

namespace Sys2Proof.Machine

/-! ## Packets outstanding after an event -/

/-- No packet is outstanding in `t` that was not in `s`. -/
def NoneOpened (s t : State) : Prop := ∀ o ∈ t.outstanding, o ∈ s.outstanding

namespace NoneOpened

variable {s t u : State} {fn : Nat}

theorem of_eq (h : t.outstanding = s.outstanding) : NoneOpened s t := fun _ ho => h ▸ ho

theorem trans (h : NoneOpened s t) (g : NoneOpened t u) : NoneOpened s u := fun o ho => h o (g o ho)

theorem raiseCause (s : State) (fn i : Nat) : NoneOpened s (raiseCause s fn i) := of_eq (IrqOnly.raiseCause s fn i).outstanding

theorem closePacket (s : State) (fn : Nat) (e : RingEntry) : NoneOpened s (closePacket s fn e) := by
  have hdrop : NoneOpened s (if h : fn < 65 then dropOutstanding s (.host ⟨fn, h⟩) e.tag else s) := by
    split
    · exact fun _ ho => List.mem_of_mem_eraseP ho
    · exact of_eq rfl
  unfold Machine.closePacket
  extract_lets t
  split
  · exact hdrop.trans (of_eq rfl)
  · exact hdrop

theorem writeEntry (s : State) (fn : Nat) (e : RingEntry) : NoneOpened s (writeEntry s fn e) := by
  unfold Machine.writeEntry
  extract_lets f s1 s2 s3
  have h2 : NoneOpened s s2 := of_eq rfl
  have h3 : NoneOpened s s3 := h2.trans (closePacket s2 fn e)
  split
  · exact h2.trans (raiseCause s2 fn 1)
  · split
    · exact h3.trans (raiseCause s3 fn 0)
    · exact h3

theorem drainRing (fn : Nat) (l : List RingEntry) (s : State) : NoneOpened s (drainRing fn l s) := by
  induction l generalizing s with
  | nil => exact of_eq rfl
  | cons e r ih =>
    unfold Machine.drainRing
    split
    · exact (writeEntry s fn e).trans (ih _)
    · exact of_eq rfl

theorem postEntry (s : State) (fn : Nat) (e : RingEntry) : NoneOpened s (postEntry s fn e) := by
  unfold Machine.postEntry
  extract_lets t
  have ht : NoneOpened s t := drainRing fn _ s
  split
  · exact ht
  · exact ht.trans (raiseCause t fn 2)

theorem postReply (s : State) (who : ReplyTo) (part status detail : Nat) (block : List Byte) :
    NoneOpened s (postReply s who part status detail block) := by
  have hdrop : NoneOpened s (dropOutstanding s who.port who.tag) := fun _ ho => List.mem_of_mem_eraseP ho
  unfold Machine.postReply
  split
  · exact postEntry s _ _
  · extract_lets t
    split
    · exact hdrop
    · exact hdrop.trans (of_eq rfl)

theorem postEvent (s : State) (fn source status detail tick : Nat) :
    NoneOpened s (postEvent s fn source status detail tick) := by
  unfold Machine.postEvent
  extract_lets f
  split
  · exact of_eq rfl
  · exact postEntry s fn _

end NoneOpened

/-! ## Entries that end -/

/-- No QUEUE_HALT of the partition waits. -/
def NoHaltWaits (s : State) (p : Nat) : Prop := ∀ o ∈ s.outstanding, o.part = p → ∀ m f, o.waits ≠ some (.queueHalt m f)

section

variable {s t : State} {p : Nat}

theorem NoHaltWaits.of_noneOpened (h : NoHaltWaits s p) (g : NoneOpened s t) : NoHaltWaits t p := fun o ho => h o (g o ho)

theorem NoHaltWaits.haltDue (h : NoHaltWaits s p) (k : Nat) : haltDue s p k = false := by
  rw [Machine.haltDue, List.any_eq_false]
  intro o ho hdue
  rw [Bool.and_eq_true, decide_eq_true_eq] at hdue
  obtain ⟨hp, hm⟩ := hdue
  split at hm
  · next m f hw => exact h o ho hp m f hw
  · exact nomatch hm

theorem NoHaltWaits.haltMet (h : NoHaltWaits s p) (o : Outstanding) (ho : o ∈ s.outstanding) : ¬haltMet s p o = true := by
  intro hmet
  rw [Machine.haltMet, Bool.and_eq_true, decide_eq_true_eq] at hmet
  obtain ⟨hp, hm⟩ := hmet
  split at hm
  · next m f hw => exact h o ho hp m f hw
  · exact nomatch hm

/-- Where nothing that waits is picked, no reply becomes ready. -/
theorem completeAll_none {pick : Outstanding → Bool} (status detail : Nat) (h : ∀ o ∈ s.outstanding, ¬pick o = true) :
    completeAll s pick status detail = s := by
  have hpick : ∀ o ∈ s.outstanding, (o.waits.isSome && pick o) = false := fun o ho => by simp [h o ho]
  have hfilter : s.outstanding.filter (fun o => o.waits.isSome && pick o) = [] :=
    List.filter_eq_nil_iff.2 fun o ho => by simp [hpick o ho]
  have hmap : s.outstanding.map (fun o => if o.waits.isSome && pick o then { o with waits := none } else o) = s.outstanding :=
    (List.map_congr_left fun o ho => by rw [hpick o ho]; rfl).trans (List.map_id _)
  rw [completeAll, hfilter, hmap]
  rfl

theorem settleHalts_none (h : NoHaltWaits s p) : settleHalts s p = s := by
  have hdue : s.outstanding.filter (Machine.haltMet s p) = [] := List.filter_eq_nil_iff.2 h.haltMet
  rw [settleHalts, hdue]
  exact completeAll_none _ _ h.haltMet

theorem queue_modQueue_same {k : Nat} (f : Queue → Queue) : (s.modQueue p k f).queue p k = f (s.queue p k) := by
  simp [State.queue, State.modQueue]

theorem queue_congr (h : t.parts = s.parts) (k : Nat) : t.queue p k = s.queue p k := by
  rw [State.queue, State.queue, State.part, State.part, h]

/-- The queue whose head entry of `n` units failed (R391). -/
def failedQueue (n status detail : Nat) (q : Queue) : Queue :=
  { q with
    halted := true, failed := true, failUnits := n, inProgress := false, waitFrom := none
    lastStatus := status, lastDetail := detail, completed := (q.completed + 1) % 2 ^ 64 }

theorem entryFail_none {k n status detail : Nat} (h : NoHaltWaits s p) : entryFail s p k n status detail =
    partEvent (s.modQueue p k (failedQueue n status detail)) p srcQueue status detail :=
  settleHalts_none (h.of_noneOpened (NoneOpened.postEvent (s.modQueue p k (failedQueue n status detail)) _ _ _ _ _))

theorem PortOnly.parts (h : PortOnly s t) : t.parts = s.parts := by rw [h]

end

/-- Settles O40: where no QUEUE_HALT waits, nothing follows the change that the end of an entry makes of its queue. -/
theorem entriesEndAtTheHeadOfTheirQueue : Obligations.EntriesEndAtTheHeadOfTheirQueue := by
  intro p k n s h
  have hnone (f : Queue → Queue) : NoHaltWaits (s.modQueue p k f) p := h
  refine ⟨?_, fun status detail => ?_⟩
  · rw [entryDone, settleHalts_none (hnone _), NoHaltWaits.haltDue h]
    refine ⟨?_, fun q hq => part_modPart_other _ _ hq, rfl, rfl, rfl, rfl⟩
    rw [queue_modQueue_same, Bool.or_false]
  · have hevent : PortOnly (s.modQueue p k (failedQueue n status detail)) (entryFail s p k n status detail) := by
      rw [entryFail_none h]
      exact postEvent_portOnly
    rw [queue_congr hevent.parts, queue_modQueue_same]
    exact ⟨rfl, SameBytes.trans ⟨rfl, rfl, rfl, rfl⟩ hevent.sameBytes⟩

end Sys2Proof.Machine
end

section
/-! SUPPORT. Packets of partitions (R408 to R425, O15, O16), of firmware update (R503 to R506, O22), of self-test (R512, R513,
O23), and of trace, resources and the debug halt (R517 to R521, O24). -/

namespace Sys2Proof.Machine

/-! ## Partitions and their logs -/

/-- A lease set makes no partition PREEMPTED, nor leaves one less so (R416, R418). -/
theorem preempted_after_lease (x : PartState) :
    ((if x == .preempting then PartState.running else x) == .preempted) = true ↔ x = .preempted := by
  cases x <;> decide

/-- Settles O15: the bodies of the packets, and `preempted_after_lease` for the job that then resumes. -/
theorem partitionPacketsCreateResetAndLease : Obligations.PartitionPacketsCreateResetAndLease := by
  refine ⟨?create, ?reset, ?destroy, ?lease⟩
  case create =>
    refine completes_reply (fun _ _ => rfl) (fun _ _ hop _ => decide_eq_true hop) ?_
    rintro s k - ⟨hcheck, hnumber⟩
    obtain ⟨p, hp⟩ := Option.isSome_iff_exists.1 hnumber
    refine ⟨p, hp, ?_⟩
    simp only [hcheck, hp]
    rfl
  case reset =>
    intro s src k h _
    exact ⟨_, rfl, _, rfl, congrArg settleResets (runVoted_accepted h (decide_eq_true h.opcode))⟩
  case destroy =>
    intro s src k h _
    exact ⟨_, rfl, _, rfl, congrArg settleResets (runVoted_accepted h (decide_eq_true h.opcode))⟩
  case lease =>
    refine completes_reply (fun _ _ => rfl) (fun _ _ hop _ => decide_eq_true hop) ?_
    rintro s k - ⟨hlease, hgrace, hlinked, htimer⟩
    refine ⟨_, ?_, rfl⟩
    have hrange : ¬((decide (2 ^ 40 ≤ k.param64 0) || decide (1000000 < k.param 2)) = true) := by
      rw [Bool.or_eq_true, decide_eq_true_eq, decide_eq_true_eq]
      omega
    simp only [if_neg hrange, if_neg (not_not_intro hlinked), htimer, Bool.false_eq_true, if_false, part_modPart_same,
      preempted_after_lease]
    rfl

/-- Settles O16: the bodies of the packets. -/
theorem dirtyLogPacketsStartCollectAndStop : Obligations.DirtyLogPacketsStartCollectAndStop := by
  refine ⟨?start, ?collect, ?stop⟩
  case start =>
    refine completes_reply (fun _ _ => rfl) (fun s k hop hpre => by simp [hop, hpre.2.1]) ?_
    rintro s k - ⟨hword, -, hnone, hbitmap, hbase, hbytes⟩
    refine ⟨{ bitmap := k.param64 1, base := k.param64 3, bytes := k.param64 5 }, rfl, rfl, rfl, rfl, ?_⟩
    simp only
    rw [if_neg (by simp [hword]), if_neg (by simp [hnone, hbitmap, hbase, hbytes])]
    rfl
  case collect =>
    rintro s src k h ⟨hword, haction, hlog, hbitmap⟩
    refine ⟨_, rfl, _, rfl, congrArg settleAllLogs ?_⟩
    rw [runVoted_accepted h (by simp [h.opcode, hword, haction]), if_neg (by simp [Option.isSome_iff_ne_none.1 hlog, hbitmap])]
    rfl
  case stop =>
    rintro s src k h ⟨hword, haction, hlog⟩
    refine ⟨_, rfl, _, rfl, congrArg settleAllLogs ?_⟩
    rw [runVoted_accepted h (by simp [h.opcode, hword, haction]), if_neg (by simp [Option.isSome_iff_ne_none.1 hlog])]
    rfl

/-! ## Firmware update -/

/-- Once the replies of what is picked are ready, nothing that waits is picked any more. -/
theorem completeAll_waits {s : State} {pick : Outstanding → Bool} {d : Deferred} (status detail : Nat)
    (hpick : ∀ o : Outstanding, o.waits = some d → pick o = true) :
    ∀ o ∈ (completeAll s pick status detail).outstanding, o.waits ≠ some d := by
  unfold completeAll
  extract_lets hit t
  have hposted : NoneOpened t (hit.foldl (fun s o => postReply s o.replyTo o.part status detail []) t) :=
    foldl_related (R := NoneOpened) (fun _ => .of_eq rfl) (fun _ _ _ => .trans) (fun u o => NoneOpened.postReply u _ _ _ _ _) hit t
  intro o ho hwaits
  obtain ⟨o', -, rfl⟩ := List.mem_map.1 (hposted o ho)
  by_cases hp : (o'.waits.isSome && pick o') = true
  · rw [if_pos hp] at hwaits
    exact nomatch hwaits
  · rw [if_neg hp] at hwaits
    exact hp (by simp [hpick o' hwaits, hwaits])

theorem exec_flashWriteComplete_programming {s : State} {equal : Bool} {bytes u : Nat} (hfence : s.flash.fenceWrite = none)
    (hupdate : s.boot.update = some (bytes, u)) (hprog : s.boot.programming = true) :
    exec (.flashWriteComplete equal) s = .next (completeAll (releaseBuffer (programImage s bytes u equal) u)
      (fun o => o.waits = some .fwCommit) (if equal then Status.ok else Status.badState)
      (if equal then 0 else Detail.btdFlashWrite)) := by
  change execFlashWriteComplete equal s = _
  rw [execFlashWriteComplete, hfence]
  simp only [endProgramming, hupdate, if_pos hprog]

theorem PortOnly.boot {s t : State} (h : PortOnly s t) : t.boot = s.boot := by rw [h]

/-- Settles O22: the bodies of the packets by the boot stage, and what the end of programming releases and replies to. -/
theorem firmwareUpdateTakesAnImage : Obligations.FirmwareUpdateTakesAnImage := by
  refine ⟨?recover, ?ready, ?booting, ?data, ?commit, ?recoverCommit, ?fence, ?programmed⟩
  case recover =>
    refine completes_reply (fun _ _ => rfl) (fun _ _ hop _ => decide_eq_true hop) ?_
    rintro s k - ⟨hlen, hstage⟩
    simp only
    rw [if_neg (by simp [hlen]), if_pos (by simp [hstage])]
    rfl
  case ready =>
    refine completes_reply (fun _ _ => rfl) (fun _ _ hop _ => decide_eq_true hop) ?_
    rintro s k - ⟨hlen, hstage⟩
    simp only
    rw [if_neg (by simp [hlen]), if_neg (by simp [hstage]), if_neg (by simp [hstage])]
    cases beginUpdate s (k.param64 0) <;> rfl
  case booting =>
    refine completes_reply (fun _ _ => rfl) (fun _ _ hop _ => decide_eq_true hop) ?_
    rintro s k - ⟨hlen, hstage⟩
    simp only
    rw [if_neg (by simp [hlen]), if_neg (by simp [hstage]), if_pos (by simp [hstage])]
    rfl
  case data =>
    refine completes_reply (fun _ _ => rfl) (fun _ _ hop _ => decide_eq_true hop) ?_
    rintro s k - ⟨bytes, u, hupdate, hprog, halign, hfits⟩
    have hrange : ¬((decide (k.param 0 % 4 ≠ 0) || decide (bytes < k.param 0 + (k.paramBytes 1).length)) = true) := by
      simp [halign, Nat.not_lt.2 hfits]
    simp only [hupdate, hprog, Bool.false_eq_true, if_false, if_neg hrange]
    split
    · rfl
    · exact ⟨bytes, u, rfl, rfl⟩
  case commit =>
    refine completes_reply (fun _ _ => rfl) (fun _ _ hop _ => decide_eq_true hop) ?_
    rintro s k - ⟨hopen, hprog, hstage⟩
    obtain ⟨⟨bytes, u⟩, hupdate⟩ := Option.isSome_iff_exists.1 hopen
    refine ⟨bytes, u, hupdate, ?_⟩
    simp only [hupdate, hprog, Bool.false_eq_true, if_false, beq_iff_eq, if_neg hstage]
    cases imageRefusal s.fuses (fun o => mread s.mem (u * unitBytes + o)) <;> rfl
  case recoverCommit =>
    refine completes_reply (fun _ _ => rfl) (fun _ _ hop _ => decide_eq_true hop) ?_
    rintro s k - ⟨hopen, hprog, hstage⟩
    obtain ⟨⟨bytes, u⟩, hupdate⟩ := Option.isSome_iff_exists.1 hopen
    simp only [hupdate, hprog, Bool.false_eq_true, if_false, beq_iff_eq, if_pos hstage, recoveryCommit]
    cases imageRefusal s.fuses (flashImage s) <;> rfl
  case fence =>
    intro equal s m hfence
    change execFlashWriteComplete equal s = _
    rw [execFlashWriteComplete, hfence]
  case programmed =>
    intro equal s bytes u hfence hupdate hprog
    refine ⟨_, exec_flashWriteComplete_programming hfence hupdate hprog, ?_, ?_, completeAll_waits _ _ fun o ho => by simp [ho]⟩
    · rw [(completeAll_portOnly ..).boot]
      rfl
    · rw [(completeAll_portOnly ..).boot]
      rfl

/-! ## Self-test -/

theorem firstFail_bist {s : State} {k : Packet} (hsome : k.param64 0 ≠ 0) (hkind : k.param 2 ≤ 2)
    (hfree : ∀ i ∈ setBits (k.param64 0) 64, harvested s i = false ∧ ownerOfStall s i = none ∧ inBist s i = false) :
    firstFail [(decide (k.param64 0 = 0) || decide (2 < k.param 2), Status.badState, Detail.hstParam),
      ((setBits (k.param64 0) 64).any (fun i => harvested s i), Status.badState, Detail.btdBistHarvested),
      ((setBits (k.param64 0) 64).any (fun i => (ownerOfStall s i).isSome), Status.busy, Detail.btdBistAssigned),
      ((setBits (k.param64 0) 64).any (fun i => inBist s i), Status.busy, Detail.btdBistBusy)] = none := by
  have hharvested : (setBits (k.param64 0) 64).any (fun i => harvested s i) = false :=
    List.any_eq_false.2 fun i hi => by simp [(hfree i hi).1]
  have howned : (setBits (k.param64 0) 64).any (fun i => (ownerOfStall s i).isSome) = false :=
    List.any_eq_false.2 fun i hi => by simp [(hfree i hi).2.1]
  have htested : (setBits (k.param64 0) 64).any (fun i => inBist s i) = false :=
    List.any_eq_false.2 fun i hi => by simp [(hfree i hi).2.2]
  simp [firstFail, hsome, Nat.not_lt.2 hkind, hharvested, howned, htested]

/-- Settles O23: the body of BIST_RUN, and the group at the head of the queue with an outcome for each of its stalls. -/
theorem selfTestRunsAndReports : Obligations.SelfTestRunsAndReports := by
  refine ⟨?run, ?group⟩
  case run =>
    refine completes_reply (fun _ _ => rfl) (fun _ _ hop _ => decide_eq_true hop) ?_
    rintro s k - ⟨hsome, hkind, hfree⟩
    simp only [firstFail_bist hsome hkind hfree]
    rfl
  case group =>
    intro results s g rest hqueue hclocks hall
    refine ⟨_, ?_, rfl⟩
    have hfound : (g.stalls.filterMap fun i => results.find? fun r => r.stall.val = i).length = g.stalls.length :=
      List.filterMap_length_eq_length.2 hall
    change execBistGroupComplete results s = _
    rw [execBistGroupComplete, hqueue]
    simp only
    rw [if_neg (by simp [hfound, hclocks])]

/-! ## Trace, resources and the debug halt -/

theorem param_zero_of_word {k : Packet} {i : Nat} (h : k.word (4 + i) = 0) : k.param i = 0 := by
  simp [Packet.param, h]

/-- A trace that starts keeps its settings. -/
theorem startTrace_frame (s : State) : ∃ h : Shared, startTrace s = { s with shared := h } ∧ h.wrap = s.shared.wrap ∧
    h.startOnTrigger = s.shared.startOnTrigger ∧ h.stopOnTrigger = s.shared.stopOnTrigger := by
  unfold startTrace
  extract_lets h
  split
  · exact ⟨_, rfl, rfl, rfl, rfl⟩
  · split
    · exact ⟨_, rfl, rfl, rfl, rfl⟩
    · exact ⟨s.shared, rfl, rfl, rfl, rfl⟩

theorem PortOnly.shared {s t : State} (h : PortOnly s t) : t.shared = s.shared := by rw [h]

/-- Settles O24: the bodies of the packets. -/
theorem debugPacketsTraceClaimAndHalt : Obligations.DebugPacketsTraceClaimAndHalt := by
  refine ⟨?tally, ?stop, ?start, ?clear, ?claim, ?release, ?halt, ?resume⟩
  case tally =>
    refine completes_reply (fun _ _ => rfl) (fun _ _ hop _ => decide_eq_true hop) fun s k _ hok => ?_
    rw [if_neg (by simp [hok])]
    rfl
  case stop =>
    refine completes_reply (fun _ _ => rfl) (fun s k hop hpre => by simp [hop, hpre.1]) ?_
    rintro s k - ⟨hact, hflags, howned⟩
    rw [if_neg (by simp [param_zero_of_word (i := 0) hact, Nat.not_le.2 hflags]), if_neg (by simp [howned])]
    rfl
  case start =>
    refine completes_reply (fun _ _ => rfl) (fun s k hop hpre => by simp [hop, hpre.1]) ?_
    rintro s k - ⟨-, hflags, howned⟩
    rw [if_neg (Nat.not_le.2 hflags), if_neg (by simp [howned])]
    extract_lets _ t
    obtain ⟨h, hframe, hwrap, hbegin, hend⟩ : ∃ h : Shared, (if bit (k.param 1) 1 then t else startTrace t) =
        { s with shared := h } ∧ h.wrap = bit (k.param 1) 0 ∧ h.startOnTrigger = bit (k.param 1) 1 ∧
        h.stopOnTrigger = bit (k.param 1) 2 := by
      split
      · exact ⟨_, rfl, rfl, rfl, rfl⟩
      · exact startTrace_frame t
    rw [hframe, bodyEnd_ok, replyNow_portOnly.shared]
    exact ⟨hwrap, hbegin, hend, h, rfl⟩
  case clear =>
    refine completes_reply (fun _ _ => rfl) (fun s k hop hpre => by simp [hop, hpre.1]) ?_
    rintro s k - ⟨-, hflags, howned⟩
    rw [if_neg (Nat.not_le.2 hflags), if_neg (by simp [howned])]
    rfl
  case claim =>
    refine completes_reply (fun _ _ => rfl) (fun s k hop hpre => by simp [hop, hpre.1]) ?_
    rintro s k - ⟨hact, hok, htimer, hfree, hlease⟩
    rw [if_neg (by simpa [param_zero_of_word (i := 1) hact, hok] using htimer), if_neg (by simp [hfree, hlease])]
    rfl
  case release =>
    refine completes_reply (fun _ _ => rfl) (fun s k hop hpre => by simp [hop, hpre.1]) ?_
    rintro s k - ⟨-, hok, hholder⟩
    rw [if_neg (show ¬((!resourceOk k) = true) by simp [hok])]
    rcases hholder with hnone | hown
    · simp only [hnone]
      rfl
    · simp only [hown]
      rfl
  case halt =>
    refine completes_reply (fun _ _ => rfl) (fun s k hop hpre => by simp [hop, hpre.1]) ?_
    rintro s k - ⟨hact, hwork⟩
    simp only
    rw [if_neg (by simp [param_zero_of_word (i := 0) hact]), if_neg (by rcases hwork with h | h <;> simp [h])]
    rfl
  case resume =>
    refine completes_reply (fun _ _ => rfl) (fun s k hop hpre => by simp [hop, hpre.1]) ?_
    rintro s k - ⟨-, hhalted⟩
    rw [if_neg (by simp [hhalted])]
    rfl

end Sys2Proof.Machine
end

section
/-! SUPPORT. Power events, trips and stops, and the entry to a power state (R452 to R483, R534, R540): what a pass over
the partitions, the dies or the stacks leaves, said once for each. -/

namespace Sys2Proof.Machine

/-! ## Passes over the partitions and the dies -/

/-- `t` is `s` with nothing changed but the partitions. -/
def PartsOnly (s t : State) : Prop := t = { s with parts := t.parts }

theorem PartsOnly.trans {s t u : State} (h : PartsOnly s t) (g : PartsOnly t u) : PartsOnly s u := by
  unfold PartsOnly at *
  rw [g, h]

theorem PartsOnly.die {s t : State} (h : PartsOnly s t) (d : Nat) : t.die d = s.die d := congrArg (fun s => s.die d) h

theorem foldl_partsOnly {α : Type} {f : State → α → State} (hf : ∀ s x, PartsOnly s (f s x)) (l : List α) (s : State) :
    PartsOnly s (l.foldl f s) :=
  foldl_related (R := PartsOnly) (fun _ => rfl) (fun _ _ _ => .trans) hf l s

theorem foldl_modPart_partsOnly (f : Nat → Part → Part) (l : List Nat) (s : State) :
    PartsOnly s (l.foldl (fun s p => s.modPart p (f p)) s) :=
  foldl_partsOnly (f := fun s p => s.modPart p (f p)) (fun _ _ => rfl) l s

/-- A change made to every partition of a list is made once to each. -/
theorem part_foldl_modPart (f : Part → Part) {l : List Nat} (hl : l.Nodup) (s : State) (q : Nat) :
    (l.foldl (fun s p => s.modPart p f) s).part q = if q ∈ l then f (s.part q) else s.part q := by
  induction l generalizing s with
  | nil => simp
  | cons p r ih =>
    rw [List.nodup_cons] at hl
    obtain ⟨hp, hr⟩ := hl
    rw [List.foldl_cons, ih hr]
    by_cases hq : q = p
    · subst hq
      simp [hp]
    · simp [hq, part_modPart_other]

theorem partsOf_nodup (s : State) : (partsOf s).Nodup := List.nodup_range.filter _

theorem die_modDie_other {s : State} {d e : Nat} (f : Die → Die) (h : e ≠ d) : (s.modDie d f).die e = s.die e := by
  simp [State.die, State.modDie, tget_tmod_other h]

/-! ## Trips and stops -/

/-- Every stack put in self-refresh is there. -/
theorem foldl_selfRefresh (l : List Nat) (s : State) {j : Nat} (hj : j ∈ l ∨ (tget s.hbm j).selfRefresh = true) :
    (tget (l.foldl (fun s j => { s with hbm := tmod s.hbm j (fun x => { x with selfRefresh := true }) }) s).hbm j).selfRefresh
      = true := by
  induction l generalizing s with
  | nil => exact hj.resolve_left (by simp)
  | cons i r ih =>
    rw [List.foldl_cons]
    refine ih _ ?_
    by_cases hi : j = i
    · subst hi
      exact .inr (by simp)
    · refine hj.imp (fun h => (List.mem_cons.1 h).resolve_left hi) fun h => ?_
      rwa [tget_tmod_other hi]

/-- `t` is `s` with nothing changed but the stacks. -/
def HbmOnly (s t : State) : Prop := t = { s with hbm := t.hbm }

theorem HbmOnly.trans {s t u : State} (h : HbmOnly s t) (g : HbmOnly t u) : HbmOnly s u := by
  unfold HbmOnly at *
  rw [g, h]

theorem coolantStop_frame (s : State) :
    coolantStop s = { s with
      power := { s.power with coolantStop := true, stopSince := s.devTime, restartReady := false }
      hbm := (coolantStop s).hbm, out := .pin "MG_ALERT_N" false :: s.out } := by
  unfold coolantStop
  extract_lets _ t u
  have h : u = { t with hbm := u.hbm } :=
    foldl_related (R := HbmOnly) (fun _ => rfl) (fun _ _ _ => .trans) (by intros; rfl) _ t
  rw [alertManager, h]
  rfl

theorem coolantStop_selfRefresh (s : State) {j : Nat} (hj : j < 8) : (tget (coolantStop s).hbm j).selfRefresh = true :=
  foldl_selfRefresh (List.range 8) _ (.inl (List.mem_range.2 hj))

/-- The state with one more low sample of COOLANT_OK taken (R471). -/
def coolantLost (s : State) : State :=
  { wakeTick s with power := { s.power with
      coolantOk := false, coolantLow := Nat.min 2 (s.power.coolantLow + 1), coolantHigh := 0, restartReady := false } }

/-- The second low sample in a row stops a device that may stop. -/
theorem coolantLost_stops {s : State} (hl : s.power.coolantLow = 1) (hm : mayStop s = true) :
    (decide ((coolantLost s).power.coolantLow = 2) && mayStop (coolantLost s)) = true := by
  rw [Bool.and_eq_true, decide_eq_true_iff]
  exact ⟨by simp [coolantLost, hl], hm⟩

/-- The state with every job ended, as a trip ends them (R470). -/
def jobsEnded (s : State) : State :=
  (partsOf s).foldl (fun s p => s.modPart p (fun q => { q with job := { q.job with running := false } })) s

theorem jobsEnded_frame (s : State) : jobsEnded s = { s with parts := (jobsEnded s).parts } :=
  foldl_modPart_partsOnly _ (partsOf s) s

theorem jobsEnded_part {s : State} {p : Nat} (h : p ∈ partsOf s) : ((jobsEnded s).part p).job.running = false :=
  congrArg (fun q : Part => q.job.running) ((part_foldl_modPart _ (partsOf_nodup s) s p).trans (if_pos h))

theorem exec_thermtrip {s : State} (h : s.power.tripped = false) : exec .thermtrip s = .next ({ jobsEnded s with
      power := { s.power with tripped := true, tripLatched := true, halted := true }
      boot := { s.boot with due := none } }.emit (.pin "THERMTRIP_N" false)) := by
  change execThermtrip s = _
  rw [execThermtrip, if_neg (ne_true_of_eq_false h)]
  change Host.Outcome.next (State.emit { jobsEnded s with
      power := { (jobsEnded s).power with tripped := true, tripLatched := true, halted := true }
      boot := { (jobsEnded s).boot with due := none } } _) = _
  rw [jobsEnded_frame]

/-- Settles O46: each event's one branch, a pass over the partitions or the stacks being made once to each. -/
theorem tripsAndStopsOfTheDevice : Obligations.TripsAndStopsOfTheDevice := by
  unfold Obligations.TripsAndStopsOfTheDevice
  refine ⟨?thermtrip, ?removal, ?low, ?high, ?stop, ?lock⟩
  case thermtrip =>
    intro s ht
    refine ⟨_, exec_thermtrip ht, rfl, rfl, fun p => jobsEnded_part, ?_, ?_, ?_⟩
    all_goals rw [jobsEnded_frame]
    · rfl
    · exact ⟨rfl, rfl, rfl, rfl⟩
    · rfl
  case removal =>
    rintro s hs
    have hn : ¬((s.power.state == .off && !s.power.tripped) = true) := by
      rcases hs with h | h <;> simp [h]
    refine ⟨_, congrArg Host.Outcome.next (if_neg hn), ?_⟩
    rcases ht : s.power.tripped with _ | _ <;> simp only [ht] <;> rfl
  case low =>
    rintro s ⟨hv, hh, ht, hf⟩
    exact ⟨_, congrArg Host.Outcome.next (if_pos (by simp [hv, hh, ht, hf])), rfl, rfl, List.mem_cons_self⟩
  case high =>
    intro s _
    refine ⟨_, congrArg Host.Outcome.next (if_pos rfl), rfl, rfl, ?_⟩
    have hn : (Nat.min secondSamples (s.power.coolantHigh + 1) = secondSamples) ↔ 32768 ≤ s.power.coolantHigh + 1 := by
      show min 32768 _ = 32768 ↔ _
      omega
    exact congrArg (fun b => { s.power with
      coolantOk := true, coolantLow := 0, coolantHigh := Nat.min 32768 (s.power.coolantHigh + 1)
      restartReady := s.power.restartReady || (s.power.coolantStop && b) }) (decide_eq_decide.2 hn)
  case stop =>
    rintro s ⟨hl, hm⟩
    have hx : exec (.coolantSample false) s = .next (coolantStop (coolantLost s)) :=
      congrArg Host.Outcome.next (if_pos (coolantLost_stops hl hm))
    refine ⟨_, hx, ?_, ?_, ?_, ?_, fun j hj => coolantStop_selfRefresh _ hj, ?_, ?_⟩
    all_goals rw [coolantStop_frame]
    all_goals rfl
  case lock =>
    rintro d core s ⟨hr, hh⟩
    refine ⟨_, congrArg Host.Outcome.next (if_pos (by simp [hr, hh])), rfl, fun x hx => ?_, ?_, ?_⟩
    · exact die_modDie_other _ (fun h => hx (Fin.ext h))
    · rw [die_modDie_same]
    · rw [die_modDie_same]
      cases core <;> simp

/-! ## Power events -/

/-- `t` is `s` after steps of Scales that move shares, times and domains: no clock of the cores and no supply level of a
die changes. -/
structure Steered (s t : State) : Prop where
  rest : t = { s with parts := t.parts, domains := t.domains, dies := t.dies }
  mhz : ∀ d : Nat, (t.die d).coreMhz = (s.die d).coreMhz
  low : ∀ d : Nat, (t.die d).lowVinDroop = (s.die d).lowVinDroop

namespace Steered

variable {s t u : State}

theorem refl (s : State) : Steered s s := ⟨rfl, fun _ => rfl, fun _ => rfl⟩

theorem trans (h : Steered s t) (g : Steered t u) : Steered s u where
  rest := by rw [g.rest, h.rest]
  mhz d := (g.mhz d).trans (h.mhz d)
  low d := (g.low d).trans (h.low d)

theorem modPart (p : Nat) (f : Part → Part) : Steered s (s.modPart p f) := ⟨rfl, fun _ => rfl, fun _ => rfl⟩

theorem modDom (p d : Nat) (f : Domain → Domain) : Steered s (s.modDom p d f) := ⟨rfl, fun _ => rfl, fun _ => rfl⟩

theorem modDie (d : Nat) {f : Die → Die} (hm : ∀ x, (f x).coreMhz = x.coreMhz) (hl : ∀ x, (f x).lowVinDroop = x.lowVinDroop) :
    Steered s (s.modDie d f) where
  rest := rfl
  mhz e := by
    by_cases h : e = d
    · rw [h, die_modDie_same, hm]
    · rw [die_modDie_other f h]
  low e := by
    by_cases h : e = d
    · rw [h, die_modDie_same, hl]
    · rw [die_modDie_other f h]

theorem foldl {α : Type} {f : State → α → State} (hf : ∀ s x, Steered s (f s x)) (l : List α) (s : State) :
    Steered s (l.foldl f s) :=
  foldl_related (R := Steered) .refl (fun _ _ _ => .trans) hf l s

theorem sameBytes (h : Steered s t) : SameBytes s t := by rw [h.rest]; exact ⟨rfl, rfl, rfl, rfl⟩

theorem power (h : Steered s t) : t.power = s.power := by rw [h.rest]

theorem glideDie (s : State) (p d : Nat) : Steered s (glideDie s p d) := by
  unfold Machine.glideDie
  split
  · exact refl s
  · split
    · exact refl s
    · exact modPart p _

theorem sampleDie (s : State) (x : PowerSample) (p d : Nat) : Steered s (sampleDie s x p d) :=
  ((modPart p _).trans (modDom p d _)).trans (glideDie _ p d)

theorem lockstepRise (s : State) (p : Nat) : Steered s (lockstepRise s p) := by
  unfold Machine.lockstepRise
  split
  · exact modPart p _
  · exact refl s

theorem coreStays (s : State) (d : Nat) : Steered s (coreStays s d) := by
  unfold Machine.coreStays
  refine .trans (modDie d ?mhz ?low) (foldl (fun s p => ?part) _ _)
  case part => exact modPart p _
  all_goals exact fun _ => rfl

theorem fadeDroops (s : State) : Steered s (fadeDroops s) := by
  unfold Machine.fadeDroops
  refine foldl (fun s d => modDie d ?mhz ?low) _ s
  all_goals exact fun _ => rfl

end Steered

/-- `t` is `s` with nothing changed but the dies. -/
def DiesOnly (s t : State) : Prop := t = { s with dies := t.dies }

theorem DiesOnly.trans {s t u : State} (h : DiesOnly s t) (g : DiesOnly t u) : DiesOnly s u := by
  unfold DiesOnly at *
  rw [g, h]

theorem foldl_modDie_diesOnly (f : Nat → Die → Die) (l : List Nat) (s : State) :
    DiesOnly s (l.foldl (fun s d => s.modDie d (f d)) s) :=
  foldl_related (R := DiesOnly) (f := fun s d => s.modDie d (f d)) (fun _ => rfl) (fun _ _ _ => .trans) (fun _ _ => rfl) l s

/-- A change made to every die of a list is made once to each. -/
theorem die_foldl_modDie (f : Die → Die) {l : List Nat} (hl : l.Nodup) (s : State) (e : Nat) :
    (l.foldl (fun s d => s.modDie d f) s).die e = if e ∈ l then f (s.die e) else s.die e := by
  induction l generalizing s with
  | nil => simp
  | cons d r ih =>
    rw [List.nodup_cons] at hl
    obtain ⟨hd, hr⟩ := hl
    rw [List.foldl_cons, ih hr]
    by_cases he : e = d
    · subst he
      simp [hd]
    · simp [he, die_modDie_other]

/-- A sample of the supply sets its level and, on every die, whether that is a droop. -/
theorem sampleVin_frame (s : State) (mv : Nat) : sampleVin s mv = { s with
    power := { s.power with vin := mv, vinLow := if mv < 1700 then s.power.vinLow + 1 else 0 }
    dies := (sampleVin s mv).dies } := by
  unfold sampleVin
  extract_lets low long _ t
  have h : t.power = { s.power with vin := mv, vinLow := if mv < 1700 then s.power.vinLow + 1 else 0 } := by
    simp only [t, low, decide_eq_true_iff]
    rfl
  rw [← h]
  exact foldl_modDie_diesOnly _ (List.range 4) t

theorem sampleVin_die (s : State) (mv d : Nat) : ((sampleVin s mv).die d).coreMhz = (s.die d).coreMhz ∧
    (d < 4 → ((sampleVin s mv).die d).lowVinDroop = decide (mv < 1700)) := by
  unfold sampleVin
  extract_lets low long t
  rw [die_foldl_modDie _ List.nodup_range]
  by_cases h : d < 4
  · rw [if_pos (List.mem_range.2 h)]
    exact ⟨rfl, fun _ => rfl⟩
  · rw [if_neg (mt List.mem_range.1 h)]
    exact ⟨rfl, fun g => absurd g h⟩

/-- The state in which a sample's own figures stand, before its shares move. -/
def sampled (s : State) (x : PowerSample) : State := samplePackage (sampleVin (fadeDroops s) x.vinMillivolt) x

theorem powerSample_steered {s : State} (x : PowerSample) (h : scalesRun s = true) :
    ∃ t, exec (.powerSample x) s = .next t ∧ Steered (sampled s x) t := by
  have hh : (s.power.halted || s.power.tripped) = false := by
    unfold scalesRun at h
    revert h
    cases s.power.halted <;> cases s.power.tripped <;> simp
  change ∃ t, execPowerSample x s = .next t ∧ _
  rw [execPowerSample, if_neg (ne_true_of_eq_false hh), if_neg (by simp [h])]
  refine ⟨_, rfl, .trans ?_ (.trans (.foldl .lockstepRise _ _) (.foldl .coreStays _ _))⟩
  exact .foldl (fun s p => .foldl (fun s d => .sampleDie s x p d) _ s) _ _

theorem sampled_vin (s : State) (x : PowerSample) : sampleVin (fadeDroops s) x.vinMillivolt = { s with
    power := { s.power with
      vin := x.vinMillivolt, vinLow := if x.vinMillivolt < 1700 then s.power.vinLow + 1 else 0 }
    dies := (sampleVin (fadeDroops s) x.vinMillivolt).dies } := by
  have h : DiesOnly s (fadeDroops s) := foldl_modDie_diesOnly _ (List.range 4) s
  rw [sampleVin_frame, h]

theorem sampled_die (s : State) (x : PowerSample) (d : Nat) : ((sampled s x).die d).coreMhz = (s.die d).coreMhz ∧
    (d < 4 → ((sampled s x).die d).lowVinDroop = decide (x.vinMillivolt < 1700)) :=
  (sampleVin_die (fadeDroops s) x.vinMillivolt d).imp_left fun h => h.trans ((Steered.fadeDroops s).mhz d)

/-- The design limit sets the hold and counts its breaches (R468). -/
theorem edlCheck_frame (w : Power) (mw : Nat) : edlCheck w mw = { w with
    hold := if 3000000 < mw then 10 else w.hold - 1
    edlEvents := if 3000000 < mw then satInc w.edlEvents 65535 else w.edlEvents, fall := (edlCheck w mw).fall } := by
  unfold edlCheck
  split <;> rfl

/-- What a sample records of the package (R452, R468), with figures that the model derives from it. -/
theorem samplePackage_power (s : State) (x : PowerSample) : ∃ fall samples average u dieMw,
    (samplePackage s x).power = { s.power with
      package := x.packageMilliwatt, energy := s.power.energy + x.packageMilliwatt
      hold := if 3000000 < x.packageMilliwatt then 10 else s.power.hold - 1
      edlEvents := if 3000000 < x.packageMilliwatt then satInc s.power.edlEvents 65535 else s.power.edlEvents
      fall := fall, samples := samples, average := average, sampleU := u, dieMw := dieMw } := by
  have h := edlCheck_frame s.power x.packageMilliwatt
  unfold samplePackage
  dsimp only
  generalize edlCheck s.power x.packageMilliwatt = w at h ⊢
  rw [h]
  exact ⟨_, _, _, _, _, rfl⟩

/-- The same of the sample that POWER_SAMPLE takes, with its supply level (R534). -/
theorem sampled_power (s : State) (x : PowerSample) : ∃ fall samples average u dieMw, (sampled s x).power = { s.power with
    package := x.packageMilliwatt, vin := x.vinMillivolt, energy := s.power.energy + x.packageMilliwatt
    vinLow := if x.vinMillivolt < 1700 then s.power.vinLow + 1 else 0
    hold := if 3000000 < x.packageMilliwatt then 10 else s.power.hold - 1
    edlEvents := if 3000000 < x.packageMilliwatt then satInc s.power.edlEvents 65535 else s.power.edlEvents
    fall := fall, samples := samples, average := average, sampleU := u, dieMw := dieMw } := by
  obtain ⟨fall, samples, average, u, dieMw, h⟩ := samplePackage_power (sampleVin (fadeDroops s) x.vinMillivolt) x
  have hv := congrArg State.power (sampled_vin s x)
  rw [hv] at h
  exact ⟨fall, samples, average, u, dieMw, h⟩

theorem sampled_sameBytes (s : State) (x : PowerSample) : SameBytes s (sampled s x) := by
  have hv : SameBytes s (sampleVin (fadeDroops s) x.vinMillivolt) := by
    rw [sampled_vin]
    exact ⟨rfl, rfl, rfl, rfl⟩
  exact hv.trans ⟨rfl, rfl, rfl, rfl⟩

/-- `t` is `s` with nothing changed but the partitions, none of which comes, goes or closes its period. -/
structure PeriodKept (s t : State) : Prop where
  rest : PartsOnly s t
  present : ∀ p : Nat, (t.part p).present = (s.part p).present
  period : ∀ p : Nat, (t.part p).pwr.period = (s.part p).pwr.period

namespace PeriodKept

variable {s t u : State}

theorem refl (s : State) : PeriodKept s s := ⟨rfl, fun _ => rfl, fun _ => rfl⟩

theorem trans (h : PeriodKept s t) (g : PeriodKept t u) : PeriodKept s u where
  rest := h.rest.trans g.rest
  present p := (g.present p).trans (h.present p)
  period p := (g.period p).trans (h.period p)

theorem modPart (p : Nat) {f : Part → Part} (hp : ∀ q, (f q).present = q.present)
    (hf : ∀ q, (f q).pwr.period = q.pwr.period) : PeriodKept s (s.modPart p f) where
  rest := rfl
  present q := by
    by_cases h : q = p
    · rw [h, part_modPart_same, hp]
    · rw [part_modPart_other _ f h]
  period q := by
    by_cases h : q = p
    · rw [h, part_modPart_same, hf]
    · rw [part_modPart_other _ f h]

theorem foldl {α : Type} {f : State → α → State} (hf : ∀ s x, PeriodKept s (f s x)) (l : List α) (s : State) :
    PeriodKept s (l.foldl f s) :=
  foldl_related (R := PeriodKept) .refl (fun _ _ _ => .trans) hf l s

theorem partsOf (h : PeriodKept s t) : partsOf t = partsOf s := List.filter_congr fun p _ => h.present p

theorem closePeriod (s : State) (p d : Nat) : PeriodKept s (closePeriod s p d) := modPart p (fun _ => rfl) (fun _ => rfl)

theorem allocate (s : State) (pt : Nat → Nat → Nat) : PeriodKept s (allocate s pt) := by
  unfold Machine.allocate
  refine foldl (fun s p => modPart p ?present ?period) _ s
  all_goals exact fun _ => rfl

theorem noteExchange (s : State) (p : Nat) : PeriodKept s (noteExchange s p) := by
  unfold Machine.noteExchange
  refine foldl (fun s d => modPart p ?present ?period) _ s
  all_goals exact fun _ => rfl

end PeriodKept

/-- A partition's period closed with what the new allocation asks noted (R453, R463). -/
def newPeriod (s : State) (p : Nat) : State :=
  (noteExchange s p).modPart p (fun q => { q with pwr := { q.pwr with period := [] } })

theorem newPeriod_partsOnly (s : State) (p : Nat) : PartsOnly s (newPeriod s p) :=
  (PeriodKept.noteExchange s p).rest.trans rfl

/-- A partition's period is closed once a pass has come to it, and stays so. -/
theorem foldl_newPeriod {l : List Nat} {s : State} {p : Nat} (h : p ∈ l ∨ (s.part p).pwr.period = []) :
    ((l.foldl newPeriod s).part p).pwr.period = [] := by
  induction l generalizing s with
  | nil => exact h.resolve_left (by simp)
  | cons q r ih =>
    rw [List.foldl_cons]
    refine ih ?_
    by_cases hq : p = q
    · right
      rw [hq, newPeriod, part_modPart_same]
    · refine h.imp (fun h => (List.mem_cons.1 h).resolve_left hq) fun h => ?_
      rw [newPeriod, part_modPart_other _ _ hq, (PeriodKept.noteExchange s q).period, h]

/-- The averages of every partition's period taken (R453). -/
def periodsTaken (s : State) : State :=
  (partsOf s).foldl (fun s p => (diesOf s p).foldl (fun s d => closePeriod s p d)
    (s.modPart p (fun q => { q with pwr := { q.pwr with power := periodPower s p } }))) s

theorem periodsTaken_kept (s : State) : PeriodKept s (periodsTaken s) := by
  unfold periodsTaken
  refine .foldl (fun s p => .trans (.modPart p ?present ?period) (.foldl (fun s d => .closePeriod s p d) _ _)) _ s
  all_goals exact fun _ => rfl

/-- The periods' averages taken and the last sample's U with them, before power is shared out again. -/
def budgeted (s : State) : State :=
  { periodsTaken s with power := { (periodsTaken s).power with unmanaged := (periodsTaken s).power.sampleU } }

theorem exec_budgetExchange {s : State} (h : scalesRun s = true) : exec .budgetExchange s = .next
    ((partsOf (allocate (budgeted s) (measuredPt (budgeted s)))).foldl newPeriod
      (allocate (budgeted s) (measuredPt (budgeted s)))) :=
  congrArg Host.Outcome.next (if_neg (by simp [h]))

/-- The rise that EXTRA_BUBBLE_START acts on has been pending for 200 µs. -/
theorem exec_extraBubbleStart_early {s : State} {p : Fin 64} (h : (s.part p).pwr.pendingFor < 200) :
    exec (.extraBubbleStart p) s = .next s :=
  congrArg Host.Outcome.next (if_neg (by simp [Nat.not_le.2 h]))

/-- The share marks of the alert reach every partition's epoch and nothing else (R463, R467). -/
theorem exec_pwrAlertAssert {s : State} (ha : s.power.alert = false) (hh : s.power.halted = false) :
    ∃ t, exec .pwrAlertAssert s = .next t ∧ PartsOnly (alertManager { s with
      power := { s.power with alert := true, fall := true, alerts := satInc s.power.alerts 65535 } }) t := by
  refine ⟨_, congrArg Host.Outcome.next (if_neg (by simp [ha, hh])), ?_⟩
  exact foldl_modPart_partsOnly _ _ _

section

variable {s : State} {d : Fin 4}

/-- The partitions with a stall on a die. -/
abbrev partsOn (s : State) (d : Nat) : List Nat := (partsOf s).filter (fun p => decide (d ∈ diesOf s p))

/-- A core clock steps down where some partition has kept its cores' share high for 100 µs (R457). -/
theorem exec_coreClockStep_down (hr : scalesRun s = true)
    (h : ∃ p ∈ partsOf s, d.val ∈ diesOf s p ∧ 100 ≤ tget (s.part p).pwr.coreHigh d) :
    exec (.coreClockStep d) s = .next ((partsOn s d).foldl
      (fun s p => s.modPart p (fun q => { q with pwr := { q.pwr with coreHigh := tdel q.pwr.coreHigh d } }))
      (s.modDie d (fun x => { x with coreMhz := Nat.max 1300 (x.coreMhz - 100) }))) := by
  obtain ⟨p, hp, hd, hc⟩ := h
  have hany : (partsOn s d).any (fun p => decide (100 ≤ tget (s.part p).pwr.coreHigh d)) = true :=
    List.any_eq_true.2 ⟨p, List.mem_filter.2 ⟨hp, decide_eq_true hd⟩, decide_eq_true hc⟩
  change execCoreClockStep d s = _
  rw [execCoreClockStep, if_neg (by simp [hr]), if_pos hany]

theorem exec_coreClockStep_stay (hr : scalesRun s = true)
    (h : ∀ p ∈ partsOf s, d.val ∈ diesOf s p → tget (s.part p).pwr.coreHigh d < 100) :
    exec (.coreClockStep d) s = .next (if 100 ≤ (s.die d).coreZero then
      s.modDie d (fun x => { x with coreMhz := Nat.min 2600 (x.coreMhz + 100), coreZero := 0 }) else s) := by
  have hany : ¬(partsOn s d).any (fun p => decide (100 ≤ tget (s.part p).pwr.coreHigh d)) = true := by
    rw [List.any_eq_true]
    rintro ⟨p, hp, hc⟩
    obtain ⟨hp, hd⟩ := List.mem_filter.1 hp
    exact Nat.not_le.2 (h p hp (of_decide_eq_true hd)) (of_decide_eq_true hc)
  change execCoreClockStep d s = _
  rw [execCoreClockStep, if_neg (by simp [hr]), if_neg hany]

end

/-- The temperature share below 95 degrees: none below 93, and the old one between (R469). -/
theorem thermalShare_cool {old t : Nat} (h : t < 95) : thermalShare old t = if t < 93 then 0 else old :=
  if_neg (Nat.not_le.2 h)

/-- Settles O45: every event's one branch; a sample and an exchange are passes over the partitions that keep what the
statement names. -/
theorem powerEventsSteerTheDies : Obligations.PowerEventsSteerTheDies := by
  unfold Obligations.PowerEventsSteerTheDies
  refine ⟨?sample, ?exchange, ?bubbles, ?early, ?down, ?stay, ?droop, ?clear, ?alert, ?release, ?temp⟩
  case sample =>
    intro x s hr
    obtain ⟨t, hx, ht⟩ := powerSample_steered x hr
    obtain ⟨_, _, _, _, _, hs⟩ := sampled_power s x
    have hp := ht.power.trans hs
    refine ⟨t, hx, ?_, ?_, ?_, ?_, fun hm => ?_, fun hm => ?_, fun d hd => ?_, ?_, fun d => ?_, ?_⟩
    case refine_5 => rw [hp]; exact ⟨if_pos hm, if_pos hm⟩
    case refine_6 => rw [hp]; exact ⟨if_neg (Nat.not_lt.2 hm), if_neg (Nat.not_lt.2 hm)⟩
    case refine_7 => rw [ht.low, (sampled_die s x d).2 hd]
    case refine_9 => rw [ht.mhz, (sampled_die s x d).1]
    case refine_10 => exact (sampled_sameBytes s x).trans ht.sameBytes
    all_goals rw [hp]
  case exchange =>
    intro s hr
    have hk := periodsTaken_kept s
    have ha := PeriodKept.allocate (budgeted s) (measuredPt (budgeted s))
    have hparts : partsOf (allocate (budgeted s) (measuredPt (budgeted s))) = partsOf s := ha.partsOf.trans hk.partsOf
    refine ⟨_, exec_budgetExchange hr, ?_⟩
    rw [hparts]
    have hf := ha.rest.trans (foldl_partsOnly newPeriod_partsOnly (partsOf s) _)
    have hb : budgeted s = { s with
        parts := (budgeted s).parts, power := { s.power with unmanaged := s.power.sampleU } } := by
      unfold budgeted
      rw [hk.rest]
    refine ⟨?_, ?_, fun p hp => foldl_newPeriod (.inl hp), ?_, ?_⟩
    all_goals
      rw [hf, hb]
    exact ⟨rfl, rfl, rfl, rfl⟩
  case bubbles =>
    rintro p s ⟨hl, hj, hp, hw, hr⟩
    refine ⟨_, congrArg Host.Outcome.next (if_pos (by simp [hl, hj, hp, hw, hr])), rfl, fun q hq => ?_, ?_⟩
    · exact part_modPart_other _ _ (fun h => hq (Fin.ext h))
    · rw [part_modPart_same]
  case early => exact fun p s h => ⟨s, exec_extraBubbleStart_early h, rfl⟩
  case down =>
    rintro d s ⟨hr, h⟩
    refine ⟨_, exec_coreClockStep_down hr h, ?_⟩
    have hn : (partsOn s d).Nodup := (partsOf_nodup s).filter _
    have hf := foldl_modPart_partsOnly (fun _ q => { q with pwr := { q.pwr with coreHigh := tdel q.pwr.coreHigh d } })
      (partsOn s d) (s.modDie d (fun x => { x with coreMhz := Nat.max 1300 (x.coreMhz - 100) }))
    refine ⟨?_, fun x hx => (hf.die x).trans (die_modDie_other _ (fun h => hx (Fin.ext h))),
      (hf.die d).trans (die_modDie_same _ _ _), fun q => ?_, fun q hq hd => ?_⟩
    · rw [hf]
      rfl
    · rw [part_foldl_modPart _ hn]
      split <;> rfl
    · rw [part_foldl_modPart _ hn, if_pos (List.mem_filter.2 ⟨hq, decide_eq_true hd⟩)]
      exact tget_tdel_same
  case stay => exact fun d s h => ⟨_, exec_coreClockStep_stay h.1 h.2, rfl⟩
  case droop =>
    intro d s hr
    refine ⟨_, congrArg Host.Outcome.next (if_pos hr), rfl, fun x hx => ?_, die_modDie_same _ _ _⟩
    exact die_modDie_other _ (fun h => hx (Fin.ext h))
  case clear =>
    intro d long s hd
    refine ⟨_, congrArg Host.Outcome.next (if_pos hd), rfl, fun x hx => ?_, die_modDie_same _ _ _⟩
    exact die_modDie_other _ (fun h => hx (Fin.ext h))
  case alert =>
    rintro s ⟨ha, hh⟩
    obtain ⟨t, hx, ht⟩ := exec_pwrAlertAssert ha hh
    refine ⟨t, hx, ?_⟩
    rw [ht]
    exact ⟨rfl, rfl, rfl⟩
  case release => exact fun s ha => ⟨_, congrArg Host.Outcome.next (if_pos ha), rfl⟩
  case temp =>
    intro d c s hr
    refine ⟨_, congrArg Host.Outcome.next (if_pos hr), rfl, fun x hx => ?_, ?_⟩
    · exact die_modDie_other _ (fun h => hx (Fin.ext h))
    · rw [die_modDie_same]
      refine ⟨rfl, fun h => if_pos h, fun h => ?_, fun h => ?_⟩
      · exact (thermalShare_cool (by omega)).trans (if_pos h)
      · exact (thermalShare_cool (by omega)).trans (if_neg (by omega))

/-! ## Companion sites -/

theorem site_modSite_other {s : State} {i j : Nat} (f : Site → Site) (h : j ≠ i) : (s.modSite i f).site j = s.site j := by
  simp [State.site, State.modSite, tget_tmod_other h]

/-- A companion site's failure ends no job of a partition that runs none (R540). -/
theorem foldl_siteLost_idle {l : List Nat} {s : State} (h : ∀ p ∈ l, (s.part p).job.running = false) :
    l.foldl siteLost s = s :=
  List.foldlRecOn (motive := fun t => t = s) l siteLost rfl fun t ht p hp => by
    subst ht
    exact if_pos (by simp [h p hp])

/-- A site that has failed, before its partitions hear of it: no request of it is left, and no core's store waits for it. -/
def siteFailed (s : State) (i : Nat) : State :=
  (partsOf s).foldl (fun s p => s.modPart p (fun q => { q with stores := q.stores.filter (fun e => e.target ≠ i) }))
    (s.modSite i (fun x => { x with
      state := 2, modules := 0, rate := 0, flit256 := false, units := 0, pending := [], data := [] }))

theorem siteFailed_partsOnly (s : State) (i : Nat) : PartsOnly (s.modSite i (fun x => { x with
    state := 2, modules := 0, rate := 0, flit256 := false, units := 0, pending := [], data := [] })) (siteFailed s i) :=
  foldl_modPart_partsOnly _ (partsOf s) _

theorem siteFailed_frame (s : State) (i : Nat) :
    siteFailed s i = { s with sites := (siteFailed s i).sites, parts := (siteFailed s i).parts } := by
  rw [siteFailed_partsOnly]
  rfl

theorem siteFailed_site (s : State) (i j : Nat) : (siteFailed s i).site j = (s.modSite i (fun x => { x with
    state := 2, modules := 0, rate := 0, flit256 := false, units := 0, pending := [], data := [] })).site j :=
  congrArg (fun s => s.site j) (siteFailed_partsOnly s i)

theorem siteFailed_part {s : State} {i p : Nat} (h : p ∈ partsOf s) : (siteFailed s i).part p =
    { s.part p with stores := (s.part p).stores.filter (fun e => e.target ≠ i) } :=
  (part_foldl_modPart _ (partsOf_nodup s) _ p).trans (if_pos h)

theorem exec_companionCompletion {s : State} {i : Fin 2} {poison write : Bool} {data : List Byte} {p off : Nat}
    {r : List (Nat × Nat × Bool)} (h : (s.site i).pending = (p, off, write) :: r) :
    exec (.companionCompletion i poison data) s = .next (
      if write then ackStore (s.modSite i (fun x => { x with pending := r })) p i off
      else siteRead (s.modSite i (fun x => { x with pending := r })) i p off poison data) := by
  change execCompanionCompletion i poison data s = _
  rw [execCompanionCompletion, h]

/-- The failure changes no grant: the partitions granted the site are as before. -/
theorem siteFailed_granted (s : State) (i : Nat) :
    (partsOf (siteFailed s i)).filter (fun p => bit ((siteFailed s i).part p).record.companion i) =
      (partsOf s).filter (fun p => bit (s.part p).record.companion i) := by
  have hpart : ∀ p, ((siteFailed s i).part p).present = (s.part p).present ∧
      ((siteFailed s i).part p).record = (s.part p).record := fun p => by
    have h : (siteFailed s i).part p = _ := part_foldl_modPart _ (partsOf_nodup s) _ p
    rw [h]
    split <;> exact ⟨rfl, rfl⟩
  have hparts : partsOf (siteFailed s i) = partsOf s := List.filter_congr fun p _ => (hpart p).1
  rw [hparts]
  exact List.filter_congr fun p _ => by rw [(hpart p).2]

theorem exec_companionDown {s : State} {i : Fin 2} (h : (s.site i).state = 1) : exec (.companionDown i) s =
    .next (((partsOf s).filter (fun p => bit (s.part p).record.companion i)).foldl siteLost (siteFailed s i)) := by
  rw [← siteFailed_granted]
  exact congrArg Host.Outcome.next (if_neg (not_not_intro h))

theorem siteRead_present {s : State} {i p off : Nat} {poison : Bool} {bs : List Byte} (h : (s.part p).present = true) :
    siteRead s i p off poison bs = if poison then unitError s p Detail.pkgCompanionPoison none
      else s.modSite i (fun x => { x with data := x.data ++ [(p, off, padTo 64 bs)] }) :=
  if_neg (by simp [h])

/-- Settles O42: the oldest request by its kind; a failed site's requests and stores go before any job ends. -/
theorem companionSitesCompleteAndFail : Obligations.CompanionSitesCompleteAndFail := by
  refine ⟨?write, ?read, ?poisoned, ?down⟩
  case write => exact fun i poison data p off r s h => ⟨_, exec_companionCompletion h, rfl⟩
  case read =>
    rintro i data p off r s ⟨h, hp⟩
    refine ⟨_, (exec_companionCompletion h).trans (congrArg Host.Outcome.next (siteRead_present hp)), rfl, ?_, ?_⟩
    all_goals simp only [Bool.false_eq_true, if_false, site_modSite_same]
  case poisoned =>
    rintro i data p off r s ⟨h, hp⟩
    exact ⟨_, (exec_companionCompletion h).trans (congrArg Host.Outcome.next (siteRead_present hp)), rfl⟩
  case down =>
    intro i s hi
    refine ⟨_, exec_companionDown hi, siteFailed s i, siteFailed_frame s i, ?_, ?_, ?_, fun j hj => ?_,
      fun p hp => siteFailed_part hp, rfl, fun hidle => foldl_siteLost_idle fun p hp => ?_⟩
    case refine_1 | refine_2 | refine_3 => rw [siteFailed_site, site_modSite_same]
    case refine_4 => rw [siteFailed_site, site_modSite_other _ (fun h => hj (Fin.ext h))]
    case refine_5 =>
      obtain ⟨hp, hb⟩ := List.mem_filter.1 hp
      rw [siteFailed_part hp]
      exact hidle p hp hb

end Sys2Proof.Machine
end

section
/-! SUPPORT. Writes of the host (R372 to R383, R398 to R401): slots byte by byte (O26, O27) and registers (O28). -/

namespace Sys2Proof.Machine

/-- A command of the host port whose step is `f`: from a port that is up it answers `f` of the awake state. -/
theorem onHost {c : Instr} {f : State → State} {pre : State → Prop} {post : State → State → Prop}
    (hx : ∀ s, exec c s = .next (hostAsks s f)) (hp : ∀ s, pre s → post s (f s)) : OnHost c pre post := by
  intro s hup hpre
  refine ⟨f (wakeBy s 1), ?_, hp _ hpre⟩
  rw [hx, hostAsks_up hup]

/-! ## Bytes of a slot -/

theorem length_natLe (n x : Nat) : (natLe n x).length = n := by
  induction n generalizing x with
  | zero => rfl
  | succ n ih => rw [natLe, List.length_cons, ih]

theorem leNat_lt (l : List Byte) : leNat l < 256 ^ l.length := by
  induction l with
  | nil => exact Nat.one_pos
  | cons b r ih =>
    rw [leNat, List.length_cons, Nat.pow_succ]
    have hb := b.isLt
    omega

/-- A string of bytes is that of its number. -/
theorem natLe_leNat (l : List Byte) : natLe l.length (leNat l) = l := by
  induction l with
  | nil => rfl
  | cons b r ih =>
    have hb := b.isLt
    have hlow : BitVec.ofNat 8 (leNat (b :: r)) = b := by
      apply BitVec.eq_of_toNat_eq
      rw [BitVec.toNat_ofNat, leNat]
      omega
    have hrest : leNat (b :: r) / 256 = leNat r := by
      rw [leNat]
      omega
    rw [List.length_cons, natLe, hlow, hrest, ih]

/-- One byte of a slot's words. -/
def wordsByte (ws : Tbl W32) (o : Nat) : Byte := (natLe 4 (tget ws (o / 4)).toNat).getD (o % 4) 0

/-- A byte laid over a word is that byte of it, and every other byte is as before. -/
theorem wordLay_byte (w : W32) (b : Byte) {o i : Nat} (hi : i < 4) :
    (natLe 4 (wordLay w o b).toNat).getD i 0 = if i = o then b else (natLe 4 w.toNat).getD i 0 := by
  let l := (natLe 4 w.toNat).zipIdx.map (fun e => if e.2 = o then b else e.1)
  have hlen : l.length = 4 := by rw [List.length_map, List.length_zipIdx, length_natLe]
  have hword : (wordLay w o b).toNat = leNat l := by
    refine (BitVec.toNat_ofNat _ _).trans (Nat.mod_eq_of_lt ?_)
    have h := leNat_lt l
    rw [hlen] at h
    exact h
  have hbytes : natLe 4 (leNat l) = l := hlen ▸ natLe_leNat l
  have hin : i < (natLe 4 w.toNat).length := by rwa [length_natLe]
  rw [hword, hbytes, List.getD_eq_getElem?_getD, List.getD_eq_getElem?_getD, List.getElem?_map, List.getElem?_zipIdx,
    List.getElem?_eq_getElem hin]
  simp only [Option.map_some, Option.getD_some, Nat.zero_add]

theorem wordsByte_lay (ws : Tbl W32) (b : Byte) (o i : Nat) :
    wordsByte (tmod ws (o / 4) (fun w => wordLay w (o % 4) b)) i = if i = o then b else wordsByte ws i := by
  unfold wordsByte
  by_cases hw : i / 4 = o / 4
  · rw [hw, tget_tmod_same, wordLay_byte _ _ (Nat.mod_lt _ (by decide))]
    exact if_congr (by omega) rfl rfl
  · rw [tget_tmod_other hw, if_neg (by rintro rfl; exact hw rfl)]

/-- Bytes written to a slot from an offset: each byte that they cover is the byte written, and each other is as before. -/
theorem slotLay_byte (data : List Byte) (ws : Tbl W32) (offset : Nat) {o : Nat} (ho : o < 4096) :
    wordsByte (slotLay ws offset data) o =
      if offset ≤ o ∧ o < offset + data.length then data.getD (o - offset) 0 else wordsByte ws o := by
  have hfold (n : Nat) : wordsByte ((data.zipIdx n).foldl (fun ws e =>
      if offset + e.2 < 4096 then tmod ws ((offset + e.2) / 4) (fun w => wordLay w ((offset + e.2) % 4) e.1) else ws) ws) o =
      if offset + n ≤ o ∧ o < offset + n + data.length then data.getD (o - (offset + n)) 0 else wordsByte ws o := by
    induction data generalizing ws n with
    | nil => simp
    | cons b r ih =>
      rw [List.zipIdx_cons, List.foldl_cons, ih]
      dsimp only
      by_cases hlater : offset + (n + 1) ≤ o ∧ o < offset + (n + 1) + r.length
      · obtain ⟨hl, hr⟩ := hlater
        rw [if_pos ⟨hl, hr⟩, if_pos (by rw [List.length_cons]; omega), show o - (offset + n) = o - (offset + (n + 1)) + 1 by omega,
          List.getD_cons_succ]
      · rw [if_neg hlater]
        by_cases heq : o = offset + n
        · rw [if_pos (heq ▸ ho), wordsByte_lay, if_pos heq, if_pos (by rw [List.length_cons]; omega), heq, Nat.sub_self, List.getD_cons_zero]
        · have hout : ¬(offset + n ≤ o ∧ o < offset + n + (b :: r).length) := by
            rw [List.length_cons]
            omega
          rw [if_neg hout]
          split
          · rw [wordsByte_lay, if_neg heq]
          · rfl
  exact hfold 0

/-- What SLOT_WRITE does over the awake state (R377, R378). -/
def slotWritten (fn : Fin 65) (k : Fin 8) (offset : Nat) (data : List Byte) (s : State) : State :=
  let covers := decide (offset < 4) && !data.isEmpty
  let sl := tget (s.fn fn).slots k
  if sl.committed then (if covers then s.modFn fn (fun f => { f with overrun := true }) else s)
  else s.modFn fn (fun f => { f with
    slots := tset f.slots k { words := slotLay sl.words offset data, committed := covers, after := f.dpWrites }
    order := if covers then f.order ++ [k.val] else f.order })

theorem exec_slotWrite (fn : Fin 65) (k : Fin 8) (offset : BitVec 12) (data : List Byte) (s : State) :
    exec (.slotWrite fn k offset data) s = .next (hostAsks s (slotWritten fn k offset.toNat data)) := rfl

section

variable {fn : Fin 65} {k : Fin 8} {offset : Nat} {data : List Byte} {s : State}

theorem covers_iff : (decide (offset < 4) && !data.isEmpty) = true ↔ offset < 4 ∧ data ≠ [] := by simp

/-- A slot that is not free ignores the write, and one to word 0 sets OVERRUN (R378). -/
theorem slotWritten_committed (h : (tget (s.fn fn).slots k).committed = true) : slotWritten fn k offset data s =
    if offset < 4 ∧ data ≠ [] then s.modFn fn (fun f => { f with overrun := true }) else s :=
  (if_pos h).trans (if_congr covers_iff rfl rfl)

theorem slotWritten_free (h : (tget (s.fn fn).slots k).committed = false) : slotWritten fn k offset data s =
    s.modFn fn (fun f => { f with
      slots := tset f.slots k { words := slotLay (tget (s.fn fn).slots k).words offset data
                                committed := decide (offset < 4) && !data.isEmpty, after := f.dpWrites }
      order := if offset < 4 ∧ data ≠ [] then f.order ++ [k.val] else f.order }) := by
  refine (if_neg (ne_true_of_eq_false h)).trans ?_
  simp only [covers_iff]

end

/-- Settles O26: a free slot's bytes are laid one by one; one that is not free takes none. -/
theorem slotWritesFillAndCommitASlot : Obligations.SlotWritesFillAndCommitASlot := by
  intro fn k offset data
  refine ⟨onHost (exec_slotWrite fn k offset data) fun s h => slotWritten_committed h,
    onHost (exec_slotWrite fn k offset data) fun s h => ?_⟩
  rw [slotWritten_free h]
  refine ⟨rfl, fun g hg => fn_modFn_other _ _ (fun h => hg (Fin.ext h)), ?_, fun i hi => ?_, fun o ho => ?_, ?_, ?_⟩
  all_goals rw [fn_modFn_same]
  · exact tget_tset_other hi
  · unfold slotByte
    simp only [tget_tset_same]
    exact slotLay_byte data _ _ ho
  · rw [tget_tset_same]
    exact covers_iff

/-- Settles O27: such a write leaves the slots, whether or not it sets OVERRUN. -/
theorem slotsThatAreNotFreeIgnoreWrites : Obligations.SlotsThatAreNotFreeIgnoreWrites := by
  intro fn k offset data
  refine onHost (exec_slotWrite fn k offset data) fun s h => ?_
  rw [slotWritten_committed h]
  by_cases hc : offset.toNat < 4 ∧ data ≠ []
  · rw [if_pos hc, fn_modFn_same]
    exact ⟨fun _ => rfl, h, fun _ => rfl⟩
  · rw [if_neg hc]
    exact ⟨fun _ => rfl, h, fun g => absurd g hc⟩

end Sys2Proof.Machine
end

section
/-! SUPPORT. Registers that the host writes (R372 to R375, R383, R398 to R401; O28). -/

namespace Sys2Proof.Machine

/-! ## BAR0 -/

/-- What REGISTER_WRITE does over the awake state (R372, R373). -/
def registerWritten (fn : Fin 65) (bar : Bar) (o : Nat) (wide : Bool) (value : W64) (s : State) : State :=
  if o % (if wide then 8 else 4) ≠ 0 then s
  else match bar with
    | .bar0 => (accessWords o wide value).foldl (fun s w => bar0Write s fn w.1 w.2) s
    | .bar2 => s
    | .bar4 =>
      if fn = 0 && o < 65536 then
        s.modFn 0 (fun f => { f with cxlRegs := (accessWords o wide value).foldl (fun t w => tset t (w.1 / 4) w.2) f.cxlRegs })
      else s

theorem exec_registerWrite (fn : Fin 65) (bar : Bar) (offset : BitVec 28) (wide : Bool) (value : W64) (s : State) :
    exec (.registerWrite fn bar offset wide value) s = .next (hostAsks s (registerWritten fn bar offset.toNat wide value)) :=
  rfl

section

variable {fn : Fin 65} {bar : Bar} {o : Nat} {value : W64} {s : State}

theorem registerWritten_bar0 (h : o % 4 = 0) :
    registerWritten fn .bar0 o false value s = bar0Write s fn o (value.setWidth 32) :=
  if_neg (not_not_intro h)

theorem registerWritten_bar4 (h : o % 4 = 0) (ho : o < 65536) : registerWritten 0 .bar4 o false value s =
    s.modFn 0 (fun f => { f with cxlRegs := tset f.cxlRegs (o / 4) (value.setWidth 32) }) :=
  (if_neg (not_not_intro h)).trans (if_pos (by simp [ho]))

theorem registerWritten_ignored {wide : Bool} (h : o % (if wide then 8 else 4) ≠ 0 ∨ bar = .bar2) :
    registerWritten fn bar o wide value s = s := by
  by_cases hn : o % (if wide then 8 else 4) ≠ 0
  · exact if_pos hn
  · rw [h.resolve_left hn]
    exact if_neg hn

theorem modFn_modFn (s : State) (n : Nat) (f g : FnState → FnState) :
    (s.modFn n f).modFn n g = s.modFn n (fun x => g (f x)) :=
  congrArg (fun fns => { s with fns := fns }) tmod_tmod_same

theorem toNat_shiftRight_32 : (value >>> 32).setWidth 32 = BitVec.ofNat 32 (value.toNat / 2 ^ 32) := by
  apply BitVec.eq_of_toNat_eq
  simp [Nat.shiftRight_eq_div_pow]

/-- An aligned access of 8 bytes is its two of 4 bytes in turn (R372). -/
theorem registerWritten_wide (h : o % 8 = 0) : registerWritten fn bar o true value s =
    registerWritten fn bar (o + 4) false (value >>> 32) (registerWritten fn bar o false value s) := by
  have hw : ¬(o % (if true = true then 8 else 4) ≠ 0) := not_not_intro h
  have hl : ¬(o % (if false = true then 8 else 4) ≠ 0) := not_not_intro (by simp; omega)
  have hh : ¬((o + 4) % (if false = true then 8 else 4) ≠ 0) := not_not_intro (by simp; omega)
  unfold registerWritten
  rw [if_neg hw, if_neg hl, if_neg hh]
  cases bar with
  | bar0 => simp only [accessWords, toNat_shiftRight_32, if_true, Bool.false_eq_true, if_false, List.foldl_cons, List.foldl_nil]
  | bar2 => rfl
  | bar4 =>
    have hroom : decide (o + 4 < 65536) = decide (o < 65536) := decide_eq_decide.2 (by omega)
    simp only [accessWords, toNat_shiftRight_32, if_true, Bool.false_eq_true, if_false, List.foldl_cons, List.foldl_nil, hroom]
    split
    · rw [modFn_modFn]
    · rfl

/-- A write of BAR0 changes only registers and what leaves the device. -/
theorem bar0Write_frame (s : State) (fn o : Nat) (v : W32) :
    bar0Write s fn o v = { s with fns := (bar0Write s fn o v).fns, out := (bar0Write s fn o v).out } := by
  unfold bar0Write msixWrite
  split
  · rfl
  · split
    · dsimp only
      split <;> rfl
    · rfl

/-- No write of a register changes the power state, the boot stage or the port. -/
theorem registerWritten_frame (s : State) : registerWritten fn bar o false value s = { s with
    fns := (registerWritten fn bar o false value s).fns, out := (registerWritten fn bar o false value s).out } := by
  by_cases h : o % 4 = 0
  · cases bar with
    | bar0 =>
      rw [registerWritten_bar0 h]
      exact bar0Write_frame ..
    | bar2 => rw [registerWritten_ignored (.inr rfl)]
    | bar4 =>
      unfold registerWritten
      simp only [Bool.false_eq_true, if_false, if_neg (not_not_intro h)]
      split <;> rfl
  · rw [registerWritten_ignored (.inl h)]

end

/-- A device whose port is up runs once it is awake. -/
theorem wakeBy_power {s : State} (h : hostUp s = true) (cause : Nat) : (wakeBy s cause).power.state = .run ∧
    (wakeBy s cause).power.halted = false ∧ (wakeBy s cause).power.tripped = false ∧
    (wakeBy s cause).power.coolantStop = false := by
  simp only [hostUp, Bool.and_eq_true, Bool.not_eq_true'] at h
  obtain ⟨⟨⟨⟨⟨-, -⟩, hh⟩, ht⟩, hc⟩, hs⟩ := h
  unfold wakeBy
  rw [if_neg (ne_true_of_eq_false hc)]
  cases hst : s.power.state with
  | run => exact ⟨hst, hh, ht, hc⟩
  | idle => exact ⟨rfl, hh, ht, hc⟩
  | sleep =>
    have hpower (u : State) (l : List Nat) :
        (l.foldl (fun s j => { s with hbm := tmod s.hbm j (fun x => { x with selfRefresh := false }) }) u).power = u.power :=
      foldl_related (R := fun s t => t.power = s.power) (fun _ => rfl) (fun _ _ _ h g => g.trans h) (by intros; rfl) l u
    dsimp only
    rw [hpower, congrArg State.power (foldl_modDie_diesOnly _ (List.range 4) _)]
    exact ⟨rfl, hh, ht, hc⟩
  | deep => simp [hst] at hs
  | off => simp [hst] at hs

theorem wakeBy_awake {s : State} (h : s.power.state = .run) (cause : Nat) : wakeBy s cause = s := by
  unfold wakeBy
  rw [h]
  exact ite_self s

/-- The port stays up in a state that differs only in its functions' registers and what has left the device. -/
theorem hostUp_of_wakeBy {s t : State} (h : hostUp s = true) {fns : Tbl FnState} {out : List Output}
    (ht : t = { wakeBy s 1 with fns := fns, out := out }) : hostUp t = true ∧ wakeBy t 1 = t := by
  obtain ⟨hr, hh, htr, hc⟩ := wakeBy_power h 1
  have hrun : t.power.state = .run := by rw [ht]; exact hr
  refine ⟨?_, wakeBy_awake hrun 1⟩
  subst ht
  simp only [hostUp, Bool.and_eq_true, Bool.not_eq_true'] at h
  obtain ⟨⟨⟨⟨⟨hb, hp⟩, -⟩, -⟩, -⟩, -⟩ := h
  have hboot : (wakeBy s 1).boot = s.boot := by rw [wakeBy_powerOnly]
  have hperst : (wakeBy s 1).perst = s.perst := by rw [wakeBy_powerOnly]
  simp only [hostUp, hr, hh, htr, hc, hboot, hperst, hp, hb]
  rfl

/-- One word of the MSI-X table written (R401). -/
theorem msixWrite_eq (s : State) (fn : Fin 65) (w : Nat) (v : W32) :
    let sends := decide (w % 4 = 3) && !v.getLsbD 0 && (s.fn fn).msixPending.getLsbD (w / 4)
    let t := msixWrite s fn w v
    t = { s with fns := t.fns, out := if sends then .msix fn (w / 4) :: s.out else s.out } ∧
      (∀ g : Fin 65, g ≠ fn → t.fn g = s.fn g) ∧ t.fn fn = { s.fn fn with
        msixTable := tset (s.fn fn).msixTable w v
        msixPending := if sends then (s.fn fn).msixPending &&& ~~~ BitVec.ofNat 8 (2 ^ (w / 4)) else (s.fn fn).msixPending } := by
  intro sends t
  have hword : ((s.modFn fn (fun f => { f with msixTable := tset f.msixTable w v })).fn fn).msixPending =
      (s.fn fn).msixPending := by rw [fn_modFn_same]
  have hsends : (decide (w % 4 = 3) && decide (v.toNat % 2 = 0) && (s.fn fn).msixPending.getLsbD (w / 4)) = sends := by
    have hv : v.getLsbD 0 = v.toNat.testBit 0 := rfl
    simp only [sends, hv, Nat.testBit_zero]
    congr 2
    rcases Nat.mod_two_eq_zero_or_one v.toNat with h | h <;> simp [h]
  have ht : t = if sends then
      ((s.modFn fn (fun f => { f with msixTable := tset f.msixTable w v })).modFn fn
        (fun f => { f with msixPending := f.msixPending &&& ~~~ (BitVec.ofNat 8 (2 ^ (w / 4))) })).emit (.msix fn (w / 4))
      else s.modFn fn (fun f => { f with msixTable := tset f.msixTable w v }) := by
    rw [← hsends, ← hword]
    rfl
  rw [ht]
  cases sends
  · exact ⟨rfl, fun g hg => fn_modFn_other _ _ (fun h => hg (Fin.ext h)), fn_modFn_same ..⟩
  · rw [if_pos rfl, modFn_modFn]
    refine ⟨rfl, fun g hg => ?_, ?_⟩
    · rw [fn_emit, fn_modFn_other _ _ (fun h => hg (Fin.ext h))]
    · rw [fn_emit, fn_modFn_same]
      rfl

/-! ## RING_HEAD -/

theorem IrqOnly.head {fn : Nat} {s t : State} (h : IrqOnly fn s t) : (t.fn fn).head = (s.fn fn).head := by rw [h.own]

theorem head_modFn {s : State} {n : Nat} {f : FnState → FnState} (hf : ∀ x, (f x).head = x.head) :
    ((s.modFn n f).fn n).head = (s.fn n).head := by
  rw [fn_modFn_same, hf]

theorem closePacket_head (s : State) (fn : Nat) (e : RingEntry) : ((closePacket s fn e).fn fn).head = (s.fn fn).head := by
  have hdrop : (if h : fn < 65 then dropOutstanding s (.host ⟨fn, h⟩) e.tag else s).fn fn = s.fn fn := by split <;> rfl
  unfold closePacket
  extract_lets t
  cases e.slot with
  | none => exact congrArg FnState.head hdrop
  | some i =>
    refine Eq.trans ?_ (congrArg FnState.head hdrop)
    exact head_modFn fun _ => rfl

/-- An entry that is written moves P and not RING_HEAD. -/
theorem writeEntry_head (s : State) (fn : Nat) (e : RingEntry) : ((writeEntry s fn e).fn fn).head = (s.fn fn).head := by
  unfold writeEntry
  extract_lets f t u v
  have hu : (u.fn fn).head = (s.fn fn).head := by
    refine Eq.trans (head_modFn (s := t) ?_) rfl
    exact fun _ => rfl
  have hv : (v.fn fn).head = (s.fn fn).head := (closePacket_head u fn e).trans hu
  split
  · exact (IrqOnly.raiseCause u fn 1).head.trans hu
  · split
    · exact (IrqOnly.raiseCause v fn 0).head.trans hv
    · exact hv

theorem drainRing_head (fn : Nat) (l : List RingEntry) (s : State) : ((drainRing fn l s).fn fn).head = (s.fn fn).head := by
  induction l generalizing s with
  | nil =>
    unfold drainRing
    exact head_modFn fun _ => rfl
  | cons e r ih =>
    unfold drainRing
    split
    · rw [ih, writeEntry_head]
    · exact head_modFn fun _ => rfl

/-- What RING_HEAD_WRITE does over the awake state (R383). -/
def headWritten (fn : Nat) (head : Nat) (s : State) : State :=
  if ((s.fn fn).producer + 2 ^ 32 - head) % 2 ^ 32 > ringSize (s.fn fn) then s
  else drainRing fn ((s.modFn fn (fun f => { f with head := head })).fn fn).waiting (s.modFn fn (fun f => { f with head := head }))

theorem exec_ringHeadWrite (fn : Fin 65) (value : W64) (s : State) :
    exec (.ringHeadWrite fn value) s = .next (hostAsks s (headWritten fn (value.toNat % 2 ^ 32))) := rfl

/-! ## INT_CTRL -/

theorem getLsbD_zero_iff (v : W32) : v.getLsbD 0 = true ↔ v.toNat % 2 = 1 := by
  show v.toNat.testBit 0 = true ↔ _
  rw [Nat.testBit_zero, decide_eq_true_iff]

/-- A message on a vector has left, or the pending bit of a masked vector is set (R401). -/
def MsixMade (fn v : Nat) (t : State) : Prop :=
  if (msixWord (t.fn fn) (4 * v + 3)).getLsbD 0 then (t.fn fn).msixPending.getLsbD v = true else .msix fn v ∈ t.out

theorem IrqOnly.msixWord {fn w : Nat} {s t : State} (h : IrqOnly fn s t) : msixWord (t.fn fn) w = msixWord (s.fn fn) w := by
  rw [h.own]
  rfl

theorem IrqOnly.vectorOf {fn i : Nat} {s t : State} (h : IrqOnly fn s t) : vectorOf (t.fn fn) i = vectorOf (s.fn fn) i := by
  rw [h.own]
  rfl

theorem sendMsix_made {s : State} {fn v : Nat} (hv : v < 8) : MsixMade fn v (sendMsix s fn v) := by
  unfold MsixMade
  rw [(IrqOnly.sendMsix s fn v).msixWord]
  unfold sendMsix
  by_cases h : (msixWord (s.fn fn) (4 * v + 3)).getLsbD 0 = true
  · rw [if_pos h, if_pos ((getLsbD_zero_iff _).1 h), fn_modFn_same, BitVec.getLsbD_or, BitVec.getLsbD_ofNat,
      Nat.testBit_two_pow_self]
    simp [hv]
  · rw [if_neg h, if_neg (mt (getLsbD_zero_iff _).2 h)]
    exact List.mem_cons_self

/-- A further message takes none back. -/
theorem MsixMade.sendMsix {s : State} {fn v w : Nat} (h : MsixMade fn v s) : MsixMade fn v (sendMsix s fn w) := by
  unfold MsixMade at h ⊢
  rw [(IrqOnly.sendMsix s fn w).msixWord]
  split at h
  · next hm =>
    rw [if_pos hm]
    unfold Machine.sendMsix
    split
    · rw [fn_modFn_same]
      simp [h]
    · exact h
  · next hm =>
    rw [if_neg hm]
    unfold Machine.sendMsix
    split
    · exact h
    · exact List.mem_cons_of_mem _ h

/-- The messages of causes that a mask no longer holds back. -/
def sendDue (fn : Nat) (due : List Nat) (s : State) : State := due.foldl (fun s i => sendMsix s fn (vectorOf (s.fn fn) i)) s

theorem sendDue_irqOnly (fn : Nat) (due : List Nat) (s : State) : IrqOnly fn s (sendDue fn due s) :=
  foldl_related (R := IrqOnly fn) (fun _ => .refl) (fun _ _ _ => .trans) (fun s _ => .sendMsix s fn _) due s

theorem sendDue_cause (fn : Nat) (due : List Nat) (s : State) :
    ((sendDue fn due s).fn fn).intCause = (s.fn fn).intCause :=
  foldl_related (R := fun s t => (t.fn fn).intCause = (s.fn fn).intCause) (fun _ => rfl) (fun _ _ _ h g => g.trans h)
    (fun _ _ => intCause_sendMsix) due s

theorem vectorOf_lt (f : FnState) (i : Nat) : vectorOf f i < 8 := by
  unfold vectorOf
  split <;> exact BitVec.isLt _

theorem sendDue_made {fn i : Nat} {due : List Nat} (hi : i ∈ due) (s : State) :
    MsixMade fn (vectorOf (s.fn fn) i) (sendDue fn due s) := by
  induction due generalizing s with
  | nil => exact nomatch hi
  | cons j r ih =>
    rw [sendDue, List.foldl_cons]
    have hvec := (IrqOnly.sendMsix s fn (vectorOf (s.fn fn) j)).vectorOf (i := i)
    rcases List.mem_cons.1 hi with rfl | hi
    · exact List.foldlRecOn (motive := MsixMade fn (vectorOf (s.fn fn) i)) r _ (sendMsix_made (vectorOf_lt _ _))
        fun t ht _ _ => ht.sendMsix
    · rw [← hvec]
      exact ih hi _

/-- The interrupt control register of a function written (R401). -/
def intCtrlSet (fn : Fin 65) (v : Nat) (s : State) : State := s.modFn fn (fun f => { f with
  intMask := BitVec.ofNat 4 v, vecReply := BitVec.ofNat 3 (v / 2 ^ 8), vecEvent := BitVec.ofNat 3 (v / 2 ^ 12)
  vecStall := BitVec.ofNat 3 (v / 2 ^ 16), vecDp := BitVec.ofNat 3 (v / 2 ^ 20) })

theorem exec_intCtrlWrite (fn : Fin 65) (value : W64) (s : State) : exec (.intCtrlWrite fn value) s = .next (hostAsks s
    (fun s => sendDue fn (unmasked (s.fn fn) (BitVec.ofNat 4 value.toNat)) (intCtrlSet fn value.toNat s))) := rfl

/-- A field of a register's value. -/
theorem ofNat_div_eq_extract (v : W64) (o n : Nat) : BitVec.ofNat n (v.toNat / 2 ^ o) = v.extractLsb' o n := by
  apply BitVec.eq_of_toNat_eq
  rw [BitVec.toNat_ofNat, BitVec.extractLsb'_toNat, Nat.shiftRight_eq_div_pow]

theorem ofNat_eq_setWidth (v : W64) (n : Nat) : BitVec.ofNat n v.toNat = v.setWidth n := by
  apply BitVec.eq_of_toNat_eq
  rw [BitVec.toNat_ofNat, BitVec.toNat_setWidth]

theorem intCtrlSet_fn (fn : Fin 65) (value : W64) (s : State) : (intCtrlSet fn value.toNat s).fn fn = { s.fn fn with
    intMask := value.setWidth 4, vecReply := value.extractLsb' 8 3, vecEvent := value.extractLsb' 12 3
    vecStall := value.extractLsb' 16 3, vecDp := value.extractLsb' 20 3 } := by
  unfold intCtrlSet
  rw [fn_modFn_same]
  simp only [ofNat_div_eq_extract, ofNat_eq_setWidth]

/-- The set causes that a new mask no longer holds back. -/
theorem mem_unmasked {f : FnState} {mask : BitVec 4} {i : Nat} (hi : i < 4) :
    i ∈ unmasked f mask ↔ (f.intCause &&& f.intMask &&& ~~~mask).getLsbD i = true := by
  unfold unmasked
  simp only [List.mem_filter, List.mem_range, hi, true_and, BitVec.getLsbD_and, BitVec.getLsbD_not, Bool.and_eq_true,
    decide_true]
  tauto

/-! ## Host-window entries and the data port's registers -/

theorem bit_zero_eq (v : W64) : bit v.toNat 0 = v.getLsbD 0 := by
  rw [bit_eq_testBit]
  rfl

theorem hwinApply_host (e : Hwin) (v : W64) :
    hwinApply e true v.toNat = { e with size := v.setWidth 21, hpa := v.extractLsb' 21 31 } := by
  show { e with size := _, hpa := _ } = _
  rw [ofNat_div_eq_extract, ofNat_eq_setWidth]

theorem hwinApply_window (e : Hwin) (v : W64) :
    hwinApply e false v.toNat = { e with enable := v.getLsbD 0, offset := v.extractLsb' 21 20 } := by
  show { e with enable := _, offset := _ } = _
  rw [ofNat_div_eq_extract, bit_zero_eq]

/-- The read-ahead field of DP_CTRL. -/
theorem prefetch_field (v : W64) : (v.extractLsb' 1 3).toNat = bits v.toNat 3 1 := by
  rw [BitVec.extractLsb'_toNat, Nat.shiftRight_eq_div_pow]
  rfl

/-- Whether a write of an entry is refused (R375). -/
def hwinRefuses (p : Fin 64) (r : Fin 8) (host : Bool) (v : Nat) (s : State) : Bool :=
  let e := tget (s.part p).hwin r
  let e' := hwinApply e host v
  (s.part p).job.running || (host && e.enable && e' ≠ e) || (!host && e'.enable && hwinOverlaps s p r e')

theorem exec_hwinWrite (p : Fin 64) (r : Fin 8) (host : Bool) (value : W64) (s : State) :
    exec (.hwinWrite p r host value) s = .next (hostAsks s (fun s =>
      if hwinRefuses p r host value.toNat s then s.modFn 0 (fun f => { f with hwinRefused := true })
      else s.modPart p (fun q => { q with hwin := tset q.hwin r (hwinApply (tget (s.part p).hwin r) host value.toNat) }))) := rfl

/-- A refused write sets HWIN_REFUSED and nothing else. -/
theorem hwinWrite_refused {p : Fin 64} {r : Fin 8} {host : Bool} {value : W64} {pre : State → Prop}
    (h : ∀ s, pre s → hwinRefuses p r host value.toNat s = true) : OnHost (.hwinWrite p r host value) pre
      (fun s t => t = s.modFn 0 (fun f => { f with hwinRefused := true })) :=
  onHost (exec_hwinWrite p r host value) fun s hs => if_pos (h s hs)

/-- A write that is not refused is applied to its entry and changes no other partition. -/
theorem hwinWrite_applied {p : Fin 64} {r : Fin 8} {host : Bool} {value : W64} {pre : State → Prop}
    (h : ∀ s, pre s → hwinRefuses p r host value.toNat s = false) : OnHost (.hwinWrite p r host value) pre (fun s t =>
      t = { s with parts := t.parts } ∧ (∀ q : Fin 64, q ≠ p → t.part q = s.part q) ∧
      tget (t.part p).hwin r = hwinApply (tget (s.part p).hwin r) host value.toNat) := by
  refine onHost (exec_hwinWrite p r host value) fun s hs => ?_
  rw [if_neg (ne_true_of_eq_false (h s hs))]
  refine ⟨rfl, fun q hq => part_modPart_other _ _ (fun h => hq (Fin.ext h)), ?_⟩
  rw [part_modPart_same]
  exact tget_tset_same

/-- Settles O28: one clause per register, each the register's own step over the awake state. -/
theorem hostWritesReachTheirRegisters : Obligations.HostWritesReachTheirRegisters := by
  refine ⟨?status, ?msix, ?other, ?wide, ?bar4, ?ignored, ?headOver, ?head, ?ctrlQuiet, ?ctrl, ?cause, ?running, ?enabled,
    ?overlap, ?hostSide, ?window, ?dpAddr, ?dpCtrl⟩
  case status =>
    refine fun fn value => onHost (exec_registerWrite fn .bar0 0 false value) fun s _ => ?_
    have hbit (i : Nat) (hi : i < 32) : bit (value.setWidth 32).toNat i = value.getLsbD i := by
      rw [bit_eq_testBit]
      exact (BitVec.getLsbD_setWidth ..).trans (by simp [hi])
    rw [show (0 : BitVec 28).toNat = 0 from rfl, registerWritten_bar0 rfl]
    refine ⟨rfl, fun g hg => fn_modFn_other _ _ (fun h => hg (Fin.ext h)), ?_⟩
    show ((s.modFn fn _).fn fn) = _
    rw [fn_modFn_same, clearStatus, hbit 11 (by decide), hbit 12 (by decide), hbit 13 (by decide), hbit 15 (by decide)]
  case msix =>
    intro fn offset value halign hlow hhigh
    refine onHost (exec_registerWrite fn .bar0 offset false value) fun s _ => ?_
    have hx : registerWritten fn .bar0 offset.toNat false value s =
        msixWrite s fn ((offset.toNat - 0x800) / 4) (value.setWidth 32) :=
      (registerWritten_bar0 halign).trans ((if_neg (by omega)).trans (if_pos ⟨hlow, hhigh⟩))
    rw [hx]
    have hv : (value.setWidth 32).getLsbD 0 = value.getLsbD 0 := by simp
    have h := msixWrite_eq s fn ((offset.toNat - 0x800) / 4) (value.setWidth 32)
    rw [hv] at h
    exact h
  case other =>
    intro fn offset value hne hout
    refine onHost (exec_registerWrite fn .bar0 offset false value) fun s _ => ?_
    by_cases halign : offset.toNat % 4 = 0
    · exact (registerWritten_bar0 halign).trans ((if_neg hne).trans (if_neg (by omega)))
    · exact registerWritten_ignored (.inl halign)
  case wide =>
    intro fn bar offset value s hup halign
    let u := registerWritten fn bar offset.toNat false value (wakeBy s 1)
    obtain ⟨huUp, huAwake⟩ := hostUp_of_wakeBy (t := u) hup (registerWritten_frame (wakeBy s 1))
    have hoff : (offset + 4).toNat = offset.toNat + 4 := by
      have hlt := offset.isLt
      rw [BitVec.toNat_add]
      exact Nat.mod_eq_of_lt (by show offset.toNat + 4 < _; omega)
    refine ⟨u, registerWritten fn bar (offset.toNat + 4) false (value >>> 32) u, ?_, ?_, ?_⟩
    · rw [exec_registerWrite, hostAsks_up hup]
    · rw [exec_registerWrite, hostAsks_up huUp, huAwake, hoff]
    · rw [exec_registerWrite, hostAsks_up hup, registerWritten_wide halign]
  case bar4 =>
    intro offset value hlow halign
    refine onHost (exec_registerWrite 0 .bar4 offset false value) fun s _ => ?_
    rw [registerWritten_bar4 halign hlow]
    refine ⟨rfl, ?_⟩
    show tget ((s.modFn 0 _).fn 0).cxlRegs _ = _
    rw [fn_modFn_same]
    exact tget_tset_same
  case ignored =>
    exact fun fn bar offset wide value h => onHost (exec_registerWrite fn bar offset wide value) fun s _ =>
      registerWritten_ignored h
  case headOver => exact fun fn value => onHost (exec_ringHeadWrite fn value) fun s h => if_pos h
  case head =>
    refine fun fn value => onHost (exec_ringHeadWrite fn value) fun s h => ?_
    rw [headWritten, if_neg (Nat.not_lt.2 h)]
    refine ⟨modFn_portOnly.trans drainRing_portOnly, ?_, ?_⟩
    · rw [drainRing_head, fn_modFn_same]
    · rw [fn_modFn_same]
  case ctrlQuiet =>
    refine fun fn value => onHost (exec_intCtrlWrite fn value) fun s h => ?_
    have hnone : unmasked (s.fn fn) (value.setWidth 4) = [] := by
      refine List.eq_nil_iff_forall_not_mem.2 fun i hi => ?_
      have hlt : i < 4 := List.mem_range.1 (List.mem_of_mem_filter hi)
      have hbit := (mem_unmasked hlt).1 hi
      rw [h] at hbit
      simp at hbit
    rw [ofNat_eq_setWidth, hnone]
    exact ⟨rfl, fun g hg => fn_modFn_other _ _ (fun h => hg (Fin.ext h)), intCtrlSet_fn fn value s⟩
  case ctrl =>
    refine fun fn value => onHost (exec_intCtrlWrite fn value) fun s _ => ?_
    rw [ofNat_eq_setWidth]
    have h := sendDue_irqOnly fn (unmasked (s.fn fn) (value.setWidth 4)) (intCtrlSet fn value.toNat s)
    have hset := intCtrlSet_fn fn value s
    refine ⟨h.rest, fun g hg => ?_, ?_, fun i hi hdue => ?_⟩
    · rw [h.other g (fun h => hg (Fin.ext h))]
      exact fn_modFn_other _ _ (fun h => hg (Fin.ext h))
    · rw [h.own, hset, sendDue_cause, hset]
    · have hmade := sendDue_made (fn := fn) ((mem_unmasked hi).2 hdue) (intCtrlSet fn value.toNat s)
      have hword (w : Nat) : msixWord ((sendDue fn (unmasked (s.fn fn) (value.setWidth 4)) (intCtrlSet fn value.toNat s)).fn fn) w =
          msixWord (s.fn fn) w := by
        rw [h.msixWord, hset]
        rfl
      unfold MsixMade at hmade
      rw [hword] at hmade
      rw [h.vectorOf]
      exact hmade
  case cause =>
    refine fun fn value => onHost (fun _ => rfl) fun s _ => ?_
    exact ⟨rfl, fun g hg => fn_modFn_other _ _ (fun h => hg (Fin.ext h)), fn_modFn_same ..⟩
  case running => exact fun p r host value => hwinWrite_refused fun s h => by simp [hwinRefuses, h]
  case enabled =>
    refine fun p r value => hwinWrite_refused fun s h => ?_
    obtain ⟨he, hne⟩ := h
    have hchange : hwinApply (tget (s.part p).hwin r) true value.toNat ≠ tget (s.part p).hwin r := by
      rw [hwinApply_host]
      intro heq
      rcases hne with hne | hne
      · exact hne (congrArg Hwin.size heq).symm
      · exact hne (congrArg Hwin.hpa heq).symm
    simp [hwinRefuses, he, hchange]
  case overlap =>
    refine fun p r value => hwinWrite_refused fun s h => ?_
    obtain ⟨hv, hover⟩ := h
    have happly : hwinApply (tget (s.part p).hwin r) false value.toNat =
        { tget (s.part p).hwin r with enable := true, offset := value.extractLsb' 21 20 } := by
      rw [hwinApply_window, hv]
    simp [hwinRefuses, happly, hover]
  case hostSide =>
    intro p r value
    simp only [← hwinApply_host]
    refine hwinWrite_applied fun s h => ?_
    obtain ⟨hj, hcase⟩ := h
    have hkeep : (tget (s.part p).hwin r).enable = false ∨
        hwinApply (tget (s.part p).hwin r) true value.toNat = tget (s.part p).hwin r := by
      refine hcase.imp_right fun ⟨hsize, hhpa⟩ => ?_
      rw [hwinApply_host, ← hsize, ← hhpa]
    rcases hkeep with hk | hk <;> simp [hwinRefuses, hj, hk]
  case window =>
    intro p r value
    simp only [← hwinApply_window]
    refine hwinWrite_applied fun s h => ?_
    obtain ⟨hj, hover⟩ := h
    have happly := hwinApply_window (tget (s.part p).hwin r) value
    cases hv : value.getLsbD 0
    · rw [hv] at happly
      simp [hwinRefuses, happly, hj]
    · rw [hv] at happly
      simp [hwinRefuses, happly, hj, hover hv]
  case dpAddr =>
    refine fun p value => onHost (fun _ => rfl) fun s _ => ⟨rfl, ?_, ?_, fun g hg => ?_⟩
    all_goals rw [fn_congr (modPart_fns ..)]
    · rw [fn_modFn_same]
    · rw [fn_modFn_same]
    · rw [fn_modFn_other _ _ hg]
  case dpCtrl =>
    refine fun p value => onHost (fun _ => rfl) fun s _ => ⟨rfl, ?_, ?_, fun h => ?_, fun h => ?_⟩
    all_goals rw [fn_modFn_same]
    · exact bit_zero_eq value
    · exact (if_pos (prefetch_field value ▸ h)).trans (by rw [← prefetch_field, BitVec.ofNat_toNat, BitVec.setWidth_eq])
    · exact if_neg (Nat.not_le.2 (prefetch_field value ▸ h))

end Sys2Proof.Machine
end

section
/-! SUPPORT. What resets and the entry to a power state leave alone (R402, R420 to R423, R482): the flash, PERST_N, the
transfers with the host, and whom the packets outstanding answer. -/

namespace Sys2Proof.Machine

/-! ## Steps apart from the host -/

/-- A request of the host at a home: MemRd or MemWr (R233). -/
def fromHost : HomeRequest → Bool
  | .memRd _ _ => true
  | .memWr _ _ => true
  | _ => false

/-- A line of a scrubbed cache: no L1 holds it, its parity is good, and nothing but requests of the host waits at it. -/
def HostLine (l : Line) : Prop :=
  l.filter = [] ∧ l.odd = false ∧ (∀ r ∈ l.waiting, fromHost r = true) ∧ ∀ r ∈ l.window, fromHost r = true

theorem hostLine_default : HostLine default := ⟨rfl, rfl, List.forall_mem_nil _, List.forall_mem_nil _⟩

/-- `t` is reached from `s` by steps that write no flash, leave PERST_N, begin no transfer with the host, open no packet, and
bring a line of a scrubbed cache no holder and no request but the host's. -/
structure Aside (s t : State) : Prop where
  flash : t.flash = s.flash
  perst : t.perst = s.perst
  fetch : t.hostFetch ⊆ s.hostFetch
  commit : t.hostCommit ⊆ s.hostCommit
  ports : ∀ o ∈ t.outstanding, ∃ o' ∈ s.outstanding, o'.replyTo.port = o.replyTo.port
  lines : ∀ p a, HostLine (s.line p a) → HostLine (t.line p a)

namespace Aside

variable {s t u : State} {p a : Nat}

theorem refl (s : State) : Aside s s where
  flash := rfl
  perst := rfl
  fetch := List.Subset.refl _
  commit := List.Subset.refl _
  ports o ho := ⟨o, ho, rfl⟩
  lines _ _ h := h

theorem trans (h : Aside s t) (g : Aside t u) : Aside s u where
  flash := g.flash.trans h.flash
  perst := g.perst.trans h.perst
  fetch := List.Subset.trans g.fetch h.fetch
  commit := List.Subset.trans g.commit h.commit
  ports o ho := by
    obtain ⟨o', ho', hp⟩ := g.ports o ho
    obtain ⟨o'', ho'', hp'⟩ := h.ports o' ho'
    exact ⟨o'', ho'', hp'.trans hp⟩
  lines p a hl := g.lines p a (h.lines p a hl)

theorem foldl {α : Type} {f : State → α → State} {l : List α} (h : Aside s t) (hf : ∀ t x, Aside s t → Aside s (f t x)) :
    Aside s (l.foldl f t) :=
  List.foldlRecOn l f h fun t ht x _ => hf t x ht

/-- A step that changes none of what is spoken of. -/
theorem of_same (h : Aside s t) (hu : u.parts = t.parts ∧ u.flash = t.flash ∧ u.perst = t.perst ∧
    u.hostFetch = t.hostFetch ∧ u.hostCommit = t.hostCommit ∧ u.outstanding = t.outstanding) : Aside s u := by
  obtain ⟨hparts, hflash, hperst, hfetch, hcommit, hout⟩ := hu
  refine h.trans ⟨hflash, hperst, hfetch ▸ List.Subset.refl _, hcommit ▸ List.Subset.refl _, fun o ho => ⟨o, hout ▸ ho, rfl⟩,
    fun p a hl => ?_⟩
  rw [State.line, State.part, hparts]
  exact hl

/-- What changes only registers of functions and what leaves, and opens no packet. -/
theorem of_portOnly (h : Aside s t) (hu : PortOnly t u) (hn : NoneOpened t u) : Aside s u := by
  have hout : Aside t u := by
    refine ⟨?_, ?_, ?_, ?_, fun o ho => ⟨o, hn o ho, rfl⟩, fun p a hl => ?_⟩
    all_goals rw [hu]
    · exact List.Subset.refl _
    · exact List.Subset.refl _
    · exact hl
  exact h.trans hout

theorem modPart {f : Part → Part} (h : Aside s t)
    (hf : ∀ q a, HostLine (tget q.cache.lines a) → HostLine (tget (f q).cache.lines a)) : Aside s (t.modPart p f) := by
  refine h.trans ⟨rfl, rfl, List.Subset.refl _, List.Subset.refl _, fun o ho => ⟨o, ho, rfl⟩, fun q a hl => ?_⟩
  by_cases hq : q = p
  · rw [hq, State.line, part_modPart_same]
    exact hf _ a (hq ▸ hl)
  · rw [State.line, part_modPart_other _ _ hq]
    exact hl

theorem modLine {f : Line → Line} (h : Aside s t) (hf : ∀ l, HostLine l → HostLine (f l)) : Aside s (t.modLine p a f) := by
  refine .modPart h fun q b hl => ?_
  by_cases hb : b = a
  · rw [hb, tget_tmod_same]
    exact hf _ (hb ▸ hl)
  · rw [tget_tmod_other hb]
    exact hl

theorem modStall {i : Nat} {f : Stall → Stall} (h : Aside s t) : Aside s (t.modStall i f) :=
  .of_same h ⟨rfl, rfl, rfl, rfl, rfl, rfl⟩

theorem modL1 {l : L1Id} {f : L1Line → L1Line} (h : Aside s t) : Aside s (t.modL1 l a f) :=
  .of_same h ⟨rfl, rfl, rfl, rfl, rfl, rfl⟩

theorem modFn {n : Nat} {f : FnState → FnState} (h : Aside s t) : Aside s (t.modFn n f) :=
  .of_same h ⟨rfl, rfl, rfl, rfl, rfl, rfl⟩

theorem modChan {c : Nat} {f : Chan → Chan} (h : Aside s t) : Aside s (t.modChan c f) :=
  .of_same h ⟨rfl, rfl, rfl, rfl, rfl, rfl⟩

theorem modPort {j : Nat} {f : ZPort → ZPort} (h : Aside s t) : Aside s (t.modPort j f) :=
  .of_same h ⟨rfl, rfl, rfl, rfl, rfl, rfl⟩

theorem emit {o : Output} (h : Aside s t) : Aside s (t.emit o) := .of_same h ⟨rfl, rfl, rfl, rfl, rfl, rfl⟩

theorem draw (h : Aside s t) : Aside s t.draw.2 := .of_same h ⟨rfl, rfl, rfl, rfl, rfl, rfl⟩

/-! ### Replies -/

theorem postEvent {fn source status detail tick : Nat} (h : Aside s t) :
    Aside s (postEvent t fn source status detail tick) :=
  .of_portOnly h postEvent_portOnly (.postEvent _ _ _ _ _ _)

theorem partEvent {source status detail : Nat} (h : Aside s t) : Aside s (partEvent t p source status detail) := .postEvent h

theorem completeAll {pick : Outstanding → Bool} {status detail : Nat} (h : Aside s t) :
    Aside s (completeAll t pick status detail) := by
  unfold Machine.completeAll
  extract_lets hit u
  have hu : Aside s u := h.trans {
    flash := rfl
    perst := rfl
    fetch := List.Subset.refl _
    commit := List.Subset.refl _
    ports := fun o ho => by
      obtain ⟨o', ho', rfl⟩ := List.mem_map.1 ho
      refine ⟨o', ho', ?_⟩
      split <;> rfl
    lines := fun _ _ hl => hl }
  exact .foldl hu fun v o hv => .of_portOnly hv postReply_portOnly (.postReply _ _ _ _ _ _)

/-! ### Memory accesses -/

theorem arbitrate {ch : Nat} (h : Aside s t) : Aside s (arbitrate t ch) := by
  unfold Machine.arbitrate
  split
  · exact h
  · exact .modChan h

theorem queueAccess {x : MemAccess} (h : Aside s t) : Aside s (queueAccess t x) := .arbitrate (.modChan h)

theorem dropAccesses (h : Aside s t) : Aside s (dropAccesses t p) := by
  refine .foldl h fun t ch ht => ?_
  extract_lets c
  split
  · exact .arbitrate (.modChan ht)
  · exact ht

theorem askMemory {mask : Nat} {reader : BurstReader} (h : Aside s t) : Aside s (askMemory t p a mask reader) := by
  unfold Machine.askMemory
  extract_lets l m
  split
  · exact h
  · exact .queueAccess (.modLine h fun _ hl => hl)

theorem spendRead (h : Aside s t) : Aside s (spendRead t p a) := by
  unfold Machine.spendRead
  split
  · exact h
  · exact .modLine h fun _ hl => hl

theorem forgetReads (h : Aside s t) : Aside s (forgetReads t p a) := by
  unfold Machine.forgetReads
  extract_lets l
  split
  · exact h
  · exact .modLine h fun _ hl => hl

theorem writeLine {cells : List Host.Cell} (h : Aside s t) : Aside s (writeLine t p a cells) := by
  unfold Machine.writeLine
  split
  · exact h
  · exact .queueAccess (.of_same h ⟨rfl, rfl, rfl, rfl, rfl, rfl⟩)

/-! ### The cache -/

theorem tallyAdd {cls k : Nat} (h : Aside s t) : Aside s (tallyAdd t p cls k) := .modPart h fun _ _ hl => hl

theorem unDead (h : Aside s t) : Aside s (unDead t p a) := .modPart h fun _ _ hl => hl

theorem noteDead (h : Aside s t) : Aside s (noteDead t p a) := by
  unfold Machine.noteDead
  split
  · exact h
  · exact .modPart h fun _ _ hl => hl

theorem logDevice {phys : Nat} (h : Aside s t) : Aside s (logDevice t p phys) := by
  unfold Machine.logDevice
  split
  · exact h
  · split
    · dsimp only
      split
      · exact h
      · exact .modPart h fun _ _ hl => hl
    · exact h

theorem noteTables {cells : List Host.Cell} (h : Aside s t) : Aside s (noteTables t p a cells) := by
  unfold Machine.noteTables
  split
  · exact .modPart h fun _ _ hl => hl
  · exact h

theorem writeback (h : Aside s t) : Aside s (writeback t p a) := by
  unfold Machine.writeback
  split
  · exact .writeLine (.modLine h fun _ hl => hl)
  · exact h

theorem makeRoom (h : Aside s t) : Aside s (makeRoom t p a) := by
  unfold Machine.makeRoom
  split
  · exact h
  · dsimp only
    split
    · exact h
    · split
      · exact h.draw.draw
      · refine .modLine (.tallyAdd ?_) fun _ hl => hl
        split
        · exact h.draw.draw.writeback
        · exact h.draw.draw

theorem toSets (h : Aside s t) : Aside s (toSets t p a) := by
  unfold Machine.toSets
  split
  · exact .makeRoom (.modLine (.modPart h fun _ _ hl => hl) fun _ hl => hl)
  · exact h

theorem takeDirty {cells : List Host.Cell} (h : Aside s t) : Aside s (takeDirty t p a cells) := by
  unfold Machine.takeDirty
  split
  · exact h
  · extract_lets u v
    have hu : Aside s u := .toSets (.forgetReads h)
    refine .modLine ?_ fun _ hl => hl
    unfold v
    split
    · exact .makeRoom hu
    · exact hu

theorem settleFlight {l : L1Id} {keep toS : Bool} (h : Aside s t) : Aside s (settleFlight t p a l keep toS) := by
  unfold Machine.settleFlight
  extract_lets cs noc u
  have hu : Aside s u := .of_same h ⟨rfl, rfl, rfl, rfl, rfl, rfl⟩
  split
  · exact .takeDirty hu
  · exact hu

theorem dropL1 {l : L1Id} {keep : Bool} (h : Aside s t) : Aside s (dropL1 t p a l keep) := by
  unfold Machine.dropL1
  extract_lets u x v w
  have hu : Aside s u := .settleFlight h
  have hv : Aside s v := by
    unfold v
    split
    · exact .takeDirty hu
    · exact hu
  exact .modL1 (.modLine hv fun _ ⟨hf, hrest⟩ => ⟨by simp [hf], hrest⟩)

theorem dropL1s {keep : Bool} {spare : L1Id → Bool} (h : Aside s t) : Aside s (dropL1s t p a keep spare) :=
  .foldl h fun _ _ => .dropL1

theorem downOwner (h : Aside s t) : Aside s (downOwner t p a) := by
  unfold Machine.downOwner
  split
  · exact h
  · extract_lets u x v w
    have hu : Aside s u := .settleFlight h
    have hv : Aside s v := by
      unfold v
      split
      · exact .takeDirty hu
      · exact hu
    have hw : Aside s w := .modLine hv fun _ ⟨hf, hrest⟩ => ⟨by simp [hf], hrest⟩
    split
    · exact hw
    · exact .modL1 hw

theorem markStaged (h : Aside s t) : Aside s (markStaged t p a) := by
  unfold Machine.markStaged
  split
  · exact h
  · extract_lets u v w
    have hu : Aside s u := .toSets h
    have hv : Aside s v := by
      unfold v
      split
      · exact .makeRoom hu
      · exact hu
    have hw : Aside s w := by
      unfold w
      split
      · exact hv
      · exact .writeback hv
    exact .unDead (.modLine hw fun _ hl => hl)

theorem flushCache {pins : Bool} (h : Aside s t) : Aside s (flushCache t p pins) := by
  refine .foldl h fun t a ht => ?_
  extract_lets u v
  have hu : Aside s u := .dropL1s ht
  refine .modLine ?_ fun _ hl => hl
  unfold v
  split
  · exact .writeback hu
  · exact hu

/-! ### Keys and evidence -/

theorem purgeKeys {mask : Nat} (h : Aside s t) : Aside s (purgeKeys t p mask) :=
  .modPart (.foldl h fun _ _ => .modStall) fun _ _ hl => hl

theorem zeroUnitRegs (h : Aside s t) : Aside s (zeroUnitRegs t p) := .foldl h fun _ _ => .modStall

theorem dropEvidence (h : Aside s t) : Aside s (dropEvidence t p) := .modPart h fun _ _ hl => hl

theorem leaveWork (s : State) : Aside s (leaveWork s) :=
  .foldl (.refl s) fun _ _ ht => .dropEvidence (.purgeKeys (.zeroUnitRegs (.flushCache ht)))

end Aside

/-! ## POWER_STATE -/

/-- A packet of a row of POWER_STATE that R481 and R482 do not refuse enters its state (R480). -/
theorem powerStateBody_passes {target : PowerState} {k : Packet} {s : State} (h0 : k.param 0 = stateCode target)
    (h1 : k.param 1 < 256) (hc : stateCheck s target (k.param 1) = none) : powerStateBody target k s =
      if target == .run then runState s k else .ok (enterState s target (k.param 1)) := by
  have hcode : k.param 0 ≤ 4 := by
    rw [h0]
    cases target <;> decide
  unfold powerStateBody
  rw [if_neg (by simp; omega), Nat.mod_eq_of_lt h1, hc]

/-- Its command completes with what its body gives. -/
theorem completes_powerState {c : PktSrc → Instr} {target : PowerState} {pre : State → Packet → Prop}
    {post : State → Packet → State → Prop} (hx : ∀ src s, exec (c src) s = .next (powerState s src target))
    (hpre : ∀ s k, pre s k → k.param 0 = stateCode target ∧ k.param 1 < 256 ∧ stateCheck s target (k.param 1) = none)
    (hp : ∀ s k, pre s k → post s k (bodyEnd k
      (if target == .run then runState s k else .ok (enterState s target (k.param 1))))) :
    Completes c 0x0052 pre post := by
  refine completes_reply hx (fun s k hop h => ?_) fun s k _ h => ?_
  · obtain ⟨h0, -, -⟩ := hpre s k h
    simp [hop, h0]
  · obtain ⟨h0, h1, hc⟩ := hpre s k h
    rw [powerStateBody_passes h0 h1 hc]
    exact hp s k h

/-- The state entered stands but for the reply. -/
theorem completes_enterState {c : PktSrc → Instr} {target : PowerState} {kept : State → Packet → State → Prop}
    (hx : ∀ src s, exec (c src) s = .next (powerState s src target)) (hne : (target == .run) = false)
    (hk : ∀ s k t, PortOnly (enterState s target (k.param 1)) t → kept s k t) :
    Completes c 0x0052 (fun s k => k.param 0 = stateCode target ∧ k.param 1 < 256 ∧ stateCheck s target (k.param 1) = none)
      (fun s k t => Answers (enterState s target (k.param 1)) k t Status.ok 0 ∧ kept s k t) := by
  refine completes_powerState hx (fun _ _ h => h) fun s k _ => ?_
  rw [if_neg (ne_true_of_eq_false hne)]
  exact ⟨rfl, hk s k _ replyNow_portOnly⟩

/-- SLEEP changes the power state, the dies' PLLs and the stacks' refresh (R480). -/
theorem enterState_sleep (s : State) (mask : Nat) : PowerOnly s (enterState s .sleep mask) ∧
    (enterState s .sleep mask).power.state = .sleep := by
  let t : State := { s with power := { s.power with state := .sleep } }
  let u := (List.range 4).foldl (fun s d => s.modDie d (fun x => { x with pllM := false, pllC := false })) t
  let v := (List.range 8).foldl (fun s j => { s with hbm := tmod s.hbm j (fun x => { x with selfRefresh := true }) }) u
  have hu : DiesOnly t u := foldl_modDie_diesOnly _ (List.range 4) t
  have hv : HbmOnly u v := foldl_related (R := HbmOnly) (fun _ => rfl) (fun _ _ _ => .trans) (by intros; rfl) _ u
  show PowerOnly s v ∧ v.power.state = .sleep
  rw [hv, hu]
  exact ⟨rfl, rfl⟩

/-- Settles O21: what each state's entry keeps; DEEP and OFF first bring work to memory, which leaves the flash. -/
theorem powerStatePacketsEnterTheirState : Obligations.PowerStatePacketsEnterTheirState := by
  have hrun : (PowerState.run == PowerState.run) = true := rfl
  refine ⟨?run, ?restart, ?idle, ?sleep, ?deep, ?off⟩
  case run =>
    refine completes_powerState (fun _ _ => rfl) (fun _ _ h => ⟨h.1, h.2.1, h.2.2.1⟩) ?_
    rintro s k ⟨-, -, -, hstop⟩
    have hbody : runState s k = .ok s := if_pos (by simp [hstop])
    rw [if_pos hrun, hbody]
    exact ⟨rfl, replyNow_portOnly.power⟩
  case restart =>
    refine completes_powerState (fun _ _ => rfl) (fun _ _ h => ⟨h.1, h.2.1, h.2.2.1⟩) ?_
    rintro s k ⟨-, -, -, hstop⟩
    have hbody : runState s k = if s.power.restartReady = false then .say s Status.badState Detail.pwrCoolantWait
        else .ok (wakeBy (coolantRestart s) (wakeCauseOf k)) := by
      rw [runState, hstop]
      cases s.power.restartReady <;> rfl
    rw [if_pos hrun, hbody]
    split <;> rfl
  case idle =>
    refine completes_enterState (target := .idle) (fun _ _ => rfl) rfl fun s k t ht => ?_
    rw [ht]
    exact ⟨rfl, rfl, rfl, rfl, rfl, rfl⟩
  case sleep =>
    refine completes_enterState (target := .sleep) (fun _ _ => rfl) rfl fun s k t ht => ?_
    obtain ⟨hpower, hstate⟩ := enterState_sleep s (k.param 1)
    rw [ht]
    refine ⟨hstate, ?_⟩
    rw [hpower]
    exact ⟨rfl, rfl, rfl, rfl, rfl⟩
  case deep =>
    refine completes_enterState (target := .deep) (fun _ _ => rfl) rfl fun s k t ht => ?_
    have hflash : (deepState (leaveWork s) (k.param 1)).flash = s.flash := (Aside.leaveWork s).flash
    rw [ht]
    exact ⟨rfl, rfl, fun hm => if_neg (by simp [hm]), congrArg Flash.owner hflash⟩
  case off =>
    refine completes_enterState (target := .off) (fun _ _ => rfl) rfl fun s k t ht => ?_
    have hflash : (offState (leaveWork s)).flash = s.flash := (Aside.leaveWork s).flash
    rw [ht]
    exact ⟨rfl, rfl, rfl, congrArg Flash.owner hflash⟩

end Sys2Proof.Machine
end

section
/-! SUPPORT. Resets of the port and its functions (R370, R402; O30): a partition's reset, step by step, keeps apart from the host. -/

namespace Sys2Proof.Machine

namespace Aside

variable {s t u : State} {p a : Nat}

/-! ### What ends with a partition's work -/

theorem backInvalidate (h : Aside s t) : Aside s (backInvalidate t p a) :=
  .foldl (.modLine h fun _ hl => hl) fun _ _ => .emit

theorem dropLine (h : Aside s t) : Aside s (dropLine t p a) := .noteDead (.modLine (.dropL1s h) fun _ hl => hl)

theorem runDiscards (h : Aside s t) : Aside s (runDiscards t p) := by
  unfold Machine.runDiscards
  extract_lets as held
  split
  · exact h
  · split
    · exact .completeAll (.foldl h fun _ _ => .dropLine)
    · exact .foldl h fun _ _ => .backInvalidate

theorem discardLine (h : Aside s t) : Aside s (discardLine t p a) := by
  unfold Machine.discardLine
  extract_lets u
  have hu : Aside s u := .forgetReads h
  split
  · exact .modLine (.dropL1s hu) fun _ hl => hl
  · exact .modLine hu fun _ hl => hl
  · split
    · exact .modLine (.dropL1s hu) fun _ hl => hl
    · split
      · exact .downOwner hu
      · exact .foldl hu fun _ _ => .dropL1

theorem rebuildLedger {as : List Nat} (h : Aside s t) : Aside s (rebuildLedger t p as) :=
  .foldl h fun _ _ ht => .foldl ht fun _ _ hu => .modLine (.markStaged hu) fun _ hl => hl

theorem freeLedger {f : LedgerEntry → Bool} (h : Aside s t) : Aside s (freeLedger t p f) := .foldl h fun _ _ => .modStall

theorem discardLines (h : Aside s t) : Aside s (discardLines t p) := .rebuildLedger (.foldl h fun _ _ => .discardLine)

theorem fillPinned (h : Aside s t) : Aside s (fillPinned t p a) := by
  unfold Machine.fillPinned
  extract_lets l
  split
  · exact .tallyAdd (.modLine (.makeRoom h) fun _ hl => hl)
  · exact h

theorem pinLine (h : Aside s t) : Aside s (pinLine t p a) := by
  unfold Machine.pinLine
  extract_lets u
  have hu : Aside s u := .modLine h fun _ hl => hl
  split
  · exact .fillPinned (.askMemory hu)
  · exact .toSets hu

theorem moveLedger {l : List Nat} (h : Aside s t) : Aside s (moveLedger t p l) := by
  refine .foldl (.foldl h fun _ _ => .modStall) fun t e ht => ?_
  split
  · exact ht
  · exact .modStall ht

theorem rehome (h : Aside s t) : Aside s (rehome t p) := by
  unfold Machine.rehome
  extract_lets old staged u v w
  have hv : Aside s v := .modPart (.flushCache h) fun _ _ hl => hl
  have hw : Aside s w := by
    refine .foldl hv fun t a ht => ?_
    split
    · exact .pinLine ht
    · exact ht
  exact .rebuildLedger (.moveLedger hw)

/-! ### Logs, links and sessions -/

theorem chkLog {r : ChkRecord} (h : Aside s t) : Aside s (chkLog t r) := .of_same h ⟨rfl, rfl, rfl, rfl, rfl, rfl⟩

theorem tracePut {bs : List Byte} (h : Aside s t) : Aside s (tracePut t bs) := .of_same h ⟨rfl, rfl, rfl, rfl, rfl, rfl⟩

theorem trace {type where' code tick : Nat} {q : Option Nat} {data : List Byte} (h : Aside s t) :
    Aside s (trace t type q where' code tick data) := by
  unfold Machine.trace
  split
  · split
    · exact .tracePut h
    · split
      · exact .tracePut h
      · exact h
  · exact h

theorem logCorrected {detail : Nat} {stall : Option Nat} (h : Aside s t) : Aside s (logCorrected t p detail stall) :=
  .chkLog (.modPart h fun _ _ hl => hl)

theorem logContained {detail : Nat} {stall : Option Nat} (h : Aside s t) : Aside s (logContained t p detail stall) := by
  unfold Machine.logContained
  exact .trace (.chkLog h)

theorem sendAbandon (h : Aside s t) : Aside s (sendAbandon t p) := by
  unfold Machine.sendAbandon
  split
  · refine .foldl h fun t j ht => ?_
    unfold sendSymbol
    split
    · exact .modPort ht
    · exact ht
  · exact h

theorem abortQueues {detail : Nat} (h : Aside s t) : Aside s (abortQueues t p detail) :=
  .foldl h fun _ _ ht => .modPart ht fun _ _ hl => hl

theorem sesWrite {i : Nat} {bs : List Byte} (h : Aside s t) : Aside s (sesWrite t p i bs) :=
  .of_same h ⟨rfl, rfl, rfl, rfl, rfl, rfl⟩

theorem sesUse {i : Nat} (h : Aside s t) : Aside s (sesUse t p i).1 := by
  unfold Machine.sesUse
  extract_lets e
  split
  · exact h
  · next c _ =>
    extract_lets e' u
    have hu : Aside s u := .logCorrected (.sesWrite h)
    exact .of_same hu ⟨rfl, rfl, rfl, rfl, rfl, rfl⟩
  · unfold sesFail sesNote
    exact .partEvent (.sesWrite (.logContained h))

theorem unrunSession {i : Nat} (h : Aside s t) : Aside s (unrunSession t p i) := by
  unfold Machine.unrunSession
  split
  · exact .completeAll (.sesWrite h)
  · have hu : Aside s (Machine.sesUse t p i).1 := .sesUse h
    generalize Machine.sesUse t p i = r at hu ⊢
    obtain ⟨u, e⟩ := r
    cases e with
    | none => exact hu
    | some e =>
      dsimp only
      split
      · exact .sesWrite hu
      · exact hu

theorem unrunBatch (h : Aside s t) : Aside s (unrunBatch t p) :=
  .modPart (.foldl h fun _ _ => .unrunSession) fun _ _ hl => hl

/-! ### The end of a job -/

theorem emptyEngines (h : Aside s t) : Aside s (emptyEngines t p) := .foldl h fun _ _ => .modStall

theorem applyBoost (h : Aside s t) : Aside s (applyBoost t p) := by
  unfold Machine.applyBoost
  split
  · exact h
  · exact .modPart h fun _ _ hl => hl

theorem setLog {host : Bool} {l : Option DirtyLog} (h : Aside s t) : Aside s (setLog t p host l) :=
  .modPart h fun q _ hl => by split <;> exact hl

theorem flushLog {l : DirtyLog} (h : Aside s t) : Aside s (flushLog t l) := .foldl h fun _ _ => .emit

theorem collectLog {host : Bool} {bitmap : Nat} (h : Aside s t) : Aside s (collectLog t p host bitmap) := by
  unfold Machine.collectLog
  split
  · exact h
  · exact .setLog (.flushLog h)

theorem stopLog {host : Bool} (h : Aside s t) : Aside s (stopLog t p host) := by
  unfold Machine.stopLog
  split
  · exact h
  · exact .setLog (.flushLog h)

theorem settleLogs (h : Aside s t) : Aside s (settleLogs t p) := by
  unfold Machine.settleLogs
  split
  · exact h
  · refine .completeAll (.foldl h fun t o ht => ?_)
    split
    · exact .collectLog ht
    · exact .stopLog ht
    · exact ht

theorem gateStalls (h : Aside s t) : Aside s (gateStalls t p) := .foldl h fun _ _ => .modStall

theorem stopJob {detail : Nat} (h : Aside s t) : Aside s (stopJob t p detail) := by
  unfold Machine.stopJob
  extract_lets t1 t2 t3 t4 t5 t6 t7
  have h1 : Aside s t1 := .emptyEngines (.of_same (.unrunBatch h) ⟨rfl, rfl, rfl, rfl, rfl, rfl⟩)
  have h2 : Aside s t2 := by
    unfold t2
    split
    · exact .rehome h1
    · exact h1
  have h4 : Aside s t4 := .modPart (.abortQueues h2) fun _ _ hl => hl
  exact .runDiscards (.completeAll (.completeAll (.settleLogs (.gateStalls (.applyBoost h4)))))

/-! ### A partition's reset -/

theorem beginReset (h : Aside s t) : Aside s (beginReset t p) := by
  unfold Machine.beginReset
  extract_lets t1 t2 t3 t4 t5 t6 t7 t8
  have h1 : Aside s t1 := .modPart h fun _ _ hl => hl
  have h2 : Aside s t2 := by
    unfold t2
    split
    · exact .sendAbandon h1
    · exact h1
  have h5 : Aside s t5 := .stopJob (.freeLedger (.discardLines h2))
  have h6 : Aside s t6 := .completeAll h5
  have h7 : Aside s t7 := .modPart h6 fun _ _ hl => hl
  have h8 : Aside s t8 := .modFn h7
  clear_value t8
  exact .of_same h8 ⟨rfl, rfl, rfl, rfl, rfl, rfl⟩

theorem mem_of {mem : List Host.Cell} {clean : Nat} (h : Aside s t) : Aside s { t with mem := mem, clean := clean } :=
  .of_same h ⟨rfl, rfl, rfl, rfl, rfl, rfl⟩

theorem scrubMemory (h : Aside s t) : Aside s (scrubMemory t p) := by
  unfold Machine.scrubMemory
  exact .foldl h fun _ _ ht => .mem_of ht

theorem scrubSpads (h : Aside s t) : Aside s (scrubSpads t p) := by
  unfold Machine.scrubSpads
  refine .foldl h fun t i ht => ?_
  exact .of_same ht ⟨rfl, rfl, rfl, rfl, rfl, rfl⟩

theorem scrubSessions {base count : Nat} (h : Aside s t) : Aside s (scrubSessions t base count) := .mem_of h

theorem wipeCache (h : Aside s t) : Aside s (wipeCache t p) := by
  unfold Machine.wipeCache
  extract_lets u
  have hu : Aside s u := .foldl h fun _ _ => .dropL1s
  clear_value u
  exact .dropAccesses (.modPart hu fun _ _ _ => hostLine_default)

theorem scrub (h : Aside s t) : Aside s (scrub t p) := by
  unfold Machine.scrub
  extract_lets t1 t2 t3 t4
  have h1 : Aside s t1 := .dropEvidence (.purgeKeys h)
  clear_value t1
  have h2 : Aside s t2 := .scrubSessions (.scrubSpads (.wipeCache (.scrubMemory h1)))
  clear_value t2
  have h3 : Aside s t3 := .modPart h2 fun _ _ _ => hostLine_default
  clear_value t3
  have h4 : Aside s t4 := .foldl h3 fun _ _ => .modStall
  clear_value t4
  exact h4.trans {
    flash := rfl
    perst := rfl
    fetch := List.filter_subset_self _
    commit := List.Subset.refl _
    ports := fun o ho => ⟨o, ho, rfl⟩
    lines := fun _ _ hl => hl }

theorem release (h : Aside s t) : Aside s (release t p) := by
  unfold Machine.release
  extract_lets r stalls t1 t2
  have h1 : Aside s t1 := h.trans {
    flash := rfl
    perst := rfl
    fetch := List.Subset.refl _
    commit := List.Subset.refl _
    ports := fun o ho => ⟨o, ho, rfl⟩
    lines := fun q a hl => by
      by_cases hq : q = p
      · rw [State.line, State.part, hq, tget_tdel_same]
        exact hostLine_default
      · rw [State.line, State.part, tget_tdel_other hq]
        exact hl }
  have h2 : Aside s t2 := .foldl h1 fun _ _ => .modStall
  refine .foldl h2 fun t e ht => ?_
  split
  · exact .of_same ht ⟨rfl, rfl, rfl, rfl, rfl, rfl⟩
  · exact ht



/-! ### Requests of the host at a scrubbed cache -/

theorem missed {ag : Agent} (h : Aside s t) : Aside s (missed t p a ag).1 := by
  unfold Machine.missed
  split
  · exact h
  · split
    · exact .of_same h ⟨rfl, rfl, rfl, rfl, rfl, rfl⟩
    · exact .modPart h fun _ _ hl => hl

theorem toBuffer (h : Aside s t) : Aside s (toBuffer t p a) := by
  unfold Machine.toBuffer
  split
  · exact h
  · extract_lets bs here gone u v
    have hu : Aside s u := .modPart h fun _ _ hl => hl
    have hv : Aside s v := .foldl hu fun _ _ ht => .modLine (.tallyAdd ht) fun _ hl => hl
    exact .modLine hv fun _ hl => hl

theorem access {ag : Agent} {own : Nat} {fill : MissFill} (h : Aside s t) : Aside s (access t p a ag own fill) := by
  unfold Machine.access
  extract_lets l cls u
  split
  · exact .tallyAdd (.tallyAdd h)
  · split
    · have hu : Aside s u := .tallyAdd (.tallyAdd h)
      split
      · exact .toBuffer hu
      · exact hu
    · split
      · exact .tallyAdd h
      · have hm : Aside s (Machine.missed t p a ag).1 := .missed h
        generalize Machine.missed t p a ag = r at hm ⊢
        obtain ⟨v, inStream⟩ := r
        dsimp only at hm ⊢
        split
        · exact .toBuffer (.modLine (.tallyAdd (.tallyAdd hm)) fun _ hl => hl)
        · split
          · exact .modLine (.makeRoom (.tallyAdd (.tallyAdd hm))) fun _ hl => hl
          · exact .tallyAdd (.tallyAdd hm)

theorem writeCommitted {cells : List Host.Cell} (h : Aside s t) : Aside s (writeCommitted t p a cells) := by
  unfold Machine.writeCommitted
  extract_lets u v w x
  have hv : Aside s v := .toSets (.forgetReads (.dropL1s (.noteTables h)))
  have hw : Aside s w := by
    unfold w
    split
    · exact .makeRoom hv
    · exact hv
  have hx : Aside s x := by
    unfold x
    split
    · exact .writeLine (.modLine hw fun _ hl => hl)
    · exact .modLine hw fun _ hl => hl
  exact .logDevice (.unDead hx)

theorem queueItem {type : Nat} {i : Item} (h : Aside s t) : Aside s (queueItem t type i) := by
  unfold Machine.queueItem
  extract_lets ps
  split
  · exact h
  · exact .modPort h

theorem askRemote (h : Aside s t) : Aside s (askRemote t p a) := by
  unfold Machine.askRemote
  split
  · exact .modLine (.queueItem (.modPart h fun _ _ hl => hl)) fun _ hl => hl
  · exact h

theorem askFor {r : HomeRequest} (h : Aside s t) : Aside s (askFor t p a r) := .askMemory h

theorem askWindow (h : Aside s t) : Aside s (askWindow t p a) := .foldl h fun _ _ => .askFor

theorem lineFree (h : Aside s t) : Aside s (lineFree t p) := by
  unfold Machine.lineFree
  split
  · exact h
  · exact .runDiscards h

/-- A MemRd is answered; a MemWr is performed, or refused at the held image (R233, R234). -/
theorem finish {r : HomeRequest} (h : Aside s t) (hr : fromHost r = true) : Aside s (finish t p a r []) := by
  cases r with
  | memRd addr grant =>
    unfold Machine.finish
    dsimp only
    split
    · exact .modLine (.emit h) fun _ hl => hl
    · exact .emit h
  | memWr addr data =>
    unfold Machine.finish
    dsimp only
    split
    · exact .emit h
    · exact .emit (.writeCommitted h)
  | _ => exact nomatch hr

/-- At a line that no L1 holds a request of the host waits for no holder, and ends at once. -/
theorem beginRequest {r : HomeRequest} (h : Aside s t) (hl : HostLine (t.line p a)) (hr : fromHost r = true) :
    Aside s (beginRequest t p a r) := by
  unfold Machine.beginRequest
  extract_lets u snoops host
  have htu : Aside t u := .access (.refl t)
  have hsnoops : snoops = [] := by
    obtain ⟨hf, -⟩ := htu.lines p a hl
    unfold snoops
    rw [hf, List.filterMap_nil]
  have hhost : host = false := by
    unfold host needsHost
    cases r with
    | memRd | memWr => exact Bool.and_false _
    | _ => exact nomatch hr
  rw [if_pos (by simp [hsnoops, hhost])]
  exact .spendRead (.finish (h.trans htu) hr)

end Aside

/-- A line of a scrubbed cache has nothing wrong that a look-up could find (R239). -/
theorem lookUp_hostLine {s : State} {p a : Nat} (hl : HostLine (s.line p a)) : lookUp s p a = s := by
  obtain ⟨hf, hodd, -⟩ := hl
  unfold lookUp
  split
  · rfl
  · simp [hf, hodd]

namespace Aside

variable {s t u : State} {p a : Nat}

theorem homeNext {n : Nat} (h : Aside s t) (hl : HostLine (t.line p a)) : Aside s (homeNext t p a n) := by
  induction n generalizing t with
  | zero => exact h
  | succ n ih =>
    unfold Machine.homeNext
    simp only [lookUp_hostLine hl]
    split
    · exact h
    · split
      · exact h
      · next r hnext =>
        obtain ⟨hf, hodd, hwait, hwin⟩ := hl
        have hr : fromHost r = true := hwait r (List.mem_of_find?_eq_some hnext)
        split
        · have hu : Aside t (t.modLine p a (fun l => { l with waiting := l.waiting.erase r })) :=
            .modLine (.refl t) fun _ ⟨hf, hodd, hwait, hwin⟩ =>
              ⟨hf, hodd, fun x hx => hwait x (List.mem_of_mem_erase hx), hwin⟩
          have hlu := hu.lines p a ⟨hf, hodd, hwait, hwin⟩
          have hb : Aside _ _ := .beginRequest (.refl _) hlu hr
          exact ih (h.trans (hu.trans hb)) (hb.lines p a hlu)
        · exact .askFor h

theorem serveLine (h : Aside s t) (hl : HostLine (t.line p a)) : Aside s (serveLine t p a) := .homeNext h hl

/-- Requests of the host come to a line. -/
theorem modLine_waiting {f : List HomeRequest → List HomeRequest} (h : Aside s t)
    (hf : ∀ l, (∀ r ∈ l, fromHost r = true) → ∀ r ∈ f l, fromHost r = true) :
    Aside s (t.modLine p a (fun l => { l with waiting := f l.waiting })) :=
  .modLine h fun _ ⟨hfilter, hodd, hwait, hwin⟩ => ⟨hfilter, hodd, hf _ hwait, hwin⟩

theorem deliverWindow (h : Aside s t) (hl : HostLine (t.line p a)) : Aside s (deliverWindow t p a) := by
  unfold Machine.deliverWindow
  extract_lets rs u v many w
  have hrs : ∀ r ∈ rs, fromHost r = true := by
    obtain ⟨-, -, -, hwin⟩ := hl
    exact hwin
  clear_value rs
  have hu : Aside t u := .modLine (.refl t) fun _ ⟨hf, hodd, hwait, _⟩ => ⟨hf, hodd, hwait, List.forall_mem_nil _⟩
  have hv : Aside t v := by
    unfold v
    split
    · exact hu
    · exact .access hu
  have hw : Aside t w := by
    refine List.foldlRecOn (motive := Aside t) rs _ hv fun x hx r hr => ?_
    have hhost := hrs r hr
    cases r with
    | memRd | memWr => exact .finish hx hhost
    | _ => exact nomatch hhost
  have hsp : Aside t (Machine.spendRead w p a) := .spendRead hw
  exact h.trans (.lineFree (.serveLine hsp (hsp.lines p a hl)))

theorem serveWindow (h : Aside s t) (hl : HostLine (t.line p a)) : Aside s (serveWindow t p a) := by
  unfold Machine.serveWindow
  extract_lets rs
  split
  · exact h
  · split
    · exact .deliverWindow h hl
    · exact .askWindow h

theorem closeWindow (h : Aside s t) (hl : HostLine (t.line p a)) : Aside s (closeWindow t p a) := by
  have hu : Aside t (t.modLine p a (fun l => { l with windowOpen := false })) := .modLine (.refl t) fun _ hl => hl
  exact .serveWindow (h.trans hu) (hu.lines p a hl)

theorem arrive {r : HomeRequest} (h : Aside s t) (hl : HostLine (t.line p a)) (hr : fromHost r = true) :
    Aside s (arrive t p a r) := by
  have hone : ∀ x ∈ [r], fromHost x = true := by simpa using hr
  have happend : ∀ l : List HomeRequest, (∀ x ∈ l, fromHost x = true) → ∀ x ∈ l ++ [r], fromHost x = true :=
    fun l hall x hx => (List.mem_append.1 hx).elim (hall x) (hone x)
  unfold Machine.arrive
  rw [lookUp_hostLine hl]
  split
  · exact h
  · extract_lets _ v l
    have hv : Aside t v := by
      unfold v
      split
      · exact .askRemote (.refl t)
      · exact .refl t
    have hlv := hv.lines p a hl
    have hwait {f : List HomeRequest → List HomeRequest}
        (hf : ∀ l, (∀ r ∈ l, fromHost r = true) → ∀ r ∈ f l, fromHost r = true) :
        Aside t (v.modLine p a (fun l => { l with waiting := f l.waiting })) := .modLine_waiting hv hf
    refine h.trans ?_
    clear_value v
    split
    · split
      · exact .askWindow (.modLine (.missed (.tallyAdd hv)) fun _ ⟨hf, hodd, hwait, hwin⟩ =>
          ⟨hf, hodd, hwait, happend _ hwin⟩)
      · exact .closeWindow (hwait happend) ((hwait happend).lines p a hl)
    · split
      · exact .serveLine (hwait happend) ((hwait happend).lines p a hl)
      · split
        · exact .askWindow (.modLine hv fun _ ⟨hf, hodd, hwait, _⟩ => ⟨hf, hodd, hwait, hone⟩)
        · have hset := hwait (f := fun _ => [r]) fun _ _ => hone
          exact .serveLine hset (hset.lines p a hl)

end Aside

/-! ## Resets -/

/-- A scrub leaves the partition's cache empty (Table PTN-8). -/
theorem scrub_hostLine (s : State) (p a : Nat) : HostLine ((scrub s p).line p a) := by
  unfold scrub
  extract_lets t1 t2 t3 t4
  have h4 : t4.part p = t3.part p := (foldl_modStall_stallsOnly _ _ t3).part p
  show HostLine (tget (t4.part p).cache.lines a)
  rw [h4, part_modPart_same]
  exact hostLine_default

theorem hostWaiters_fromHost {s : State} {p : Nat} {w : Nat × HomeRequest} (h : w ∈ hostWaiters s p) : fromHost w.2 = true := by
  obtain ⟨e, -, h⟩ := List.mem_flatMap.1 h
  obtain ⟨r, hr, rfl⟩ := List.mem_map.1 h
  obtain ⟨-, hr⟩ := List.mem_filter.1 hr
  cases r with
  | memRd | memWr => rfl
  | _ => exact nomatch hr

namespace Aside

variable {s t : State} {p : Nat}

theorem finishReset (h : Aside s t) : Aside s (finishReset t p) := by
  unfold Machine.finishReset
  extract_lets waiters u v w
  have hu : Aside s u := .scrub h
  have hclean : ∀ a, HostLine (u.line p a) := scrub_hostLine t p
  have huv : Aside u v := by
    refine List.foldlRecOn (motive := Aside u) waiters _ (.refl u) fun x hx r hr => ?_
    exact .arrive hx (hx.lines p _ (hclean _)) (hostWaiters_fromHost hr)
  have hw : Aside s w := .completeAll (hu.trans huv)
  split
  · exact .completeAll (.release hw)
  · exact hw

theorem continueReset (h : Aside s t) : Aside s (continueReset t p) := by
  unfold Machine.continueReset
  split
  · exact .finishReset h
  · exact h

theorem resetPart (h : Aside s t) : Aside s (resetPart t p) := by
  unfold Machine.resetPart
  split
  · exact h
  · exact .continueReset (.beginReset h)

end Aside

/-! ## The host port -/

/-- The state with the host's side of every transfer and packet gone, as PERST_N asserted leaves it (R402). -/
def hostGone (s : State) : State :=
  let s := { s with perst := true, hostFetch := [], hostCommit := [], hostRate := 0, hostWidth := 0 }
  let s := (partsOf s).foldl (fun s p =>
    s.modPart p (fun q => { q with ioOut := 0, stores := q.stores.filter (fun e => e.target ≠ 2) })) s
  { s with
    fns := []
    outstanding := s.outstanding.filter (fun o => match o.replyTo.port with | .host _ => false | .mgmt _ => true) }

/-- Every partition's reset begun, its job's end logged as contained (R316, R402). -/
def partsReset (s : State) : State :=
  (partsOf s).foldl (fun s p => resetPart (if (s.part p).job.running then logContained s p 0 none else s) p) s

theorem exec_perstNAssert (s : State) : exec .perstNAssert s = .next (settleResets { partsReset (hostGone s) with
    parts := (partsReset (hostGone s)).parts.map (fun q => (q.1, { q.2 with hwin := [] })), fns := [] }) := rfl

theorem partsReset_aside (s : State) : Aside s (partsReset s) := by
  refine .foldl (.refl s) fun t p ht => .resetPart ?_
  split
  · exact .logContained ht
  · exact ht

theorem hostGone_parts (s : State) : hostGone s = { s with
    perst := true, hostFetch := [], hostCommit := [], hostRate := 0, hostWidth := 0, parts := (hostGone s).parts, fns := []
    outstanding := s.outstanding.filter (fun o => match o.replyTo.port with | .host _ => false | .mgmt _ => true) } := by
  unfold hostGone
  extract_lets t u
  have hu : PartsOnly t u := foldl_modPart_partsOnly _ (partsOf t) t
  rw [hu]

/-- No partition has a window entry once all are cleared. -/
theorem tget_hwin_cleared (t : Tbl Part) (p : Nat) :
    (tget (t.map (fun (q : Nat × Part) => (q.1, { q.2 with hwin := [] }))) p).hwin = [] := by
  induction t with
  | nil => rfl
  | cons e r ih =>
    obtain ⟨k, q⟩ := e
    rw [List.map_cons, tget]
    split
    · rfl
    · exact ih

theorem dropPackets_ports (s : State) (fn : Fin 65) : ∀ o ∈ (dropPackets s fn).outstanding, o.replyTo.port ≠ .host fn :=
  fun _ ho => of_decide_eq_true (List.mem_filter.1 ho).2

/-- A device that runs and whose port has its clocks takes configuration requests (R370). -/
theorem exec_configurationRequest {s : State} {fn : Fin 65} {write : Bool} {register : BitVec 12} {value : W32}
    (hp : s.perst = false) (hh : s.power.halted = false) (ht : s.power.tripped = false) (hc : s.power.coolantStop = false)
    (hr : s.power.state = .run) : exec (.configurationRequest fn write register value) s = .next (
      if !s.boot.reached || (partsOf s).any (fun p => (s.part p).state == .resetting && cxlBusy s p) then s.emit .retryStatus
      else if write then
        (s.modFn fn (fun f => { f with config := tset f.config (register.toNat / 4) value })).emit (.configCompletion 0)
      else match tget? (s.fn fn).config (register.toNat / 4) with
        | some v => s.emit (.configCompletion v)
        | none => s.draw.2.emit (.configCompletion ((Config.freeValue s.draw.1).setWidth 32))) := by
  have hdark : (s.perst || s.power.halted || s.power.tripped || s.power.coolantStop || s.power.state == .deep ||
      s.power.state == .off) = false := by
    rw [hp, hh, ht, hc, hr]
    rfl
  change execConfigurationRequest fn write register value s = _
  rw [execConfigurationRequest]
  simp only [hdark, Bool.false_eq_true, if_false, wakeBy_awake hr] <;> rfl

/-- The state with PF0 reset and every partition's host-space log stopped (R402). -/
def pf0Reset (s : State) : State :=
  (partsOf s).foldl (fun s p => s.modPart p (fun q => { q with logHost := none }))
    { dropPackets s 0 with fns := tdel s.fns 0 }

/-- The rate and width that the port trains to are those of R369 and R370. -/
theorem trainHost_frame (s : State) : (let t := trainHost s
    (t.hostRate = 64 ∨ t.hostRate = 32 ∨ t.hostRate = 16 ∨ t.hostRate = 8) ∧
      (t.hostWidth = 16 ∨ t.hostWidth = 8 ∨ t.hostWidth = 4) ∧
      t = { s with hostRate := t.hostRate, hostWidth := t.hostWidth, fresh := t.fresh }) := by
  have hrate (v : Nat) (h : v < 4) : [64, 32, 16, 8].getD v 64 ∈ [64, 32, 16, 8] := by
    rw [List.getD_eq_getElem _ _ h]
    exact List.getElem_mem _
  have hwidth (v : Nat) (h : v < 3) : [16, 8, 4].getD v 16 ∈ [16, 8, 4] := by
    rw [List.getD_eq_getElem _ _ h]
    exact List.getElem_mem _
  have hr : (trainHost s).hostRate ∈ [64, 32, 16, 8] := hrate _ (Nat.mod_lt _ (by decide))
  have hw : (trainHost s).hostWidth ∈ [16, 8, 4] := hwidth _ (Nat.mod_lt _ (by decide))
  simp only [List.mem_cons, List.not_mem_nil, or_false] at hr hw
  exact ⟨hr, hw, rfl⟩

/-- Settles O30: the configuration space, the two function resets, and PERST_N, whose resets keep apart from the host. -/
theorem functionsAndHostPortReset : Obligations.FunctionsAndHostPortReset := by
  refine ⟨?config, ?vf, ?pf0, ?assert, ?release⟩
  case config =>
    intro fn write register value s hp hh ht hc hr
    have hx := exec_configurationRequest (fn := fn) (write := write) (register := register) (value := value) hp hh ht hc hr
    refine ⟨fun hb => ?_, fun hb hparts => ⟨fun hw => ⟨_, hx, ?_⟩, fun v hw hv => ?_⟩⟩
    · rw [hx, hb]
      rfl
    · have hno : ¬((!s.boot.reached || (partsOf s).any (fun p => (s.part p).state == .resetting && cxlBusy s p)) = true) := by
        simp [hb, hparts]
      rw [if_neg hno, if_pos hw]
      refine ⟨rfl, ?_, rfl⟩
      rw [fn_emit, fn_modFn_same]
      exact tget?_tset_same
    · have hno : ¬((!s.boot.reached || (partsOf s).any (fun p => (s.part p).state == .resetting && cxlBusy s p)) = true) := by
        simp [hb, hparts]
      rw [hx, if_neg hno, if_neg (ne_true_of_eq_false hw), hv]
  case vf =>
    refine fun p => onHost (fun _ => rfl) fun s _ => ?_
    refine ⟨{ dropPackets s p.succ with fns := tdel s.fns p.succ }, rfl, ?_, dropPackets_ports s p.succ, fun g hg => ?_, rfl⟩
    · exact tget_tdel_same
    · exact tget_tdel_other hg
  case pf0 =>
    refine onHost (fun _ => rfl) fun s _ => ?_
    have hframe : PartsOnly { dropPackets s 0 with fns := tdel s.fns 0 } (pf0Reset s) :=
      foldl_modPart_partsOnly _ (partsOf s) _
    refine ⟨?_, ?_, fun g hg => ?_, fun o ho => dropPackets_ports s 0 o ?_, fun p hp => ?_⟩
    case refine_5 => exact (part_foldl_modPart _ (partsOf_nodup s) _ p).trans (if_pos hp)
    case refine_1 =>
      change pf0Reset s = { s with
        fns := (pf0Reset s).fns, outstanding := (pf0Reset s).outstanding, parts := (pf0Reset s).parts }
      rw [hframe]
      rfl
    case refine_2 => exact (congrArg (fun s => s.fn 0) hframe).trans tget_tdel_same
    case refine_3 => exact (congrArg (fun s => s.fn g) hframe).trans (tget_tdel_other hg)
    case refine_4 => exact congrArg State.outstanding hframe ▸ ho
  case assert =>
    intro s
    have h := partsReset_aside (hostGone s)
    have hg := hostGone_parts s
    refine ⟨_, exec_perstNAssert s, ?_, fun fn => rfl, fun p r => ?_, ?_, ?_, fun o ho => ?_⟩
    · rw [h.perst, hg]
    · rw [State.part, tget_hwin_cleared]
      rfl
    · exact List.subset_nil.1 (hg ▸ h.fetch)
    · exact List.subset_nil.1 (hg ▸ h.commit)
    · obtain ⟨o', ho', hport⟩ := h.ports o ho
      rw [hg] at ho'
      obtain ⟨-, hkeep⟩ := List.mem_filter.1 ho'
      rw [← hport]
      cases hp : o'.replyTo.port with
      | host fn => simp [hp] at hkeep
      | mgmt n => exact ⟨n, rfl⟩
  case release =>
    intro s
    refine ⟨fun hp => ?_, fun hp => congrArg Host.Outcome.next (if_neg (ne_true_of_eq_false hp))⟩
    obtain ⟨hrate, hwidth, hframe⟩ := trainHost_frame { s with perst := false }
    exact ⟨_, congrArg Host.Outcome.next (if_pos hp), congrArg State.perst hframe, hrate, hwidth, hframe⟩

end Sys2Proof.Machine
end

section
/-! SUPPORT. The data port over a scratchpad that is not in canonical form (R398, R399; O29). -/

namespace Sys2Proof.Machine

/-- A device that runs, in which page 0 of partition 0 leads to the scratchpad of stall 0 and DP_ADDR of VF 1 is 0. Byte 0
of that scratchpad is listed twice: as 1, and behind it as 2. -/
def listedTwice : State := { State.reset with
  perst := false
  boot := { stage := .ready, reached := true, due := none }
  power := { halted := false }
  parts := [(0, {
    present := true, state := .idle
    record := { stalls := 1, mem := 1, root := 0x1000 }
    cache := { sliceList := [0] } })]
  mem := [(0x1000, 0x01), (0x1001, 0x20), (0x2000, 0x01), (0x2001, 0x30), (0x3000, 0x07), (0x3005, 0x08)]
  spad := [(0, 1), (0, 2)] }

/-- What the device is after a DATA_PORT_WRITE of one byte, 0. -/
def listedTwiceWritten : State :=
  hostAsks listedTwice fun s =>
    dpArrive (dpAdvance (s.modFn 1 fun f => { f with dpWrites := f.dpWrites + 1 }) 0 1) 0 (.write (s.fn 1).dpAddr.toNat [some 0])

theorem exec_dataPortWrite_listedTwice : exec (.dataPortWrite 0 [some 0]) listedTwice = .next listedTwiceWritten := rfl

theorem hostUp_listedTwice : hostUp listedTwice = true := by decide

theorem wakeBy_listedTwice : wakeBy listedTwice 1 = listedTwice := rfl

/-- The device meets what the clause of scratchpad writes asks of it. -/
theorem dpReach_listedTwice : dpReach listedTwice 0 0 true = .ok spadBase := rfl

/-- The write of 0 takes the first entry of the byte from the list, and the second is read from then on. -/
theorem mread_listedTwiceWritten : mread listedTwiceWritten.spad 0 = 2 := by decide

/-- Refutes O29: a DATA_PORT_WRITE of 0 to a byte that the list of the scratchpads holds twice takes its first entry away,
and the byte then reads as the second. Unlike O4, the clause of scratchpad writes does not ask for canonical memories; no
canonical one lists a byte twice. -/
theorem not_dataPortMovesBytesAtItsAddress : ¬ Obligations.DataPortMovesBytesAtItsAddress := by
  unfold Obligations.DataPortMovesBytesAtItsAddress
  rintro ⟨-, -, -, -, -, -, -, -, -, -, -, hspad, -⟩
  obtain ⟨t, hexec, -, -, -, hstored⟩ := hspad 0 [some 0] 0 0 (by decide) (by decide) listedTwice hostUp_listedTwice (by
    rw [wakeBy_listedTwice]
    exact ⟨by decide, by decide, by decide, by decide, spadBase, dpReach_listedTwice, by decide, by decide⟩)
  obtain rfl : listedTwiceWritten = t := by
    rw [exec_dataPortWrite_listedTwice] at hexec
    exact Host.Outcome.next.inj hexec
  have hone := hstored 0 0 (by decide) fun l hl hlt => absurd (Nat.lt_one_iff.1 hlt) hl
  exact absurd (mread_listedTwiceWritten.symm.trans hone) (by decide)

end Sys2Proof.Machine
end
